-- ==== Sys2Proof/Word.lean ====
section
/-!
DEFINITION. The word types of the JY2048 and the plainest operations on them: bytes, 32-bit register
words, 64-bit A64 codewords, and the Pool row (512 data bytes with its 16-byte sidecar).
-/

namespace Sys2Proof

/-- One byte. -/
abbrev Byte := BitVec 8

/-- One 32-bit management register word (17_register_map R529). -/
abbrev Word := BitVec 32

/-- One 64-bit quantity: an A64 word (R50), a global data address (R35), a counter value (R310). -/
abbrev Quad := BitVec 64

/-- A Pool row: 512 data bytes (4,096 bits, byte 0 least significant) and its 16-byte sidecar (R46, R214). -/
structure Row where
  data : BitVec 4096
  side : BitVec 128
deriving DecidableEq, Repr

/-- The row every byte of which is 0. -/
def Row.zero : Row := { data := 0, side := 0 }

/-- One Flowstone tile row: 32 A64 words (R126), word 0 least significant. -/
abbrev TileRow := BitVec 2048

/-- A finite table in canonical form: keys strictly rising, no entry equal to the default value. -/
abbrev Store (α : Type) := List (Nat × α)

end Sys2Proof
end

