-- ==== Sys2Proof/Syntax.lean ====
section
/-!
DEFINITION. The commands of the part: one constructor of Instr for each row of spec/opcode_table.json, with the
row's operands, and the plain data the operands are made of (status codes, packets, observations of links).
-/

namespace Sys2Proof

/-- Status codes (R10). -/
inductive Status where
  | done | badValue | badState | noAccess | busy | fenced | absorbed | uncredited
  | timeout | broken | abandoned | poisoned | mappedOut | destDown | conflict | overrun
deriving DecidableEq, Repr

/-- The one-byte code of a status (R10). -/
def Status.code : Status → Nat
  | .done => 0 | .badValue => 1 | .badState => 2 | .noAccess => 3
  | .busy => 4 | .fenced => 5 | .absorbed => 6 | .uncredited => 7
  | .timeout => 8 | .broken => 9 | .abandoned => 10 | .poisoned => 11
  | .mappedOut => 12 | .destDown => 13 | .conflict => 14 | .overrun => 15

/-- Packet types by their header code (R279): WR 0, SIG 1, ACK 2, GRANT 3, REVOKE 4, BOUNCE 5, DEEP_RD 6,
DEEP_DATA 7, RD 8; others are reserved. -/
inductive PType where
  | wr | sig | ack | grant | revoke | bounce | deepRd | deepData | rd
  | other (code : Nat)
deriving DecidableEq, Repr

/-- A packet: its header fields (R279) and its row. `host` tells the host from logical core 0 of its die, which the
header codes alike; `dstDie` and `dstCore` name the interface a response goes to; `ring`, `count`, `base` and `size`
are the fields of a GRANT or REVOKE word; `poison` is the sideband poison mark of its data flits (R280). -/
structure Packet where
  addr : Quad
  srcDie : Nat
  srcCore : Nat
  host : Bool
  classT : Bool
  agent : Nat
  ptype : PType
  epoch : Nat
  tag : Nat
  row : Nat
  whole : Bool
  word : Quad
  data : Row
  poison : Bool
  dstDie : Nat
  dstCore : Nat
  ring : Nat
  count : Nat
  base : Nat
  size : Nat
deriving DecidableEq, Repr

/-- Where a packet arrives: from the Vein, or through the data bundle of a physical core. `errs` are the bits in which codewords of
its flits arrived wrong (R407, R411): codeword 8 × flit + w of the packet, flit 0 the header, and a 72-bit pattern of the wrong
bits. The packet given beside it is the one the receiver forms after correction. -/
inductive Port where
  | vein
  | sump (phys : Nat) (errs : List (Nat × Nat) := [])
deriving DecidableEq, Repr

/-- What goes wrong with one flit on a link of the Vein (R280): the wrong bits of its codewords, as (codeword, 72-bit pattern), and
whether its sideband parity fails. -/
structure FlitErr where
  words : List (Nat × Nat)
  parity : Bool
deriving DecidableEq, Repr

/-- A flit without errors. -/
def FlitErr.none : FlitErr := { words := [], parity := false }

/-- A foreground access of a command that meets another foreground access of its core in one bank and cycle:
the index of the access within the command, and the other party's engine and queue slot (R226, R228). -/
structure Meet where
  access : Nat
  engine : Nat
  slot : Nat
deriving DecidableEq, Repr

/-- A cell that computes wrong in a pass of a tile in check mode (R97, R99, R100): its physical row and column (0 to 32, R93) and
what it adds to its raw sum. In duplicate execution it is a cell whose word the two cores form differently. -/
structure CellFault where
  row : Nat
  col : Nat
  delta : Int
deriving DecidableEq, Repr

/-- What a receiver saw at one receiving position in training step IDENT (R413, R414): whether the position showed a transition,
and the 64 words received, each 32 UI with how often it came. -/
structure RxObs where
  toggled : Bool
  words : List (BitVec 32 × Nat)
deriving DecidableEq, Repr

/-- What training observes on one link: the three clock lanes judged good, the 68 receiving positions (positions not listed showed
no transition), and the step that has not ended within its limit, if any (R412). -/
structure LinkObs where
  clocks : List Bool
  positions : List RxObs
  overran : Option Nat
deriving DecidableEq, Repr

/-- What training of one bundle observes on its up link, and what the base decided of the down link. -/
structure TrainObs where
  up : LinkObs
  down : LinkObs
deriving DecidableEq, Repr

/-- An observation of nothing: no clock, no transition. -/
def TrainObs.none : TrainObs :=
  let l : LinkObs := { clocks := [false, false, false], positions := [], overran := Option.none }
  { up := l, down := l }

/-- What the 4,096 test flits of a Vein link in one direction showed (R483): the chip Gallery and router port that received them (0 +x,
1 −x, 2 +y, 3 −y), how many codewords needed correction, and how many were uncorrectable. -/
structure VeinObs where
  gal : Nat
  port : Nat
  fixed : Nat
  lost : Nat
deriving DecidableEq, Repr

/-- A REG_REQ message (R530): its sequence number (byte 1), op (byte 2), byte 3 with the hand bit, requester id, address and
data; whether bytes 6 and 7 and those past 15 are zero; the management bundle it came up. -/
structure RegReq where
  seq : Nat
  op : Nat
  hand : Nat
  requester : Nat
  addr : Nat
  data : Nat
  restZero : Bool
  bundle : Nat
deriving DecidableEq, Repr

/-- What an off-die slot's CHIMNEY_REL carries: a release with payloads, or a break with the die the base names
(R320, R322). -/
inductive RelMsg where
  | release (orp : Nat) (andp : Bool)
  | broken (die : Nat)
deriving DecidableEq, Repr

/-- Why a slot breaks, other than by a core reset that is part of RESET_EFFECT (R322). -/
inductive BreakCause where
  | lostCore
  | disabled
  | unserved
  | mgmtDown
deriving DecidableEq, Repr

/-- The part's commands and events: one constructor per row of spec/opcode_table.json, in the table's order. A `core`
operand is a logical core id, `phys` a physical core number, `gal` a chip Gallery, `cav` a Cavern, `q` a queue of R342,
`b` a bundle (0 to 2,175 data bundles by physical core, 2,176 to 2,183 management bundles). -/
inductive Instr where
  /-- POWER_UP (R461): rails, reference and POR_N. -/
  | powerUp
  /-- POWER_DOWN (R545): VDD_AON leaves its range. -/
  | powerDown
  /-- VDD_IN_LOW (R545): VDD_IN below 0.95 V. -/
  | vddInLow
  /-- VDD_SUMP_FAULT (R545): VDD_SUMP out of range. -/
  | vddSumpFault
  /-- ECHO_START (R467): CHIP_BOOT command. -/
  | echoStart
  /-- ECHO_RELOAD (R468): CHIP_BOOT command. -/
  | echoReload
  /-- APERTURE_WRITE (R480): aperture offset and word. -/
  | apertureWrite (off : Nat) (v : Word)
  /-- VERIFY (R479): CHIP_BOOT command. -/
  | verify
  /-- APPLY (R481): CHIP_BOOT command. -/
  | apply
  /-- CLOCK (R463): CHIP_BOOT command. -/
  | clock
  /-- POWER (R463): CHIP_BOOT command; the physical cores whose gate draws above its short limit (R425). -/
  | power (shorted : List Nat)
  /-- TRAIN (R463): CHIP_BOOT command; what each bundle's training observes. -/
  | train (obs : List (Nat × TrainObs))
  /-- TOPOLOGY (R485): CHIP_BOOT command; what the test flits of the Vein links showed (R483). -/
  | topology (obs : List VeinObs)
  /-- READY (R463): CHIP_BOOT command. -/
  | ready
  /-- STAGING_CLEAR (R480): CHIP_BOOT command CLEAR. -/
  | stagingClear
  /-- RELOAD (R486): CFG_RELOAD word. -/
  | reload (v : Word)
  /-- RELOAD_CANCEL (R486): CFG_RELOAD word with cancel. -/
  | reloadCancel (v : Word)
  /-- RESET_ASSERT (R493): CHIP_RESET word. -/
  | resetAssert (v : Word)
  /-- RESET_EFFECT (R490): the oldest assertion takes effect. -/
  | resetEffect
  /-- RESET_RELEASE (R489): CHIP_RESET word with release. -/
  | resetRelease (v : Word)
  /-- RESET_EXIT (R489): the oldest release ends. -/
  | resetExit
  /-- DIE_RESET_SELF_RELEASE (R489): the die reset releases itself. -/
  | dieResetSelfRelease
  /-- PEER_DOWN (R492): CHIP_PEER_DOWN word. -/
  | peerDown (v : Word)
  /-- REG_REQ (R531): the message. -/
  | regReq (m : RegReq)
  /-- REG_ACCESS (R533): whether Echo's code admits the requester for HAND (R532). -/
  | regAccess (policy : Bool)
  /-- DAY_RUN_START (R26): DAY_CTRL word. -/
  | dayRunStart (v : Word)
  /-- DAY_RUN_STOP (R24): DAY_CTRL word. -/
  | dayRunStop (v : Word)
  /-- FIRST_DAWN (R553): the first Dawn. -/
  | firstDawn
  /-- DUSK_MARK (R27): the management bundle on which the message arrives. -/
  | duskMark (bundle : Nat := 0)
  /-- LOCAL_DUSK (R27): the Day timer's own Dusk. -/
  | localDusk
  /-- DAYBREAK_END (R30): 64 M-cycles after Dawn. -/
  | daybreakEnd
  /-- TWILIGHT_BEGIN (R352): t reaches p − w. -/
  | twilightBegin
  /-- COMMAND_ROW_FETCH (R344): logical core and queue. -/
  | commandRowFetch (core q : Nat)
  /-- NOP (R350): logical core and queue. -/
  | nop (core q : Nat)
  /-- QUEUE_RESUME (R375): CORE_QSTATq word. -/
  | queueResume (core q : Nat) (v : Word)
  /-- PASS (R78): logical core. -/
  | pass (core : Nat)
  /-- PASS_ISSUE (R82): logical core; foreground meetings; the cell that computes wrong, if any (R97, R100). -/
  | passIssue (core : Nat) (meets : List Meet) (fault : Option CellFault)
  /-- ACTIVITY_RAMP_STEP (R91): logical core. -/
  | activityRampStep (core : Nat)
  /-- CHECK_MODE_WRITE (R101): CORE_TILE_CTRL word. -/
  | checkModeWrite (core : Nat) (v : Word)
  /-- GANG_ISSUE (R112): chip Gallery; foreground meetings, and cells that compute wrong, by member. -/
  | gangIssue (gal : Nat) (meets : List (Nat × List Meet)) (faults : List (Nat × CellFault))
  /-- GANG_TIMEOUT (R112): chip Gallery. -/
  | gangTimeout (gal : Nat)
  /-- DRAIN (R142): logical core. -/
  | drain (core : Nat)
  /-- DESC_SET (R154): logical core. -/
  | descSet (core : Nat)
  /-- RESCALE (R154): logical core. -/
  | rescale (core : Nat)
  /-- ZERO (R154): logical core. -/
  | zero (core : Nat)
  /-- OUTPUT_PATH_START (R140): logical core; foreground meetings. -/
  | outputPathStart (core : Nat) (meets : List Meet)
  /-- VEC_START (R171): logical core; foreground meetings. -/
  | vecStart (core : Nat) (meets : List Meet)
  /-- ADD (R173): logical core. -/
  | add (core : Nat)
  /-- SUB (R173): logical core. -/
  | sub (core : Nat)
  /-- MUL (R173): logical core. -/
  | mul (core : Nat)
  /-- MIN (R173): logical core. -/
  | min (core : Nat)
  /-- MAX (R173): logical core. -/
  | max (core : Nat)
  /-- CMPLT (R173): logical core. -/
  | cmplt (core : Nat)
  /-- CMPLE (R173): logical core. -/
  | cmple (core : Nat)
  /-- CMPEQ (R173): logical core. -/
  | cmpeq (core : Nat)
  /-- SEL (R175): logical core. -/
  | sel (core : Nat)
  /-- COPY (R169): logical core. -/
  | copy (core : Nat)
  /-- NEG (R173): logical core. -/
  | neg (core : Nat)
  /-- ABS (R173): logical core. -/
  | abs (core : Nat)
  /-- SHIFT (R173): logical core. -/
  | shift (core : Nat)
  /-- ISNAR (R175): logical core. -/
  | isnar (core : Nat)
  /-- EXP2 (R180): logical core. -/
  | exp2 (core : Nat)
  /-- LOG2 (R181): logical core. -/
  | log2 (core : Nat)
  /-- RECIP (R182): logical core. -/
  | recip (core : Nat)
  /-- RSQRT (R182): logical core. -/
  | rsqrt (core : Nat)
  /-- WIDEN (R176): logical core. -/
  | widen (core : Nat)
  /-- NARROW (R176): logical core. -/
  | narrow (core : Nat)
  /-- RSUM (R177): logical core. -/
  | rsum (core : Nat)
  /-- RSUMSQ (R177): logical core. -/
  | rsumsq (core : Nat)
  /-- RMAX (R177): logical core. -/
  | rmax (core : Nat)
  /-- RMIN (R177): logical core. -/
  | rmin (core : Nat)
  /-- SGET (R169): logical core. -/
  | sget (core : Nat)
  /-- SOFTMAX (R184): logical core. -/
  | softmax (core : Nat)
  /-- LNORM (R185): logical core. -/
  | lnorm (core : Nat)
  /-- RMSNORM (R185): logical core. -/
  | rmsnorm (core : Nat)
  /-- XENT (R186): logical core. -/
  | xent (core : Nat)
  /-- MSE (R186): logical core. -/
  | mse (core : Nat)
  /-- CSCNT (R188): logical core. -/
  | cscnt (core : Nat)
  /-- CSCLR (R190): logical core. -/
  | csclr (core : Nat)
  /-- CENSUS_ROLLUP (R192): the roll-up of the latest Dusk completes. -/
  | censusRollup
  /-- SCRUB_POOL (R225): physical core and Pool row. -/
  | scrubPool (phys row : Nat)
  /-- SCRUB_POOL_WRITEBACK (R225): physical core and Pool row. -/
  | scrubPoolWriteback (phys row : Nat)
  /-- SCRUB_FLOWSTONE (R503): physical core and the first of two tile rows. -/
  | scrubFlowstone (phys trow : Nat)
  /-- SCRUB_FLOWSTONE_WRITEBACK (R504): physical core and tile row. -/
  | scrubFlowstoneWriteback (phys trow : Nat)
  /-- SCRUB_SYNC (R504): physical core and sync or census word. -/
  | scrubSync (phys word : Nat)
  /-- SCRUB_CONFIG (R488): frame-held cell. -/
  | scrubConfig (cell : Nat)
  /-- SB_TIMEOUT (R234): logical core and queue; 4 names the output path's pending slot. -/
  | sbTimeout (core q : Nat)
  /-- TAIL_ADD (R239): where it arrives and the packet. -/
  | tailAdd (port : Port) (p : Packet)
  /-- HEAD_ADD (R239): where it arrives and the packet. -/
  | headAdd (port : Port) (p : Packet)
  /-- RING_ENABLE (R256): CORE_RINGn_CFG word. -/
  | ringEnable (core n : Nat) (v : Word)
  /-- RING_DISABLE (R246): CORE_RINGn_CFG word. -/
  | ringDisable (core n : Nat) (v : Word)
  /-- WR (R244): where it arrives and the packet. -/
  | wr (port : Port) (p : Packet)
  /-- INBOUND_COMMIT (R224): logical core and bank. -/
  | inboundCommit (core bank : Nat)
  /-- CLASS_T_WRITE (R284): where it arrives and the packet. -/
  | classTWrite (port : Port) (p : Packet)
  /-- RD (R274): where it arrives and the packet. -/
  | rd (port : Port) (p : Packet)
  /-- POOL_BANK_OFF_REQUEST (R247): CORE_POOL_PWR word. -/
  | poolBankOffRequest (core : Nat) (v : Word)
  /-- POOL_BANK_OFF_CANCEL (R249): CORE_POOL_PWR word. -/
  | poolBankOffCancel (core : Nat) (v : Word)
  /-- POOL_BANK_POWER_DOWN (R247): logical core and bank. -/
  | poolBankPowerDown (core bank : Nat)
  /-- POOL_BANK_POWER_UP (R249): CORE_POOL_PWR word. -/
  | poolBankPowerUp (core : Nat) (v : Word)
  /-- POOL_BANK_READY (R249): logical core and bank. -/
  | poolBankReady (core bank : Nat)
  /-- MOVE (R260): logical core. -/
  | move (core : Nat)
  /-- TILE_OUT (R264): logical core. -/
  | tileOut (core : Nat)
  /-- SIGNAL (R265): logical core. -/
  | signal (core : Nat)
  /-- GRANT (R285): logical core. -/
  | grant (core : Nat)
  /-- DEEP_READ (R266): logical core. -/
  | deepRead (core : Nat)
  /-- MOVE_PRELUDE (R263): logical core, queue, foreground meetings. -/
  | movePrelude (core q : Nat) (meets : List Meet)
  /-- MOVE_ISSUE (R269): logical core; foreground meetings. -/
  | moveIssue (core : Nat) (meets : List Meet)
  /-- DEEP_READ_ISSUE (R271): logical core. -/
  | deepReadIssue (core : Nat)
  /-- MOVE_ISSUE_TIMEOUT (R269): logical core and queue. -/
  | moveIssueTimeout (core q : Nat)
  /-- DEEP_DATA (R271): where it arrives and the packet. -/
  | deepData (port : Port) (p : Packet)
  /-- ACK (R272): where it arrives and the packet. -/
  | ack (port : Port) (p : Packet)
  /-- ROW_TIMEOUT (R272): logical core, command tag and row. -/
  | rowTimeout (core tag row : Nat)
  /-- CREDIT_GRANT (R273): where it arrives and the packet. -/
  | creditGrant (port : Port) (p : Packet)
  /-- REVOKE (R273): where it arrives and the packet. -/
  | revoke (port : Port) (p : Packet)
  /-- BOUNCE (R283): where it arrives and the packet. -/
  | bounce (port : Port) (p : Packet)
  /-- INJECT_FLIT (R387): logical core; 0 the crossbar port, 1 the Sump bundle; what goes wrong with the flit on the way to the
  crossbar. -/
  | injectFlit (core side : Nat) (err : FlitErr := FlitErr.none)
  /-- ROUTER_ARBITRATE (R389): node (0-31 routers, 32-63 crossbars) and output; what goes wrong with the flit on its link. -/
  | routerArbitrate (node output : Nat) (err : FlitErr := FlitErr.none)
  /-- HEAD_BOOST (R392): node, input and channel of the head. -/
  | headBoost (node input channel : Nat)
  /-- WATCHDOG_STALL (R398): node, input and channel. -/
  | watchdogStall (node input channel : Nat)
  /-- WINDOW_OPEN (R291): CORE_ADMITw_CFG word. -/
  | windowOpen (core w : Nat) (v : Word)
  /-- WINDOW_CLOSE (R285): CORE_ADMITw_CFG word. -/
  | windowClose (core w : Nat) (v : Word)
  /-- SET (R296): logical core and queue. -/
  | set (core q : Nat)
  /-- CLEAR (R296): logical core and queue. -/
  | clear (core q : Nat)
  /-- WAIT (R296): logical core and queue. -/
  | wait (core q : Nat)
  /-- COUNT (R312): logical core and queue. -/
  | count (core q : Nat)
  /-- WAIT_CNT (R315): logical core and queue. -/
  | waitCnt (core q : Nat)
  /-- ARRIVE (R317): logical core and queue. -/
  | arrive (core q : Nat)
  /-- WAIT_SLOT (R318): logical core and queue. -/
  | waitSlot (core q : Nat)
  /-- FENCE (R308): logical core and queue. -/
  | fence (core q : Nat)
  /-- FENCE_COMPLETE (R308): logical core and queue. -/
  | fenceComplete (core q : Nat)
  /-- WAIT_TIMEOUT (R302): logical core and queue. -/
  | waitTimeout (core q : Nat)
  /-- CNT_ADD (R312): where it arrives and the packet. -/
  | cntAdd (port : Port) (p : Packet)
  /-- CNT_MAX (R312): where it arrives and the packet. -/
  | cntMax (port : Port) (p : Packet)
  /-- COUNTER_ENABLE (R336): CORE_CNT_CFG word. -/
  | counterEnable (core : Nat) (v : Word)
  /-- COUNTER_DISABLE (R336): CORE_CNT_CFG word. -/
  | counterDisable (core : Nat) (v : Word)
  /-- CHIMNEY_RELEASE (R317): Chimney slot and parity of the episode. -/
  | chimneyRelease (slot parity : Nat)
  /-- CHIMNEY_REL (R320): Chimney slot, what the base sends, and the management bundle on which the message arrives. -/
  | chimneyRel (slot : Nat) (m : RelMsg) (bundle : Nat := 0)
  /-- RELEASE_REACHES_CORE (R318): logical core and Chimney slot. -/
  | releaseReachesCore (core slot : Nat)
  /-- SLOT_BREAK (R322): Chimney slot and cause. -/
  | slotBreak (slot : Nat) (cause : BreakCause)
  /-- ARRIVE_TIMEOUT (R321): logical core, context slot and Chimney slot. -/
  | arriveTimeout (core ctx slot : Nat)
  /-- SLOT_ENABLE (R341): CHIP_SLOTs word. -/
  | slotEnable (slot : Nat) (v : Word)
  /-- SLOT_DISABLE (R341): CHIP_SLOTs word. -/
  | slotDisable (slot : Nat) (v : Word)
  /-- SLOT_REARM (R323): CHIP_SLOTs word. -/
  | slotRearm (slot : Nat) (v : Word)
  /-- SET_FLAG (R328): CORE_HAND word. -/
  | setFlag (core requester : Nat) (v : Word)
  /-- CLEAR_FLAG (R328): CORE_HAND word. -/
  | clearFlag (core requester : Nat) (v : Word)
  /-- CNT_WRITE (R328): CORE_HAND word. -/
  | cntWrite (core requester : Nat) (v : Word)
  /-- RING_HEAD (R328): CORE_HAND word. -/
  | ringHead (core requester : Nat) (v : Word)
  /-- RING_TAIL (R328): CORE_HAND word. -/
  | ringTail (core requester : Nat) (v : Word)
  /-- CREATE (R359): CORE_CTX_OP word. -/
  | create (core : Nat) (v : Word)
  /-- BIND (R361): CORE_CTX_OP word. -/
  | bind (core : Nat) (v : Word)
  /-- UNBIND (R362): CORE_CTX_OP word. -/
  | unbind (core : Nat) (v : Word)
  /-- QUEUE_PARK (R362): logical core and queue. -/
  | queuePark (core q : Nat)
  /-- SAVE (R364): CORE_CTX_OP word. -/
  | save (core : Nat) (v : Word)
  /-- SAVE_COMPLETE (R364): logical core. -/
  | saveComplete (core : Nat)
  /-- RESTORE (R367): CORE_CTX_OP word. -/
  | restore (core : Nat) (v : Word)
  /-- RESTORE_HEADER_CHECK (R367): logical core. -/
  | restoreHeaderCheck (core : Nat)
  /-- RESTORE_COMPLETE (R368): logical core. -/
  | restoreComplete (core : Nat)
  /-- DESTROY (R369): CORE_CTX_OP word. -/
  | destroy (core : Nat) (v : Word)
  /-- SETTLE (R374): CORE_CTX_OP word. -/
  | settle (core : Nat) (v : Word)
  /-- CONTEXT_OP_TIMEOUT (R360): logical core. -/
  | contextOpTimeout (core : Nat)
  /-- UNSETTLED_MASK_BROADCAST (R374): chip Gallery. -/
  | unsettledMaskBroadcast (gal : Nat)
  /-- SPARE (R381): CAV_CAPACITY word. -/
  | spare (cav : Nat) (v : Word)
  /-- UNSPARE (R381): CAV_CAPACITY word. -/
  | unspare (cav : Nat) (v : Word)
  /-- OFFLINE (R381): CAV_CAPACITY word. -/
  | offline (cav : Nat) (v : Word)
  /-- ONLINE (R381): CAV_CAPACITY word. -/
  | online (cav : Nat) (v : Word)
  /-- CAPACITY_CANCEL (R381): CAV_CAPACITY word. -/
  | capacityCancel (cav : Nat) (v : Word)
  /-- BUNDLE_TRAIN (R412): bundle, SUMP_CTRL word, what training observes. -/
  | bundleTrain (b : Nat) (v : Word) (obs : TrainObs)
  /-- LINK_AUTO_TRAIN (R423): bundle and what training observes. -/
  | linkAutoTrain (b : Nat) (obs : TrainObs)
  /-- TRAINING_STEP_TIMEOUT (R412): bundle and what its training has observed, with the step that overran. -/
  | trainingStepTimeout (b : Nat) (obs : TrainObs := TrainObs.none)
  /-- RETRAIN (R419): bundle, SUMP_CTRL word, whether the base asked, what it observes. -/
  | retrain (b : Nat) (v : Word) (byBase : Bool) (obs : TrainObs)
  /-- LANE_RECALIBRATE (R417): bundle. -/
  | laneRecalibrate (b : Nat)
  /-- MARGINAL_LANE (R418): bundle, logical lane, and how many errors on it were corrected in LINK flits that the sender has not given as
  rows. -/
  | marginalLane (b lane more : Nat)
  /-- LINK_FLIT (R409): bundle, the flit after correction, the codewords that arrived wrong, and whether the base asks for a
  retraining (R419). -/
  | linkFlit (b : Nat) (flit : BitVec 512) (errs : List (Nat × Nat) := []) (retrain : Bool := false)
  /-- LINK_DOWN (R423): bundle; whether a clock lane lost its edges. -/
  | linkDown (b : Nat) (clkLost : Bool)
  /-- RAIL_POWER (R420): Cavern, measured power in W, and the management bundle on which the message arrives. -/
  | railPower (cav m : Nat) (bundle : Nat := 0)
  /-- LINK_STATE (R420): the part's LINK_STATE message. -/
  | linkState
  /-- TELEMETRY (R420): management bundle. -/
  | telemetry (bundle : Nat)
  /-- LOOP_ENABLE (R518): bundle and SUMP_LOOP word. -/
  | loopEnable (b : Nat) (v : Word)
  /-- LOOP_TEST_START (R518): bundle, SUMP_LOOP word, what training against the loop observes. -/
  | loopTestStart (b : Nat) (v : Word) (obs : LinkObs)
  /-- SEQUENCE_END (R436): Cavern. -/
  | sequenceEnd (cav : Nat)
  /-- REFERENCE_LOST (R440): four reference edges are missed. -/
  | referenceLost
  /-- REFERENCE_RELOCK (R441): the Cavern's PLL is locked again. -/
  | referenceRelock (cav : Nat)
  /-- ISSUE_WINDOW (R442): chip Gallery. -/
  | issueWindow (gal : Nat)
  /-- POWER_WINDOW_TIMEOUT (R445): Cavern. -/
  | powerWindowTimeout (cav : Nat)
  /-- DROOP_TRIP (R448): chip Gallery. -/
  | droopTrip (gal : Nat)
  /-- STRETCH_END (R448): Cavern. -/
  | stretchEnd (cav : Nat)
  /-- THERMAL_CALIBRATION (R34): chip Gallery. -/
  | thermalCalibration (gal : Nat)
  /-- ATTEST_REQ (R513): CHIP_ATTEST request. -/
  | attestReq
  /-- ATTEST_COMPLETE (R514): the signature completes. -/
  | attestComplete
  /-- BIST_START (R516): chip Gallery and GAL_BIST word. -/
  | bistStart (gal : Nat) (v : Word)
  /-- BIST_COMPLETE (R516): chip Gallery, the failing unit, 0 for none, and the spare row and column that repair the tile, if the
  test found them (R94). -/
  | bistComplete (gal failUnit : Nat) (repair : Option (Nat × Nat) := none)
  /-- STANDALONE_SET (R519): CHIP_TEST word. -/
  | standaloneSet (v : Word)
  /-- TAP_LOCK (R522): CHIP_TEST word. -/
  | tapLock (v : Word)
  /-- LOG_HEAD_ADVANCE (R524): CHIP_LOG_HEAD word. -/
  | logHeadAdvance (v : Word)
  /-- LOG_CLEAR_LOST (R524): CHIP_LOG_STATUS write of clear_lost. -/
  | logClearLost
  /-- IDCODE (R521): TAP instruction. -/
  | idcode
  /-- SAMPLE_PRELOAD (R521): TAP instruction; wires loaded 1 and up-link wires read 1. -/
  | samplePreload (load : List Nat) (up : List Nat)
  /-- EXTEST (R517): TAP instruction; up-link wires captured 1. -/
  | extest (up : List Nat)
  /-- WRAP_1500 (R521): TAP instruction. -/
  | wrap1500
  /-- GSEL (R521): TAP instruction and the 5 bits shifted in. -/
  | gsel (gal : Nat)
  /-- BYPASS (R521): TAP instruction register code. -/
  | bypass (code : Nat)
  /-- DROOP_DETECTOR_CLEAR (R448): chip Gallery. -/
  | droopDetectorClear (gal : Nat)
  /-- TEMPERATURE_SAMPLE (R460): chip Gallery and °C. -/
  | temperatureSample (gal temp : Nat)
  /-- LOOP_TEST_COMPLETE (R518): bundle and the positions that saw an error. -/
  | loopTestComplete (b : Nat) (bad : List Nat)
  /-- UNCORRECTABLE_HEADER_FLIT (R411): bundle and the codewords of the flit that arrived wrong. -/
  | uncorrectableHeaderFlit (b : Nat) (errs : List (Nat × Nat) := [])
  /-- UNKNOWN_MESSAGE (R420): management bundle and code. -/
  | unknownMessage (bundle code : Nat)
deriving DecidableEq, Repr

end Sys2Proof
end

