-- ==== Sys2Proof/Decode.lean ====
section
/-!
DEFINITION. The command a table word spells. spec/opcode_table.json gives no row any bits (every row's fields are
empty), so no word spells a command: the commands are events, register writes, packets and messages.
-/

namespace Sys2Proof

/-- No row of the table has bits, so no word spells a command. DEDUCED (log 12). -/
def decodeTableWord (_nbits _w : Nat) : Option Instr := none

end Sys2Proof
end

