-- ==== Sys2Proof/Config.lean ====
section
/-!
DEFINITION. What a part fixes and the spec leaves open: uninterpreted values and functions. None of them has a
body that a proof could see; a statement about them holds for every value.
-/

namespace Sys2Proof

/-- The SHAKE-256 digest, 64 bytes, of a list of bytes (R466, R471, R511): a published function outside the spec. -/
opaque Config.shake256 : List Byte → BitVec 512

/-- Whether a signature verifies under ML-DSA-65 for a public key and a message (R466, R471). -/
opaque Config.mldsaVerify : (key message signature : List Byte) → Bool

/-- The ML-DSA-65 signature of a message under a device key (R514). -/
opaque Config.mldsaSign : (key : BitVec 256) → (message : List Byte) → List Byte

/-- The ML-DSA-65 public key derived from the device's PUF key (R511). -/
opaque Config.mldsaPublic : (key : BitVec 256) → List Byte

/-- The per-event energy weights of the power estimate E are the part's own (R445): the estimate in watts of a
Cavern, from its operating point, its activity counts and its hottest temperature. -/
opaque Config.powerEstimate : (op : Nat) → (counts : List Nat) → (temp : Nat) → Nat

/-- A fresh value, as bits of any width, for a place where the spec gives no value: drawn with the counter State.free
(see notes/assumptions). -/
opaque Config.freeBits : Nat → Nat

end Sys2Proof
end

