-- ==== Sys2Proof/Machine/Bits.lean ====
section
/-!
DEFINITION. Bit fields, byte order, integer shifts and the finite tables in canonical form that the rest of the
model is written with. Byte order is little-endian throughout (00_scope, Conventions).
-/

namespace Sys2Proof.Machine

/-- Field [lo+width-1:lo] of a natural number read as bits. -/
def fieldN (x lo width : Nat) : Nat := x / 2 ^ lo % 2 ^ width

/-- Bit `i` of a natural number read as bits. -/
def bitN (x i : Nat) : Bool := x / 2 ^ i % 2 == 1

/-- A Bool as the bit it is stored as. -/
def b2n (b : Bool) : Nat := if b then 1 else 0

/-- Two's-complement reading of an 8-bit code. -/
def signed8 (c : Nat) : Int := if c % 256 < 128 then (c % 256 : Nat) else ((c % 256 : Nat) : Int) - 256

/-- The two's-complement code of width `w` of an integer, as a natural number. -/
def twos (w : Nat) (v : Int) : Nat := (v % (2 ^ w : Nat)).toNat

/-- The two's-complement value of the low `w` bits of a natural number. -/
def untwos (w : Nat) (n : Nat) : Int :=
  if n % 2 ^ w < 2 ^ (w - 1) then (n % 2 ^ w : Nat) else ((n % 2 ^ w : Nat) : Int) - (2 ^ w : Nat)

/-- Right shift of the magnitude, the sign applied afterwards: truncation toward zero (R55, R62). -/
def shrTrunc (v : Int) (d : Nat) : Int :=
  if v < 0 then -((v.natAbs / 2 ^ d : Nat) : Int) else (v.natAbs / 2 ^ d : Nat)

/-- Arithmetic right shift, toward minus infinity (R178). -/
def shrFloor (v : Int) (d : Nat) : Int := Int.fdiv v (2 ^ d : Nat)

/-- floor(log2 a) for a > 0 (R68). -/
def floorLog2 (a : Nat) : Nat := Nat.log2 a

/-- bitlen(a) = floor_log2(a) + 1 for a > 0 (R178). -/
def bitlen (a : Nat) : Nat := Nat.log2 a + 1

/-- Pack natural numbers into fields of `w` bits, the first lowest. -/
def packN (w : Nat) : List Nat → Nat
  | [] => 0
  | x :: xs => x % 2 ^ w + 2 ^ w * packN w xs

/-- `count` fields of `w` bits of a natural number, the lowest first. -/
def unpackN (w x : Nat) : Nat → List Nat
  | 0 => []
  | n + 1 => x % 2 ^ w :: unpackN w (x / 2 ^ w) n

/-- The bytes of a natural number, least significant first. -/
def bytesOf (x count : Nat) : List Byte := (unpackN 8 x count).map (BitVec.ofNat 8)

/-- The natural number whose bytes, least significant first, are given. -/
def ofBytes (bs : List Byte) : Nat := packN 8 (bs.map BitVec.toNat)

/-- Byte `i` of a row's data (R46). -/
def rowByte (r : Row) (i : Nat) : Nat := fieldN r.data.toNat (8 * i) 8

/-- Byte `i` of a row's sidecar (R46). -/
def sideByte (r : Row) (i : Nat) : Nat := fieldN r.side.toNat (8 * i) 8

/-- A row from its 512 data bytes and 16 sidecar bytes, as numbers. -/
def mkRow (data side : Nat) : Row := { data := BitVec.ofNat 4096 data, side := BitVec.ofNat 128 side }

/-- Field replacement: the low `w` bits of `v` at `lo` of `x`. -/
def putField (x lo w v : Nat) : Nat :=
  x - fieldN x lo w * 2 ^ lo + v % 2 ^ w * 2 ^ lo

/-- The entry of a table: the first entry with the key, else the default. -/
def Store.get {α : Type} (d : α) : Store α → Nat → α
  | [], _ => d
  | (k, v) :: t, key => if key = k then v else Store.get d t key

/-- Remove every entry of a key. -/
def Store.erase {α : Type} : Store α → Nat → Store α
  | [], _ => []
  | (k, v) :: t, key => if key = k then Store.erase t key else (k, v) :: Store.erase t key

/-- Insert or replace an entry, keeping the keys rising. -/
def Store.insert {α : Type} : Store α → Nat → α → Store α
  | [], key, x => [(key, x)]
  | (k, v) :: t, key, x =>
    if key < k then (key, x) :: (k, v) :: t
    else if key = k then (k, x) :: t
    else (k, v) :: Store.insert t key x

/-- Write an entry: writing the default removes it, so equal tables are equal lists. -/
def Store.set {α : Type} [DecidableEq α] (d : α) (m : Store α) (key : Nat) (x : α) : Store α :=
  if x = d then Store.erase m key else Store.insert m key x

/-- Every key of the table lies above `lo`, rising, and no entry is the default. -/
def Store.wfFrom {α : Type} [DecidableEq α] (d : α) : Nat → Store α → Bool
  | _, [] => true
  | lo, (k, v) :: t => decide (lo ≤ k) && decide (v ≠ d) && Store.wfFrom d (k + 1) t

/-- The canonical form: keys strictly rising and no entry equal to the default. -/
def Store.wf {α : Type} [DecidableEq α] (d : α) (m : Store α) : Bool := Store.wfFrom d 0 m

/-- Change the entry of a key through a function. -/
def Store.modify {α : Type} [DecidableEq α] (d : α) (m : Store α) (key : Nat) (f : α → α) : Store α :=
  Store.set d m key (f (Store.get d m key))

/-- A list of bits set by number: insert into a rising list without repeats. -/
def setInsert : List Nat → Nat → List Nat
  | [], x => [x]
  | y :: t, x => if x < y then x :: y :: t else if x = y then y :: t else y :: setInsert t x

/-- Remove a number from a set kept as a list. -/
def setErase (l : List Nat) (x : Nat) : List Nat := l.filter (· ≠ x)

/-- Replace the element at an index of a list, unchanged beyond its end. -/
def listPut {α : Type} : List α → Nat → α → List α
  | [], _, _ => []
  | _ :: t, 0, x => x :: t
  | y :: t, n + 1, x => y :: listPut t n x

/-- The sub-list of `len` elements from index `start`. -/
def sliceL {α : Type} (l : List α) (start len : Nat) : List α := (l.drop start).take len

end Sys2Proof.Machine
end

