-- ==== Sys2Proof/Machine/Secded.lean ====
section
/-!
DEFINITION. The SECDED (72,64) code that guards every stored and sent 64-bit word (16_integrity_identity_test R500, R501): its
columns, the check byte, the syndrome, and what a read delivers. A codeword is a number: data bits 0 to 63, check bits
64 to 71.
-/

namespace Sys2Proof.Machine

/-- The 1 bits among the low n bits of a number. -/
def weightN (x : Nat) : Nat → Nat
  | 0 => 0
  | n + 1 => x % 2 + weightN (x / 2) n

/-- The columns of data bits 0 to 63: the eight-bit values of weight 3, in ascending order, and eight of weight 5
(R500). -/
def eccColumns : List Nat :=
  ((List.range 256).filter fun x => weightN x 8 == 3) ++ [0x1F, 0x2F, 0x37, 0x3B, 0x3D, 0x3E, 0x4F, 0x57]

/-- The column of a codeword bit (R500). -/
def eccColumn (i : Nat) : Nat := if i < 64 then eccColumns.getD i 0 else 2 ^ (i - 64)

/-- The check byte of data bits: the XOR of the columns of the bits that are 1 (R500). -/
def checkByte (w : Nat) : Nat := (eccColumns.mapIdx fun i c => if bitN w i then c else 0).foldl (· ^^^ ·) 0

/-- The codeword of 64 data bits (R500). -/
def codeword (w : Nat) : Nat := w % 2 ^ 64 + 2 ^ 64 * checkByte w

/-- The syndrome of a codeword as read (R501). -/
def syndrome (c : Nat) : Nat := checkByte c ^^^ fieldN c 64 8

/-- The codeword bit whose column a syndrome is, none for 0 and for a value that is no column (R501). -/
def eccBit (x : Nat) : Option Nat := (List.range 72).find? fun i => eccColumn i == x

/-- The outcome of reading a codeword: 0 clean, 1 corrected, 2 uncorrectable (R501). The code is linear, so the outcome of an
error pattern is that of any codeword that holds it. -/
def eccGrade (c : Nat) : Nat := if syndrome c = 0 then 0 else if (eccBit (syndrome c)).isSome then 1 else 2

/-- The data bits that a read of a codeword delivers (R501); of an error pattern, the data bits delivered wrong. -/
def eccData (c : Nat) : Nat :=
  match eccBit (syndrome c) with
  | some i => fieldN (c ^^^ 2 ^ i) 0 64
  | none => fieldN c 0 64

end Sys2Proof.Machine
end

