-- ==== Sys2Proof/Machine/Numerics.lean ====
section
/-!
DEFINITION. Number formats and conversions: the element formats K2, K4, K8, K16, the scale E8, W32, the
accumulator word A64, exact products and their alignment, A64 addition, conversion and its census classes
(02_number_formats).
-/

namespace Sys2Proof.Machine

/-- Element formats by the fmt code of R77: K8, K4, K2, K16; and W32 by code 4 (R141). -/
def fmtBits : Nat → Nat
  | 0 => 8
  | 1 => 4
  | 2 => 2
  | 3 => 16
  | _ => 32

/-- b = log2 (m + 1) of a target format (R61). -/
def fmtB (fmt : Nat) : Nat := fmtBits fmt - 1

/-- m, the largest magnitude of a target format (R61). -/
def fmtM (fmt : Nat) : Nat := 2 ^ fmtB fmt - 1

/-- Elements held by one 32-byte block of a K format (R42). -/
def fmtElems (fmt : Nat) : Nat := 256 / fmtBits fmt

/-- The value of an element code of a K format, none for NaR (R38 to R41). -/
def elemValue (fmt code : Nat) : Option Int :=
  let b := fmtB fmt
  let mag := code % 2 ^ b
  if bitN code b then (if mag = 0 then none else some (-(mag : Int))) else some (mag : Int)

/-- The value of a W32 lane, none for NaR (R48). -/
def w32Value (code : Nat) : Option Int :=
  if code % 2 ^ 32 = 2 ^ 31 then none else some (untwos 32 code)

/-- A block or group read: whether its scale is 0x80 (R43), its exponent, and its lanes (none is NaR). -/
structure Block where
  nar : Bool
  e : Int
  lanes : List (Option Int)
deriving DecidableEq, Repr

/-- A block of raw codes under an E8 scale byte: every lane of a NaR block reads as NaR (R43, R45). -/
def mkBlock (scale : Nat) (lanes : List (Option Int)) : Block :=
  if scale % 256 = 128 then { nar := true, e := 0, lanes := lanes.map fun _ => none }
  else { nar := false, e := signed8 scale, lanes := lanes }

/-- Block `j` of a Pool row read in a K format (R42, R46). -/
def kBlock (fmt : Nat) (r : Row) (j : Nat) : Block :=
  mkBlock (sideByte r j)
    ((unpackN (fmtBits fmt) (fieldN r.data.toNat (256 * j) 256) (fmtElems fmt)).map (elemValue fmt))

/-- Group `g` of a Pool row read as W32: the scale is sidecar byte 4g (R49). -/
def wGroup (r : Row) (g : Nat) : Block :=
  mkBlock (sideByte r (4 * g)) ((unpackN 32 (fieldN r.data.toNat (1024 * g) 1024) 32).map w32Value)

/-- An exact value v × 2^e, or NaR (R178 `wide`). -/
structure Wide where
  nar : Bool
  v : Int
  e : Int
deriving DecidableEq, Repr

/-- NaR as an exact result. -/
def Wide.narV : Wide := { nar := true, v := 0, e := 0 }

/-- A finite exact result. -/
def wide (v e : Int) : Wide := { nar := false, v := v, e := e }

/-- A lane of a block as an exact value. -/
def laneWide (e : Int) : Option Int → Wide
  | none => Wide.narV
  | some v => wide v e

/-- The lanes of a block as exact values. -/
def blockWides (b : Block) : List Wide := b.lanes.map (laneWide b.e)

/-- The accumulator word's value (R50, R51). -/
inductive A64 where
  | fin (v : Int)
  | pinf
  | ninf
  | nar
deriving DecidableEq, Repr

/-- An A64 codeword read: a non-finite word's value field is ignored (R50, R52). -/
def A64.ofWord (w : Nat) : A64 :=
  match fieldN w 62 2 with
  | 0 => .fin (untwos 56 w)
  | 1 => .pinf
  | 2 => .ninf
  | _ => .nar

/-- An A64 value as the part writes it: the value field of a non-finite word is zero (R52). -/
def A64.toWord : A64 → Nat
  | .fin v => twos 56 v
  | .pinf => 1 * 2 ^ 62
  | .ninf => 2 * 2 ^ 62
  | .nar => 3 * 2 ^ 62

/-- Whether bits [61:56] of an A64 codeword are zero (R50, R53). -/
def a64ZeroOk (w : Nat) : Bool := fieldN w 56 6 == 0

/-- Is the class +∞ or −∞. -/
def A64.isInf : A64 → Bool
  | .pinf => true
  | .ninf => true
  | _ => false

/-- An exact integer as an A64 value: out of range gives ∞ of its sign (R58). -/
def A64.ofExact (v : Int) : A64 :=
  if v ≥ 2 ^ 55 then .pinf else if v < -(2 ^ 55) then .ninf else .fin v

/-- The sum of two A64 operands (R57, R58). -/
def A64.add : A64 → A64 → A64
  | .nar, _ => .nar
  | _, .nar => .nar
  | .pinf, .ninf => .nar
  | .ninf, .pinf => .nar
  | .pinf, _ => .pinf
  | _, .pinf => .pinf
  | .ninf, _ => .ninf
  | _, .ninf => .ninf
  | .fin x, .fin y => A64.ofExact (x + y)

/-- Alignment of an exact value by a shift d: exact and ∞ when out of range for d ≥ 0, truncation toward zero
for d < 0 (R55). A value shifted right that is still out of range, of which R143 says nothing, is a signed infinity. DESIGN CHOICE
(log 65). -/
def alignShift (p d : Int) : A64 :=
  if p = 0 then .fin 0
  else if d ≥ 0 then A64.ofExact (p * (2 ^ d.toNat : Nat))
  else A64.ofExact (shrTrunc p (-d).toNat)

/-- A product of two elements under the block exponents, aligned to the accumulation exponent (R54, R55). -/
def alignedProduct (sA sB sacc : Int) : Option Int → Option Int → A64
  | some a, some b => alignShift (a * b) (sA + sB - sacc)
  | _, _ => .nar

/-- The products of one A lane with one B lane, added one at a time in ascending k onto a partial sum
(R136, R137). -/
def laneSum (sacc : Int) (a b : Block) (acc : A64) : A64 :=
  (a.lanes.zip b.lanes).foldl (fun s p => A64.add s (alignedProduct a.e b.e sacc p.1 p.2)) acc

/-- The pass sum of one word over the (A lane, B lane) pairs of its k range in ascending order (R136, R138). -/
def passSum (sacc : Int) (pairs : List (Block × Block)) : A64 :=
  pairs.foldl (fun s p => laneSum sacc p.1 p.2 s) (.fin 0)

/-- Conversion into A64 under an exponent: class kept, left shifts out of range give ∞, right shifts truncate
(R66). -/
def toA64 (x : Wide) (t : Int) : A64 := if x.nar then .nar else alignShift x.v (x.e - t)

/-- Rescaling an A64 value from exponent s to t (R66). -/
def rescaleA64 (s t : Int) : A64 → A64
  | .fin v => alignShift v (s - t)
  | x => x

/-- An A64 value as a conversion source: ±∞ and NaR become NaR (R62, R63). -/
def a64Wide (s : Int) : A64 → Wide
  | .fin v => wide v s
  | _ => Wide.narV

/-- The result of one conversion (R62). -/
structure Conv where
  nar : Bool
  neg : Bool
  mag : Nat
  sat : Bool
deriving DecidableEq, Repr

/-- The conversion of R62, its integers exact, from a source value to target exponent t and largest magnitude m. -/
def convert (x : Wide) (t : Int) (m : Nat) : Conv :=
  if x.nar then { nar := true, neg := false, mag := 0, sat := false }
  else
    let a := x.v.natAbs
    let d := x.e - t
    let mag := if d ≥ 0 then a * 2 ^ d.toNat else a / 2 ^ (-d).toNat
    if mag > m then { nar := false, neg := x.v < 0, mag := m, sat := true }
    else { nar := false, neg := x.v < 0 ∧ mag ≠ 0, mag := mag, sat := false }

/-- The code a conversion result is written as in a format (R62, R65). -/
def convCode (fmt : Nat) (c : Conv) : Nat :=
  if c.nar then 2 ^ fmtB fmt
  else if fmt ≥ 4 then twos 32 (if c.neg then -(c.mag : Int) else c.mag)
  else c.mag + (if c.neg then 2 ^ fmtB fmt else 0)

/-- Census counts of a conversion or of a row (R71, R188). -/
structure Counts where
  zero : Nat
  sat : Nat
  nar : Nat
  total : Nat
deriving DecidableEq, Repr

/-- No counts. -/
def Counts.none : Counts := { zero := 0, sat := 0, nar := 0, total := 0 }

/-- Counts added. -/
def Counts.add (a b : Counts) : Counts :=
  { zero := a.zero + b.zero, sat := a.sat + b.sat, nar := a.nar + b.nar, total := a.total + b.total }

/-- The class of one converted element, NaR before saturated before zero (R71). -/
def convCount (c : Conv) : Counts :=
  if c.nar then { zero := 0, sat := 0, nar := 1, total := 1 }
  else if c.sat then { zero := 0, sat := 1, nar := 0, total := 1 }
  else if c.mag = 0 then { zero := 1, sat := 0, nar := 0, total := 1 }
  else { zero := 0, sat := 0, nar := 0, total := 1 }

/-- Counts of a list of conversions. -/
def convCounts (cs : List Conv) : Counts := cs.foldl (fun a c => Counts.add a (convCount c)) Counts.none

/-- The highest floor(log2 |x|) of the finite nonzero values, none where there is none (R68). -/
def topExp : List Wide → Option Int
  | [] => none
  | x :: xs =>
    let rest := topExp xs
    if x.nar ∨ x.v = 0 then rest
    else
      let e : Int := (floorLog2 x.v.natAbs : Int) + x.e
      match rest with
      | none => some e
      | some r => some (max e r)

/-- The MAXABS exponent of a block or group for a target with constant b (R68, R69, R70). -/
def maxabsExp (xs : List Wide) (b : Nat) : Int :=
  match topExp xs with
  | none => 0
  | some top => max (-127) (min 127 (top + 1 - b))

/-- A block or group converted: its scale byte, its codes in order, and its conversions. -/
structure OutBlock where
  scale : Nat
  codes : List Nat
  convs : List Conv
deriving DecidableEq, Repr

/-- Convert the values of one block or group under a target exponent. -/
def convBlock (fmt : Nat) (t : Int) (xs : List Wide) : OutBlock :=
  let cs := xs.map fun x => convert x t (fmtM fmt)
  { scale := twos 8 t, codes := cs.map (convCode fmt), convs := cs }

/-- Assemble a K row of 16 blocks (R42, R46). -/
def kRow (fmt : Nat) (bs : List OutBlock) : Row :=
  mkRow (packN 256 (bs.map fun b => packN (fmtBits fmt) b.codes)) (packN 8 (bs.map (·.scale)))

/-- Assemble a W32 row of 4 groups: the group's scale in all four of its sidecar bytes (R49). -/
def wRow (bs : List OutBlock) : Row :=
  mkRow (packN 1024 (bs.map fun b => packN 32 b.codes))
    (packN 32 (bs.map fun b => b.scale % 256 * (1 + 2 ^ 8 + 2 ^ 16 + 2 ^ 24)))

/-- Counts of every conversion of a row's blocks. -/
def blocksCounts (bs : List OutBlock) : Counts := bs.foldl (fun a b => Counts.add a (convCounts b.convs)) Counts.none

/-- The class of one element or lane as CSCNT counts it: never saturated (R188). -/
def readCount : Option Int → Counts
  | none => { zero := 0, sat := 0, nar := 1, total := 1 }
  | some v => { zero := if v = 0 then 1 else 0, sat := 0, nar := 0, total := 1 }

/-- Counts of a block's lanes as CSCNT reads them. -/
def blockReadCounts (b : Block) : Counts := b.lanes.foldl (fun a l => Counts.add a (readCount l)) Counts.none

/-- The 32 words of a tile row. -/
def tileWords (r : TileRow) : List A64 := (unpackN 64 r.toNat 32).map A64.ofWord

/-- A tile row from its 32 words. -/
def mkTileRow (ws : List A64) : TileRow := BitVec.ofNat 2048 (packN 64 (ws.map A64.toWord))

/-- The tile row every word of which is NaR. -/
def narTileRow : TileRow := mkTileRow (List.replicate 32 .nar)

/-- Lane i of a panel of two rows: block (i mod 16) of row (i ÷ 16) (R79). -/
def panelLane (fmt : Nat) (r0 r1 : Row) (i : Nat) : Block := kBlock fmt (if i < 16 then r0 else r1) (i % 16)

/-- The 32 lanes of a panel (R79). -/
def panelLanes (fmt : Nat) (r0 r1 : Row) : List Block := (List.range 32).map (panelLane fmt r0 r1)

/-- The panel of NaR a failed read delivers or loads: every scale 0x80 (R88, R160); its element codes, which the spec does not give, are 0.
DESIGN CHOICE (log 65). -/
def narRow : Row := { data := 0, side := BitVec.ofNat 128 (packN 8 (List.replicate 16 128)) }

/-- Whether a panel carries a NaR element or block (R98). -/
def panelHasNar (ls : List Block) : Bool := ls.any fun b => b.lanes.any (·.isNone)

/-- The integer codes' values of a lane, without its scale (R97). -/
def laneCodes (b : Block) : List Int := b.lanes.map (·.getD 0)

/-- Σ_k x[k] × y[k]. -/
def dotCodes (x y : List Int) : Int := (List.zipWith (· * ·) x y).foldl (· + ·) 0

/-- The raw integer sum of one cell without scales (R97). -/
def rawSum (a b : Block) : Int := dotCodes (laneCodes a) (laneCodes b)

/-- Σ_i q_i[k] for every k, over the lanes of a panel (R97). -/
def lanesTotal : List Block → List Int
  | [] => []
  | [b] => laneCodes b
  | b :: t => List.zipWith (· + ·) (laneCodes b) (lanesTotal t)

/-- The index at which the checksums of a pass disagree, as its kind (0 a column, 1 a row, 2 the corner) and number; `err i j`
is what logical cell (i, j) adds to its raw sum, 32 standing for the spare row and the spare column. Columns are compared
first, then rows, then the corner (R97, R99). DEDUCED (log 73). -/
def checksumIndex (a b : List Block) (err : Nat → Nat → Int) : Option (Nat × Nat) :=
  let sums : List (List Int) := a.mapIdx fun i x => b.mapIdx fun j y => rawSum x y + err i j
  let ta := lanesTotal a
  let tb := lanesTotal b
  let col (j : Nat) : Int := sums.foldl (fun n r => n + r.getD j 0) 0
  let row (i : Nat) : Int := (sums.getD i []).foldl (· + ·) 0
  let spareRow (j : Nat) : Int := dotCodes ta (((b.map laneCodes).getD j [])) + err 32 j
  let spareCol (i : Nat) : Int := dotCodes (((a.map laneCodes).getD i [])) tb + err i 32
  match (List.range b.length).find? fun j => col j != spareRow j with
  | some j => some (0, j)
  | none =>
    match (List.range a.length).find? fun i => row i != spareCol i with
    | some i => some (1, i)
    | none =>
      if (List.range a.length).foldl (fun n i => n + row i) 0 = dotCodes ta tb + err 32 32 then none else some (2, 0)

end Sys2Proof.Machine
end

