-- ==== Sys2Proof/Machine/DrainMath.lean ====
section
/-!
DEFINITION. What the output path computes on a tile: the scale, bias, activation and conversion stages of a drain,
its top-k row, RESCALE, and the Pool image of a tile (05_accumulation R143 to R159). Nothing here reads State.
-/

namespace Sys2Proof.Machine

/-- A checked drain with its adjusted exponents (R141, R196). wexp is none where w equals the tile's exp. -/
structure DrainCmd where
  tile : Nat
  dstRow : Nat
  ofmt : Nat
  maxabs : Bool
  oexp : Int
  wexp : Option Int
  act : Nat
  leak : Nat
  scEn : Bool
  scRow : Nat
  biasEn : Bool
  biasRow : Nat
  biasGrp : Nat
  topk : Nat
  topkRow : Nat
  colBase : Nat
  doneFlag : Nat
  doneEn : Bool
  censusEn : Bool
deriving DecidableEq, Repr

/-- Pool rows written for an output format (R147). -/
def ofmtRows : Nat → Nat
  | 0 => 2
  | 1 => 1
  | 2 => 1
  | 3 => 4
  | _ => 8

/-- The cycle of the write of result row q (R147). -/
def ofmtCycle (ofmt q : Nat) : Nat :=
  match ofmt with
  | 0 => 21 + 8 * q
  | 1 => 29
  | 2 => 29
  | 3 => 17 + 4 * q
  | _ => 15 + 2 * q

/-- The scale stage for one word (R143); the factor is none when it is NaR or lies in a NaR block. -/
def scaleStage (s e w : Int) (x : A64) (q : Option Int) : A64 :=
  match x, q with
  | .nar, _ => .nar
  | _, none => .nar
  | .pinf, some k => if k = 0 then .nar else if k > 0 then .pinf else .ninf
  | .ninf, some k => if k = 0 then .nar else if k > 0 then .ninf else .pinf
  | .fin v, some k => alignShift (v * k) (s + e - w)

/-- K(num/den) of R145 at working exponent w. -/
def actConst (num den : Nat) (w : Int) : Int :=
  let v : Nat := if w ≤ 0 then num * 2 ^ (-w).toNat / den else num / (den * 2 ^ w.toNat)
  min v (2 ^ 55 - 1)

/-- The activation stage (R146). -/
def activate (act leak : Nat) (w : Int) : A64 → A64
  | .fin x =>
    match act with
    | 1 => .fin (if x > 0 then x else 0)
    | 2 => .fin (if x ≥ 0 then x else shrTrunc x leak)
    | 3 => .fin (min (max x 0) (actConst 6 1 w))
    | 4 => .fin (min (max x (-(actConst 1 1 w))) (actConst 1 1 w))
    | 5 => .fin (min (max (shrTrunc x 2 + actConst 1 2 w) 0) (actConst 1 1 w))
    | 6 => A64.ofExact x.natAbs
    | _ => .fin x
  | x => x

/-- The factor of column j of the scale row: element j mod 16 of block j ÷ 16, K16 (R143). -/
def scFactor (r : Row) (j : Nat) : Option Int × Int :=
  let b := kBlock 3 r (j / 16)
  (b.lanes.getD (j % 16) none, b.e)

/-- One word through the scale, bias and activation stages. The rows are none where the stage is disabled; a failed
row arrives as a row of NaR (R151). -/
def drainWord (d : DrainCmd) (s w : Int) (sc bias : Option Row) (j : Nat) (x : A64) : A64 :=
  let scaled := match sc with
    | none => rescaleA64 s w x
    | some r => let f := scFactor r j; scaleStage s f.2 w x f.1
  let biased := match bias with
    | none => scaled
    | some r => A64.add scaled (toA64 (((blockWides (wGroup r d.biasGrp)).getD j Wide.narV)) w)
  activate d.act d.leak w biased

/-- All words of the tile after the activation stage, by tile row. -/
def drainStages (d : DrainCmd) (s w : Int) (sc bias : Option Row) (tile : List (List A64)) : List (List A64) :=
  tile.map fun r => (List.range 32).map fun j => drainWord d s w sc bias j (r.getD j .nar)

/-- One block or group of the conversion stage. -/
def drainBlock (d : DrainCmd) (w : Int) (ws : List A64) : OutBlock :=
  let xs := ws.map (a64Wide w)
  convBlock d.ofmt (if d.maxabs then maxabsExp xs (fmtB d.ofmt) else d.oexp) xs

/-- The zero padding block of a K2 drain (R147). -/
def padBlock : OutBlock := { scale := 0, codes := List.replicate 128 0, convs := [] }

/-- The blocks or groups of result row q, from the activated tile rows (R147). -/
def drainRowBlocks (d : DrainCmd) (w : Int) (t : List (List A64)) (q : Nat) : List OutBlock :=
  let row (i : Nat) : List A64 := t.getD i []
  match d.ofmt with
  | 0 => (List.range 16).map fun b => drainBlock d w (row (16 * q + b))
  | 1 => (List.range 16).map fun b => drainBlock d w (row (2 * b) ++ row (2 * b + 1))
  | 2 => ((List.range 8).map fun b =>
      drainBlock d w (row (4 * b) ++ row (4 * b + 1) ++ row (4 * b + 2) ++ row (4 * b + 3))) ++ List.replicate 8 padBlock
  | 3 => (List.range 16).map fun b => drainBlock d w (sliceL (row (8 * q + b / 2)) (16 * (b % 2)) 16)
  | _ => (List.range 4).map fun g => drainBlock d w (row (4 * q + g))

/-- A converted row of a drain: the row number, the row, its counts, and the cycle it is written at. -/
structure DrainOut where
  at_ : Nat
  row : Row
  counts : Counts
  cycle : Nat
deriving DecidableEq, Repr

/-- The result rows of a drain from the activated tile (R147, R148). -/
def drainRows (d : DrainCmd) (w : Int) (t : List (List A64)) : List DrainOut :=
  (List.range (ofmtRows d.ofmt)).map fun q =>
    let bs := drainRowBlocks d w t q
    { at_ := d.dstRow + q, row := if d.ofmt = 4 then wRow bs else kRow d.ofmt bs,
      counts := blocksCounts bs, cycle := ofmtCycle d.ofmt q }

/-- The rank key of top-k: NaR, then +∞, then finite by value, then −∞ (R149). -/
def rankAbove : A64 → A64 → Bool
  | .nar, .nar => false
  | .nar, _ => true
  | _, .nar => false
  | .pinf, .pinf => false
  | .pinf, _ => true
  | _, .pinf => false
  | .fin a, .fin b => decide (a > b)
  | .fin _, .ninf => true
  | .ninf, _ => false

/-- The column of the highest-ranked word, the lower column among equals, of the columns not yet taken. -/
def bestCol (ws : List A64) (taken : List Nat) : Nat :=
  (List.range 32).foldl (fun best j =>
    if taken.contains j then best
    else if best = 32 then j
    else if rankAbove (ws.getD j .ninf) (ws.getD best .ninf) then j else best) 32

/-- The k highest columns in rank order (R149). -/
def topCols (ws : List A64) : Nat → List Nat
  | 0 => []
  | k + 1 => let t := topCols ws k; t ++ [bestCol ws t]

/-- The top-k row (R149). -/
def topkRowOf (d : DrainCmd) (t : List (List A64)) : Row :=
  mkRow (packN 128 ((List.range 32).map fun i =>
    let cols := topCols (t.getD i []) d.topk
    packN 16 ((cols.map fun j => 32 * d.colBase + j) ++ List.replicate (8 - d.topk) 0xFFFF))) 0

/-- The sidecar of every row of a tile's Pool image (R156). -/
def imageSide (exp : Nat) (poisoned : Bool) (cause : Nat) : Nat :=
  exp % 256 + 2 ^ 8 * (b2n poisoned + 2 * (cause % 8))

/-- The Pool image of a tile: row q holds tile rows 2q and 2q+1 (R156, R157). -/
def tileImage (rows : List TileRow) (exp : Nat) (poisoned : Bool) (cause : Nat) : List Row :=
  (List.range 16).map fun q =>
    let r0 := if poisoned then narTileRow else rows.getD (2 * q) 0
    let r1 := if poisoned then narTileRow else rows.getD (2 * q + 1) 0
    mkRow (r0.toNat + 2 ^ 2048 * r1.toNat) (imageSide exp poisoned cause)

/-- Every word of a row of A64 words has [61:56] zero (R53). -/
def rowWordsOk (data count : Nat) : Bool := (unpackN 64 data count).all a64ZeroOk

/-- A64 words stored: a non-finite word's value field becomes zero (R53). -/
def storeWords (data : Nat) : TileRow := mkTileRow ((unpackN 64 data 32).map A64.ofWord)

/-- The checks of a whole-tile write on its 16 image rows (R158). -/
def imageOk (rows : List Row) : Bool :=
  rows.all (fun r => rowWordsOk r.data.toNat 64) &&
  rows.all (fun r => r.side == (rows.headD Row.zero).side) &&
  (let s := (rows.headD Row.zero).side.toNat
   fieldN s 0 8 != 128 && fieldN s 12 116 == 0)

/-- The 32 tile rows of a Pool image (R156). -/
def imageTileRows (rows : List Row) : List TileRow :=
  rows.flatMap fun r => [storeWords (fieldN r.data.toNat 0 2048), storeWords (fieldN r.data.toNat 2048 2048)]

end Sys2Proof.Machine
end

