-- ==== Sys2Proof/Machine/VecMath.lean ====
section
/-!
DEFINITION. What the vector engine computes on rows: element-wise arithmetic, the function tables, reductions,
normalisation, softmax and losses, and the conversions between K and W32 rows (06_vector_engine). Nothing here
reads or changes State.
-/

namespace Sys2Proof.Machine

/-- T[i] = floor(2^(30 + i/32)) (R179). -/
def tableT : List Nat :=
  [1073741824, 1097253708, 1121280435, 1145833280, 1170923761, 1196563653, 1222764985, 1249540052,
   1276901416, 1304861916, 1333434672, 1362633089, 1392470868, 1422962010, 1454120821, 1485961920,
   1518500249, 1551751075, 1585729999, 1620452965, 1655936264, 1692196547, 1729250826, 1767116488,
   1805811301, 1845353419, 1885761398, 1927054195, 1969251187, 2012372173, 2056437386, 2101467501]

/-- R[i] = floor(2^35 ÷ (32 + i)) (R179). -/
def tableR (i : Nat) : Nat := 2 ^ 35 / (32 + i)

/-- G[i] = floor(2^30 × log2(2^30 ÷ R[i])) (R179). -/
def tableG : List Nat :=
  [0, 47667824, 93912511, 138816583, 182455582, 224898839, 266210140, 306448299,
   345667660, 383918542, 421247626, 457698297, 493310945, 528123241, 562170369, 595485245,
   628098703, 660039670, 691335320, 722011213, 752091421, 781598637, 810554284, 838978605,
   866890748, 894308844, 921250079, 947730760, 973766362, 999371607, 1024560488, 1049346329]

/-- The constants of R179. -/
def constC1 : Nat := 744261118
def constC2 : Nat := 257941248
def constC3 : Nat := 59597083
def constD1 : Nat := 1549082005
def constD2 : Nat := 774541002
def constD3 : Nat := 516360668

/-- align(x, e): exact when x.e ≥ e, truncated toward zero otherwise (R178). -/
def alignW (x : Wide) (e : Int) : Int :=
  if x.e ≥ e then x.v * (2 ^ (x.e - e).toNat : Nat) else shrTrunc x.v (e - x.e).toNat

/-- The common exponent of a list, max(min, max − 32) (R173, R177); 0 for an empty list. -/
def commonExp (es : List Int) : Int :=
  match es with
  | [] => 0
  | x :: xs => max (xs.foldl min x) (xs.foldl max x - 32)

/-- ADD and SUB (R173, R175). -/
def wideAdd (x y : Wide) : Wide :=
  if x.nar || y.nar then Wide.narV
  else
    let e := commonExp [x.e, y.e]
    wide (alignW x e + alignW y e) e

/-- −x. -/
def wideNeg (x : Wide) : Wide := { x with v := -x.v }

/-- SUB (R173). -/
def wideSub (x y : Wide) : Wide := wideAdd x (wideNeg y)

/-- MUL (R173). -/
def wideMul (x y : Wide) : Wide :=
  if x.nar || y.nar then Wide.narV else wide (x.v * y.v) (x.e + y.e)

/-- Exact comparison x < y of two finite values (R173). -/
def wideLt (x y : Wide) : Bool :=
  let e := min x.e y.e
  decide (x.v * (2 ^ (x.e - e).toNat : Nat) < y.v * (2 ^ (y.e - e).toNat : Nat))

/-- EXP2 of a finite value (R180). -/
def exp2Core (x : Wide) : Wide :=
  let lim : Int := 160 * 2 ^ 24
  let sh := x.e + 24
  let raw : Int := if sh ≥ 0 then x.v * (2 ^ sh.toNat : Nat) else shrFloor x.v (-sh).toNat
  let u := max (-lim) (min lim raw)
  let n := shrFloor u 24
  let f := (u - n * 2 ^ 24).toNat
  let i := f / 2 ^ 19
  let y := f % 2 ^ 19 * 2 ^ 6
  let y2 := y * y / 2 ^ 30
  let y3 := y2 * y / 2 ^ 30
  let p := 2 ^ 30 + constC1 * y / 2 ^ 30 + constC2 * y2 / 2 ^ 30 + constC3 * y3 / 2 ^ 30
  wide (tableT.getD i 0 * p / 2 ^ 30 : Nat) (n - 30)

/-- log2_core(a, s), a > 0, a result at exponent −30 (R181). -/
def log2Core (a : Nat) (s : Int) : Int :=
  let b := floorLog2 a
  let m := if b ≤ 30 then a * 2 ^ (30 - b) else a / 2 ^ (b - 30)
  let i := m / 2 ^ 25 % 32
  let w : Int := (m * tableR i / 2 ^ 30 : Nat) - 2 ^ 30
  let w2 := shrFloor (w * w) 30
  let w3 := shrFloor (w2 * w) 30
  let poly := shrFloor ((constD1 : Int) * w) 30 - shrFloor ((constD2 : Int) * w2) 30 +
    shrFloor ((constD3 : Int) * w3) 30
  ((b : Int) + s) * 2 ^ 30 + tableG.getD i 0 + poly

/-- LOG2 of a lane: NaR for a ≤ 0 (R181, R175). -/
def wideLog2 (x : Wide) : Wide :=
  if x.nar || decide (x.v ≤ 0) then Wide.narV else wide (log2Core x.v.toNat x.e) (-30)

/-- RECIP of a lane: NaR for 0 (R182). -/
def wideRecip (x : Wide) : Wide :=
  if x.nar || decide (x.v = 0) then Wide.narV
  else
    let a := x.v.natAbs
    let b := bitlen a
    let q : Int := (2 ^ (30 + b) / a : Nat)
    wide (if x.v < 0 then -q else q) (-30 - b - x.e)

/-- RSQRT of a lane: NaR for a ≤ 0; q is the largest integer with q² × v ≤ 2^(2k) (R182). -/
def wideRsqrt (x : Wide) : Wide :=
  if x.nar || decide (x.v ≤ 0) then Wide.narV
  else
    let odd := x.e % 2 ≠ 0
    let v := if odd then 2 * x.v.toNat else x.v.toNat
    let e := if odd then x.e - 1 else x.e
    let k := 30 + (bitlen v + 1) / 2
    wide (Nat.sqrt (2 ^ (2 * k) / v) : Nat) (-(k : Int) - e / 2)

/-- The exact result of an element-wise op on lanes a, b and mask m (R169, R173, R175). p is SHIFT's parameter. -/
def laneOp (op : Nat) (p : Int) (a b m : Wide) : Wide :=
  match op with
  | 0x01 => wideAdd a b
  | 0x02 => wideSub a b
  | 0x03 => wideMul a b
  | 0x04 => if a.nar || b.nar then Wide.narV else if wideLt b a then b else a
  | 0x05 => if a.nar || b.nar then Wide.narV else if wideLt a b then b else a
  | 0x06 => if a.nar || b.nar then Wide.narV else wide (b2n (wideLt a b)) 0
  | 0x07 => if a.nar || b.nar then Wide.narV else wide (b2n (!wideLt b a)) 0
  | 0x08 => if a.nar || b.nar then Wide.narV else wide (b2n (!wideLt a b && !wideLt b a)) 0
  | 0x09 => if m.nar then Wide.narV else if m.v ≠ 0 then a else b
  | 0x10 => a
  | 0x11 => wideNeg a
  | 0x12 => { a with v := a.v.natAbs }
  | 0x13 => { a with e := a.e + p }
  | 0x14 => wide (b2n a.nar) 0
  | 0x15 => if a.nar then Wide.narV else exp2Core a
  | 0x16 => wideLog2 a
  | 0x17 => wideRecip a
  | 0x18 => wideRsqrt a
  | _ => Wide.narV

/-- A scalar register: a W32 code and its E8 code (R167). -/
structure Scalar where
  v : BitVec 32
  e : BitVec 8
deriving DecidableEq, Repr

/-- 0 under exponent 0x00 (R167). -/
def Scalar.zero : Scalar := { v := 0, e := 0 }

/-- A scalar register as a group of one lane (R167). -/
def scalarWide (x : Scalar) : Wide :=
  match (mkBlock x.e.toNat [w32Value x.v.toNat]).lanes with
  | [some v] => wide v (signed8 x.e.toNat)
  | _ => Wide.narV

/-- A checked vector instruction with its adjusted FIXED exponent (R168, R196). -/
structure VecIns where
  op : Nat
  aRow : Nat
  bRow : Nat
  dRow : Nat
  n : Nat
  sreg : Nat
  bsrc : Bool
  omode : Nat
  oexp : Int
  doneFlag : Nat
  doneEn : Bool
deriving DecidableEq, Repr

/-- The target exponent of one group (R174). -/
def targetExp (i : VecIns) (xs : List Wide) (aGroup : Block) : Int :=
  match i.omode with
  | 1 => maxabsExp xs 31
  | 2 => if aGroup.nar then 0 else aGroup.e
  | _ => i.oexp

/-- One W32 group converted as R174 states. -/
def outGroup (i : VecIns) (xs : List Wide) (aGroup : Block) : OutBlock := convBlock 4 (targetExp i xs aGroup) xs

/-- One group of an element-wise op. -/
def groupOp (i : VecIns) (a b m : Block) : OutBlock :=
  let xs := ((blockWides a).zip ((blockWides b).zip (blockWides m))).map
    fun t => laneOp i.op (untwos 10 i.bRow) t.1 t.2.1 t.2.2
  outGroup i xs a

/-- The four W32 groups of a row. -/
def wGroups (r : Row) : List Block := (List.range 4).map (wGroup r)

/-- A scalar as a group of 32 equal lanes: the shared operand (R166). -/
def bcastGroup (x : Scalar) : Block :=
  let w := scalarWide x
  { nar := x.e = 0x80, e := signed8 x.e.toNat, lanes := List.replicate 32 (if w.nar then none else some w.v) }

/-- A result row with the counts its elements add to the census. -/
structure OutRow where
  row : Row
  counts : Counts
deriving DecidableEq, Repr

/-- A W32 result row. -/
def outW (gs : List OutBlock) : OutRow := { row := wRow gs, counts := blocksCounts gs }

/-- A K result row. -/
def outK (fmt : Nat) (bs : List OutBlock) : OutRow := { row := kRow fmt bs, counts := blocksCounts bs }

/-- One row of an element-wise op. -/
def rowOp (i : VecIns) (a : Row) (bs : List Block) (m : Row) : OutRow :=
  outW (((wGroups a).zip (bs.zip (wGroups m))).map fun t => groupOp i t.1 t.2.1 t.2.2)

/-- W32 rows per K row (R176). -/
def wideFactor (fmt : Nat) : Nat :=
  match fmt with
  | 0 => 4
  | 1 => 8
  | 2 => 16
  | _ => 2

/-- The K blocks and the slice of lanes of each that feed W32 row r, group g of a K row (R176):
(block, first element, count). -/
def widenFeed (fmt r g : Nat) : List (Nat × Nat × Nat) :=
  match fmt with
  | 0 => [(4 * r + g, 0, 32)]
  | 1 => [(2 * r + g / 2, 32 * (g % 2), 32)]
  | 2 => [(r, 32 * g, 32)]
  | _ => [(8 * r + 2 * g, 0, 16), (8 * r + 2 * g + 1, 0, 16)]

/-- One group of a WIDEN (R176). -/
def widenGroup (fmt : Nat) (k : Row) (r g : Nat) : OutBlock :=
  let feeds := (widenFeed fmt r g).map fun f => (kBlock fmt k f.1, f.2)
  let es := (feeds.filter fun f => !f.1.nar).map (·.1.e)
  let e : Int :=
    match es with
    | [] => 0
    | [s] => s
    | s :: t => max (t.foldl min s) (t.foldl max s - 16)
  let xs := feeds.flatMap fun f => sliceL (blockWides f.1) f.2.1 f.2.2
  convBlock 4 e xs

/-- The W32 rows of one K row (R176). -/
def widenRows (fmt : Nat) (k : Row) : List OutRow :=
  (List.range (wideFactor fmt)).map fun r => outW ((List.range 4).map (widenGroup fmt k r))

/-- The (row, group, first lane, count) that feed K block b of one K row, in element order (R176). -/
def narrowFeed (fmt b : Nat) : List (Nat × Nat × Nat × Nat) :=
  match fmt with
  | 0 => [(b / 4, b % 4, 0, 32)]
  | 1 => [(b / 2, 2 * (b % 2), 0, 32), (b / 2, 2 * (b % 2) + 1, 0, 32)]
  | 2 => [(b, 0, 0, 32), (b, 1, 0, 32), (b, 2, 0, 32), (b, 3, 0, 32)]
  | _ => [(b / 8, b % 8 / 2, 16 * (b % 2), 16)]

/-- One K block of a NARROW (R176, R174). -/
def narrowBlock (i : VecIns) (rows : List Row) (b : Nat) : OutBlock :=
  let fmt := i.bRow
  let feeds := (narrowFeed fmt b).map fun f => (wGroup (rows.getD f.1 Row.zero) f.2.1, f.2.2)
  let xs := feeds.flatMap fun f => sliceL (blockWides f.1) f.2.1 f.2.2
  let es := (feeds.filter fun f => !f.1.nar).map (·.1.e)
  let t : Int :=
    match i.omode with
    | 1 => maxabsExp xs (fmtB fmt)
    | 2 => match es with
      | [] => 0
      | s :: r => r.foldl max s
    | _ => i.oexp
  convBlock fmt t xs

/-- One K row of a NARROW, from its W32 rows. -/
def narrowRow (i : VecIns) (rows : List Row) : OutRow :=
  outK i.bRow ((List.range 16).map (narrowBlock i rows))

/-- What an instruction leaves: result rows in order, and the scalar register written. -/
structure VecOut where
  rows : List OutRow
  scalar : Option (Nat × Scalar × Counts)
deriving DecidableEq, Repr

/-- A scalar result converted as a group of one lane (R174). -/
def outScalar (i : VecIns) (reg : Nat) (x : Wide) (a0 : Block) : Option (Nat × Scalar × Counts) :=
  let g := convBlock 4 (targetExp i [x] a0) [x]
  some (reg, { v := BitVec.ofNat 32 (g.codes.headD 0), e := BitVec.ofNat 8 g.scale }, convCounts g.convs)

/-- The blocks of a list of W32 rows. -/
def allGroups (rows : List Row) : List Block := rows.flatMap wGroups

/-- The greatest of a list by exact value (R177, R184). -/
def wideMax : List Wide → Wide
  | [] => Wide.narV
  | x :: xs => xs.foldl (fun m y => if wideLt m y then y else m) x

/-- The least of a list by exact value (R177). -/
def wideMin : List Wide → Wide
  | [] => Wide.narV
  | x :: xs => xs.foldl (fun m y => if wideLt y m then y else m) x

/-- Sum of the lanes aligned to e. -/
def sumAt (e : Int) (xs : List Wide) : Int := xs.foldl (fun s x => s + alignW x e) 0

/-- The value of a reduction over the lanes of A and the old scalar (R177). -/
def reduceVal (op : Nat) (groups : List Block) (old : Option Wide) : Wide :=
  let xs := groups.flatMap blockWides
  let olds := match old with
    | none => []
    | some o => [o]
  if (xs ++ olds).any (·.nar) then Wide.narV
  else
    let es := (groups.filter fun g => !g.nar).map (·.e)
    match op with
    | 0x28 =>
      let e := commonExp (es ++ olds.map (·.e))
      wide (sumAt e (xs ++ olds)) e
    | 0x29 =>
      let e := commonExp (es.map (2 * ·) ++ olds.map (·.e))
      wide (sumAt e (xs.map (fun x => wideMul x x) ++ olds)) e
    | 0x2A => wideMax (xs ++ olds)
    | _ => wideMin (xs ++ olds)

/-- exp2_core of (x − mx) × log2 e (R184). -/
def expTerm (mx x : Wide) : Wide := exp2Core (wideMul (wideSub x mx) (wide constD1 (-30)))

/-- SOFTMAX over the lanes (R184). -/
def softmaxVals (xs : List Wide) : List Wide :=
  if xs.any (·.nar) then xs.map fun _ => Wide.narV
  else
    let mx := wideMax xs
    let terms := xs.map (expTerm mx)
    let q : Int := Int.fdiv (2 ^ 105) (sumAt (-62) terms)
    terms.map fun p => wide (p.v * q) (p.e - 43)

/-- LNORM and RMSNORM over the lanes; es are the exponents of the non-NaR groups (R185). -/
def normVals (lnorm : Bool) (es : List Int) (eps : Wide) (xs : List Wide) : List Wide :=
  if xs.any (·.nar) || eps.nar || decide (eps.v < 0) then xs.map fun _ => Wide.narV
  else
    let e := commonExp es
    let l : Int := xs.length
    let hs := xs.map fun x => alignW x e
    let s1 := hs.foldl (· + ·) 0
    let s2 := hs.foldl (fun s h => s + h * h) 0
    let ep := alignW eps (2 * e)
    let den := if lnorm then l * s2 - s1 * s1 + l * l * ep else s2 + l * ep
    if den = 0 then xs.map fun _ => Wide.narV
    else
      let d := den.toNat
      let k := 30 + (bitlen d + 1) / 2
      let num := (if lnorm then 1 else xs.length) * 2 ^ (2 * k)
      let q : Int := (Nat.sqrt (num / d) : Nat)
      hs.map fun h => wide ((if lnorm then l * h - s1 else h) * q) (-(k : Int))

/-- The value of a scalar as an integer label in 0..L−1, none otherwise (R186). -/
def labelOf (c : Wide) (l : Nat) : Option Nat :=
  if c.nar then none
  else
    let v : Int := if c.e ≥ 0 then c.v * (2 ^ c.e.toNat : Nat) else Int.fdiv c.v (2 ^ (-c.e).toNat : Nat)
    let exact := decide (c.e ≥ 0) || decide (v * (2 ^ (-c.e).toNat : Nat) = c.v)
    if exact && decide (0 ≤ v) && decide (v < l) then some v.toNat else none

/-- XENT: the loss of logits against a label (R186). -/
def xentVal (xs : List Wide) (c : Wide) : Wide :=
  if xs.any (·.nar) then Wide.narV
  else
    match labelOf c xs.length with
    | none => Wide.narV
    | some k =>
      let mx := wideMax xs
      let sum := sumAt (-62) (xs.map (expTerm mx))
      let g := log2Core sum.toNat (-62)
      wideAdd (wideSub mx (xs.getD k Wide.narV)) (wide (g * constC1) (-60))

/-- MSE: the mean of (a − b)² (R186). -/
def mseVal (es : List Int) (as bs : List Wide) : Wide :=
  if as.any (·.nar) || bs.any (·.nar) then Wide.narV
  else
    let e := commonExp es
    let s := (as.zip bs).foldl (fun t p => let d := alignW p.1 e - alignW p.2 e; t + d * d) 0
    wide (Int.fdiv (s * 2 ^ 32) as.length) (2 * e - 32)

/-- Regroup a list of lane results into rows of four groups of 32, converting each under its A group. -/
def outRowsOf (i : VecIns) (aGroups : List Block) (xs : List Wide) (rows : Nat) : List OutRow :=
  (List.range rows).map fun q =>
    outW ((List.range 4).map fun g =>
      outGroup i (sliceL xs (128 * q + 32 * g) 32) (aGroups.getD (4 * q + g) { nar := true, e := 0, lanes := [] }))

/-- The op writes rows as an element-wise op of W32 rows. -/
def opElementwise (op : Nat) : Bool := (0x01 ≤ op && op ≤ 0x09) || (0x10 ≤ op && op ≤ 0x18)

/-- The op takes B (R168, R169). -/
def opHasB (op : Nat) : Bool := (0x01 ≤ op && op ≤ 0x09) || op == 0x34

/-- The op reads a third operand, the mask (SEL). -/
def opHasMask (op : Nat) : Bool := op == 0x09

/-- The whole instruction on the rows read: A rows, B rows (when B comes from rows), mask rows, the eight scalar
registers (R169 to R186). -/
def vecResult (i : VecIns) (as bs ms : List Row) (sc : List Scalar) : VecOut :=
  let sreg := sc.getD i.sreg Scalar.zero
  let aG := allGroups as
  let aW := aG.flatMap blockWides
  let a0 := aG.headD { nar := true, e := 0, lanes := [] }
  let bGroupsOf (q : Nat) : List Block :=
    if i.bsrc then List.replicate 4 (bcastGroup sreg) else wGroups (bs.getD q Row.zero)
  if opElementwise i.op then
    { rows := (List.range as.length).map fun q =>
        rowOp i (as.getD q Row.zero) (if opHasB i.op then bGroupsOf q else wGroups (as.getD q Row.zero))
          (ms.getD q Row.zero),
      scalar := none }
  else
    match i.op with
    | 0x20 => { rows := as.flatMap (widenRows i.bRow), scalar := none }
    | 0x21 =>
      let f := wideFactor i.bRow
      { rows := (List.range (as.length / f)).map fun j => narrowRow i (sliceL as (f * j) f), scalar := none }
    | 0x28 | 0x29 | 0x2A | 0x2B =>
      { rows := [],
        scalar := outScalar i i.sreg
          (reduceVal i.op aG (if i.bRow % 2 = 1 then some (scalarWide sreg) else none)) a0 }
    | 0x2C =>
      let r := as.headD Row.zero
      { rows := [],
        scalar := some (i.sreg,
          { v := BitVec.ofNat 32 (fieldN r.data.toNat (32 * i.bRow) 32),
            e := BitVec.ofNat 8 (sideByte r (4 * (i.bRow / 32))) }, Counts.none) }
    | 0x30 => { rows := outRowsOf i aG (softmaxVals aW) as.length, scalar := none }
    | 0x31 => { rows := outRowsOf i aG (normVals true ((aG.filter fun g => !g.nar).map (·.e)) (scalarWide sreg) aW)
                  as.length, scalar := none }
    | 0x32 => { rows := outRowsOf i aG (normVals false ((aG.filter fun g => !g.nar).map (·.e)) (scalarWide sreg) aW)
                  as.length, scalar := none }
    | 0x33 => { rows := [], scalar := outScalar i (i.bRow % 8) (xentVal aW (scalarWide sreg)) a0 }
    | 0x34 =>
      let bG := (List.range as.length).flatMap bGroupsOf
      { rows := [],
        scalar := outScalar i i.sreg
          (mseVal (((aG ++ bG).filter fun g => !g.nar).map (·.e)) aW (bG.flatMap blockWides)) a0 }
    | _ => { rows := [], scalar := none }

/-- The counts CSCNT adds for one row read in format p (R188). -/
def cscntRow (p : Nat) (r : Row) : Counts :=
  let bs := if p = 4 then wGroups r else (List.range 16).map (kBlock p r)
  bs.foldl (fun a b => Counts.add a (blockReadCounts b)) Counts.none

/-- A row every lane or element of which is NaR, as a failed read delivers it, under scale bytes that the spec does
not give (R187; notes/assumptions). Free value: log 10. -/
def failedRow (fmt : Nat) (freeSide : Nat) : Row :=
  mkRow (packN (fmtBits fmt) (List.replicate (4096 / fmtBits fmt) (2 ^ fmtB fmt))) freeSide

end Sys2Proof.Machine
end

