-- ==== Sys2Proof/Machine/State.lean ====
section
/-!
DEFINITION. The state of the part as plain data: every register, buffer, table, mark, counter and mode the spec
names, with the queue of waiting commands. Cycles are A-cycle numbers of the Cavern concerned, counted from the start
of its A-clock; tables (Store) list only entries that differ from their default.
-/

namespace Sys2Proof.Machine

/-- A scoreboard mark on a row (R229): `till` is the cycle in which it is cleared, none while that cycle is not yet
known (a row still to arrive or to commit). Engines: 0 matrix tile, 1 output path, 2 vector engine, 3 move-in, 4 move-out,
5 an inbound row from elsewhere. `slot` is the command's queue slot; in a pending-write mark of engines 3 and 4 it is the
tag of the command's run. -/
structure Mark where
  row : Nat
  write : Bool
  till : Option Nat
  engine : Nat
  slot : Nat
deriving DecidableEq, Repr

/-- What a planned foreground access is for (R223): a panel read of a pass into a tile, which with `load` loads a context's weights of
a format; one of a gang pass that ends in a cycle; a drain's factor or bias row, with the exponent, context and tag of
the drain; a result row of
a drain; a read of a vector instruction, by its place among its reads; a result row of one; the destination rows that a source
row of a MOVE feeds; the index row of a prelude; another read. -/
inductive Use where
  | other
  | panel (tile : Nat) (load : Option (Nat × Nat))
  | gangPanel (ends : Nat) (load : Option (Nat × Nat))
  | factor (cmd : DrainCmd) (w : Int) (ctx : Nat) (tag : Option Nat)
  | outRow
  | vecRead (i : Nat)
  | vecRow
  | moveRow (rows : List Nat)
  | index (q : Nat)
deriving DecidableEq, Repr

/-- A foreground access already fixed by an issued command (R223, R226); `failed` that it is not made (R227);
slot 2^32 stands for the reads of a SAVE (R364). -/
structure Access where
  cycle : Nat
  row : Nat
  engine : Nat
  slot : Nat
  track : Nat
  failed : Bool
  use : Use
deriving DecidableEq, Repr

/-- A ring descriptor (R235, R253 to R257). -/
structure Ring where
  base : Nat
  size : Nat
  enable : Bool
  enforce : Bool
  flagEn : Bool
  flag : Nat
  die : Nat
  core : Nat
  kind : Nat
  head : Nat
  tail : Nat
  outst : Nat
  withheld : Nat
  abandoned : Bool
deriving DecidableEq, Repr

/-- The reset value of ring n: enforce reads 1 for rings 0 to 3 (R253). -/
def Ring.init (n : Nat) : Ring :=
  { base := 0, size := 0, enable := false, enforce := n < 4, flagEn := false, flag := 0, die := 0, core := 0, kind := 0,
    head := 0, tail := 0, outst := 0, withheld := 0, abandoned := false }

/-- An admission window (R288 to R290). -/
structure Win where
  base : Nat
  size : Nat
  opened : Bool
  flagEn : Bool
  flag : Nat
  agent : Nat
  thresh : Nat
  outst : Nat
  withheld : Nat
  arrived : Nat
deriving DecidableEq, Repr

/-- The reset value of a window. -/
def Win.init : Win :=
  { base := 0, size := 0, opened := false, flagEn := false, flag := 0, agent := 0, thresh := 0, outst := 0,
    withheld := 0, arrived := 0 }

/-- The fields of a tile's descriptor that passes and descriptor commands change (R130); `by_` is the tracked command, + 1,
whose fault poisoned the tile last, 0 for none. -/
structure Marks where
  exp : BitVec 8
  poisoned : Bool
  inf : Bool
  nar : Bool
  cause : Nat
  by_ : Nat
deriving DecidableEq, Repr

/-- What changes the fields of a tile's descriptor (R132, R154, R161): a poisoning fault of a tracked command, with its
cause; the first row of a pass with acc 0, faulted or not; row u of a pass, RESCALE or inbound write, with whether a word of
it is infinite or NaR and whether it adds to the old words; SET, and the end of RESCALE; and ZERO. -/
inductive DescEv where
  | poison (cause id : Nat)
  | fresh (id : Nat) (faulted : Bool)
  | row (id u : Nat) (inf nar acc : Bool)
  | exp (code : BitVec 8) (clear : Bool)
  | zero (code : BitVec 8)
deriving DecidableEq, Repr

/-- A Flowstone tile's descriptor (R130) and what its state field is computed from (R131): the last cycle in which a
pass writes it, whether the pending command or a whole-tile read holds it, the cycle a hold ends, and the inbound writes,
by queue and tag, that had begun when the present hold began (R134). `evs` are the changes of its fields by commands that have
started, with their cycles, the earliest first; the fields are those before them. -/
structure Desc where
  exp : BitVec 8
  poisoned : Bool
  inf : Bool
  nar : Bool
  cause : Nat
  by_ : Nat
  fillEnd : Nat
  pendHeld : Bool
  heldEnd : Nat
  begun : List (Nat × Nat)
  evs : List (Nat × DescEv)
deriving DecidableEq, Repr

/-- The reset state of a descriptor: IDLE, exponent 0, POISONED with cause 0b111 (R132). -/
def Desc.init : Desc :=
  { exp := 0, poisoned := true, inf := false, nar := true, cause := 7, by_ := 0, fillEnd := 0, pendHeld := false, heldEnd := 0,
    begun := [], evs := [] }

/-- Stationary weights or a weight shadow: the panel with its scales, and its format (R88). -/
structure Weights where
  fmt : Nat
  r0 : Row
  r1 : Row
deriving DecidableEq, Repr

/-- The command header fields used after decode (R348). -/
structure Header where
  kind : Nat
  phase : Nat
  tag : Nat
  tagEn : Bool
  verdict : Bool
  gradRel : Bool
  budget : Nat
deriving DecidableEq, Repr

/-- A matrix pass (R76); the done flag is already translated. -/
structure PassCmd where
  aRow : Nat
  bRow : Nat
  fmt : Nat
  flow : Bool
  loadW : Bool
  dstTile : Nat
  acc : Bool
  shape : Nat
  doneFlag : Nat
  doneEn : Bool
deriving DecidableEq, Repr

/-- A descriptor command (R152): op 0 SET, 1 RESCALE, 2 ZERO. -/
structure DescCmd where
  tile : Nat
  exp : Int
  op : Nat
  clear : Bool
  doneFlag : Nat
  doneEn : Bool
deriving DecidableEq, Repr

/-- A MOVE, TILE_OUT or DEEP_READ (R260, R264, R266). `src` is the first source row, tile row or Deep address,
`dst` the first destination address, row or tile row. -/
structure MoveCmd where
  op : Nat
  src : Nat
  n : Nat
  mode : Nat
  sfmt : Nat
  dfmt : Nat
  omode : Nat
  oexp : Int
  gather : Bool
  scatter : Bool
  idxRow : Nat
  dstFs : Bool
  tile : Nat
  dst : Nat
  doneFlag : Nat
  doneEn : Bool
  doneAt : Bool
deriving DecidableEq, Repr

/-- A sync command (R304): `flag` and `doneFlag` are physical; `counter`, `ref`, `slot`, `scope` as the sop uses them;
`units` is the timeout. -/
structure SyncCmd where
  sop : Nat
  flag : Nat
  consume : Bool
  counter : Nat
  ref : Nat
  slot : Nat
  wait : Bool
  scope : Nat
  units : Nat
  delta : Int
  refEn : Bool
  offset : Int
  orPl : Nat
  andPl : Bool
  verdict : Bool
  doneFlag : Nat
  doneEn : Bool
deriving DecidableEq, Repr

/-- A decoded command at the head of a queue, or in the output path's pending slot. -/
inductive Cmd where
  | pass (c : PassCmd)
  | drain (c : DrainCmd)
  | desc (c : DescCmd)
  | vec (c : VecIns)
  | move (c : MoveCmd)
  | signal (value dst : Nat)
  | grant (window count : Nat)
  | sync (c : SyncCmd)
deriving DecidableEq, Repr

/-- A decoded command with its queue slot, context, tag and the cycle it was decoded in; `limit` is the move engine's wait
limit in cycles, taken at its decode (R269); `sbFrom` is the cycle from which a wait because of the scoreboard counts and
`sbLimit` that wait's limit (R234, R252); `idx` its index entries once the prelude has read them (R263). -/
structure Decoded where
  slot : Nat
  ctx : Nat
  tag : Option Nat
  cmd : Cmd
  since : Nat
  limit : Nat
  sbFrom : Nat
  sbLimit : Nat
  idx : Option (List Nat)
  track : Nat
deriving DecidableEq, Repr

/-- A sleeping waiting command (R300): the cycle its timeout expires, and whether an ARRIVE has already arrived. -/
structure Sleep where
  slot : Nat
  ctx : Nat
  cmd : SyncCmd
  deadline : Nat
  arrived : Bool
  track : Nat
deriving DecidableEq, Repr

/-- A FENCE holding its queue: the commands it awaits, in their order of decode (R308). -/
structure FenceWait where
  slot : Nat
  ctx : Nat
  scope : Nat
  ids : List Nat
  track : Nat
  doneFlag : Nat
  doneEn : Bool
deriving DecidableEq, Repr

/-- A fetched command row: its ring count, contents, whether its read was uncorrectable, the cycle in which its data is available
(R215, R344, R346), and the codewords of the buffer that hold an error, each with its pattern (R502). -/
structure FRow where
  count : Nat
  row : Row
  bad : Bool
  avail : Nat
  errs : Store Nat := []
deriving DecidableEq, Repr

/-- The frozen wait of a queue record: remaining timeout in cycles, and whether its ARRIVE has arrived (R356, R362). -/
structure QWait where
  remain : Nat
  arrived : Bool
deriving DecidableEq, Repr

/-- A command queue of a core (R342 to R347, R375, R376). `ready` is the first cycle its next command may decode.
`restart` says a resume restarts at the first undecoded slot (R346); `wasStopped` that a parking queue was STOPPED. -/
structure Queue where
  state : Nat
  ctx : Nat
  onFail : Bool
  restart : Bool
  wasStopped : Bool
  nextSlot : Nat
  bufs : List FRow
  head : Option Decoded
  sleep : Option Sleep
  fence : Option FenceWait
  resumed : Option QWait
  ready : Nat
  failSlot : Nat
  failStatus : Nat
  failKind : Nat
  failValid : Bool
deriving DecidableEq, Repr

/-- The reset state of a queue (R375, R376). -/
def Queue.init : Queue :=
  { state := 0, ctx := 0, onFail := false, restart := false, wasStopped := false,
    nextSlot := 0, bufs := [], head := none,
    sleep := none, fence := none, resumed := none, ready := 0, failSlot := 0, failStatus := 0, failKind := 0,
    failValid := false }

/-- A queue record of a context (R356, R366). -/
structure QRec where
  present : Bool
  ring : Ring
  nextSlot : Nat
  onFail : Bool
  wait : Option QWait
deriving DecidableEq, Repr

/-- The record of a queue never bound. -/
def QRec.init : QRec := { present := false, ring := Ring.init 0, nextSlot := 0, onFail := false, wait := none }

/-- CORE_SYNC_RELn (R339). -/
structure Rel where
  slot : Nat
  orp : Nat
  andp : Bool
  how : Nat
deriving DecidableEq, Repr

/-- A context's arrival not yet released or broken (R317, R321): its slot, parity, whether it is a verdict arrival,
the cycle its timeout expires, whether it has timed out, and whether its timeout is frozen in a queue record (R362). -/
structure Part where
  slot : Nat
  parity : Bool
  verdict : Bool
  deadline : Nat
  out : Bool
  frozen : Bool
deriving DecidableEq, Repr

/-- A context slot (R356, R379, R380, R209 to R211). Sets of numbers are rising lists. -/
structure Ctx where
  state : Nat
  tiles : Nat
  pools : List (Nat × Nat)
  xlat : Store Nat
  sc : Store Scalar
  shadow : Option Weights
  gradScale : Int
  gradMin : Int
  gradMax : Int
  growth : Nat
  clean : Nat
  vstate : Nat
  stepNar : Bool
  orp : Nat
  andp : Bool
  floorHit : Bool
  ceilHit : Bool
  rel : Rel
  parity : List Nat
  arrived : List Nat
  parts : List Part
  outcomes : Store Nat
  recs : Store QRec
deriving DecidableEq, Repr

/-- The reset state of a context slot (R356, R167, R209 to R211). -/
def Ctx.init : Ctx :=
  { state := 0, tiles := 0, pools := [(0, 0), (0, 0), (0, 0), (0, 0)], xlat := [], sc := [], shadow := none,
    gradScale := 0, gradMin := -127, gradMax := 127, growth := 2000, clean := 0, vstate := 0, stepNar := false,
    orp := 0, andp := false, floorHit := false, ceilHit := false,
    rel := { slot := 0, orp := 0, andp := false, how := 0 }, parity := [], arrived := [], parts := [], outcomes := [],
    recs := [] }

/-- The matrix tile (R88, R91, R103, R104). `checkEnd` is the cycle of the last word write of a pass that its checker still
compares after check_mode was cleared (R101). `level` stood at `rampAt`, the target being `rampTgt`; `left` is the cycle from
which a decoded pass that did not issue no longer stood at the queue's head (R91), and `counted` the cycle up to which array
activity is counted (R92); `stepEnds` are the cycles after which issued passes no longer hold their panel set; the last pass
fixes the next entry (R118); `claims` are the first and last fill-port cycles of issued passes (R128). -/
structure Tile where
  checkMode : Bool
  checkEnd : Nat
  mismatch : Bool
  unchecked : Bool
  level : Nat
  rampTgt : Bool
  rampAt : Nat
  left : Nat
  counted : Nat
  owner : Nat
  weights : Option Weights
  stepEnds : List Nat
  lastWrite : Nat
  lastEntry : Nat
  lastShape : Nat
  lastLoaded : Bool
  everEntered : Bool
  claims : List (Nat × Nat)
deriving DecidableEq, Repr

/-- The reset state of the tile. DESIGN CHOICE (log 1, 3). -/
def Tile.init : Tile :=
  { checkMode := false, checkEnd := 0, mismatch := false, unchecked := false, level := 0, rampTgt := false,
    rampAt := 0, left := 0, counted := 0, owner := 0, weights := none, stepEnds := [], lastWrite := 0, lastEntry := 0, lastShape := 0,
    lastLoaded := false, everEntered := false, claims := [] }

/-- The running output-path command: its tile, start and the cycle it ends (R140, R165); its track, and the first
fill-port cycle a RESCALE or ZERO wants, 0 for another command (R154). -/
structure OutRun where
  tile : Nat
  start : Nat
  ends : Nat
  fill : Nat
  track : Nat
deriving DecidableEq, Repr

/-- The output path (R139, R140, R165); `drains` are the starts of recent drains and RESCALEs, which read the drain
port (R128, R150). -/
structure OutPath where
  pend : Option Decoded
  run : Option OutRun
  drains : List Nat
  poisonedSeen : Bool
  conflictSeen : Bool
deriving DecidableEq, Repr

/-- A running vector instruction: its rows as read in its first sweep and its scalars, from which its results come (R172, R187). -/
structure VecRun where
  track : Nat
  slot : Nat
  ctx : Nat
  tag : Option Nat
  ins : VecIns
  start : Nat
  rowsA : List Row
  rowsB : List Row
  rowsM : List Row
  sc : List Scalar
deriving DecidableEq, Repr

/-- The vector engine (R171, R193): the op and end of the running or last instruction, the cycle of its last row read,
and when scalar registers of contexts are still to be written: (context, register, cycle). -/
structure VecEng where
  op : Nat
  runEnd : Option Nat
  lastRead : Option Nat
  scWrites : List (Nat × Nat × Nat)
  runs : List VecRun
  conflictSeen : Bool
  poisonedSeen : Bool
deriving DecidableEq, Repr

/-- One census tag's counters: 32-bit zero, sat, nar, total, and their full bits (R188, R189). -/
structure TagCnt where
  zero : Nat
  sat : Nat
  nar : Nat
  total : Nat
  full : Nat
deriving DecidableEq, Repr

/-- A tag that has counted nothing. -/
def TagCnt.init : TagCnt := { zero := 0, sat := 0, nar := 0, total := 0, full := 0 }

/-- The census of a core (R188 to R195). -/
structure Census where
  live : Store TagCnt
  shadow : Store TagCnt
  narSeen : Bool
  satSeen : Bool
  sel : Nat
deriving DecidableEq, Repr

/-- What a Pool row held, with the errors of its codewords, before a started command writes it in a cycle to come (R165,
R187). -/
structure RowWas where
  cycle : Nat
  row : Nat
  data : Row
  errs : Store Nat
deriving DecidableEq, Repr

/-- The Pool of a core with its scoreboard, rings and bank power (R214 to R257). `downAt` is the reserved slot from
which a bank in `off` is off (R247); `ups` are banks powering up with the cycle they become ready; `wb` rows read and corrected by the scrubber and not yet written back; `given` the first cycle
in which a bank's reserved path has not yet been given to an access (R224); `was` what started commands have still to
overwrite. -/
structure Pool where
  rows : Store Row
  was : List RowWas
  marks : List Mark
  plan : List Access
  given : Store Nat
  rings : Store Ring
  offReq : List Nat
  off : List Nat
  downAt : Store Nat
  ups : List (Nat × Nat)
  wb : List Nat
  conflictSeen : Bool
  reservedHit : Bool
  uncreditedSeen : Bool
  sbTimeoutSeen : Bool
  uncorrSeen : Bool
  abandonedSeen : Bool
  sbUnits : Nat
deriving DecidableEq, Repr

/-- An outbound buffer entry: a row of an issued command without a final response (R268, R272). `held` while it
waits for its destination to settle; `bouncedEpoch` the epoch of its last bounce. -/
structure OutEntry where
  tag : Nat
  row : Nat
  pkt : Packet
  held : Bool
  bouncedEpoch : Option Nat
deriving DecidableEq, Repr

/-- An inbound buffer entry: a row waiting to commit (R229, R244, R268). `own` marks the core's own commands (tag and
row of the command); `ring` is the ring (0-15) or window (16-23) charged, 24 for none; `errs` the codewords that hold an error (R502). -/
structure InEntry where
  row : Nat
  fs : Bool
  data : Row
  entered : Nat
  own : Bool
  tag : Nat
  q : Nat
  ring : Nat
  pkt : Packet
  errs : Store Nat := []
deriving DecidableEq, Repr

/-- An issued move command (R272): its rows, the responses so far (code + 1 by row), the cycles after which rows that were sent
get TIMEOUT (cycle + 1 by row), its release cycle, what sets its done flag, and the rows of a whole-tile image that have
arrived. `dst` is the first destination row or tile row, in a TILE_OUT the tile read; `began` the cycle + 1 in which the first row of an
inbound write of tile rows arrived (R128, R131). -/
structure MoveRun where
  tag : Nat
  q : Nat
  op : Nat
  slot : Nat
  ctx : Nat
  rows : Nat
  resp : Store Nat
  deadline : Store Nat
  released : Nat
  doneAt : Bool
  doneFlag : Nat
  doneEn : Bool
  dstFs : Bool
  whole : Bool
  dst : Nat
  poisoned : Bool
  image : Store Row
  issued : Nat
  began : Nat
  track : Nat
deriving DecidableEq, Repr

/-- A credit-table entry (R273): target die, core, ring (0-15) or window (16-23), region and credits. -/
structure Cred where
  die : Nat
  core : Nat
  ring : Nat
  base : Nat
  size : Nat
  count : Nat
deriving DecidableEq, Repr

/-- A packet waiting at an injection point (R387): its channel, the queue it is charged to (2 move-in, 3 move-out,
4 context operations, 5 none), flits sent, its age, its last movement, and the A-cycle from which it may be sent (R270,
R272). -/
structure InjPkt where
  pkt : Packet
  ch : Nat
  src : Nat
  sent : Nat
  age : Nat
  moved : Nat
  ready : Nat
  bad : Bool := false
  errs : Store Nat := []
deriving DecidableEq, Repr

/-- A TILE_OUT, or with `save` a SAVE, reading tiles through the drain port: its issue, the row reads it makes, the tiles it reads
whole, and its tag and track (R128, R157, R270, R364). -/
structure TileRd where
  issue : Nat
  count : Nat
  tiles : List Nat
  save : Bool
  tag : Nat
  track : Nat
deriving DecidableEq, Repr

/-- The move engine and network interface of a core (R258 to R292, R400 to R402). `rotV` and `rotS` are the sources last
served in the rotation of leftover REQ at the crossbar port and the bundle, `turnV` and `turnS` in that of allotted REQ
(R387). -/
structure MoveEng where
  outb : List OutEntry
  inb : List InEntry
  runs : List MoveRun
  creds : List Cred
  wins : Store Win
  inj : List InjPkt
  injS : List InjPkt
  delivered : List Packet
  nextTag : Nat
  lastRead : Option Nat
  tileRd : Option TileRd
  rotV : Nat
  rotS : Nat
  turnV : Nat
  turnS : Nat
  timeoutSeen : Bool
  bouncedSeen : Bool
  poisonedSeen : Bool
  credFull : Bool
  fencedSeen : Bool
  units : Nat
deriving DecidableEq, Repr

/-- Allotments of one queue (R385, R386, R400): registers, what remains in the Day, Deep rows issued, and the counts a charge
has brought to 0 in the Day (R402). -/
structure Allot where
  vein : Nat
  sump : Nat
  deep : Nat
  cap : Nat
  remV : Nat
  remS : Nat
  remD : Nat
  issued : Nat
  capHit : Bool
  spentV : Bool
  spentS : Bool
  spentD : Bool
deriving DecidableEq, Repr

/-- The reset value of a queue's allotment (R400). -/
def Allot.init : Allot :=
  { vein := 0, sump := 0, deep := 0, cap := 0xFFFFFF, remV := 0, remS := 0, remD := 0, issued := 0, capHit := false,
    spentV := false, spentS := false, spentD := false }

/-- A counter (R310, R336). -/
structure Counter where
  value : BitVec 64
  enable : Bool
  mono : Bool
  owner : Nat
  partnerEn : Bool
  partner : Nat
  abandoned : Bool
  die : Nat
  core : Nat
  kind : Nat
  bound : Nat
deriving DecidableEq, Repr

/-- The reset value of a counter (R326, R336). -/
def Counter.init : Counter :=
  { value := 0, enable := false, mono := false, owner := 0, partnerEn := false, partner := 0, abandoned := false,
    die := 0, core := 0, kind := 0, bound := 0 }

/-- A done flag due in a cycle: physical flag, setter code, context, queue slot, tracked command (R294, R299); with
`clear` it is the clear of a consuming wait in the cycle its Drip line fires (R296). -/
structure Due where
  cycle : Nat
  clear : Bool
  flag : Nat
  setter : Nat
  ctx : Nat
  slot : Nat
  track : Nat
deriving DecidableEq, Repr

/-- CORE_SYNC_OVR (R334). -/
structure Ovr where
  valid : Bool
  flag : Nat
  setter : Nat
  ctx : Nat
deriving DecidableEq, Repr

/-- The sync unit of a core (R293 to R337). `turns` is the last event on each flag n and counter n, keyed n and 256 + n, as
cycle × 64 + its place among the events of one cycle + 1 (R297, R314). -/
structure Sync where
  flags : List Nat
  policy : List Nat
  counters : Store Counter
  due : List Due
  turns : Store Nat
  ovr : Ovr
  overrunSeen : Bool
  cntOverrunSeen : Bool
  timeoutSeen : Bool
  brokenSeen : Bool
  abandonedSeen : Bool
  handSeen : Bool
  selCounter : Nat
  selGroup : Nat
  handVal : BitVec 64
  cntCapture : Option Nat
deriving DecidableEq, Repr

/-- A command already decoded whose effects a FENCE may await (R308, R354): the cycle of its last effect in the core
and of its completion, where known, and its status; `overran` that its done flag met an overrun under policy fault (R299). -/
structure Track where
  id : Nat
  q : Nat
  ctx : Nat
  slot : Nat
  endAt : Option Nat
  doneAt : Option Nat
  status : Option Status
  overran : Bool
deriving DecidableEq, Repr

/-- The context operation of a core (R359, R360, R377). `rows` are image rows read or still to be answered; `day` the
Day number at its start (R366). -/
structure CtxOp where
  status : Nat
  busy : Bool
  op : Nat
  slot : Nat
  qmask : List Nat
  settle : Bool
  since : Nat
  limit : Nat
  stage : Nat
  rows : Store Row
  left : List Nat
  img : Nat
  units : Nat
  fail : Option Nat
  day : Nat
deriving DecidableEq, Repr

/-- ECC counters of a core, live or latched (R526). -/
structure Ecc where
  poolCorr : Nat
  fsCorr : Nat
  syncCorr : Nat
  poolUnc : Nat
  fsUnc : Nat
  syncUnc : Nat
deriving DecidableEq, Repr

/-- No errors counted. -/
def Ecc.init : Ecc := { poolCorr := 0, fsCorr := 0, syncCorr := 0, poolUnc := 0, fsUnc := 0, syncUnc := 0 }

/-- Stored codewords of a core that hold an error, each with its error pattern: the codeword bits that differ from those
written (R500 to R502). Pool codewords are row × 66 + codeword, 64 and 65 being the sidecar's (R220); Flowstone
words tile row × 32 + word; sync and census words structure × 1024 + word. The structure is its place in the table of R502: 4 flags (word j), 5 translation tables (context × 64 + entry ÷ 4), 6 counters (n for the value, 64 + n
for its CFG, PROD and BOUND), 7 pointers (ring n, 16 + window, 24 + credit-table entry), 8 census (tag × 4 + word).
DESIGN CHOICE (log 7). -/
structure Upsets where
  pool : Store Nat
  fs : Store Nat
  sync : Store Nat
deriving DecidableEq, Repr

/-- The Flowstone of a core: its tile rows and the eight descriptors (R126, R130), and scrubbed tile rows whose
correction waits for write-back (R504). -/
structure Flow where
  rows : Store TileRow
  desc : Store Desc
  wb : List Nat
deriving DecidableEq, Repr

/-- What a started command does in a cycle to come: a count into a census tag for a context (R148, R174, R188), CSCLR's clear
of nar_seen (R190), the report of POISONED or CONFLICT by an output-path or a vector command (R165, R193), a difference that the
check of a pass finds (R99, R100), the last word write of a pass, which fixes its status (R164), a row of a run that its interface
may send, from which its wait for a response is counted (R272), a bank conflict with its case and its foreground parties (R228),
the corrected words and uncorrectable reads that a read of the Pool or of the Flowstone finds (R220, R127, R506), or a record (R508). -/
inductive LateAct where
  | clearNar
  | count (ctx tag : Nat) (n : Counts) (track row : Nat)
  | outSeen (poisoned : Bool)
  | vecSeen (poisoned : Bool)
  | mismatch (track : Nat) (log : List (Nat × Nat))
  | passEnd (track tile : Nat)
  | rowSent (q tag row : Nat)
  | conflict (bank cse : Nat) (parties : List (Nat × Nat))
  | poolErr (corr unc : Nat)
  | fsErr (corr unc : Nat)
  | record (cls : Nat) (st : Status) (body : List (Nat × Nat))
deriving DecidableEq, Repr

/-- An effect to come with its cycle. -/
structure Late where
  cycle : Nat
  act : LateAct
deriving DecidableEq, Repr

/-- A physical core. `late` are effects of started commands still to come, in order of their cycles, a clear first; `hw` the
RWH fields, by register offset, that the core's own events changed in an M-cycle (R9, R17); `found` a tile repair found in service
that waits for a Dusk (R94). -/
structure Core where
  tile : Tile
  flow : Flow
  outp : OutPath
  vec : VecEng
  census : Census
  pool : Pool
  mv : MoveEng
  allots : Store Allot
  wdogSeen : Bool
  stuck : List Nat
  sync : Sync
  queues : Store Queue
  ctxs : Store Ctx
  op : CtxOp
  track : List Track
  nextTrack : Nat
  ecc : Ecc
  eccDay : Ecc
  upsets : Upsets
  late : List Late
  hw : List (Nat × Nat)
  gateShort : Bool
  repair : Nat × Nat
  found : Option (Nat × Nat)
deriving DecidableEq, Repr

/-- A physical core at register reset values (chapters 03 to 12; the fused tile repair is set by POWER_UP). DESIGN
CHOICE for the Flowstone words (log 4). -/
def Core.init : Core :=
  { tile := Tile.init,
    flow := { rows := [], desc := [], wb := [] },
    outp := { pend := none, run := none, drains := [], poisonedSeen := false, conflictSeen := false },
    vec := { op := 0, runEnd := none, lastRead := none, scWrites := [], runs := [], conflictSeen := false, poisonedSeen := false },
    census := { live := [], shadow := [], narSeen := false, satSeen := false, sel := 0 },
    pool := { rows := [], was := [], marks := [], plan := [], given := [], rings := [], offReq := [], off := [], downAt := [], ups := [], wb := [],
              conflictSeen := false, reservedHit := false, uncreditedSeen := false, sbTimeoutSeen := false,
              uncorrSeen := false, abandonedSeen := false, sbUnits := 0x400 },
    mv := { outb := [], inb := [], runs := [], creds := [], wins := [], inj := [], injS := [], delivered := [],
            nextTag := 0, lastRead := none, tileRd := none, rotV := 0, rotS := 0, turnV := 0, turnS := 0, timeoutSeen := false, bouncedSeen := false,
            poisonedSeen := false, credFull := false, fencedSeen := false, units := 0x400 },
    allots := [], wdogSeen := false, stuck := [],
    sync := { flags := [], policy := [], counters := [], due := [], turns := [],
              ovr := { valid := false, flag := 0, setter := 0, ctx := 0 }, overrunSeen := false,
              cntOverrunSeen := false, timeoutSeen := false, brokenSeen := false, abandonedSeen := false,
              handSeen := false, selCounter := 0, selGroup := 0, handVal := 0, cntCapture := none },
    queues := [], ctxs := [],
    op := { status := 0, busy := false, op := 0, slot := 0, qmask := [], settle := false, since := 0, limit := 0,
            stage := 0, rows := [], left := [], img := 0, units := 0x400, fail := none, day := 0 },
    track := [], nextTrack := 0, ecc := Ecc.init, eccDay := Ecc.init, upsets := { pool := [], fs := [], sync := [] },
    late := [], hw := [], gateShort := false, repair := (0x3F, 0x3F), found := none }

/-- A packet held at a router or crossbar input (R277, R389): node 0-31 routers, 32-63 crossbars. -/
structure NetPkt where
  pkt : Packet
  node : Nat
  input : Nat
  ch : Nat
  sent : Nat
  age : Nat
  boosted : Bool
  moved : Nat
  bad : Bool := false
deriving DecidableEq, Repr

/-- A channel of an output kept by a packet until its tail has passed (R389). -/
structure NetLock where
  node : Nat
  output : Nat
  ch : Nat
  input : Nat
deriving DecidableEq, Repr

/-- The Vein (R275 to R281, R389): packets in buffers, channels kept, and the input last granted by
(node × 128 + output) × 4 + channel. -/
structure Net where
  pkts : List NetPkt
  locks : List NetLock
  last : Store Nat
deriving DecidableEq, Repr

/-- A gang pass in flight (R122): its members, the result-writing members with their tiles, queue slots and tracked commands,
and the cycle its last done flag is set in. -/
structure GangRun where
  ends : Nat
  members : List Nat
  writers : List (Nat × Nat × Nat × Nat)
deriving DecidableEq, Repr

/-- Issue limiter of a Gallery (R442, R459): `used` counts the passes admitted in issue window `window`, `prevUsed` and
`prev2Used` those of the two windows before it. -/
structure Limiter where
  hostCap : Nat
  ctlCap : Nat
  ceiling : Nat
  used : Nat
  prevUsed : Nat
  prev2Used : Nat
  demand : Bool
  lastCore : Option Nat
  lastAt : Nat
  rotCore : Option Nat
  window : Nat
deriving DecidableEq, Repr

/-- A census roll-up of a tag: sums and full marks (R192, R540). -/
structure Roll where
  zero : Nat
  sat : Nat
  nar : Nat
  total : Nat
  full : Nat
deriving DecidableEq, Repr

/-- A roll-up of nothing. -/
def Roll.init : Roll := { zero := 0, sat := 0, nar := 0, total := 0, full := 0 }

/-- The roll-up registers of a station (R540): the sums, the incomplete mark and Day number, the selected tag, and the
capture of a read of DAY_LO: tag roll-up, incomplete, Day. -/
structure RollUp where
  sums : Store Roll
  incomplete : Bool
  day : Nat
  sel : Nat
  capture : Option (Roll × Bool × Bool × Nat)
deriving DecidableEq, Repr

/-- A station's roll-up at reset. -/
def RollUp.init : RollUp := { sums := [], incomplete := false, day := 0, sel := 0, capture := none }

/-- The built-in self-test of a Gallery (R516, R527); `running` is the core under test. -/
structure Bist where
  pcore : Nat
  running : Nat
  busy : Bool
  pass : Bool
  failUnit : Nat
  status : Nat
deriving DecidableEq, Repr

/-- A Gallery (R123 to R125, R292, R403, R404, R459, R460, R527, R540). `entering` are the gang passes issued
since, by their entry cycles and shapes (R124); `owed` are the members whose next gang pass belongs to a rendezvous that has ended (R112). -/
structure Gal where
  outCol : List Nat
  held : Nat
  lastShape : Nat
  entering : List (Nat × Nat)
  owed : List Nat
  gangFailed : Bool
  gangPoisoned : Bool
  gangUnits : Nat
  rendezvous : List (Nat × Nat)
  rvLimit : Nat
  gangs : List GangRun
  epoch : Nat
  unsettled : List Nat
  ageThresh : Nat
  wdogUnits : Nat
  stuckIn : List Nat
  xbarStuck : List Nat
  wdogSeen : Bool
  boosts : Nat
  boostsDay : Nat
  lim : Limiter
  margin : Nat
  tripped : Bool
  stretched : Nat
  stretchedDay : Nat
  temp : Nat
  maxTemp : Nat
  maxTempDay : Nat
  veinCorr : Nat
  veinDisc : Nat
  veinCorrDay : Nat
  veinDiscDay : Nat
  bist : Bist
  roll : RollUp
  tableEpoch : Nat
  tableMask : List Nat
deriving DecidableEq, Repr

/-- A Gallery at register reset values; the map is the identity with every spare idle until the MAP frame gives it.
DESIGN CHOICE (log 2). -/
def Gal.init : Gal :=
  { outCol := [16, 16, 16, 16], held := 0, lastShape := 0, entering := [], owed := [], gangFailed := false, gangPoisoned := false,
    gangUnits := 0x40, rendezvous := [], rvLimit := 0, gangs := [], epoch := 0, unsettled := [], ageThresh := 0x40,
    wdogUnits := 0x40, stuckIn := [], xbarStuck := [], wdogSeen := false, boosts := 0, boostsDay := 0,
    lim := { hostCap := 0x200, ctlCap := 0x200, ceiling := 0, used := 0, prevUsed := 0, prev2Used := 0, demand := false,
             lastCore := none, lastAt := 0, rotCore := none, window := 0 },
    margin := 0x0C, tripped := false, stretched := 0, stretchedDay := 0, temp := 0, maxTemp := 0, maxTempDay := 0,
    veinCorr := 0, veinDisc := 0, veinCorrDay := 0, veinDiscDay := 0,
    bist := { pcore := 0, running := 0, busy := false, pass := false, failUnit := 0, status := 0 },
    roll := RollUp.init, tableEpoch := 0, tableMask := [] }

/-- Activity counted in a power window, by Gallery of the Cavern ×6 + kind (R445). -/
abbrev Activity := Store Nat

/-- A Cavern (R370, R436 to R454, R536, R540). `fifths` is the A-clock's age in fifths of an A-cycle; `seqEnd` is the
M-cycle in which the sequence in progress ends, at the operating point `seqTo`. The A-clock's rate, in fifths of an A-cycle
for each M-cycle, glides from `rateFrom` to `rateTo` from M-cycle `glideAt` on (R436). -/
structure Cav where
  running : Bool
  fifths : Nat
  opNow : Nat
  opTarget : Nat
  seqEnd : Option Nat
  seqTo : Nat
  rateFrom : Nat
  rateTo : Nat
  glideAt : Nat
  opHold : Bool
  locked : Bool
  refLost : Bool
  coasting : Bool
  refLostSeen : Bool
  stretched : Bool
  stretchFrom : Option Nat
  minOp : Nat
  maxOp : Nat
  active : List Nat
  limit : Nat
  limitNext : Nat
  est : Nat
  meas : Nat
  measValid : Bool
  run : Nat
  runAgree : Bool
  missing : Nat
  mismatch : Bool
  lastM : Nat
  winStart : Nat
  energy : Nat
  energyDay : Nat
  crit : Bool
  activity : Activity
  capPending : Option (Nat × Nat × Nat × Nat)
  capStatus : Nat
  offline : Bool
  aliases : Store Nat
  roll : RollUp
deriving DecidableEq, Repr

/-- A Cavern at register reset values. -/
def Cav.init : Cav :=
  { running := false, fifths := 0, opNow := 0, opTarget := 0, seqEnd := none, seqTo := 0, rateFrom := 8, rateTo := 8,
    glideAt := 0, opHold := false, locked := false,
    refLost := false, coasting := false, refLostSeen := false, stretched := false, stretchFrom := none, minOp := 0,
    maxOp := 7, active := [], limit := 0x113, limitNext := 0x113, est := 0, meas := 0, measValid := false, run := 0,
    runAgree := false, missing := 0, mismatch := false, lastM := 0, winStart := 0, energy := 0, energyDay := 0,
    crit := false, activity := [], capPending := none, capStatus := 0, offline := false, aliases := [],
    roll := RollUp.init }

/-- One link of a bundle: width (0 failed, 1 half, 2 full), reversed, bad transmitter positions, bad clock lanes, and
whether CK2 is in use (R414, R415, R428, R429); `moves` the marginal lanes moved onto spares as (lane, position), and
`outs` the positions they left (R418). -/
structure Link where
  width : Nat
  reversed : Bool
  bad : List Nat
  clkBad : List Nat
  clkSpare : Bool
  moves : List (Nat × Nat)
  outs : List Nat
deriving DecidableEq, Repr

/-- A link never trained. -/
def Link.init : Link := { width := 0, reversed := false, bad := [], clkBad := [], clkSpare := false, moves := [], outs := [] }

/-- A bundle (R427 to R430, R528, R409, R417, R423). States: 0 DOWN, 1 TRAINING, 2 UP, 3 RETRAINING, 4 FAILED. -/
structure Bundle where
  auto : Bool
  spareAuto : Bool
  state : Nat
  up : Link
  down : Link
  clkLost : Bool
  downSeen : Bool
  marginalSeen : Bool
  gateShort : Bool
  deviates : Bool
  corr : Nat
  uncorr : Nat
  corrDay : Nat
  uncorrDay : Nat
  loop : Bool
  loopBusy : Bool
  loopPass : Bool
  loopLen : Nat
  freed : List Nat
  peerFreed : List Nat
  sentFlits : List Nat
  badHeaders : Nat
  recalLane : Nat
  clocks : Bool
  trainStart : Nat
  laneErrs : Store Nat
  marginal : List Nat
  heldFrom : Nat
deriving DecidableEq, Repr

/-- A bundle at register reset values; auto is 1 for management bundles (R427). -/
def Bundle.init (b : Nat) : Bundle :=
  { auto := decide (2176 ≤ b), spareAuto := false, state := 0, up := Link.init, down := Link.init, clkLost := false,
    downSeen := false, marginalSeen := false, gateShort := false, deviates := false, corr := 0, uncorr := 0,
    corrDay := 0, uncorrDay := 0, loop := false, loopBusy := false, loopPass := false, loopLen := 0x40,
    freed := [0, 0, 0, 0], peerFreed := [0, 0, 0, 0], sentFlits := [0, 0, 0, 0], badHeaders := 0, recalLane := 0,
    clocks := false, trainStart := 0, laneErrs := [], marginal := [], heldFrom := 0 }

/-- A Chimney slot (R316, R317, R341): the arrivals of each parity as (logical core × 4 + context, OR payload, AND
payload), and outcomes on their way down to member cores. -/
structure Slot where
  enable : Bool
  offDie : Bool
  broken : Bool
  orLast : Nat
  andLast : Bool
  arr0 : List (Nat × Nat × Bool)
  arr1 : List (Nat × Nat × Bool)
  parity : Bool
  sentUp : List Bool
deriving DecidableEq, Repr

/-- A slot at reset: DISABLED (R341). -/
def Slot.init : Slot :=
  { enable := false, offDie := false, broken := false, orLast := 0, andLast := false, arr0 := [], arr1 := [],
    parity := false, sentUp := [] }

/-- An outcome of a slot on its way to a member core (R318, R319, R322): released with payloads and parity, or
broken. DESIGN CHOICE (log 51). -/
structure SlotNews where
  slot : Nat
  core : Nat
  how : Nat
  orp : Nat
  andp : Bool
  parity : Bool
deriving DecidableEq, Repr

/-- The Day timer (R23 to R31, R552). `ns` is the time since Dawn, or since run was set while the first Dawn is
awaited; `numberAt` the M-cycle in which a Dusk last changed DAY_NUMBER (R9, R17); `goneCores` the logical ids that were reset
or had no core in the Day just ended (R192). -/
structure Day where
  period : Nat
  twilight : Nat
  run : Bool
  source : Bool
  markLost : Bool
  overrun : Bool
  inForce : Bool
  ns : Nat
  gate : Bool
  number : Nat
  numberAt : Option Nat
  shadowDay : Nat
  breakCores : List Nat
  localDusk : Bool
  rollForming : Bool
  resetCores : List Nat
  goneCores : List Nat
deriving DecidableEq, Repr

/-- A register write held pending for the next Dusk: address and word (R24, R29). A core's register is named by
2^24 + physical core × 0x1000 + offset. -/
structure PendWrite where
  addr : Nat
  value : Word
deriving DecidableEq, Repr

/-- CHIP_BOOT with the command in progress, the identity unit, the defect map and CHIP_DIE_ID; `lostIds` are logical ids without a physical core since
READY (R21, R465) (R461 to R468, R482, R495, R496, R511, R523). -/
structure Boot where
  powered : Bool
  stage : Nat
  status : Nat
  busy : Bool
  cmd : Nat
  echo : Bool
  echoDigest : BitVec 512
  dieId : Nat
  idState : Nat
  defState : Nat
  defClean : Nat
  defAgree : Nat
  badCores : List Nat
  lostIds : List Nat
  repairs : Store (Nat × Nat)
  gatesOn : Bool
  released : Bool
  topo : Store Nat
  topoMade : Bool
  devKey : BitVec 256
  refPresent : Bool
deriving DecidableEq, Repr

/-- The configuration stores and CFG_ registers (R469 to R488, R498, R499). Stores hold bytes by offset; `memb`
holds the SYNC membership, byte s ÷ 2 of logical core l at l × 64 + s ÷ 2 (R316, R478). Upsets name 8-byte words of the
frames by their offset in the store ÷ 8, each with its error pattern (R500): `cellUpsets` the live cells', `echoUpsets` those of the
Echo image buffer. -/
structure Cfg where
  page : Nat
  target : Bool
  bsState : Nat
  fail : Nat
  frame : Nat
  record : Nat
  gen : Nat
  pending : Option (List Nat × Bool)
  partialSeen : Bool
  rlStatus : Nat
  fixes : Nat
  fixesDay : Nat
  faultedSeen : Bool
  faultFrame : Nat
  faulted : List Nat
  staging : Store Nat
  echoBuf : Store Nat
  shadow : Store Nat
  memb : Store Nat
  cellUpsets : Store Nat
  shadowUpsets : Store Nat
  stagingUpsets : Store Nat
  echoUpsets : Store Nat
deriving DecidableEq, Repr

/-- CHIP_RESET and the domains in reset (R489 to R494, R497). A domain is (scope, index); `since` is the M-cycle of the last
assertion (R32). -/
structure Resets where
  status : Nat
  since : Nat
  asserted : List (Nat × Nat)
  taking : List (Nat × Nat)
  leaving : List (Nat × (Nat × Nat))
deriving DecidableEq, Repr

/-- An error-log record (R508): its body is the entries named by the defining rule, each as (width in bytes, value).
DEDUCED (log 24). -/
structure LogRec where
  cls : Nat
  status : Nat
  core : Nat
  gal : Nat
  cav : Nat
  reported : Bool
  day : Nat
  ns : Nat
  seq : Nat
  body : List (Nat × Nat)
  cyc : Nat
deriving DecidableEq, Repr

/-- The error log (R507, R510, R524). While ECHO_RELOAD runs, `waiting` are the records the stations queue and `missed`
counts those beyond them (R468). `fresh` are the records made in the present M-cycle, in the order in which they enter the log as it
ends (R510); `upsets` the words of stored records that hold an error: (sequence number mod 4,096) × 8 + word, each with its pattern
(R502). -/
structure Log where
  recs : List LogRec
  head : Nat
  tail : Nat
  lost : Nat
  waiting : List LogRec
  missed : Nat
  fresh : List LogRec
  upsets : Store Nat
deriving DecidableEq, Repr

/-- Attestation (R513, R514, R525). -/
structure Attest where
  status : Nat
  busy : Bool
  valid : Bool
  nonce : List Nat
  report : List Byte
deriving DecidableEq, Repr

/-- CHIP_TEST and the TAP (R519 to R522, R525). -/
structure Tap where
  standalone : Bool
  tapLock : Bool
  ir : Nat
  gsel : Nat
  dwr : List Nat
  wrapper : Option Nat
  tdo : Nat
deriving DecidableEq, Repr

/-- PWR_ registers of the chip block (R455 to R458). -/
structure Pwr where
  phaseOp : List Nat
  limitC : Nat
  mismatchSeen : Bool
  railMissingSeen : Bool
  thermSeen : Bool
  critSeen : Bool
  slopeFallSeen : Bool
  slopeFalls : Nat
  slopeFallsDay : Nat
  margin : Nat
deriving DecidableEq, Repr

/-- A staged _LO half or a captured _HI half (R535): the _LO register, named as in PendWrite, and the value. -/
structure HalfWord where
  addr : Nat
  value : Nat
deriving DecidableEq, Repr

/-- What the part has sent down its bundles: packets, management messages (code, bundle of the pair or 8, body bytes as
(width, value)), LINK flits. -/
inductive Sent where
  | packet (phys : Nat) (p : Packet) (flits : List (BitVec 512))
  | message (code : Nat) (body : List (Nat × Nat))
  | link (bundle : Nat) (flit : BitVec 512)
  | mapReport (seq gal : Nat) (outCol : List Nat)
deriving DecidableEq, Repr

/-- Fuses: the three copies of the defect map (none where a word reads uncorrectable), each the bad physical cores and
the tile repairs; the vendor key digest, the PUF key where it can be reconstructed, the identity seed, the device-key
digest; the voltage table and the critical temperature (R435, R458, R482, R511). -/
structure Fuse where
  copies : List (Option (List Nat × Store (Nat × Nat)))
  vendorKey : BitVec 256
  pufKey : Option (BitVec 256)
  seed : BitVec 256
  deviceKey : BitVec 256
  vtable : List Nat
  critC : Nat
deriving DecidableEq, Repr

/-- The whole part. `cores` is by physical core, `gals` by chip Gallery, `bundles` by bundle, `slots` by Chimney slot;
`pending` is the queue of waiting commands; `answer` the status of the last operation that reports one to its sender,
`answerData` the word a read returned; `mNow` M-cycles since power-up; `free` the number of free values drawn. -/
structure State where
  pending : List Instr
  cores : Store Core
  gals : Store Gal
  cavs : Store Cav
  bundles : Store Bundle
  slots : Store Slot
  news : List SlotNews
  net : Net
  day : Day
  held : List PendWrite
  boot : Boot
  cfg : Cfg
  resets : Resets
  log : Log
  attest : Attest
  tap : Tap
  pwr : Pwr
  echoQ : List RegReq
  half : Option HalfWord
  capture : Option HalfWord
  fuse : Fuse
  out : List Sent
  answer : Status
  answerData : Word
  mNow : Nat
  msgSeq : Nat
  free : Nat
deriving DecidableEq, Repr

/-- The fuses of a die that meets R515: three equal copies with no bad core and no repair, and a voltage table that
meets R435 (the values are the model's, notes/assumptions). DESIGN CHOICE (log 6). -/
def Fuse.init : Fuse :=
  { copies := [some ([], []), some ([], []), some ([], [])], vendorKey := 0, pufKey := some 0, seed := 0, deviceKey := 0,
    vtable := [20, 32, 44, 56, 71, 86, 101, 116], critC := 120 }

/-- The part before power-up with every register at its reset value; the queue is empty. DESIGN CHOICE where the spec
gives no value (log 1 to 9, 52, 53). -/
def State.reset : State :=
  { pending := [], cores := [], gals := [], cavs := [], bundles := [], slots := [], news := [],
    net := { pkts := [], locks := [], last := [] },
    day := { period := 0x3E8, twilight := 0x64, run := false, source := true, markLost := false, overrun := false,
             inForce := false, ns := 0, gate := false, number := 0, numberAt := none, shadowDay := 0, breakCores := [],
             localDusk := false, rollForming := false, resetCores := [], goneCores := [] },
    held := [],
    boot := { powered := false, stage := 0, status := 0, busy := false, cmd := 0, echo := false, echoDigest := 0, dieId := 0,
              idState := 0, defState := 0, defClean := 0, defAgree := 0, badCores := [], lostIds := [], repairs := [],
              gatesOn := false, released := false, topo := [], topoMade := false, devKey := 0, refPresent := false },
    cfg := { page := 0, target := false, bsState := 0, fail := 0, frame := 0x7FF, record := 0x1FF, gen := 0,
             pending := none, partialSeen := false, rlStatus := 0, fixes := 0, fixesDay := 0, faultedSeen := false,
             faultFrame := 0x7FF, faulted := [], staging := [], echoBuf := [], shadow := [], memb := [],
             cellUpsets := [], shadowUpsets := [], stagingUpsets := [], echoUpsets := [] },
    resets := { status := 0, since := 0, asserted := [], taking := [], leaving := [] },
    log := { recs := [], head := 0, tail := 0, lost := 0, waiting := [], missed := 0, fresh := [], upsets := [] },
    attest := { status := 0, busy := false, valid := false, nonce := [0, 0, 0, 0, 0, 0, 0, 0], report := [] },
    tap := { standalone := false, tapLock := false, ir := 0xFF, gsel := 0, dwr := [], wrapper := none, tdo := 0 },
    pwr := { phaseOp := List.replicate 16 7, limitC := 0x69, mismatchSeen := false, railMissingSeen := false,
             thermSeen := false, critSeen := false, slopeFallSeen := false, slopeFalls := 0, slopeFallsDay := 0,
             margin := 0x10 },
    echoQ := [], half := none, capture := none, fuse := Fuse.init, out := [], answer := .done, answerData := 0,
    mNow := 0, msgSeq := 0, free := 0 }

/-- Reasons the machine stops with a fault. The spec names none: every command has a next state, so no meaning raises
one; the constructor keeps the type inhabited and is never answered (safe). -/
inductive Fault where
  /-- Raised by no command. Safe. -/
  | none_
deriving DecidableEq, Repr

/-- Reasons a command is refused. -/
inductive Refusal where
  /-- Raised by an arm of exec whose command has no meaning yet, naming its mnemonic. Safe. -/
  | notModelled (mnemonic : String)
deriving DecidableEq, Repr

end Sys2Proof.Machine
end

