-- ==== Sys2Proof/Machine/Ops.lean ====
section
/-!
DEFINITION. The named operations over State: reaching a core, Gallery, Cavern, bundle or slot; the logical-to-physical
map; time; domains in reset; the error log; packets and messages sent; free values.
-/

namespace Sys2Proof.Machine

/-- The physical core with number p. -/
def coreAt (s : State) (p : Nat) : Core := Store.get Core.init s.cores p

/-- Replace a physical core. -/
def setCore (s : State) (p : Nat) (k : Core) : State := { s with cores := Store.set Core.init s.cores p k }

/-- Change a physical core. -/
def updCore (s : State) (p : Nat) (f : Core → Core) : State := setCore s p (f (coreAt s p))

/-- Chip Gallery g. -/
def galAt (s : State) (g : Nat) : Gal := Store.get Gal.init s.gals g

/-- Change a Gallery. -/
def updGal (s : State) (g : Nat) (f : Gal → Gal) : State := { s with gals := Store.set Gal.init s.gals g (f (galAt s g)) }

/-- Cavern c. -/
def cavAt (s : State) (c : Nat) : Cav := Store.get Cav.init s.cavs c

/-- Change a Cavern. -/
def updCav (s : State) (c : Nat) (f : Cav → Cav) : State := { s with cavs := Store.set Cav.init s.cavs c (f (cavAt s c)) }

/-- Bundle b: 0 to 2,175 data bundles by physical core, 2,176 to 2,183 management bundles. -/
def bunAt (s : State) (b : Nat) : Bundle := Store.get (Bundle.init b) s.bundles b

/-- Change a bundle. -/
def updBun (s : State) (b : Nat) (f : Bundle → Bundle) : State :=
  { s with bundles := Store.set (Bundle.init b) s.bundles b (f (bunAt s b)) }

/-- Chimney slot n. -/
def slotAt (s : State) (n : Nat) : Slot := Store.get Slot.init s.slots n

/-- Change a Chimney slot. -/
def updSlot (s : State) (n : Nat) (f : Slot → Slot) : State :=
  { s with slots := Store.set Slot.init s.slots n (f (slotAt s n)) }

/-- Parts of a core. -/
def ringAt (k : Core) (n : Nat) : Ring := Store.get (Ring.init n) k.pool.rings n
def setRing (k : Core) (n : Nat) (r : Ring) : Core :=
  { k with pool := { k.pool with rings := Store.set (Ring.init n) k.pool.rings n r } }
def winAt (k : Core) (w : Nat) : Win := Store.get Win.init k.mv.wins w
def setWin (k : Core) (w : Nat) (x : Win) : Core := { k with mv := { k.mv with wins := Store.set Win.init k.mv.wins w x } }
def descAt (k : Core) (t : Nat) : Desc := Store.get Desc.init k.flow.desc t
def setDesc (k : Core) (t : Nat) (d : Desc) : Core :=
  { k with flow := { k.flow with desc := Store.set Desc.init k.flow.desc t d } }

/-- The fields of a descriptor before the changes listed. -/
def marksOf (d : Desc) : Marks :=
  { exp := d.exp, poisoned := d.poisoned, inf := d.inf, nar := d.nar, cause := d.cause, by_ := d.by_ }

/-- One change of a descriptor's fields (R132, R154, R160, R161): a row that a faulted pass writes, or that is added to a
POISONED tile's words, is NaR. -/
def stepEv (m : Marks) (e : DescEv) : Marks :=
  match e with
  | .poison cause id => { m with poisoned := true, nar := true, cause := cause, by_ := id + 1 }
  | .fresh _ faulted =>
    let p := m.poisoned && faulted
    { m with inf := false, nar := p, poisoned := p, cause := if p then m.cause else 0 }
  | .row id _ inf nar acc =>
    if m.poisoned && (acc || m.by_ == id + 1) then { m with nar := true }
    else { m with inf := m.inf || inf, nar := m.nar || nar }
  | .exp code clear => { m with exp := code, inf := m.inf && !clear, nar := (m.nar && !clear) || m.poisoned }
  | .zero code => { m with exp := code, inf := false, nar := false, poisoned := false, cause := 0 }

/-- The fields of a descriptor as they stand when cycle c begins (R132, R154, R161). -/
def shownMarks (d : Desc) (c : Nat) : Marks :=
  (d.evs.filter fun x => decide (x.1 < c)).foldl (fun m x => stepEv m x.2) (marksOf d)

/-- The fields of a descriptor once every change listed has come about. -/
def finalMarks (d : Desc) : Marks := d.evs.foldl (fun m x => stepEv m x.2) (marksOf d)

/-- A descriptor with given fields. -/
def withMarks (d : Desc) (m : Marks) : Desc :=
  { d with exp := m.exp, poisoned := m.poisoned, inf := m.inf, nar := m.nar, cause := m.cause, by_ := m.by_ }

/-- Put a change in its place, behind those of its cycle. -/
def insertEv : List (Nat × DescEv) → Nat × DescEv → List (Nat × DescEv)
  | [], x => [x]
  | y :: t, x => if x.1 < y.1 then x :: y :: t else y :: insertEv t x

/-- A descriptor with further changes; those before cycle c enter its fields. -/
def addEvs (d : Desc) (c : Nat) (es : List (Nat × DescEv)) : Desc :=
  withMarks { d with evs := es.foldl insertEv (d.evs.filter fun x => decide (c ≤ x.1)) } (shownMarks d c)

/-- A change at once, in a tile that no started command still changes. -/
def changeNow (d : Desc) (f : Marks → Marks) : Desc := withMarks { d with evs := [] } (f (finalMarks d))
def ctxAt (k : Core) (c : Nat) : Ctx := Store.get Ctx.init k.ctxs c
def setCtx (k : Core) (c : Nat) (x : Ctx) : Core := { k with ctxs := Store.set Ctx.init k.ctxs c x }
def queueAt (k : Core) (q : Nat) : Queue := Store.get Queue.init k.queues q
def setQueue (k : Core) (q : Nat) (x : Queue) : Core := { k with queues := Store.set Queue.init k.queues q x }
def cntAt (k : Core) (n : Nat) : Counter := Store.get Counter.init k.sync.counters n
def setCnt (k : Core) (n : Nat) (x : Counter) : Core :=
  { k with sync := { k.sync with counters := Store.set Counter.init k.sync.counters n x } }
def allotAt (k : Core) (q : Nat) : Allot := Store.get Allot.init k.allots q
def setAllot (k : Core) (q : Nat) (x : Allot) : Core := { k with allots := Store.set Allot.init k.allots q x }
def rowAt (k : Core) (r : Nat) : Row := Store.get Row.zero k.pool.rows r
def setRow (k : Core) (r : Nat) (x : Row) : Core :=
  { k with pool := { k.pool with rows := Store.set Row.zero k.pool.rows r x } }
def trowAt (k : Core) (r : Nat) : TileRow := Store.get 0 k.flow.rows r
def setTrow (k : Core) (r : Nat) (x : TileRow) : Core :=
  { k with flow := { k.flow with rows := Store.set 0 k.flow.rows r x } }

/-- Add to a 32-bit census counter: it stays at its limit and reports that it would have passed it (R189). -/
def addSat32 (x n : Nat) : Nat × Bool := if 0xFFFFFFFF < x + n then (0xFFFFFFFF, true) else (x + n, false)

/-- Elements counted enter a tag for a command of a context (R71, R188 to R190, R199). -/
def makeCount (k : Core) (cx tag : Nat) (n : Counts) : Core :=
  let t := Store.get TagCnt.init k.census.live tag
  let z := addSat32 t.zero n.zero
  let a := addSat32 t.sat n.sat
  let r := addSat32 t.nar n.nar
  let o := addSat32 t.total n.total
  let full := packN 1 [b2n (z.2 || bitN t.full 0), b2n (a.2 || bitN t.full 1), b2n (r.2 || bitN t.full 2),
                       b2n (o.2 || bitN t.full 3)]
  let t := { zero := z.1, sat := a.1, nar := r.1, total := o.1, full := full }
  let k := { k with census := { k.census with
    live := Store.set TagCnt.init k.census.live tag t,
    narSeen := k.census.narSeen || decide (0 < n.nar), satSeen := k.census.satSeen || decide (0 < n.sat) } }
  if 0 < n.nar then setCtx k cx { ctxAt k cx with stepNar := true } else k

/-- An effect of a started command comes about in cycle c (R99, R100, R164, R165, R188, R190, R193). -/
def makeLate (k : Core) (c : Nat) (a : LateAct) : Core :=
  match a with
  | .clearNar => { k with census := { k.census with narSeen := false } }
  | .count cx tag n _ _ => makeCount k cx tag n
  | .outSeen b => { k with outp := { k.outp with
      poisonedSeen := k.outp.poisonedSeen || b, conflictSeen := k.outp.conflictSeen || !b } }
  | .vecSeen b => { k with vec := { k.vec with
      poisonedSeen := k.vec.poisonedSeen || b, conflictSeen := k.vec.conflictSeen || !b } }
  | .mismatch _ _ => { k with tile := { k.tile with mismatch := true } }
  | .passEnd id t =>
    if (shownMarks (descAt k t) (c + 1)).poisoned then
      { k with track := k.track.map fun x => if x.id = id then { x with status := some .poisoned } else x }
    else k
  | .rowSent q tag row => { k with mv := { k.mv with runs := k.mv.runs.map fun r =>
      if r.tag = tag ∧ r.q = q then { r with deadline := Store.insert r.deadline row (c + 256 * k.mv.units + 1) } else r } }
  | .conflict _ cse _ => { k with pool := { k.pool with
      conflictSeen := true, reservedHit := k.pool.reservedHit || cse != 0 } }
  | .poolErr a b => { k with
      ecc := { k.ecc with poolCorr := min 0xFFFF (k.ecc.poolCorr + a), poolUnc := min 0xFF (k.ecc.poolUnc + b) },
      pool := { k.pool with uncorrSeen := k.pool.uncorrSeen || decide (0 < b) } }
  | .fsErr a b => { k with
      ecc := { k.ecc with fsCorr := min 0xFFFF (k.ecc.fsCorr + a), fsUnc := min 0xFF (k.ecc.fsUnc + b) } }
  | .record _ _ _ => k

/-- The order of effects: by cycle, a clear before the counts of its cycle (R190). -/
def lateKey (x : Late) : Nat :=
  2 * x.cycle + match x.act with
    | .clearNar => 0
    | _ => 1

/-- Put an effect in its place. -/
def insertLate : List Late → Late → List Late
  | [], x => [x]
  | y :: t, x => if lateKey x < lateKey y then x :: y :: t else y :: insertLate t x

/-- A started command will have an effect in cycle c. -/
def addLate (k : Core) (c : Nat) (a : LateAct) : Core := { k with late := insertLate k.late { cycle := c, act := a } }

/-- A core as it stands when cycle c begins: the effects of earlier cycles have come about. -/
def settleLate (k : Core) (c : Nat) : Core :=
  (k.late.filter fun x => decide (x.cycle < c)).foldl (fun k x => makeLate k x.cycle x.act)
    { k with late := k.late.filter fun x => decide (c ≤ x.cycle) }

/-- An event of the core's own changes the RWH field at a register offset in this M-cycle (R9, R17). -/
def markHw (s : State) (p off : Nat) : State :=
  updCore s p fun k => { k with hw := (k.hw.filter fun x => x.2 == s.mNow) ++ [(off, s.mNow)] }

/-- The die's logical core ids (R18). -/
def dieIds : List Nat := List.range 2048

/-- The data bundles by physical core, and every bundle with the management ones (13_sump). -/
def dataBundles : List Nat := List.range 2176
def allBundles : List Nat := List.range 2184

/-- POOL_ROWS (R214, R216). -/
def poolRows : Nat := 512

/-- The bank of a row (R215). -/
def bankOf (row : Nat) : Nat := row / 32

/-- Cycles from a bank's read to its data: near banks 4, far banks 6 (R215). -/
def bankLatency (bank : Nat) : Nat := if bank < 8 then 4 else 6

/-- Chip Gallery of a logical core (R18); 2,048 + p stands for physical core p while it serves no id (R536). -/
def galOf (l : Nat) : Nat := if l < 2048 then l / 64 else (l - 2048) / 68

/-- Cavern of a logical core (R18). -/
def cavOf (l : Nat) : Nat := galOf l / 8

/-- The physical core a logical id maps to by the row's mapped-out column (R19). -/
def mapCore (s : State) (l : Nat) : Nat :=
  let g := galOf l
  let y := l / 16 % 4
  let j := l % 16
  let k := (galAt s g).outCol.getD y 16
  g * 68 + y * 17 + (if j < k then j else j + 1)

/-- The logical id a physical core stands for in its row's map, none for the mapped-out column (R19). -/
def unmapCore (s : State) (p : Nat) : Option Nat :=
  let g := p / 68
  let y := p % 68 / 17
  let x := p % 68 % 17
  let k := (galAt s g).outCol.getD y 16
  if x = k then none else some (g * 64 + y * 16 + (if x < k then x else x - 1))

/-- A physical core that is fused bad, latched off by a gate short, or whose bundle is FAILED serves no id (R465). -/
def physBad (s : State) (p : Nat) : Bool :=
  s.boot.badCores.contains p || (coreAt s p).gateShort || (bunAt s p).state == 4

/-- The physical core that serves a logical id, none when it has none (R21, R370, R465). -/
def physOf (s : State) (l : Nat) : Option Nat :=
  if 2048 ≤ l then none
  else if (cavAt s (cavOf l)).offline || s.boot.lostIds.contains l then none
  else some (mapCore s l)

/-- Whether a logical id is unserved in the sense of R465. -/
def unserved (s : State) (l : Nat) : Bool := physBad s (mapCore s l) || (physOf s l).isNone

/-- The logical id a physical core serves, none when it serves none. -/
def logOf (s : State) (p : Nat) : Option Nat :=
  match unmapCore s p with
  | none => none
  | some l => if physOf s l = some p then some l else none

/-- A reset domain (scope 0 core, 1 Gallery, 2 Cavern, 3 die) holds a logical core (R489, R497). -/
def domainHolds (d : Nat × Nat) (l : Nat) : Bool :=
  match d.1 with
  | 0 => d.2 == l
  | 1 => d.2 == galOf l
  | 2 => d.2 == cavOf l
  | _ => true

/-- A core that failed in service in a row that already has a mapped-out core: it is held in reset until the next Dusk takes
its id (R21). -/
def failedHeld (s : State) (l : Nat) : Bool :=
  (galAt s (galOf l)).outCol.getD (l / 16 % 4) 16 != 16 && physBad s (mapCore s l)

/-- A logical core is held in reset: not yet released at READY, a domain that holds it in effect or leaving, or the core
failed in service (R21, R463, R489). -/
def inReset (s : State) (l : Nat) : Bool :=
  !s.boot.released || failedHeld s l ||
  s.resets.asserted.any (fun d => domainHolds d l && !s.resets.taking.contains d) ||
  s.resets.leaving.any (fun x => domainHolds x.2 l)

/-- A core's power gate is on (R425, R463). -/
def gateOn (s : State) (p : Nat) : Bool := s.boot.gatesOn && !(coreAt s p).gateShort

/-- The physical core of a logical id that is served, powered and out of reset: one whose engines run. -/
def liveCore (s : State) (l : Nat) : Option Nat :=
  match physOf s l with
  | none => none
  | some p => if gateOn s p && !inReset s l && (cavAt s (cavOf l)).running then some p else none

/-- Run an effect on the physical core of a live logical core; otherwise nothing happens. -/
def withLive (s : State) (l : Nat) (f : Nat → State) : State :=
  match liveCore s l with
  | none => s
  | some p => f p

/-- A core in Daybreak, which issues no foreground command (R30). -/
def inBreak (s : State) (l : Nat) : Bool := s.day.inForce && s.day.breakCores.contains l

/-- The present A-cycle of a Cavern (R432). -/
def aNow (s : State) (cav : Nat) : Nat := (cavAt s cav).fifths / 5

/-- The present A-cycle of a logical core. -/
def cycleOf (s : State) (l : Nat) : Nat := aNow s (cavOf l)

/-- The first cycle from c on whose number is r modulo m. -/
def nextPhase (c r m : Nat) : Nat := c + (r + m - c % m) % m

/-- The present F-cycle of a Gallery's clock (R432). -/
def fNow (s : State) (gal : Nat) : Nat := aNow s (gal / 8) / 2

/-- The phase of bank b's reserved slot (R222). -/
def reservedPhase (b : Nat) : Nat := (2 * b + 16) % 32

/-- The slot-cycle number of a cycle (R222). -/
def slotCycle (c : Nat) : Nat := c / 32 % 16

/-- ns since Dawn, 0 while no Day is in force (R552). -/
def dayNs (s : State) : Nat := if s.day.inForce then s.day.ns else 0

/-- A free value: bits drawn for a place where the spec gives no value, with the counter advanced. DESIGN CHOICE (log
10). -/
def drawFree (s : State) : Nat × State := (Config.freeBits s.free, { s with free := s.free + 1 })

/-- The image bytes of an error-log record (R508). -/
def logImage (r : LogRec) : List Byte :=
  let body := r.body.flatMap fun e => bytesOf e.2 e.1
  let hd := bytesOf r.cls 1 ++ bytesOf r.status 1 ++ bytesOf r.core 2 ++ bytesOf r.gal 1 ++ bytesOf r.cav 1 ++
    bytesOf (b2n r.reported) 1 ++ bytesOf 0 1 ++ bytesOf r.day 8 ++ bytesOf r.ns 4 ++ bytesOf r.seq 4
  (hd ++ body ++ List.replicate 40 0).take 64

/-- Some management bundle is in UP (R420, R422). -/
def mgmtUp (s : State) : Bool := (List.range 8).any fun m => (bunAt s (2176 + m)).state == 2

/-- A management message is sent down a management bundle in UP, if there is one, with the next sequence number in its byte 1 (R420,
R422). One count serves every message. DESIGN CHOICE (log 70). -/
def sendMsg (s : State) (code : Nat) (body : List (Nat × Nat)) : State :=
  if mgmtUp s then
    { s with out := s.out ++ [.message code ((1, s.msgSeq) :: body)], msgSeq := (s.msgSeq + 1) % 256 }
  else s

/-- A record enters the error log with the next sequence number (R507, R508, R510): stored unless 4,096 are unread,
else counted lost; a reported record is sent as an ERROR message either way (R420). -/
def enterLog (s : State) (r : LogRec) : State :=
  let r := { r with seq := s.log.tail }
  let stored := s.log.recs.length < 4096
  let log := { s.log with
    recs := if stored then s.log.recs ++ [r] else s.log.recs,
    tail := (s.log.tail + 1) % 2 ^ 32,
    upsets := s.log.upsets.filter fun e => e.1 / 8 != s.log.tail % 4096,
    lost := if stored then s.log.lost else min 0xFFFF (s.log.lost + 1) }
  let s := { s with log := log }
  if r.reported then sendMsg s 9 ((logImage r).map fun b => (1, b.toNat)) else s

/-- A record of a station while ECHO_RELOAD runs: queued, up to 1,024, or only counted (R468). -/
def queueLog (s : State) (r : LogRec) : State :=
  { s with log := if s.log.waiting.length < 1024 then { s.log with waiting := s.log.waiting ++ [r] }
                  else { s.log with missed := s.log.missed + 1 } }

/-- CHIP_BOOT is busy with ECHO_RELOAD (R468). -/
def reloading (s : State) : Bool := s.boot.busy && s.boot.cmd == 9

/-- The place of a record's source (R510): the chip block, the Cavern stations, the Gallery stations, the cores. -/
def logSource (r : LogRec) : Nat :=
  if r.cav = 0xFF then 0 else if r.gal = 0xFF then 1 + r.cav else if r.core = 0xFFFF then 16 + r.gal else 64 + r.core

/-- A record goes before another of its M-cycle (R510): by source, then by the cycle of its event, then by class. -/
def logBefore (r x : LogRec) : Bool :=
  decide (logSource r < logSource x) ||
  (logSource r == logSource x && (decide (r.cyc < x.cyc) || (r.cyc == x.cyc && decide (r.cls < x.cls))))

/-- Put a record in its place among those of its M-cycle (R510). -/
def insertLog : List LogRec → LogRec → List LogRec
  | [], r => [r]
  | x :: t, r => if logBefore r x then r :: x :: t else x :: insertLog t r

/-- Make an error-log record of an event in cycle `cyc` of its source's clock (R507, R508): it enters the log as the M-cycle ends
(R510). -/
def logRecordAt (s : State) (cls status core gal cav cyc : Nat) (reported : Bool) (body : List (Nat × Nat)) : State :=
  let r : LogRec := { cls := cls, status := status, core := core, gal := gal, cav := cav, reported := reported,
                      day := s.day.number, ns := dayNs s, seq := 0, body := body, cyc := cyc }
  { s with log := { s.log with fresh := insertLog s.log.fresh r } }

/-- Make an error-log record of an event of the present cycle: an A-cycle of the source's Cavern, or an M-cycle of the chip
block. -/
def logRecord (s : State) (cls status core gal cav : Nat) (reported : Bool) (body : List (Nat × Nat)) : State :=
  logRecordAt s cls status core gal cav (if cav < 4 then aNow s cav else s.mNow) reported body

/-- The records of the M-cycle that ends enter the log (R510); a station's waits while ECHO_RELOAD runs (R468). -/
def enterFresh (s : State) : State :=
  s.log.fresh.foldl (fun s r => if reloading s && r.cav != 0xFF then queueLog s r else enterLog s r)
    { s with log := { s.log with fresh := [] } }

/-- The records that waited for ECHO_RELOAD enter the log (R468): the first carries the count of those beyond the
1,024, which are lost. DEDUCED (log 21). -/
def flushLog (s : State) : State :=
  let m := s.log.missed
  let rs := s.log.waiting
  let s := { s with log := { s.log with waiting := [], missed := 0 } }
  let s := match rs with
    | [] => s
    | r :: t => t.foldl enterLog (enterLog s (if m = 0 then r else { r with body := r.body ++ [(4, m)] }))
  { s with log := { s.log with tail := (s.log.tail + m) % 2 ^ 32, lost := min 0xFFFF (s.log.lost + m) } }

/-- A record of a logical core, or of a physical core that serves no id, of an event in A-cycle `c`. -/
def logCoreAt (s : State) (cls : Nat) (st : Status) (l c : Nat) (reported : Bool) (body : List (Nat × Nat)) : State :=
  logRecordAt s cls st.code (if l < 2048 then l else 0xFFFF) (galOf l) (cavOf l) c reported body

/-- A record of a logical core, or of a physical core that serves no id. -/
def logCore (s : State) (cls : Nat) (st : Status) (l : Nat) (reported : Bool) (body : List (Nat × Nat)) : State :=
  logCoreAt s cls st l (cycleOf s l) reported body

/-- A record of the chip block. -/
def logChip (s : State) (cls : Nat) (st : Status) (reported : Bool) (body : List (Nat × Nat)) : State :=
  logRecord s cls st.code 0xFFFF 0xFF 0xFF reported body

/-- A management message arrives on management bundle m: at a link that is not in UP it is discarded and logged (R420). DEDUCED (log
36). -/
def onMsg (s : State) (m code : Nat) (f : State → State) : State :=
  if m < 8 ∧ (bunAt s (2176 + m)).state = 2 then f s else logChip s 7 .done false [(2, 2176 + m), (1, code)]

/-- The record that an effect in cycle c leaves, if it leaves one (R99, R100, R228, R508). -/
def recordLate (s : State) (p c : Nat) (a : LateAct) : State :=
  let l := (logOf s p).getD (2048 + p)
  match a with
  | .mismatch _ body => logCoreAt s 2 .poisoned l c false body
  | .conflict bank cse parties => logCoreAt s 1 .conflict l c false
      ([(1, bank), (1, c % 32), (1, cse)] ++ parties.flatMap fun e => [(1, e.1), (4, e.2)])
  | .record cls st body => logCoreAt s cls st l c false body
  | _ => s

/-- Bring a core's late effects up to cycle c, with their records. -/
def catchUp (s : State) (p c : Nat) : State :=
  let due := (coreAt s p).late.filter fun x => decide (x.cycle < c)
  if due.isEmpty then s
  else due.foldl (fun s x => recordLate s p x.cycle x.act) (updCore s p fun k => settleLate k c)

/-- An effect of cycle c: in that cycle, or at once where it lies behind. -/
def happen (s : State) (p l c : Nat) (a : LateAct) : State :=
  if c < cycleOf s l then recordLate (updCore s p fun k => makeLate k c a) p c a else updCore s p fun k => addLate k c a

/-- Let a live core issue or start a command, its earlier effects having come about, unless it is in Daybreak (R30). -/
def withIssue (s : State) (l : Nat) (f : State → Nat → State) : State :=
  if inBreak s l then s else withLive s l fun p => f (catchUp s p (cycleOf s l)) p

/-- A record of a Gallery station. -/
def logGal (s : State) (cls : Nat) (st : Status) (g : Nat) (reported : Bool) (body : List (Nat × Nat)) : State :=
  logRecord s cls st.code 0xFFFF g (g / 8) reported body

/-- A record of a Cavern station. -/
def logCav (s : State) (cls : Nat) (st : Status) (c : Nat) (reported : Bool) (body : List (Nat × Nat)) : State :=
  logRecord s cls st.code 0xFFFF 0xFF c reported body

/-- A packet with no content. -/
def Packet.empty : Packet :=
  { addr := 0, srcDie := 0, srcCore := 0, host := false, classT := false, agent := 0, ptype := .wr, epoch := 0, tag := 0,
    row := 0, whole := false, word := 0, data := Row.zero, poison := false, dstDie := 0, dstCore := 0, ring := 0,
    count := 0, base := 0, size := 0 }

/-- Fields of a global data address (R35). -/
def addrDie (a : Nat) : Nat := fieldN a 48 16
def addrSpace (a : Nat) : Nat := fieldN a 44 4
def addrCore (a : Nat) : Nat := fieldN a 20 11
def addrByte (a : Nat) : Nat := fieldN a 0 20

/-- Flits of a packet (R279). -/
def packetFlits (p : Packet) : Nat :=
  match p.ptype with
  | .wr => 9
  | .bounce => 9
  | .deepData => 9
  | _ => 1

/-- The virtual channel of a packet: 0 REQ, 1 RSP, 2 SYNC, 3 MGMT (R277). -/
def packetChannel (p : Packet) : Nat :=
  match p.ptype with
  | .ack => 1
  | .grant => 1
  | .sig => 2
  | .bounce => 3
  | .revoke => 3
  | _ => 0

/-- The die and logical core whose interface a packet is bound for: its address for WR, SIG and RD, its named
destination for responses, grants, revokes and bounces. -/
def packetDest (p : Packet) : Nat × Nat :=
  match p.ptype with
  | .wr => (addrDie p.addr.toNat, addrCore p.addr.toNat)
  | .sig => (addrDie p.addr.toNat, addrCore p.addr.toNat)
  | .rd => (addrDie p.addr.toNat, addrCore p.addr.toNat)
  | _ => (p.dstDie, p.dstCore)

/-- A packet travels on the Vein: its destination is a core of this die, and it is no access of a Deep window
(R14, R37). -/
def onVein (s : State) (p : Packet) : Bool :=
  match p.ptype with
  | .wr => addrDie p.addr.toNat == s.boot.dieId && decide (addrSpace p.addr.toNat ≤ 2)
  | .sig => addrDie p.addr.toNat == s.boot.dieId
  | .rd => addrDie p.addr.toNat == s.boot.dieId
  | .deepRd => false
  | _ => p.dstDie == s.boot.dieId && !p.host && !p.classT

/-- Queue a packet at an injection point of a core, to be sent from an A-cycle on: the crossbar port for the Vein, else the
bundle (R387). `src` is the queue it is charged to. -/
def injectFrom (s : State) (p : Nat) (src ready : Nat) (pkt : Packet) : State :=
  let e (t : Nat) : InjPkt :=
    { pkt := pkt, ch := packetChannel pkt, src := src, sent := 0, age := 0, moved := t, ready := ready }
  let now := fNow s (p / 68)
  if onVein s pkt then updCore s p fun k => { k with mv := { k.mv with inj := k.mv.inj ++ [e now] } }
  else updCore s p fun k => { k with mv := { k.mv with injS := k.mv.injS ++ [e now] } }

/-- Queue a packet that may be sent at once. -/
def inject (s : State) (p : Nat) (src : Nat) (pkt : Packet) : State := injectFrom s p src 0 pkt

/-- The ACK of a packet with a status, from a core of this die back to the packet's sender (R272, R279). -/
def ackOf (s : State) (l : Nat) (pkt : Packet) (st : Status) : Packet :=
  { Packet.empty with
    addr := pkt.addr, srcDie := s.boot.dieId, srcCore := l, host := pkt.host, classT := pkt.classT, agent := pkt.agent,
    ptype := .ack, epoch := pkt.epoch, tag := pkt.tag, row := pkt.row, whole := pkt.whole,
    word := BitVec.ofNat 64 st.code, dstDie := pkt.srcDie, dstCore := pkt.srcCore }

/-- Answer a packet from a core: on the Vein to a core of this die, else down the core's bundle. -/
def answerPkt (s : State) (p l : Nat) (port : Port) (pkt : Packet) (st : Status) : State :=
  let a := ackOf s l pkt st
  let s := { s with answer := st }
  match port with
  | .vein => inject s p 5 a
  | .sump b _ => updCore s b fun k =>
      { k with mv := { k.mv with injS := k.mv.injS ++ [{ pkt := a, ch := 1, src := 5, sent := 0, age := 0,
                                                          moved := fNow s (b / 68), ready := 0 }] } }

/-- Set the status the last operation reported to its sender. -/
def report (s : State) (st : Status) : State := { s with answer := st }

/-- The lowest-index element of a list that satisfies a test, with its index. -/
def findIdx {α : Type} (f : α → Bool) : List α → Option (Nat × α)
  | [] => none
  | x :: t => if f x then some (0, x) else (findIdx f t).map fun r => (r.1 + 1, r.2)

/-- Remove the element at an index. -/
def dropAt {α : Type} : List α → Nat → List α
  | [], _ => []
  | _ :: t, 0 => t
  | x :: t, n + 1 => x :: dropAt t n

end Sys2Proof.Machine
end

