-- ==== Sys2Proof/Machine/Frames.lean ====
section
/-!
DEFINITION. Reading a bit-stream held in a byte store: its header, frame table and frames (15_bringup_config_reset R469 to
R478).
-/

namespace Sys2Proof.Machine

/-- A byte of a store. -/
def stByte (st : Store Nat) (i : Nat) : Nat := Store.get 0 st i % 256

/-- `w` bytes of a store from offset i, little-endian. -/
def stWord (st : Store Nat) (i w : Nat) : Nat := packN 8 ((List.range w).map fun j => stByte st (i + j))

/-- `w` bytes of a store as a list. -/
def stBytes (st : Store Nat) (i w : Nat) : List Byte := (List.range w).map fun j => BitVec.ofNat 8 (stByte st (i + j))

/-- Write a 32-bit word into a store. -/
def stPut (st : Store Nat) (i v : Nat) : Store Nat :=
  (List.range 4).foldl (fun st j => Store.set 0 st (i + j) (fieldN v (8 * j) 8)) st

/-- The frame count of a bit-stream's header (R470). -/
def bsCount (st : Store Nat) : Nat := stWord st 12 2

/-- The generation of a bit-stream's header (R470). -/
def bsGen (st : Store Nat) : Nat := stWord st 8 4

/-- The offset F of the first frame for n frames (R469). -/
def bsFirst (n : Nat) : Nat := 4096 * ((5376 + 24 * n + 4095) / 4096)

/-- An entry of the frame table (R472): type, scope, sequence number, offset and check. -/
structure FrameEntry where
  ftype : Nat
  scope : Nat
  seq : Nat
  off : Nat
  check : Nat
deriving DecidableEq, Repr

/-- Entry j of the frame table (R472). -/
def bsEntry (st : Store Nat) (j : Nat) : FrameEntry :=
  let o := 0x1500 + 24 * j
  { ftype := stByte st o, scope := stByte st (o + 1), seq := stWord st (o + 2) 2, off := stWord st (o + 4) 4,
    check := stWord st (o + 8) 8 }

/-- The frame table in order. -/
def bsTable (st : Store Nat) : List FrameEntry := (List.range (bsCount st)).map (bsEntry st)

/-- The offset of a frame by type, scope and sequence number. -/
def bsFind (st : Store Nat) (t sc sq : Nat) : Option Nat :=
  ((bsTable st).find? fun e => e.ftype == t && e.scope == sc && e.seq == sq).map (·.off)

/-- The bytes of the frame at an offset. -/
def frameBytes (st : Store Nat) (off : Nat) : List Byte := stBytes st off 4096

/-- The check of a frame's bytes (R471). -/
def frameCheck (bytes : List Byte) : Nat := (Config.shake256 bytes).toNat % 2 ^ 64

/-- The offset of a bundle's record: data bundle b in its Gallery's MAP frame (R477), management bundle in STRUCTURE
(R476). -/
def bundleRecord (st : Store Nat) (b : Nat) : Option Nat :=
  if b < 2176 then (bsFind st 2 (b / 68 / 8) (b / 68 % 8)).map fun o => o + 32 + 32 * (b % 68)
  else (bsFind st 1 0x0F 0).map fun o => o + 736 + 32 * (b - 2176)

/-- The positions and clock lanes of a link that its record marks bad (R477): `down` selects the down link. -/
def recordBad (st : Store Nat) (b : Nat) (down : Bool) : List Nat × List Nat :=
  match bundleRecord st b with
  | none => ([], [])
  | some o =>
    let o := if down then o + 10 else o
    let x := stWord st o 9
    let y := stByte st (o + 9)
    ((List.range 68).filter (bitN x), (List.range 3).filter (bitN y))

/-- The expected out_col of a Gallery row in the STRUCTURE frame, 0xFF for any (R476). -/
def expectedCol (st : Store Nat) (g y : Nat) : Nat :=
  match bsFind st 1 0x0F 0 with
  | none => 0xFF
  | some o => stByte st (o + 32 + 4 * g + y)

/-- The gang shapes that STRUCTURE requires of a Gallery (R476). -/
def requiredShapes (st : Store Nat) (g : Nat) : Nat :=
  match bsFind st 1 0x0F 0 with
  | none => 0
  | some o => stByte st (o + 160 + g)

/-- The minimum width of bundle i that STRUCTURE requires (R476). -/
def minWidth (st : Store Nat) (i : Nat) : Nat :=
  match bsFind st 1 0x0F 0 with
  | none => 0
  | some o => fieldN (stByte st (o + 192 + i / 4)) (2 * (i % 4)) 2

end Sys2Proof.Machine
end

