-- ==== Sys2Proof/Machine/Flit.lean ====
section
/-!
DEFINITION. Flits: the header and LINK layouts, the codewords of a flit and their places on the wires, ident words, and what a
receiver does with codewords in error (09_move_engine_and_mesh R279, R280; 13_sump_interface R407 to R414).
-/

namespace Sys2Proof.Machine

/-- The code of a packet's type (R279). -/
def ptypeCode (t : PType) : Nat :=
  match t with
  | .wr => 0
  | .sig => 1
  | .ack => 2
  | .grant => 3
  | .revoke => 4
  | .bounce => 5
  | .deepRd => 6
  | .deepData => 7
  | .rd => 8
  | .other c => c

/-- The word of a header (R279). A GRANT's or REVOKE's holds ring or window, count, region base and size; R279 gives these no places
within the word: they stand in that order from its bit 0 on, in 5, 11, 10 and 11 bits. DESIGN CHOICE (log 70). -/
def headerWord (p : Packet) : Nat :=
  if p.ptype = .grant ∨ p.ptype = .revoke then
    p.ring % 2 ^ 5 + 2 ^ 5 * (p.count % 2 ^ 11) + 2 ^ 16 * (p.base % 2 ^ 10) + 2 ^ 26 * (p.size % 2 ^ 11)
  else p.word.toNat

/-- The header flit of a packet (R279). -/
def headerFlit (p : Packet) : BitVec 512 :=
  BitVec.ofNat 512 (
    p.addr.toNat + 2 ^ 64 * (p.srcDie % 2 ^ 16) + 2 ^ 80 * (p.srcCore % 2 ^ 11) + 2 ^ 91 * b2n p.classT +
    2 ^ 92 * (p.agent % 2 ^ 8) + 2 ^ 100 * (ptypeCode p.ptype % 16) + 2 ^ 104 * packetChannel p +
    2 ^ 106 * (p.epoch % 2 ^ 8) + 2 ^ 114 * (p.tag % 2 ^ 8) + 2 ^ 122 * (p.row % 16) + 2 ^ 126 * b2n p.whole +
    2 ^ 128 * headerWord p + (if packetFlits p = 1 then 0 else 2 ^ 320 * p.data.side.toNat))

/-- The flits of a packet: its header flit, and eight data flits where it carries a row (R279). -/
def flitsOf (p : Packet) : List (BitVec 512) :=
  headerFlit p ::
    (if packetFlits p = 1 then [] else (List.range 8).map fun k => p.data.data.extractLsb' (512 * k) 512)

/-- The eight codewords of a flit (R407, R500). -/
def flitWords (f : BitVec 512) : List Nat := (List.range 8).map fun w => codeword (fieldN f.toNat (64 * w) 64)

/-- The codeword and the bit of it that logical lane l carries in UI u of a flit (R407). -/
def wireAt (u l : Nat) : Nat × Nat := ((l + u) % 8, 8 * u + l / 8)

/-- The logical lane that carries bit i of codeword w, in UI i / 8 (R407). -/
def laneOf (w i : Nat) : Nat := 8 * (i % 8) + (w + 72 - i / 8) % 8

/-- What a logical lane carries in a UI of a flit (R407). -/
def wireBit (f : BitVec 512) (u l : Nat) : Bool := bitN ((flitWords f).getD (wireAt u l).1 0) (wireAt u l).2

/-- At half width, the UI and logical lane of a flit that lane j of the good half carries in its n-th UI of 18 (R408). -/
def halfWire (n j : Nat) : Nat × Nat := (n % 9, j + 32 * (n / 9))

/-- Some codeword arrived uncorrectable (R501). -/
def lostWord (errs : List (Nat × Nat)) : Bool := errs.any fun e => eccGrade e.2 == 2

/-- Codewords corrected (R501). -/
def fixedWords (errs : List (Nat × Nat)) : Nat := (errs.filter fun e => eccGrade e.2 == 1).length

/-- A bundle's receiver counts one codeword in error (R411, R430): a corrected bit names its logical lane (R407). -/
def countErr (x : Bundle) (e : Nat × Nat) : Bundle :=
  match eccGrade e.2, eccBit (syndrome e.2) with
  | 1, some i =>
    let lane := laneOf (e.1 % 8) i
    { x with corr := min 0xFFFF (x.corr + 1), laneErrs := Store.set 0 x.laneErrs lane (Store.get 0 x.laneErrs lane + 1) }
  | 2, _ => { x with uncorr := min 0xFF (x.uncorr + 1) }
  | _, _ => x

/-- A bundle's receiver counts codewords in error (R411, R430). -/
def countErrs (x : Bundle) (errs : List (Nat × Nat)) : Bundle := errs.foldl countErr x

/-- The LINK flit a part sends: its counts of flits freed and its state (R409). -/
def linkFlit (state : Nat) (freed : List Nat) : BitVec 512 :=
  BitVec.ofNat 512 (packN 16 (freed.take 4) + 2 ^ 81 * (state % 4) + 2 ^ 100 * 0xF)

/-- A flit in header position is a LINK flit (R409). -/
def isLink (f : BitVec 512) : Bool := fieldN f.toNat 100 4 == 0xF

/-- The counts of flits freed that a LINK flit carries, by channel (R409). -/
def linkCounts (f : BitVec 512) : List Nat := unpackN 16 f.toNat 4

/-- The die that a LINK flit reports down (R409). -/
def linkDie (f : BitVec 512) : Option Nat := if bitN f.toNat 80 then some (fieldN f.toNat 64 16) else none

/-- The ident word of a transmitter position (R413): half, position within the half and direction between its marks. -/
def identWord (half pos dir : Nat) : BitVec 16 :=
  BitVec.ofNat 16 (0b0101 + 2 ^ 4 * (half % 2) + 2 ^ 5 * (pos % 2 ^ 6) + 2 ^ 11 * (dir % 2) + 2 ^ 12 * 0b1010)

/-- The 32 UI of an ident word: the word, then its bitwise complement (R413). -/
def identSent (w : BitVec 16) : BitVec 32 := ~~~w ++ w

/-- The ident word that 32 received UI hold, if they are valid: both marks stand, and the complement follows (R413, R414). -/
def identRead (x : BitVec 32) : Option (BitVec 16) :=
  let w := x.extractLsb' 0 16
  if identSent w = x ∧ w.extractLsb' 0 4 = 0b0101 ∧ w.extractLsb' 12 4 = 0b1010 then some w else none

end Sys2Proof.Machine
end

