-- ==== Sys2Proof/Machine/PoolOps.lean ====
section
/-!
DEFINITION. Shared operations of the Pool: regions and ring conditions, credits, scoreboard marks, and foreground
accesses with their bank conflicts (08_pool).
-/

namespace Sys2Proof.Machine

/-- The region [base, base+size) overlaps a bank (R215, R243, R247). -/
def overlapsBank (base size b : Nat) : Bool := decide (32 * b < base + size ∧ base < 32 * b + 32 ∧ 0 < size)

/-- Two row regions overlap (R237). -/
def overlaps (b1 n1 b2 n2 : Nat) : Bool := decide (b1 < b2 + n2 ∧ b2 < b1 + n1 ∧ 0 < n1 ∧ 0 < n2)

/-- Some bank of the region has a power-down request or is off (R243). -/
def regionOff (k : Core) (base size : Nat) : Bool :=
  (k.pool.offReq ++ k.pool.off).any fun b => overlapsBank base size b

/-- Occupied counts of a ring: tail − head modulo 2^32 (R235). -/
def ringOcc (r : Ring) : Nat := (r.tail + 2 ^ 32 - r.head % 2 ^ 32) % 2 ^ 32

/-- The row named by a count of a ring (R235). -/
def ringRow (r : Ring) (c : Nat) : Nat := r.base + c % 2 ^ 32 % r.size

/-- A row lies in the region of a ring. -/
def inRing (r : Ring) (row : Nat) : Bool := decide (r.base ≤ row ∧ row < r.base + r.size)

/-- A row of a ring's region is at an occupied count (R235). -/
def rowOccupied (r : Ring) (row : Nat) : Bool :=
  (List.range (min (ringOcc r) r.size)).any fun i => ringRow r (r.head + i) == row

/-- A row of a ring's region is at a free count: one from tail up to head + size (R235). -/
def rowFree (r : Ring) (row : Nat) : Bool :=
  (List.range (r.size - ringOcc r)).any fun i => ringRow r (r.tail + i) == row

/-- The enabled ring whose region holds a row (R237). -/
def ringOfRow (k : Core) (row : Nat) : Option (Nat × Ring) :=
  ((List.range 16).map fun n => (n, ringAt k n)).find? fun x => x.2.enable && inRing x.2 row

/-- The open window whose region holds a row (R237). -/
def winOfRow (k : Core) (row : Nat) : Option (Nat × Win) :=
  ((List.range 8).map fun w => (w, winAt k w)).find? fun x => x.2.opened && decide (x.2.base ≤ row ∧ row < x.2.base + x.2.size)

/-- The GRANT packet of a ring or window of a core (R243, R279, R285). -/
def grantPacket (s : State) (l ring count base size die core : Nat) (host classT : Bool) (agent : Nat) : Packet :=
  { Packet.empty with srcDie := s.boot.dieId, srcCore := l, ptype := .grant, ring := ring, count := count, base := base,
                      size := size, dstDie := die, dstCore := core, host := host, classT := classT, agent := agent }

/-- The REVOKE packet of a ring or window (R273, R279). -/
def revokePacket (s : State) (l ring die core : Nat) (host classT : Bool) (agent : Nat) : Packet :=
  { grantPacket s l ring 0 0 0 die core host classT agent with ptype := .revoke }

/-- Grant credits of a ring to its bound producer, or add them to withheld (R243). Kind 0 uses no credits. -/
def grantRing (s : State) (p l n count : Nat) : State :=
  let k := coreAt s p
  let r := ringAt k n
  if r.kind = 0 ∨ count = 0 ∨ r.abandoned then s
  else if regionOff k r.base r.size then setCore s p (setRing k n { r with withheld := r.withheld + count })
  else
    let s := setCore s p (setRing k n { r with outst := r.outst + count })
    inject s p 5 (grantPacket s l n count r.base r.size r.die r.core (r.kind == 3) false 0)

/-- Grant credits of an admission window through the base, or withhold them (R285). -/
def grantWin (s : State) (p l w count : Nat) : State :=
  let k := coreAt s p
  let x := winAt k w
  if count = 0 then s
  else if regionOff k x.base x.size then setCore s p (setWin k w { x with withheld := x.withheld + count })
  else
    let s := setCore s p (setWin k w { x with outst := x.outst + count })
    inject s p 5 (grantPacket s l (16 + w) count x.base x.size 0 0 false true x.agent)

/-- Grant the withheld credits of every ring and window that no longer overlaps a bank requested off or off
(R243, R249, R285). -/
def releaseWithheld (s : State) (p l : Nat) : State :=
  let s := (List.range 16).foldl (fun s n =>
    let k := coreAt s p
    let r := ringAt k n
    if r.withheld > 0 ∧ !regionOff k r.base r.size then
      grantRing (setCore s p (setRing k n { r with withheld := 0 })) p l n r.withheld
    else s) s
  (List.range 8).foldl (fun s w =>
    let k := coreAt s p
    let x := winAt k w
    if x.withheld > 0 ∧ !regionOff k x.base x.size then
      grantWin (setCore s p (setWin k w { x with withheld := 0 })) p l w x.withheld
    else s) s

/-- Disable a ring: counts 0 and a revoke to the producer; an abandoned ring stays so until it is enabled again (R245, R246,
R273). -/
def disableRing (s : State) (p l n : Nat) : State :=
  let k := coreAt s p
  let r := ringAt k n
  let s := setCore s p (setRing k n { r with enable := false, outst := 0, withheld := 0 })
  if r.enable ∧ r.kind ≠ 0 then inject s p 5 (revokePacket s l n r.die r.core (r.kind == 3) false 0) else s

/-- Close a window: counts 0 and a revoke (R285). -/
def closeWin (s : State) (p l w : Nat) : State :=
  let k := coreAt s p
  let x := winAt k w
  let s := setCore s p (setWin k w { x with opened := false, outst := 0, withheld := 0 })
  if x.opened then inject s p 5 (revokePacket s l (16 + w) 0 0 false true x.agent) else s

/-- A mark is seen by an issue check of cycle c (R231). -/
def markSeen (c : Nat) (m : Mark) : Bool :=
  match m.till with
  | none => true
  | some t => decide (c ≤ t)

/-- The first mark that blocks a read of a row at cycle c (R230). -/
def readBlocker (k : Core) (c row : Nat) : Option Mark :=
  k.pool.marks.find? fun m => m.row == row && m.write && markSeen c m

/-- The first mark that blocks a write of a row at cycle c (R230). -/
def writeBlocker (k : Core) (c row : Nat) : Option Mark := k.pool.marks.find? fun m => m.row == row && markSeen c m

/-- A row is produced for a command about to issue at cycle c (R230, R236). -/
def produced (k : Core) (c row : Nat) : Bool :=
  (readBlocker k c row).isNone &&
  (match ringOfRow k row with
   | some (_, r) => !r.enforce || rowOccupied r row
   | none => true)

/-- A row is drained for a local write of a command about to issue at cycle c (R230, R236). -/
def drained (k : Core) (c row : Nat) : Bool :=
  (writeBlocker k c row).isNone &&
  (match ringOfRow k row with
   | some (_, r) => !r.enforce || (rowFree r row && r.kind == 0)
   | none => true)

/-- A read row that lies in an abandoned ring and is not occupied: its command ends ABANDONED (R245). -/
def readAbandoned (k : Core) (row : Nat) : Bool :=
  match ringOfRow k row with
  | some (_, r) => r.abandoned && !rowOccupied r row
  | none => false

/-- Add marks, dropping those cleared before cycle c (R229). -/
def addMarks (k : Core) (c : Nat) (ms : List Mark) : Core :=
  { k with pool := { k.pool with marks := k.pool.marks.filter (markSeen c) ++ ms } }

/-- A foreground access of a command: its row, cycle, whether it writes, the tracked command and what it is for (R223). -/
structure Fore where
  row : Nat
  cycle : Nat
  write : Bool
  track : Nat := 0
  use : Use := .other
deriving DecidableEq, Repr

/-- The bank is powered down or powering up in cycle c (R226, R247, R249). -/
def bankOff (k : Core) (b c : Nat) : Bool :=
  k.pool.off.contains b && decide (Store.get 0 k.pool.downAt b ≤ c) && !k.pool.ups.any fun u => u.1 == b && decide (u.2 ≤ c)

/-- The case of R227 that an access meets, none when it is made: 1 the reserved slot, 2 a powered-down or powering
bank, 0 another foreground access of the core's plan or of the operand `meets`. -/
def foreCase (k : Core) (meets : List Meet) (idx : Nat) (f : Fore) : Option Nat :=
  let b := bankOf f.row
  if f.cycle % 32 = reservedPhase b then some 1
  else if bankOff k b f.cycle then some 2
  else if meets.any (fun m => m.access == idx) || k.pool.plan.any (fun a => a.cycle == f.cycle && bankOf a.row == b) then some 0
  else none

/-- The other parties of a conflict known as the access is planned: engine and queue slot (R228). The record names the new access before
them. DESIGN CHOICE (log 65). -/
def foreParties (k : Core) (meets : List Meet) (idx : Nat) (f : Fore) : List (Nat × Nat) :=
  ((meets.filter fun m => m.access == idx).map fun m => (m.engine, m.slot)) ++
  ((k.pool.plan.filter fun a => a.cycle == f.cycle && bankOf a.row == bankOf f.row).map fun a => (a.engine, a.slot))

/-- Parties join the bank conflict of a bank and cycle, which is one and comes about in that cycle (R227, R228). -/
def joinConflict (k : Core) (cycle bank cse : Nat) (parties : List (Nat × Nat)) : Core :=
  let joins (x : Late) : Bool :=
    match x.act with
    | .conflict b _ _ => x.cycle == cycle && b == bank
    | _ => false
  match k.late.find? joins with
  | none => addLate k cycle (.conflict bank cse parties)
  | some _ => { k with late := k.late.map fun x =>
      if !(joins x) then x
      else { x with act := match x.act with
        | .conflict b c ps => .conflict b c (ps ++ parties.filter fun e => !ps.contains e)
        | a => a } }

/-- The accesses planned for a cycle and bank are not made either (R227). -/
def failPlan (k : Core) (cycle bank : Nat) : Core :=
  { k with pool := { k.pool with plan := k.pool.plan.map fun a =>
      if a.cycle == cycle && bankOf a.row == bank && !a.failed then { a with failed := true } else a } }

/-- The queue slot by which the plan names the reads of a SAVE, which belong to no queue (R364). -/
def saveSlot : Nat := 2 ^ 32

/-- A later access meets a read that a SAVE has still to make: the SAVE ends with CONFLICT, the rows not yet sent with it (R227,
R364). -/
def breakSave (k : Core) (cycle bank : Nat) : Core :=
  let hit := k.pool.plan.any fun a => a.cycle == cycle && bankOf a.row == bank && a.slot == saveSlot
  if hit && k.op.busy && k.op.op == 4 && k.op.stage == 1 then
    { k with op := { k.op with left := [], fail := some Status.conflict.code },
             mv := { k.mv with injS := k.mv.injS.filter fun x => !(x.src == 4 && x.sent == 0) } }
  else k

/-- Judge the foreground accesses of one command in order: the case of each, the plan extended, and the conflicts to come, in which no
access is made (R226 to R228). -/
def doFore (s : State) (p l engine slot : Nat) (meets : List Meet) (fs : List Fore) : List (Option Nat) × State :=
  let now := cycleOf s l
  let k := coreAt s p
  let cases := fs.mapIdx fun i f => foreCase k meets i f
  let s := (fs.mapIdx fun i f => (i, f)).foldl (fun s x =>
    match foreCase k meets x.1 x.2 with
    | none => s
    | some c =>
      let bank := bankOf x.2.row
      updCore s p fun k => joinConflict (failPlan (breakSave k x.2.cycle bank) x.2.cycle bank) x.2.cycle bank c
        ((engine, slot) :: foreParties k meets x.1 x.2)) s
  let s := updCore s p fun k => { k with pool := { k.pool with
    plan := k.pool.plan.filter (fun a => decide (now ≤ a.cycle)) ++
      (fs.zip cases).map fun x => { cycle := x.1.cycle, row := x.1.row, engine := engine, slot := slot, track := x.1.track,
                                    failed := x.2.isSome, use := x.1.use } } }
  (cases, s)

/-- The errors in the codewords of a Pool row (R220). -/
def rowErrs (k : Core) (row : Nat) : Store Nat := k.upsets.pool.filter fun e => e.1 / 66 == row

/-- Codewords of a list of errors that a read corrects (R501). -/
def correctedIn (es : Store Nat) : Nat := (es.filter fun e => eccGrade e.2 == 1).length

/-- A list of errors holds an uncorrectable one (R501). -/
def badIn (es : Store Nat) : Bool := es.any fun e => eccGrade e.2 == 2

/-- A Pool row holds an uncorrectable word (R220, R500). -/
def rowBad (k : Core) (row : Nat) : Bool := badIn (rowErrs k row)

/-- A row as a read delivers it, each codeword corrected (R501). -/
def fixRow (x : Row) (es : Store Nat) : Row :=
  es.foldl (fun r e =>
    let i := e.1 % 66
    if i < 64 then { r with data := r.data ^^^ BitVec.ofNat 4096 (eccData e.2 * 2 ^ (64 * i)) }
    else { r with side := r.side ^^^ BitVec.ofNat 128 (eccData e.2 * 2 ^ (64 * (i - 64))) }) x

/-- A Pool row as a read delivers it (R220, R501). -/
def seenRow (k : Core) (row : Nat) : Row := fixRow (rowAt k row) (rowErrs k row)

/-- Count a use of a row held in a buffer of the core, as of the Pool row it carries (R502, R506). -/
def countBuf (k : Core) (es : Store Nat) : Core :=
  if es.isEmpty then k
  else { k with ecc := { k.ecc with
    poolCorr := min 0xFFFF (k.ecc.poolCorr + correctedIn es), poolUnc := min 0xFF (k.ecc.poolUnc + b2n (badIn es)) } }

/-- The cycle in which the failure of an access of cycle c is found: of an uncorrectable read, that in which its data is available
(R215). -/
def failCycle (c row cause : Nat) : Nat := if cause = 3 then c + bankLatency (bankOf row) else c

/-- Count a read of a Pool row's errors, each corrected codeword once and an uncorrectable row once (R220, R506). The one record of an uncorrectable row is the reader's own where its
chapter gives one (R84, R151, R187, R346), and otherwise, with `ecc`, one of class ECC (R270, R502). DEDUCED (log 54). They are found in
the cycle in which the data of the read of cycle c is available (R215). -/
def usePoolRow (s : State) (p l row c : Nat) (ecc : Bool) : State :=
  let es := rowErrs (coreAt s p) row
  if es.isEmpty then s
  else
    let c := c + bankLatency (bankOf row)
    let s := happen s p l c (.poolErr (correctedIn es) (b2n (badIn es)))
    if badIn es && ecc then happen s p l c (.record 11 .poisoned [(1, 0), (2, row)]) else s

/-- Write a Pool row: all 528 bytes; fresh codewords and no stale correction to write back (R217, R225). -/
def writeRow (k : Core) (row : Nat) (x : Row) : Core :=
  let k := setRow k row x
  { k with upsets := { k.upsets with pool := k.upsets.pool.filter fun e => e.1 / 66 != row },
           pool := { k.pool with wb := k.pool.wb.filter (· ≠ row) } }

/-- A started command will write a Pool row in a cycle to come: the row as it will stand, with what it held until then kept
for a core reset before that cycle (R165, R187). -/
def laterRow (k : Core) (now at_ row : Nat) (x : Row) : Core :=
  let old : RowWas := { cycle := at_, row := row, data := rowAt k row, errs := rowErrs k row }
  writeRow { k with pool := { k.pool with was := (k.pool.was.filter fun w => decide (now ≤ w.cycle)) ++ [old] } } row x

/-- A row that a started command was to write in a cycle to come stands as it was. -/
def putBack (k : Core) (w : RowWas) : Core :=
  let k := writeRow k w.row w.data
  { k with upsets := { k.upsets with pool := w.errs.foldl (fun m e => Store.set 0 m e.1 e.2) k.upsets.pool } }

/-- A core reset in cycle c: rows that a running command had not written stay as they were, the last write undone first
(R165, R187). -/
def undoRows (k : Core) (c : Nat) : Core :=
  let k := (k.pool.was.filter fun w => decide (c ≤ w.cycle)).foldr (fun w k => putBack k w) k
  { k with pool := { k.pool with was := [] } }

/-- Zero every row of a bank (R221). -/
def zeroBank (k : Core) (b : Nat) : Core :=
  { k with pool := { k.pool with rows := k.pool.rows.filter (fun e => bankOf e.1 ≠ b),
                                 wb := k.pool.wb.filter (fun r => bankOf r ≠ b) },
           upsets := { k.upsets with pool := k.upsets.pool.filter fun e => bankOf (e.1 / 66) ≠ b } }

/-- Rows read for a command: each row with the case that made its read fail (a case of R227, or 3 for an uncorrectable
read, R151), in order of the accesses. -/
def readRows (s : State) (p l engine slot : Nat) (meets : List Meet) (fs : List Fore) :
    List (Row × Option Nat) × State :=
  let k := coreAt s p
  let (cs, s) := doFore s p l engine slot meets fs
  let s := (fs.zip cs).foldl (fun s x => if x.2.isNone && !x.1.write then usePoolRow s p l x.1.row x.1.cycle (decide (3 ≤ engine)) else s) s
  (((fs.zip cs).map fun x =>
    (seenRow k x.1.row, match x.2 with
      | some c => some c
      | none => if !x.1.write && rowBad k x.1.row then some 3 else none)), s)

end Sys2Proof.Machine
end

