-- ==== Sys2Proof/Machine/QueueOps.lean ====
section
/-!
DEFINITION. Shared operations of the command queues: the head slot, leaving the head, retiring, tracking commands for
FENCE and SAVE, and the parking test (11_queues_and_contexts).
-/

namespace Sys2Proof.Machine

/-- Change a queue of a core. -/
def updQueue (s : State) (p q : Nat) (f : Queue → Queue) : State := updCore s p fun k => setQueue k q (f (queueAt k q))

/-- Change a context slot of a core. -/
def updCtx (s : State) (p c : Nat) (f : Ctx → Ctx) : State := updCore s p fun k => setCtx k c (f (ctxAt k c))

/-- The queue slot of the command at the head: (count × 16 + index) mod 2^32 (R345). With no row fetched, the count is
the ring's head. -/
def headSlotNo (k : Core) (q : Nat) : Nat :=
  let x := queueAt k q
  let c := match x.bufs with
    | [] => (ringAt k q).head
    | b :: _ => b.count
  (c * 16 + x.nextSlot) % 2 ^ 32

/-- A fetched row is uncorrectable: as it was read, or in its buffer (R346, R502). -/
def frowBad (b : FRow) : Bool := b.bad || badIn b.errs

/-- The 32 bytes of the slot at the head, none when no row is fetched or it is uncorrectable (R343, R346). -/
def headBits (x : Queue) : Option Nat :=
  match x.bufs with
  | [] => none
  | b :: _ => if frowBad b then none else some (fieldN (fixRow b.row b.errs).data.toNat (256 * x.nextSlot) 256)

/-- A queue at work: its ring enabled, bound, RUNNING, with nothing asleep, fenced or already decoded at its head. -/
def queueFree (k : Core) (q : Nat) : Bool :=
  let x := queueAt k q
  (ringAt k q).enable && x.state == 1 && x.head.isNone && x.sleep.isNone && x.fence.isNone

/-- The first cycle in which the command at the head may decode (R347). -/
def decodeCycle (s : State) (l : Nat) (x : Queue) : Nat := max (cycleOf s l) x.ready

/-- The next count a queue has not fetched (R344). -/
def fetchCount (k : Core) (q : Nat) : Nat := ((ringAt k q).head + (queueAt k q).bufs.length) % 2 ^ 32

/-- The first reserved slot of a bank from cycle c that is not the scrubber's own and that no access has taken (R222,
R224). -/
def reservedFrom (k : Core) (c b : Nat) : Nat :=
  let e := nextPhase (max c (Store.get 0 k.pool.given b)) (reservedPhase b) 32
  if slotCycle e = 15 then e + 32 else e

/-- A queue can fetch a row at cycle c: at work, a buffer free, the count occupied, and the row's bank powered at its next
reserved slot (R224, R344). -/
def canFetch (k : Core) (c q : Nat) : Bool :=
  let r := ringAt k q
  let x := queueAt k q
  let b := bankOf (ringRow r (fetchCount k q))
  r.enable && x.state == 1 && decide (x.bufs.length < 2) && decide (x.bufs.length < ringOcc r) &&
  !bankOff k b (reservedFrom k c b)

/-- A command-row read waits for a bank: it takes the bank's next reserved slot before any inbound row (R224). -/
def fetchWaits (k : Core) (c b : Nat) : Bool :=
  (List.range 4).any fun q => canFetch k c q && bankOf (ringRow (ringAt k q) (fetchCount k q)) == b

/-- An access takes a bank's reserved slot at cycle e (R224). -/
def takeSlot (k : Core) (b e : Nat) : Core := { k with pool := { k.pool with given := Store.set 0 k.pool.given b (e + 1) } }

/-- Record a failure in CORE_QFAILq and CORE_QFAILSTq when no record is held (R355, R376). -/
def noteFail (x : Queue) (slot kind : Nat) (st : Status) : Queue :=
  if x.failValid then x else { x with failSlot := slot, failStatus := st.code, failKind := kind, failValid := true }

/-- An uncorrectable row reaches the head: the queue enters STOPPED, drops the row so that a resume reads
it afresh, and reports POISONED at the first undecoded slot (R346). -/
def stopBadRow (s : State) (p l q : Nat) : State :=
  let k := coreAt s p
  let x := queueAt k q
  match x.bufs with
  | [] => s
  | b :: _ =>
    if frowBad b ∧ x.state = 1 then
      let slot := headSlotNo k q
      let s := updQueue (updCore s p fun k => countBuf k b.errs) p q fun x =>
        { noteFail x slot 0 .poisoned with state := 2, restart := true, bufs := [] }
      logCore s 4 .poisoned l false [(1, q), (4, slot), (1, 0)]
    else s

/-- The command at the head leaves it; the next may decode from cycle `ready`. After slot 15 the ring's head advances by
1, the buffer is freed, a credit is granted, and the next row decodes once its data is available (R344, R347). -/
def leaveHead (s : State) (p l q ready : Nat) : State :=
  let x := queueAt (coreAt s p) q
  let used := (x.bufs.take 1).flatMap fun b => b.errs.filter fun e => e.1 / 4 == x.nextSlot
  let k := countBuf (coreAt s p) used
  let x := { x with head := none, ready := ready, resumed := none }
  if x.nextSlot = 15 then
    let r := ringAt k q
    let rest := x.bufs.drop 1
    let k := setQueue k q { x with nextSlot := 0, bufs := rest, ready := rest.foldl (fun n b => max n b.avail) ready }
    let s := markHw (setCore s p (setRing k q { r with head := (r.head + 1) % 2 ^ 32 })) p (0x408 + 16 * q)
    stopBadRow (grantRing s p l q 1) p l q
  else setCore s p (setQueue k q { x with nextSlot := x.nextSlot + 1 })

/-- Retire a command: its record, CORE_QFAILq, and the queue's on_fail setting, which a parking queue does not apply
(R355). -/
def retire (s : State) (p l q slot kind : Nat) (st : Status) : State :=
  let s := logCore s 4 st l false [(1, q), (4, slot), (1, kind)]
  updQueue s p q fun x =>
    let x := noteFail x slot kind st
    if x.state = 1 ∧ !x.onFail then { x with state := 2 } else x

/-- Retire the command at the head and leave it. -/
def retireHead (s : State) (p l q kind c : Nat) (st : Status) : State :=
  let slot := headSlotNo (coreAt s p) q
  leaveHead (retire s p l q slot kind st) p l q (c + 1)

/-- The tracks that a sleeping FENCE or an unfinished command still needs. -/
def trackNeeded (k : Core) (c : Nat) (t : Track) : Bool :=
  (match t.doneAt with
   | none => true
   | some e => decide (c < e)) ||
  (match t.endAt with
   | none => true
   | some e => decide (c < e)) ||
  (List.range 4).any fun q => match (queueAt k q).fence with
    | some f => f.ids.contains t.id
    | none => false

/-- Track a command decoded at cycle c; its id is returned. -/
def newTrack (s : State) (p q ctx slot c : Nat) : Nat × State :=
  let k := coreAt s p
  (k.nextTrack, setCore s p { k with
    nextTrack := k.nextTrack + 1,
    track := k.track.filter (trackNeeded k c) ++
      [{ id := k.nextTrack, q := q, ctx := ctx, slot := slot, endAt := none, doneAt := none, status := none, overran := false }] })

/-- Change a tracked command. -/
def updTrack (s : State) (p id : Nat) (f : Track → Track) : State :=
  updCore s p fun k => { k with track := k.track.map fun t => if t.id = id then f t else t }

/-- A tracked command's last effect in the core, its completion and its status become known. -/
def endTrack (s : State) (p id e d : Nat) (st : Status) : State :=
  updTrack s p id fun t => { t with endAt := some e, doneAt := some d, status := some st }

/-- A cycle moved by n when it is not earlier than a cycle. -/
def laterBy (old n x : Nat) : Nat := if old ≤ x then x + n else x

/-- The end of a tracked command moves: its cycles from `old` on, and the done flag due for it, come n cycles later (R128,
R129). -/
def shiftTrack (s : State) (p id old n : Nat) : State :=
  updCore s p fun k => { k with
    track := k.track.map fun t => if t.id = id then
        { t with endAt := t.endAt.map (laterBy old n), doneAt := t.doneAt.map (laterBy old n) } else t,
    sync := { k.sync with due := k.sync.due.map fun d =>
      if d.track = id ∧ !d.clear then { d with cycle := laterBy old n d.cycle } else d } }

/-- Tracks of commands of a context that have not made their last effect in the core by cycle c. -/
def unfinished (c : Nat) (t : Track) : Bool :=
  match t.endAt with
  | none => true
  | some e => decide (c < e)

/-- Tracks of commands that have not completed by cycle c. -/
def incomplete (c : Nat) (t : Track) : Bool :=
  match t.doneAt with
  | none => true
  | some e => decide (c < e)

end Sys2Proof.Machine
end

