-- ==== Sys2Proof/Machine/Flags.lean ====
section
/-!
DEFINITION. The flag computations of the sync unit: physical flags with their overruns and waiters, done flags due,
counters and their bounds, abandoned objects, and the end of sleeping commands (10_synchronisation).
-/

namespace Sys2Proof.Machine

/-- A physical flag is SET (R293). -/
def flagSet (k : Core) (f : Nat) : Bool := k.sync.flags.contains f

/-- Clear a physical flag (R296). -/
def clearFlag (s : State) (p f : Nat) : State :=
  updCore s p fun k => { k with sync := { k.sync with flags := setErase k.sync.flags f } }

/-- Add a done flag, or a consuming clear, that falls due (R296, R301). -/
def addDue (s : State) (p : Nat) (d : Due) : State :=
  updCore s p fun k => { k with sync := { k.sync with due := k.sync.due ++ [d] } }

/-- The setter code of a queue (R299). -/
def setterOf (q : Nat) : Nat :=
  match q with
  | 0 => 0
  | 1 => 2
  | 2 => 3
  | _ => 4

/-- The done flag of a command that completed at cycle c: set in the next cycle (R304). -/
def dueDone (s : State) (p c : Nat) (en : Bool) (flag setter ctx slot track : Nat) : State :=
  if en then addDue s p { cycle := c + 1, clear := false, flag := flag, setter := setter, ctx := ctx, slot := slot,
                          track := track }
  else s

/-- A sleeping command of a queue ends: woken in cycle c it completes at c + 4 and the next command may decode at c + 6;
at an expiry it completes in the cycle itself. DONE sets its done flag; any other status retires it
(R301, R302, R355). -/
def endSleep (s : State) (p l q c : Nat) (st : Status) (woken : Bool) : State :=
  match (queueAt (coreAt s p) q).sleep with
  | none => s
  | some w =>
    let e := if woken then c + 4 else c
    let s := updQueue s p q fun x => { x with sleep := none }
    let s := endTrack s p w.track (if w.cmd.doneEn && st == .done then e + 1 else e) e st
    let s := report s st
    let s :=
      if st = .done then dueDone s p e w.cmd.doneEn w.cmd.doneFlag (setterOf q) w.ctx w.slot w.track
      else retire s p l q w.slot 6 st
    leaveHead s p l q (if woken then c + 6 else c + 1)

/-- End with POISONED the sleeping commands whose object satisfies a test (R502). -/
def wakePoisoned (s : State) (p l c : Nat) (f : SyncCmd → Bool) : State :=
  (List.range 4).foldl (fun s q =>
    match (queueAt (coreAt s p) q).sleep with
    | none => s
    | some w => if f w.cmd then endSleep s p l q c .poisoned true else s) s

/-- The outcome of R502 for an uncorrectable sync or census word. -/
def poisonWord (s : State) (p l : Nat) (kind word : Nat) : State :=
  let c := cycleOf s l
  match kind with
  | 4 =>
    let s := updCore s p fun k => { k with sync := { k.sync with flags := k.sync.flags.filter fun f => f / 64 ≠ word } }
    wakePoisoned s p l c fun w => w.sop == 3 && w.flag / 64 == word
  | 5 => updCtx s p (word / 64) fun x => { x with xlat := x.xlat.filter fun e => e.1 / 4 ≠ word % 64 }
  | 6 =>
    let n := word % 64
    let s := updCore (markHw s p (0x10000 + n)) p fun k => setCnt k n { cntAt k n with enable := false }
    wakePoisoned s p l c fun w => w.sop == 5 && (w.counter == n || (w.refEn && w.ref == n))
  | 7 =>
    if word < 16 then disableRing (markHw s p (0x400 + 16 * word)) p l word
    else if word < 24 then closeWin (markHw s p (0x700 + 16 * (word - 16))) p l (word - 16)
    else updCore s p fun k => { k with mv := { k.mv with creds := dropAt k.mv.creds (word - 24) } }
  | _ =>
    updCore s p fun k => { k with census := { k.census with
      live := Store.modify TagCnt.init k.census.live (word / 4) fun t => { t with full := 15 },
      shadow := Store.modify TagCnt.init k.census.shadow (word / 4) fun t => { t with full := 15 } } }

/-- A use of a sync or census word (R501, R502, R506): a correctable error is counted; an uncorrectable one is counted,
recorded once and takes its outcome. The answer says whether the word was uncorrectable. -/
def useWord (s : State) (p l kind word : Nat) : Bool × State :=
  let key := kind * 1024 + word
  match eccGrade (Store.get 0 (coreAt s p).upsets.sync key) with
  | 0 => (false, s)
  | 1 => (false, updCore s p fun k => { k with ecc := { k.ecc with syncCorr := min 0xFF (k.ecc.syncCorr + 1) } })
  | _ =>
    let s := updCore s p fun k => { k with
      ecc := { k.ecc with syncUnc := min 0xFF (k.ecc.syncUnc + 1) },
      upsets := { k.upsets with sync := Store.set 0 k.upsets.sync key 0 } }
    (true, poisonWord (logCore s 11 .poisoned l false [(1, kind), (1, word)]) p l kind word)

/-- Use several words; the answer says whether any was uncorrectable. -/
def useWords (s : State) (p l : Nat) (ws : List (Nat × Nat)) : Bool × State :=
  ws.foldl (fun r w => let (b, s) := useWord r.2 p l w.1 w.2; (r.1 || b, s)) (false, s)

/-- The target of a WAIT_CNT (R315). -/
def cntTarget (k : Core) (w : SyncCmd) : Int :=
  (if w.refEn then ((cntAt k w.ref).value.toNat : Int) else 0) + w.offset

/-- The condition of a WAIT_CNT holds (R315). -/
def cntHolds (k : Core) (w : SyncCmd) : Bool := decide (cntTarget k w ≤ ((cntAt k w.counter).value.toNat : Int))

/-- Wake the sleeping command of one queue if its flag is SET or its counter has reached the target (R296, R301,
R315). -/
def wakeQueue (s : State) (p l c q : Nat) : State :=
  let k := coreAt s p
  match (queueAt k q).sleep with
  | none => s
  | some w =>
    if w.cmd.sop = 3 ∧ flagSet k w.cmd.flag then
      let s := if w.cmd.consume then
          addDue s p { cycle := c + 1, clear := true, flag := w.cmd.flag, setter := 0, ctx := w.ctx, slot := w.slot,
                       track := w.track }
        else s
      endSleep s p l q c .done true
    else if w.cmd.sop = 5 ∧ cntHolds k w.cmd then endSleep s p l q c .done true
    else s

/-- Wake every sleeping command of a core whose flag or counter object holds, in queue order. -/
def wakeWaiters (s : State) (p l c : Nat) : State := (List.range 4).foldl (fun s q => wakeQueue s p l c q) s

/-- Record an overrun of a flag (R299): the status bit, CORE_SYNC_OVR, and under policy fault a reported record; the
answer says whether the policy is fault. `src` is the queue slot, ring or window of the setter. -/
def overrunFlag (s : State) (p l flag setter ctx : Nat) (src : List (Nat × Nat)) : Bool × State :=
  let k := coreAt s p
  let o := k.sync.ovr
  let o := if o.valid then o else { valid := true, flag := flag, setter := setter, ctx := ctx }
  let s := setCore s p { k with sync := { k.sync with overrunSeen := true, ovr := o } }
  if k.sync.policy.contains flag then
    (true, logCore s 5 .overrun l true ([(1, flag), (1, setter), (1, ctx)] ++ src))
  else (false, s)

/-- Set a physical flag in cycle c (R296, R299, R301); the answer says whether it was an overrun under policy fault. -/
def setFlag (s : State) (p l c flag setter ctx : Nat) (src : List (Nat × Nat)) : Bool × State :=
  let s := (useWord s p l 4 (flag / 64)).2
  let k := coreAt s p
  if flagSet k flag then overrunFlag s p l flag setter ctx src
  else
    let s := setCore s p { k with sync := { k.sync with flags := setInsert k.sync.flags flag } }
    (false, wakeWaiters s p l c)

/-- The place of a clear or set in the order of events: by cycle, clears before sets, then setter code and context slot
(R297). -/
def eventKey (cycle : Nat) (clear : Bool) (setter ctx : Nat) : Nat :=
  ((cycle * 2 + (if clear then 0 else 1)) * 16 + setter) * 4 + ctx

/-- The place of a due event. -/
def dueKey (d : Due) : Nat := eventKey d.cycle d.clear d.setter d.ctx

/-- The order of due events (R297). -/
def dueBefore (a b : Due) : Bool := decide (dueKey a ≤ dueKey b)

/-- The first of two events in the order of R297. -/
def dueFirst (a b : Due) : Due := if dueBefore a b then a else b

/-- The earliest due event of a list whose place is not past n, with the rest. -/
def popDue (n : Nat) (ds : List Due) : Option (Due × List Due) :=
  match ds with
  | [] => none
  | d :: t =>
    let m := t.foldl dueFirst d
    if dueKey m ≤ n then some (m, ds.erase m) else none

/-- Make one due event (R296, R299): a done flag that overruns under policy fault makes its command report OVERRUN if it
would otherwise report DONE. -/
def makeDue (s : State) (p l : Nat) (d : Due) : State :=
  if d.clear then clearFlag s p d.flag
  else
    let (fault, s) := setFlag s p l d.cycle d.flag d.setter d.ctx [(4, d.slot)]
    if fault then
      report (updTrack s p d.track fun t => { t with overran := true, status := if t.status = some .done then some .overrun else t.status }) .overrun
    else s

/-- Make every due event up to a place, in order; waking a command may add further ones. -/
def fireDue (s : State) (p l n : Nat) : Nat → State
  | 0 => s
  | fuel + 1 =>
    match popDue n (coreAt s p).sync.due with
    | none => s
    | some (d, rest) =>
      let s := updCore s p fun k => { k with sync := { k.sync with due := rest } }
      fireDue (makeDue s p l d) p l n fuel

/-- Bring a core's sync unit up to a place in the order of events. Each of the four queues can add at most two events per
wake. -/
def settleTo (s : State) (p l n : Nat) : State :=
  let m := (coreAt s p).sync.due.length
  if m = 0 then s else fireDue s p l n (4 * m + 16)

/-- Bring a core's sync unit through cycle c. -/
def settleSync (s : State) (p l c : Nat) : State := settleTo s p l (eventKey c false 15 3)

/-- The cycle, not before c, of an event of given rank on a flag or counter: events of one cycle come in the order of their ranks, and
one given too late for its cycle falls in the next (R297, R314, R384). DESIGN CHOICE (log 67). -/
def turnOf (k : Core) (obj c rank : Nat) : Nat :=
  match Store.get 0 k.sync.turns obj with
  | 0 => c
  | t + 1 => if 64 * c + rank < t then (if rank < t % 64 then t / 64 + 1 else t / 64) else c

/-- Note the event of a turn. -/
def noteEvent (s : State) (p obj c rank : Nat) : State :=
  updCore s p fun k => { k with sync := { k.sync with turns := Store.set 0 k.sync.turns obj (64 * c + rank + 1) } }

/-- The rank of a set among the events on its flag in a cycle: behind the clears, by setter code and context slot; WAITs follow
the sets (R297). -/
def setRank (setter ctx : Nat) : Nat := 1 + 4 * setter + ctx

/-- A set of a flag from outside the queues in cycle c, in its turn (R297, R299). -/
def setInTurn (s : State) (p l c flag setter : Nat) (src : List (Nat × Nat)) : Bool × State :=
  let c := turnOf (coreAt s p) flag c (setRank setter 0)
  setFlag (noteEvent s p flag c (setRank setter 0)) p l c flag setter 0 src

/-- The sender of an update or doorbell: its die, logical core, whether it is the host, and whether it is a Toymaker agent, which is
no producer (R254, R284). -/
structure Sender where
  die : Nat
  core : Nat
  host : Bool
  classT : Bool
deriving DecidableEq, Repr

/-- The sender of a packet. -/
def senderOf (p : Packet) : Sender := { die := p.srcDie, core := p.srcCore, host := p.host, classT := p.classT }

/-- The owning core itself as a sender. -/
def ownSender (s : State) (l : Nat) : Sender := { die := s.boot.dieId, core := l, host := false, classT := false }

/-- The sender is the bound producer of kind, die and core (R239, R254, R312). -/
def isProducer (s : State) (l kind die core : Nat) (x : Sender) : Bool :=
  match kind with
  | 0 => decide (x = ownSender s l)
  | 3 => x.host && !x.classT
  | _ => !x.host && !x.classT && x.die == die && x.core == core

/-- The producer fields match their kind for logical core l (R256 check 2). -/
def producerFieldsOk (s : State) (l kind die core : Nat) : Bool :=
  match kind with
  | 0 => die == s.boot.dieId && core == l
  | 1 => die == s.boot.dieId
  | 3 => die == 0 && core == 0
  | _ => true

/-- The new value of an update: MAX, or ADD modulo 2^64 on an exact sum (R311, R312). -/
def updateValue (x : Counter) (isMax : Bool) (v : Int) : Int :=
  let old : Int := (x.value.toNat : Int)
  if isMax then (if old < v then v else old) else old + v

/-- Check 6 of R312: the update breaks the counter's mode. -/
def breaksMode (x : Counter) (isMax : Bool) (v : Int) : Bool := if isMax then !x.mono else x.mono && decide (v < 0)

/-- Check 7 of R312: the new value passes the bound of its mode (R313). -/
def passesBound (k : Core) (x : Counter) (new : Int) : Bool :=
  if x.mono then x.partnerEn && decide ((x.bound : Int) < new - ((cntAt k x.partner).value.toNat : Int))
  else decide (new < 0) || decide ((x.bound : Int) < new)

/-- Apply checks 4 to 7 of R312 and the update in cycle c; `src` names the sender or the engine and queue slot in the
record of R313. Check 5 is skipped for a COUNT (R312). -/
def updateCounter (s : State) (p l c n : Nat) (isMax : Bool) (v : Int) (who : Sender) (isCount : Bool)
    (src : List (Nat × Nat)) : Status × State :=
  let k := coreAt s p
  let x := cntAt k n
  let new := updateValue x isMax v
  if !isProducer s l x.kind x.die x.core who then (.noAccess, s)
  else if !isCount && x.abandoned then (.abandoned, s)
  else if breaksMode x isMax v then (.badState, s)
  else if isMax && decide (new = (x.value.toNat : Int)) then (.done, s)
  else if passesBound k x new then
    let s := setCore s p { k with sync := { k.sync with cntOverrunSeen := true } }
    (.overrun, logCore s 5 .overrun l false ([(1, n), (8, x.value.toNat), (8, twos 64 v)] ++ src))
  else
    let s := markHw (setCore s p (setCnt k n { x with value := BitVec.ofInt 64 new })) p (0x10000 + n)
    (.done, wakeWaiters s p l c)

/-- An abandoned ring's flag field names the physical flag (R327). -/
def flagAbandoned (k : Core) (f : Nat) : Bool :=
  (List.range 16).any fun n => let r := ringAt k n; r.abandoned && r.flagEn && r.flag == f

/-- End with ABANDONED the sleeping commands whose flag or counter is abandoned (R327). -/
def wakeAbandoned (s : State) (p l c : Nat) : State :=
  (List.range 4).foldl (fun s q =>
    let k := coreAt s p
    match (queueAt k q).sleep with
    | none => s
    | some w =>
      if (w.cmd.sop = 3 ∧ flagAbandoned k w.cmd.flag) ∨ (w.cmd.sop = 5 ∧ (cntAt k w.cmd.counter).abandoned) then
        endSleep s p l q c .abandoned true
      else s) s

/-- A ring becomes abandoned (R245, R327): its counts become 0, the status bits are set, and one record names the ring
and its producer. -/
def abandonRing (s : State) (p l n : Nat) : State :=
  let k := coreAt s p
  let r := ringAt k n
  if r.enable ∧ !r.abandoned then
    let k := setRing k n { r with abandoned := true, outst := 0, withheld := 0 }
    let s := setCore s p { k with pool := { k.pool with abandonedSeen := true } }
    let s := logCore s 1 .abandoned l false [(1, n), (2, r.die), (2, r.core)]
    let s := updCore s p fun k => { k with sync := { k.sync with abandonedSeen := true } }
    if r.flagEn then wakeAbandoned s p l (cycleOf s l) else s
  else s

/-- A counter becomes abandoned (R327). -/
def abandonCounter (s : State) (p l n : Nat) : State :=
  let k := coreAt s p
  let x := cntAt k n
  if x.enable ∧ !x.abandoned then
    let k := setCnt k n { x with abandoned := true }
    let s := setCore s p { k with sync := { k.sync with abandonedSeen := true } }
    wakeAbandoned (logCore s 5 .abandoned l false [(1, n)]) p l (cycleOf s l)
  else s

/-- Abandon the rings and counters of a core whose producer satisfies a test on kind, die and core (R245, R327). -/
def abandonWhere (s : State) (p l : Nat) (f : Nat → Nat → Nat → Bool) : State :=
  let s := (List.range 16).foldl (fun s n =>
    let r := ringAt (coreAt s p) n
    if r.enable && f r.kind r.die r.core then abandonRing s p l n else s) s
  (List.range 64).foldl (fun s n =>
    let x := cntAt (coreAt s p) n
    if x.enable && f x.kind x.die x.core then abandonCounter s p l n else s) s

/-- A timed-out wait's record (R302): the object's kind and number with its state or value and target, then the
waiter. -/
def logTimeout (s : State) (p l q : Nat) (w : Sleep) : State :=
  let k := coreAt s p
  let obj : List (Nat × Nat) :=
    match w.cmd.sop with
    | 3 => [(1, 0), (1, w.cmd.flag), (1, b2n (flagSet k w.cmd.flag))]
    | 5 => [(1, 1), (1, w.cmd.counter), (8, (cntAt k w.cmd.counter).value.toNat), (8, twos 64 (cntTarget k w.cmd))]
    | _ => [(1, 2), (1, w.cmd.slot)]
  logCore s 5 .timeout l false (obj ++ [(1, w.ctx), (1, q), (4, w.slot)])

end Sys2Proof.Machine
end

