-- ==== Sys2Proof/Machine/Chimney.lean ====
section
/-!
DEFINITION. Shared operations of the Chimney: membership, arrivals, releases and breaks at a slot's root and at a core,
and the verdict update (10_synchronisation, 07_training_numerics).
-/

namespace Sys2Proof.Machine

/-- The member context slots of a logical core in a Chimney slot, as a 4-bit mask (R316, R338, R478). -/
def membMask (s : State) (slot l : Nat) : Nat :=
  let b := Store.get 0 s.cfg.memb (l * 64 + slot / 2)
  if slot % 2 = 0 then b % 16 else b / 16 % 16

/-- The member cores of a slot with their masks, in ascending order. -/
def members (s : State) (slot : Nat) : List (Nat × Nat) :=
  (s.cfg.memb.filterMap fun e =>
    if e.1 % 64 = slot / 2 then some (e.1 / 64, membMask s slot (e.1 / 64)) else none).filter fun x => x.2 ≠ 0

/-- A context slot of a core is a member of a Chimney slot. -/
def isMember (s : State) (slot l cx : Nat) : Bool := bitN (membMask s slot l) cx

/-- The arrivals of one parity. -/
def slotArr (x : Slot) (parity : Nat) : List (Nat × Nat × Bool) := if parity = 0 then x.arr0 else x.arr1

/-- Replace the arrivals of one parity. -/
def setSlotArr (x : Slot) (parity : Nat) (a : List (Nat × Nat × Bool)) : Slot :=
  if parity = 0 then { x with arr0 := a } else { x with arr1 := a }

/-- A slot holds arrivals of an episode not yet released (R322, R341). -/
def slotHolds (x : Slot) : Bool := !(x.arr0.isEmpty && x.arr1.isEmpty)

/-- CHIP_SLOTs.state: 0 DISABLED, 1 OPEN, 2 BROKEN (R341). -/
def slotState (x : Slot) : Nat := if !x.enable then 0 else if x.broken then 2 else 1

/-- Cycles from the decode at the farthest member to the release reaching a core: up the tree and the decision at the
root of the scope, then down (R319). -/
def slotScope (s : State) (slot : Nat) : Nat :=
  match members s slot with
  | [] => 0
  | m :: t =>
    if (slotAt s slot).offDie then 2
    else if t.all (fun x => galOf x.1 == galOf m.1) then 0
    else if t.all (fun x => cavOf x.1 == cavOf m.1) then 1
    else 2

/-- Down-tree latency of a scope (R319). -/
def slotDown (scope : Nat) : Nat :=
  match scope with
  | 0 => 20
  | 1 => 44
  | _ => 84

/-- The outcome of a verdict slot at a core (R203): how 1 released, 2 broken, 3 timed out. -/
def verdictUpdate (x : Ctx) (orp : Nat) (andp : Bool) (how : Nat) : Ctx :=
  match how with
  | 2 => { x with vstate := 5 }
  | 3 => { x with vstate := 6 }
  | _ =>
    let x := { x with orp := orp, andp := andp }
    if orp % 2 = 1 then
      let x := { x with vstate := 3, clean := 0 }
      if x.gradMin < x.gradScale then { x with gradScale := x.gradScale - 1 } else { x with floorHit := true }
    else if !andp then { x with vstate := 4 }
    else if x.growth ≤ x.clean + 1 then
      let x := { x with vstate := 2, clean := 0 }
      if x.gradScale < x.gradMax then { x with gradScale := x.gradScale + 1 } else { x with ceilHit := true }
    else { x with vstate := 2, clean := x.clean + 1 }

/-- The arrival of a context at a slot whose release has not reached the core. -/
def unreleased (x : Ctx) (slot : Nat) : Option Part := x.parts.find? fun a => a.slot == slot

/-- An update of a context's verdict registers by the part (R9, R208): which of CORE_VERDICT_STATEc, CORE_GRAD_SCALEc and CORE_VERDICTc
it changes. -/
def markVerdict (s : State) (p cx : Nat) (old new : Ctx) : State :=
  let s := markHw s p (0x2C0 + 4 * cx)
  let s := if new.gradScale = old.gradScale then s else markHw s p (0x2A0 + 8 * cx)
  if new.clean = old.clean then s else markHw s p (0x2A4 + 8 * cx)

/-- A context arrives at a slot in cycle c (R200, R317): it carries its local parity and flips it, contributes its
payloads, and a verdict arrival reads and clears step_nar and makes the state PENDING. -/
def arriveNow (s : State) (p l c cx : Nat) (w : SyncCmd) : State :=
  let x := ctxAt (coreAt s p) cx
  let par := x.parity.contains w.slot
  let orp := if w.verdict ∧ x.stepNar ∧ w.orPl % 2 = 0 then w.orPl + 1 else w.orPl
  let x := { x with
    parity := if par then setErase x.parity w.slot else setInsert x.parity w.slot,
    arrived := setInsert x.arrived w.slot,
    parts := x.parts ++ [{ slot := w.slot, parity := par, verdict := w.verdict, deadline := c + 256 * w.units, out := false,
                           frozen := false }],
    stepNar := x.stepNar && !w.verdict,
    vstate := if w.verdict then 1 else x.vstate }
  let s := updCore (if w.verdict then markVerdict s p cx x x else s) p fun k => setCtx k cx x
  updSlot s w.slot fun y => setSlotArr y (b2n par) (slotArr y (b2n par) ++ [(l * 4 + cx, orp, w.andPl)])

/-- Record an outcome in CORE_SYNC_RELn; only a release writes the payloads (R318, R321, R322, R339). -/
def recordRel (x : Ctx) (slot how orp : Nat) (andp : Bool) : Ctx :=
  { x with rel := if how = 1 then { slot := slot, orp := orp, andp := andp, how := how }
                  else { x.rel with slot := slot, how := how },
           outcomes := Store.set 0 x.outcomes slot how }

/-- The outcome of a slot reaches one context's unreleased arrivals of it: an arrival that had timed out is only logged
on a release, and records a break (R203, R321, R322). -/
def outcomeCtx (s : State) (p l cx : Nat) (n : SlotNews) : State :=
  let x := ctxAt (coreAt s p) cx
  match x.parts.find? (fun a => a.slot == n.slot && (n.how == 2 || a.parity == n.parity)) with
  | none => s
  | some a =>
    let x := { x with parts := x.parts.erase a }
    if a.out then
      if n.how = 1 then
        logCore (updCore s p fun k => setCtx k cx x) 5 .done l false [(1, n.slot), (1, cx)]
      else updCore s p fun k => setCtx k cx (recordRel x n.slot n.how n.orp n.andp)
    else
      let x := recordRel x n.slot n.how n.orp n.andp
      let y := if a.verdict then verdictUpdate x n.orp n.andp n.how else x
      updCore (if a.verdict then markVerdict s p cx x y else s) p fun k => setCtx k cx y

/-- The status a slot's outcome gives its waiters (R306). -/
def outcomeStatus (how : Nat) : Status :=
  match how with
  | 2 => .broken
  | 3 => .timeout
  | _ => .done

/-- A queue asleep on a slot for a context. -/
def sleepsOn (k : Core) (q slot cx : Nat) : Option Sleep :=
  (queueAt k q).sleep.filter fun w => (w.cmd.sop == 6 || w.cmd.sop == 7) && w.cmd.slot == slot && w.ctx == cx

/-- One queue's sleeper when an outcome reaches its core in cycle c: a waiter on the arrival completes; an ARRIVE behind
it arrives on a release, then waits under its full timeout or completes, and completes with BROKEN on a break
(R317, R318, R321). `hit` says the context's arrival met this outcome in time. -/
def outcomeQueue (s : State) (p l c q cx : Nat) (n : SlotNews) (hit : Bool) : State :=
  match sleepsOn (coreAt s p) q n.slot cx with
  | none => s
  | some w =>
    if n.how = 2 then endSleep s p l q c .broken true
    else if w.cmd.sop = 7 ∨ w.arrived then (if hit then endSleep s p l q c .done true else s)
    else if (unreleased (ctxAt (coreAt s p) cx) n.slot).isSome then s
    else
      let s := arriveNow s p l c cx w.cmd
      if w.cmd.wait then
        updQueue s p q fun x => { x with sleep := some { w with arrived := true, deadline := c + 256 * w.cmd.units } }
      else endSleep s p l q c .done true

/-- An outcome of a slot reaches a core in cycle c (R318, R322, R203). -/
def outcomeReaches (s : State) (p l c : Nat) (n : SlotNews) : State :=
  let s := catchUp s p c
  let s := if n.how = 2 then updCore s p fun k => { k with sync := { k.sync with brokenSeen := true } } else s
  (List.range 4).foldl (fun s cx =>
    let hit := (ctxAt (coreAt s p) cx).parts.any fun a => a.slot == n.slot && !a.out && (n.how == 2 || a.parity == n.parity)
    let s := outcomeCtx s p l cx n
    (List.range 4).foldl (fun s q => outcomeQueue s p l c q cx n hit) s) s

/-- A context's participation times out (R321): outcome 3, a verdict arrival enters FAILED, its waiter completes with
TIMEOUT and the arrival stays counted. -/
def partTimeout (s : State) (p l c cx slot : Nat) : State :=
  let x := ctxAt (coreAt s p) cx
  match x.parts.find? (fun a => a.slot == slot && !a.out && !a.frozen && decide (a.deadline ≤ c)) with
  | none => s
  | some a =>
    let x := { x with parts := x.parts.map fun b => if b = a then { b with out := true } else b }
    let x := recordRel x slot 3 0 false
    let y := if a.verdict then verdictUpdate x 0 false 3 else x
    let s := if a.verdict then markVerdict s p cx x y else s
    let x := y
    let s := updCore s p fun k => { setCtx k cx x with sync := { k.sync with timeoutSeen := true } }
    let waiters := (List.range 4).filter fun q =>
      match sleepsOn (coreAt s p) q slot cx with
      | none => false
      | some w => w.cmd.sop == 7 || w.arrived
    waiters.foldl (fun s q =>
      match (queueAt (coreAt s p) q).sleep with
      | none => s
      | some w => endSleep (logTimeout s p l q w) p l q c .timeout false) s

/-- The outcome of a slot starts down to every member core (R317, R322). -/
def sendNews (s : State) (slot how orp : Nat) (andp parity : Bool) : State :=
  { s with news := s.news ++ (members s slot).map fun m =>
      { slot := slot, core := m.1, how := how, orp := orp, andp := andp, parity := parity } }

/-- The combined payloads of an episode (R317). -/
def combine (a : List (Nat × Nat × Bool)) : Nat × Bool := a.foldl (fun r e => (r.1 ||| e.2.1, r.2 && e.2.2)) (0, true)

/-- Every member context of a slot has arrived with a parity (R317). -/
def allArrived (s : State) (slot parity : Nat) : Bool :=
  let a := slotArr (slotAt s slot) parity
  let ms := members s slot
  !ms.isEmpty && ms.all fun m => (List.range 4).all fun cx => !bitN m.2 cx || a.any fun e => e.1 == m.1 * 4 + cx

/-- The root releases the episode of a parity with combined payloads, and its count restarts (R317, R341). -/
def releaseSlot (s : State) (slot parity orp : Nat) (andp : Bool) : State :=
  let s := updSlot s slot fun x => { setSlotArr x parity [] with
    orLast := orp, andLast := andp, parity := parity == 0, sentUp := x.sentUp.filter (· != (parity == 1)) }
  sendNews s slot 1 orp andp (parity == 1)

/-- A CHIMNEY_ARR goes down Cavern 0's pair, while one of it is in UP (R420, R422). -/
def sendArr (s : State) (body : List (Nat × Nat)) : State :=
  if (bunAt s 2176).state = 2 ∨ (bunAt s 2177).state = 2 then sendMsg s 5 body else s

/-- A slot breaks at its root (R322): counts are dropped, the outcome starts down, one record names the slot and the
core, or the die that the base names, and the break of an off-die slot is sent to the base unless the base reported it. A
core stands in the header of the record (R508). -/
def breakSlot (s : State) (slot : Nat) (who : Option Nat) (fromBase : Bool) : State :=
  let x := slotAt s slot
  if !x.enable || x.broken then s
  else
    let s := updSlot s slot fun x => { x with broken := true, arr0 := [], arr1 := [], sentUp := [] }
    let s := sendNews s slot 2 0 false false
    let s := match who with
      | none => logChip s 5 .broken false [(1, slot)]
      | some n =>
        if fromBase then logChip s 5 .broken false [(1, slot), (2, n)] else logCore s 5 .broken n false [(1, slot)]
    if x.offDie && !fromBase then sendArr s [(1, slot), (1, 1)] else s

/-- Clear every member context's local parity and record of arrival at a slot (R323, R341). -/
def clearMembers (s : State) (slot : Nat) : State :=
  (members s slot).foldl (fun s m =>
    match physOf s m.1 with
    | none => s
    | some p => (List.range 4).foldl (fun s cx =>
        if bitN m.2 cx then
          updCtx s p cx fun x => { x with parity := setErase x.parity slot, arrived := setErase x.arrived slot,
                                          outcomes := Store.set 0 x.outcomes slot 0 }
        else s) s) s

/-- A slot's membership names a logical id that is unserved (R322, R465). -/
def slotUnserved (s : State) (slot : Nat) : Option Nat := ((members s slot).find? fun m => unserved s m.1).map (·.1)

/-- Break a slot whose membership names an unserved id, while the stage is READY (R322). -/
def breakIfUnserved (s : State) (slot : Nat) : State :=
  match slotUnserved s slot with
  | none => s
  | some l => if s.boot.released then breakSlot s slot (some l) false else s

/-- Enable, off_die and rearm of CHIP_SLOTs take effect (R323, R341). -/
def applySlotWord (s : State) (slot v : Nat) : State :=
  let x := slotAt s slot
  let en := bitN v 0
  let od := bitN v 1
  if x.enable && !en then
    let s := if slotHolds x then breakSlot s slot none false else s
    updSlot s slot fun x => { x with enable := false, offDie := od, broken := false, arr0 := [], arr1 := [], sentUp := [] }
  else if !x.enable && en then
    let s := updSlot s slot fun x => { x with enable := true, offDie := od, broken := false, arr0 := [], arr1 := [],
                                              parity := false, sentUp := [] }
    breakIfUnserved (clearMembers s slot) slot
  else
    let s := updSlot s slot fun x => { x with offDie := od }
    if bitN v 5 && x.broken then
      let s := updSlot s slot fun x => { x with broken := false, arr0 := [], arr1 := [], parity := false, sentUp := [] }
      breakIfUnserved (clearMembers s slot) slot
    else s

/-- Break every enabled slot of which a logical core is a member (R322, R491). -/
def breakSlotsOf (s : State) (l : Nat) : State :=
  (List.range 128).foldl (fun s n => if membMask s n l ≠ 0 then breakSlot s n (some l) false else s) s

end Sys2Proof.Machine
end

