-- ==== Sys2Proof/Machine/Operands.lean ====
section
/-!
DEFINITION. Every operand form of a command slot: the header, the bodies of all kinds with their checks, the exponents
that grad_rel adjusts, flag translation, the gates at the head of a queue, and the decode order of R351.
-/

namespace Sys2Proof.Machine

/-- 64-bit word i of a command slot: 0 the header, 1 W0, 2 W1, 3 the bytes that must be zero (R343). -/
def slotWord (b i : Nat) : Nat := fieldN b (64 * i) 64

/-- The header of a slot (R348). -/
def parseHeader (b : Nat) : Header :=
  { kind := fieldN b 0 4, phase := fieldN b 4 4, tag := fieldN b 8 8, tagEn := bitN b 16, verdict := bitN b 17,
    gradRel := bitN b 18, budget := fieldN b 20 20 }

/-- The ops of the vector engine that R169 gives a meaning. -/
def vecOpOk (op : Nat) : Bool :=
  (decide (0x01 ≤ op) && decide (op ≤ 0x09)) || (decide (0x10 ≤ op) && decide (op ≤ 0x18)) || op == 0x20 || op == 0x21 ||
  (decide (0x28 ≤ op) && decide (op ≤ 0x2C)) || (decide (0x30 ≤ op) && decide (op ≤ 0x34)) || op == 0x38 || op == 0x39

/-- The queue accepts a kind (R349). -/
def kindAccepted (q kind : Nat) : Bool :=
  match kind with
  | 0 => true
  | 1 => q == 0
  | 2 => q == 0
  | 3 => q == 0
  | 4 => q == 1
  | 5 => q == 2 || q == 3
  | 6 => true
  | _ => false

/-- Which command a slot carries in a queue: 0x100 pass, 0x200 drain, 0x300 + op descriptor command, 0x400 + op vector,
0x500 + op move-out, 0x511 DEEP_READ, 0x600 + sop sync (a move-out FENCE included), 0 for anything else (R259, R305,
R349). -/
def slotKey (q b : Nat) : Nat :=
  let kind := fieldN b 0 4
  let w0 := slotWord b 1
  if !kindAccepted q kind then 0
  else
    match kind with
    | 1 => 0x100
    | 2 => 0x200
    | 3 => if fieldN w0 11 2 = 3 then 0 else 0x300 + fieldN w0 11 2
    | 4 => if vecOpOk (fieldN w0 0 6) then 0x400 + fieldN w0 0 6 else 0
    | 5 =>
      let op := fieldN w0 0 4
      if q = 2 then (if op = 1 then 0x511 else 0)
      else if op = 15 then 0x60F
      else if 1 ≤ op ∧ op ≤ 4 then 0x500 + op
      else 0
    | 6 =>
      let sop := fieldN w0 0 4
      if (1 ≤ sop ∧ sop ≤ 7) ∨ sop = 15 then 0x600 + sop else 0
    | _ => 0

/-- Step 1 of R351 fails for a slot. -/
def slotBad (q b : Nat) : Bool :=
  let kind := fieldN b 0 4
  bitN b 19 || fieldN b 40 24 != 0 || slotWord b 3 != 0 || (!bitN b 16 && fieldN b 8 8 != 0) ||
  (kind == 0 && b != 0) || decide (7 ≤ kind) || !kindAccepted q kind ||
  ((kind == 0 || kind == 1 || kind == 3 || kind == 4 || kind == 6) && slotWord b 2 != 0)

/-- The exponent field 0x80 is no exponent. -/
def noExp (x : Nat) : Bool := x == 0x80

/-- Every Pool address of a core window: rows × 512. -/
def poolBytes : Nat := poolRows * 512

/-- A Pool, Flowstone or doorbell address within its space: offset [43:31] zero (R36). -/
def offsetHigh (a : Nat) : Bool := fieldN a 31 13 != 0

/-- Rows 0 to n of 512 B from an address in space 0x0 are Pool rows (R35, R36). -/
def poolSpanOk (a n : Nat) : Bool := !offsetHigh a && a % 512 == 0 && decide (addrByte a + 512 * n < poolBytes)

/-- Rows 0 to n from an address in a Deep window are aligned, and all of them lie in Deep windows of the die (R35, R267). -/
def deepSpanOk (a n : Nat) : Bool :=
  decide (8 ≤ addrSpace a) && a % 512 == 0 && decide (fieldN a 0 48 + 512 * n < 2 ^ 48)

/-- Rows 0 to n of 512 B from an address in space 0x1 of the issuing core (R36, R267). -/
def ownFsSpanOk (s : State) (l a n : Nat) : Bool :=
  addrDie a == s.boot.dieId && addrSpace a == 1 && addrCore a == l && !offsetHigh a && a % 256 == 0 &&
  decide (addrByte a + 512 * n + 512 ≤ 65536)

/-- A MOVE destination (R267 check 2). -/
def moveDstOk (s : State) (l a n : Nat) : Bool :=
  (addrSpace a == 0 && poolSpanOk a n) || deepSpanOk a n || ownFsSpanOk s l a n

/-- Source rows of a MOVE, 0 where R261 gives no whole number (R261). -/
def moveSrcRows (mode sfmt dfmt n : Nat) : Nat :=
  if mode = 1 then
    let x := (n + 1) * fmtBits sfmt
    if x % fmtBits dfmt = 0 then x / fmtBits dfmt else 0
  else n + 1

/-- Gang rows and columns of a shape (R107). -/
def gangRows (shape : Nat) : Nat :=
  match shape with
  | 1 => 4
  | 2 => 2
  | _ => 1
def gangCols (shape : Nat) : Nat :=
  match shape with
  | 1 => 16
  | 2 => 32
  | 3 => 64
  | _ => 1

/-- The gang position of Gallery-local index i in a shape (R107). -/
def gangPos (shape i : Nat) : Nat × Nat :=
  let y := i / 16
  let x := i % 16
  let x' := if y % 2 = 0 then x else 15 - x
  match shape with
  | 1 => (y, x)
  | 2 => (y / 2, 16 * (y % 2) + x')
  | 3 => (0, 16 * y + x')
  | _ => (0, 0)

/-- The member reads an A panel, or a B panel (R110, R113 to R116). -/
def gangReadsA (shape i : Nat) : Bool := (gangPos shape i).2 == 0
def gangReadsB (shape i : Nat) (flow load : Bool) : Bool := if flow then load else (gangPos shape i).1 == 0

/-- The member writes results (R115). -/
def gangWrites (shape i : Nat) (flow : Bool) : Bool := !flow || (gangPos shape i).1 + 1 == gangRows shape

/-- The checks of a pass (R78, and R111 for a gang pass). -/
def passCheck (s : State) (p l cx w : Nat) : Status :=
  let k := coreAt s p
  let aRow := fieldN w 0 10
  let bRow := fieldN w 10 10
  let fmt := fieldN w 20 2
  let flow := bitN w 22
  let load := bitN w 23
  let shape := fieldN w 28 2
  let i := l % 64
  let readsA := shape == 0 || gangReadsA shape i
  let readsB := if shape = 0 then !flow || load else gangReadsB shape i flow load
  if fieldN w 30 2 ≠ 0 ∨ fieldN w 41 23 ≠ 0 then .badValue
  else if (readsA ∧ (aRow % 2 = 1 ∨ poolRows - 2 < aRow)) ∨ (readsB ∧ (bRow % 2 = 1 ∨ poolRows - 2 < bRow)) then .badValue
  else if (load ∧ !flow) ∨ (flow ∧ !load ∧ bRow ≠ 0) then .badValue
  else if shape ≠ 0 ∧ !bitN (galAt s (galOf l)).held (shape - 1) then .badState
  else if k.tile.checkMode ∧ shape ≠ 0 then .badState
  else if flow ∧ !load ∧ !(match (ctxAt k cx).shadow with
      | none => false
      | some wt => wt.fmt == fmt) then .badState
  else if shape ≠ 0 ∧ ((!readsA ∧ aRow ≠ 0) ∨ (!readsB ∧ bRow ≠ 0)) then .badValue
  else .done

/-- The fields of a pass (R76). -/
def passBuild (w df : Nat) : PassCmd :=
  { aRow := fieldN w 0 10, bRow := fieldN w 10 10, fmt := fieldN w 20 2, flow := bitN w 22, loadW := bitN w 23,
    dstTile := fieldN w 24 3, acc := bitN w 27, shape := fieldN w 28 2, doneFlag := df, doneEn := bitN w 40 }

/-- The checks of a drain (R142). -/
def drainCheck (h : Header) (w0 w1 : Nat) : Status :=
  let dst := fieldN w0 3 10
  let ofmt := fieldN w0 13 3
  let act := fieldN w0 33 3
  let leak := fieldN w0 36 3
  let topk := fieldN w1 0 4
  let topkRow := fieldN w1 4 10
  let rows := ofmtRows ofmt
  if bitN w0 63 ∨ fieldN w1 35 29 ≠ 0 then .badValue
  else if 5 ≤ ofmt ∨ act = 7 ∨ 8 < topk then .badValue
  else if (!bitN w0 16 ∧ noExp (fieldN w0 17 8)) ∨ (bitN w0 16 ∧ fieldN w0 17 8 ≠ 0) then .badValue
  else if (act = 2 ∧ leak = 0) ∨ (act ≠ 2 ∧ leak ≠ 0) then .badValue
  else if (!bitN w0 39 ∧ fieldN w0 40 10 ≠ 0) ∨ (!bitN w0 50 ∧ (fieldN w0 51 10 ≠ 0 ∨ fieldN w0 61 2 ≠ 0)) ∨
      (topk = 0 ∧ topkRow ≠ 0) ∨ dst % rows ≠ 0 ∨ poolRows < dst + rows ∨ poolRows ≤ fieldN w0 40 10 ∨
      poolRows ≤ fieldN w0 51 10 ∨ poolRows ≤ topkRow then .badValue
  else if topk ≠ 0 ∧ dst ≤ topkRow ∧ topkRow < dst + rows then .badValue
  else if bitN w1 34 ∧ !h.tagEn then .badValue
  else .done

/-- The fields of a drain with g taken from the exponents that grad_rel adjusts (R141, R196). -/
def drainBuild (w0 w1 : Nat) (g : Int) (df : Nat) : DrainCmd :=
  { tile := fieldN w0 0 3, dstRow := fieldN w0 3 10, ofmt := fieldN w0 13 3, maxabs := bitN w0 16,
    oexp := if bitN w0 16 then 0 else signed8 (fieldN w0 17 8) - g,
    wexp := if noExp (fieldN w0 25 8) then none else some (signed8 (fieldN w0 25 8) - g),
    act := fieldN w0 33 3, leak := fieldN w0 36 3, scEn := bitN w0 39, scRow := fieldN w0 40 10, biasEn := bitN w0 50,
    biasRow := fieldN w0 51 10, biasGrp := fieldN w0 61 2, topk := fieldN w1 0 4, topkRow := fieldN w1 4 10,
    colBase := fieldN w1 14 11, doneFlag := df, doneEn := bitN w1 33, censusEn := bitN w1 34 }

/-- The exponents of a drain that grad_rel adjusts (R196). -/
def drainExps (w0 : Nat) : List Int :=
  (if bitN w0 16 then [] else [signed8 (fieldN w0 17 8)]) ++
  (if noExp (fieldN w0 25 8) then [] else [signed8 (fieldN w0 25 8)])

/-- The checks of a descriptor command (R153). -/
def descCheck (k : Core) (c w : Nat) : Status :=
  let op := fieldN w 11 2
  if fieldN w 23 41 ≠ 0 ∨ op = 3 ∨ (bitN w 13 ∧ op ≠ 0) then .badValue
  else if noExp (fieldN w 3 8) then .badValue
  else if op ≠ 2 ∧ (shownMarks (descAt k (fieldN w 0 3)) c).poisoned then .badState
  else .done

/-- The fields of a descriptor command (R152, R196). -/
def descBuild (w : Nat) (g : Int) (df : Nat) : DescCmd :=
  { tile := fieldN w 0 3, exp := signed8 (fieldN w 3 8) - g, op := fieldN w 11 2, clear := bitN w 13, doneFlag := df,
    doneEn := bitN w 22 }

/-- The op needs omode 0 and oexp 0x00 (R169). -/
def vecFixedZero (op : Nat) : Bool := (decide (6 ≤ op) && decide (op ≤ 8)) || op == 0x14 || op == 0x20 || op == 0x2C

/-- The op writes Pool rows (R169). -/
def vecWritesRows (op : Nat) : Bool := opElementwise op || op == 0x20 || op == 0x21 || (decide (0x30 ≤ op) && decide (op ≤ 0x32))

/-- The op gives b_row the sense of a parameter (R169). -/
def vecHasParam (op : Nat) : Bool :=
  op == 0x13 || op == 0x20 || op == 0x21 || (decide (0x28 ≤ op) && decide (op ≤ 0x2C)) || op == 0x33 || op == 0x38

/-- The parameter lies in its range (R169, R170 check 3). -/
def vecParamOk (op b : Nat) : Bool :=
  match op with
  | 0x13 => decide (-31 ≤ untwos 10 b) && decide (untwos 10 b ≤ 31)
  | 0x20 => decide (b ≤ 3)
  | 0x21 => decide (b ≤ 3)
  | 0x28 => decide (b ≤ 1)
  | 0x29 => decide (b ≤ 1)
  | 0x2A => decide (b ≤ 1)
  | 0x2B => decide (b ≤ 1)
  | 0x2C => decide (b ≤ 127)
  | 0x33 => decide (b ≤ 7)
  | 0x38 => decide (b ≤ 4)
  | _ => true

/-- Rows of A, of B and of d an instruction covers, n being its row count − 1 (R168, R172, R176). -/
def vecARows (op b n : Nat) : Nat :=
  if op = 0x21 then (n + 1) * wideFactor b else if op = 0x39 then 0 else n + 1
def vecBRows (op n : Nat) (bsrc : Bool) : Nat := if opHasB op && !bsrc then n + 1 else 0
def vecDRows (op b n : Nat) : Nat :=
  if !vecWritesRows op then 0 else if op = 0x20 then (n + 1) * wideFactor b else n + 1

/-- The checks of a vector instruction (R170). -/
def vecCheck (h : Header) (w : Nat) : Status :=
  let op := fieldN w 0 6
  let a := fieldN w 6 10
  let b := fieldN w 16 10
  let d := fieldN w 26 10
  let n := fieldN w 36 4
  let bsrc := bitN w 43
  let omode := fieldN w 44 2
  let oexp := fieldN w 46 8
  let na := vecARows op b n
  let nb := vecBRows op n bsrc
  let nd := vecDRows op b n
  let clash (x nx : Nat) : Bool := overlaps d nd x nx && !(d == x && nd == nx)
  if bitN w 63 ∨ !vecOpOk op then .badValue
  else if (op = 0x39 ∧ (a ≠ 0 ∨ n ≠ 0)) ∨ (op = 0x2C ∧ n ≠ 0) ∨ (!opHasB op ∧ !vecHasParam op ∧ b ≠ 0) ∨
      (!vecWritesRows op ∧ d ≠ 0) ∨ (bsrc ∧ !opHasB op) then .badValue
  else if vecHasParam op ∧ !vecParamOk op b then .badValue
  else if omode = 3 ∨ (omode = 0 ∧ noExp oexp) ∨ (omode ≠ 0 ∧ oexp ≠ 0) ∨ (vecFixedZero op ∧ (omode ≠ 0 ∨ oexp ≠ 0)) then
    .badValue
  else if poolRows < a + na ∨ (0 < nb ∧ poolRows < b + nb) ∨ (0 < nd ∧ poolRows < d + nd) ∨
      (if 0x30 ≤ op ∧ op ≤ 0x34 then overlaps d nd a na || overlaps d nd b nb else clash a na || clash b nb) then .badValue
  else if op = 0x38 ∧ !h.tagEn then .badValue
  else .done

/-- oexp is a target exponent that grad_rel adjusts (R196). -/
def vecExps (w : Nat) : List Int :=
  let op := fieldN w 0 6
  if fieldN w 44 2 = 0 ∧ !vecFixedZero op ∧ op ≠ 0x38 ∧ op ≠ 0x39 then [signed8 (fieldN w 46 8)] else []

/-- The fields of a vector instruction (R168, R196). -/
def vecBuild (w : Nat) (g : Int) (df : Nat) : VecIns :=
  { op := fieldN w 0 6, aRow := fieldN w 6 10, bRow := fieldN w 16 10, dRow := fieldN w 26 10, n := fieldN w 36 4,
    sreg := fieldN w 40 3, bsrc := bitN w 43, omode := fieldN w 44 2,
    oexp := if (vecExps w).isEmpty then 0 else signed8 (fieldN w 46 8) - g, doneFlag := df, doneEn := bitN w 62 }

/-- The checks of a MOVE (R260, R261, R267). -/
def moveCheck (s : State) (l w0 w1 : Nat) : Status :=
  let src := fieldN w0 4 10
  let n := fieldN w0 14 4
  let mode := fieldN w0 18 2
  let sfmt := fieldN w0 20 2
  let dfmt := fieldN w0 22 2
  let omode := fieldN w0 24 2
  let oexp := fieldN w0 26 8
  let gather := bitN w0 34
  let scatter := bitN w0 35
  let idx := fieldN w0 36 10
  let rows := moveSrcRows mode sfmt dfmt n
  if fieldN w0 56 8 ≠ 0 then .badValue
  else if (gather ∧ src ≠ 0) ∨ (!gather ∧ !scatter ∧ idx ≠ 0) ∨ poolRows ≤ idx ∨ (scatter ∧ w1 ≠ 0) ∨
      (mode = 0 ∧ (sfmt ≠ 0 ∨ dfmt ≠ 0 ∨ omode ≠ 0 ∨ oexp ≠ 0)) ∨ (!gather ∧ poolRows < src + rows) ∨
      (!scatter ∧ !moveDstOk s l w1 n) then .badValue
  else if mode = 3 ∨ omode = 3 ∨ rows = 0 ∨ 16 < rows ∨ (mode ≠ 0 ∧ omode = 0 ∧ noExp oexp) ∨ (omode ≠ 0 ∧ oexp ≠ 0) ∨
      (mode = 1 ∧ omode = 2 ∧ fmtBits dfmt < fmtBits sfmt) ∨
      (mode = 2 ∧ (n % 2 = 0 ∨ sfmt ≠ dfmt ∨ omode = 2)) then .badValue
  else .done

/-- The checks of a TILE_OUT (R264, R267). -/
def tileOutCheck (w0 w1 : Nat) : Status :=
  let first := fieldN w0 7 5
  let n := fieldN w0 12 4
  if fieldN w0 26 38 ≠ 0 then .badValue
  else if first % 2 = 1 ∨ 32 < first + 2 * (n + 1) ∨ !((addrSpace w1 == 0 && poolSpanOk w1 n) || deepSpanOk w1 n) then
    .badValue
  else .done

/-- The checks of a SIGNAL (R265, R267). -/
def signalCheck (w1 : Nat) : Status :=
  if addrSpace w1 = 2 ∧ !offsetHigh w1 ∧ w1 % 8 = 0 then .done else .badValue

/-- The checks of a GRANT (R265, R267). -/
def grantCheck (k : Core) (w0 w1 : Nat) : Status :=
  let x := winAt k (fieldN w0 4 3)
  let count := fieldN w0 7 10
  if fieldN w0 17 47 ≠ 0 ∨ w1 ≠ 0 then .badValue
  else if count = 0 ∨ poolRows < count then .badValue
  else if !x.opened then .badState
  else if x.size < x.outst + x.withheld + count then .overrun
  else .done

/-- The checks of a DEEP_READ (R266, R267). -/
def deepReadCheck (w0 w1 : Nat) : Status :=
  let dst := fieldN w0 4 10
  let n := fieldN w0 14 4
  let fs := bitN w0 18
  let gather := bitN w0 19
  let idx := fieldN w0 20 10
  if fieldN w0 39 25 ≠ 0 then .badValue
  else if (fs ∧ (dst % 2 = 1 ∨ 254 < dst ∨ 256 < dst + 2 * (n + 1))) ∨ (!fs ∧ poolRows ≤ dst + n) ∨ (!gather ∧ idx ≠ 0) ∨
      poolRows ≤ idx ∨ (gather ∧ w1 ≠ 0) ∨ (!gather ∧ !deepSpanOk w1 n) then .badValue
  else .done

/-- The oexp of a MOVE is a target exponent that grad_rel adjusts (R196). -/
def moveExps (w0 : Nat) : List Int :=
  if fieldN w0 18 2 ≠ 0 ∧ fieldN w0 24 2 = 0 then [signed8 (fieldN w0 26 8)] else []

/-- The fields of a MOVE (R260). -/
def moveBuild (w0 w1 : Nat) (g : Int) (df : Nat) : MoveCmd :=
  { op := 1, src := fieldN w0 4 10, n := fieldN w0 14 4, mode := fieldN w0 18 2, sfmt := fieldN w0 20 2,
    dfmt := fieldN w0 22 2, omode := fieldN w0 24 2,
    oexp := if (moveExps w0).isEmpty then 0 else signed8 (fieldN w0 26 8) - g,
    gather := bitN w0 34, scatter := bitN w0 35, idxRow := fieldN w0 36 10, dstFs := addrSpace w1 == 1 && !bitN w0 35,
    tile := 0, dst := w1, doneFlag := df, doneEn := bitN w0 54, doneAt := bitN w0 55 }

/-- The fields of a TILE_OUT (R264). -/
def tileOutBuild (w0 w1 df : Nat) : MoveCmd :=
  { op := 2, src := fieldN w0 7 5, n := fieldN w0 12 4, mode := 0, sfmt := 0, dfmt := 0, omode := 0, oexp := 0,
    gather := false, scatter := false, idxRow := 0, dstFs := false, tile := fieldN w0 4 3, dst := w1, doneFlag := df,
    doneEn := bitN w0 24, doneAt := bitN w0 25 }

/-- The fields of a DEEP_READ (R266). -/
def deepReadBuild (w0 w1 df : Nat) : MoveCmd :=
  { op := 5, src := w1, n := fieldN w0 14 4, mode := 0, sfmt := 0, dfmt := 0, omode := 0, oexp := 0,
    gather := bitN w0 19, scatter := false, idxRow := fieldN w0 20 10, dstFs := bitN w0 18, tile := 0,
    dst := fieldN w0 4 10, doneFlag := df, doneEn := bitN w0 38, doneAt := true }

/-- Checks 1 and 2 of R307 on a sync word: reserved bits and the fields of R304. -/
def syncCheck (w : Nat) : Status :=
  let sop := fieldN w 0 4
  let units := fieldN w 16 24
  let extra := fieldN w 49 15
  let obj := fieldN w 4 12
  let bad : Bool :=
    match sop with
    | 1 => fieldN obj 9 3 != 0 || bitN obj 8 || units != 0 || extra != 0
    | 2 => fieldN obj 9 3 != 0 || bitN obj 8 || units != 0 || extra != 0
    | 3 => fieldN obj 9 3 != 0 || units == 0 || extra != 0
    | 4 => fieldN obj 6 6 != 0 || extra != 0
    | 5 => units == 0 || (!bitN w 49 && (fieldN obj 6 6 != 0 || fieldN w 50 14 != 0))
    | 6 => fieldN obj 8 4 != 0 || units == 0 || fieldN w 58 6 != 0
    | 7 => fieldN obj 7 5 != 0 || units == 0 || extra != 0
    | 15 => fieldN obj 2 10 != 0 || fieldN obj 0 2 == 3 || units != 0 || extra != 0
    | _ => true
  if bad then .badValue else .done

/-- The fields of a sync word; flags are given translated (R304). -/
def syncBuild (h : Header) (w vflag df : Nat) : SyncCmd :=
  let sop := fieldN w 0 4
  { sop := sop, flag := vflag, consume := sop == 3 && bitN w 12, counter := fieldN w 4 6, ref := fieldN w 10 6,
    slot := fieldN w 4 7, wait := bitN w 11, scope := fieldN w 4 2, units := fieldN w 16 24, delta := untwos 24 (fieldN w 16 24),
    refEn := sop == 5 && bitN w 49, offset := untwos 14 (fieldN w 50 14), orPl := fieldN w 49 8, andPl := bitN w 57,
    verdict := sop == 6 && h.verdict, doneFlag := df, doneEn := bitN w 48 }

/-- The sync word names a virtual flag as its object (R304). -/
def syncHasFlag (w : Nat) : Bool := decide (1 ≤ fieldN w 0 4) && decide (fieldN w 0 4 ≤ 3)

/-- The ring a WAIT or counter object is abandoned (R307 check 7), or the slot is broken (check 8); checks 5 and 6
before them. -/
def syncObjectCheck (s : State) (p l q cx : Nat) (c : SyncCmd) : Status :=
  let k := coreAt s p
  let x := ctxAt k cx
  let cntOk (n : Nat) : Bool := (cntAt k n).enable && (cntAt k n).owner == cx
  match c.sop with
  | 3 =>
    if !flagSet k c.flag && (List.range 4).any (fun r => decide (r ≠ q) && match (queueAt k r).sleep with
        | some w => w.cmd.sop == 3 && w.cmd.flag == c.flag
        | none => false) then .badState
    else if flagAbandoned k c.flag then .abandoned
    else .done
  | 4 => if !cntOk c.counter then .badState else if (cntAt k c.counter).abandoned then .abandoned else .done
  | 5 =>
    if !cntOk c.counter || (c.refEn && !cntOk c.ref) then .badState
    else if (cntAt k c.counter).abandoned then .abandoned
    else .done
  | 6 =>
    if !(slotAt s c.slot).enable || !isMember s c.slot l cx then .badState
    else if (slotAt s c.slot).broken then .broken
    else .done
  | 7 =>
    if !(slotAt s c.slot).enable || !isMember s c.slot l cx || !x.arrived.contains c.slot then .badState
    else if (slotAt s c.slot).broken then .broken
    else .done
  | _ => .done

/-- The physical flag of a virtual id in a context's translation table, none through an invalid entry (R295, R340). -/
def translate (x : Ctx) (v : Nat) : Option Nat :=
  let e := Store.get 0 x.xlat v
  if bitN e 15 then some (e % 256) else none

/-- The checks of a slot's own chapter that come before those of R197 (R351 step 3). -/
def chapterCheck (s : State) (p l c cx key b : Nat) : Status :=
  let h := parseHeader b
  let w0 := slotWord b 1
  let w1 := slotWord b 2
  let k := coreAt s p
  match key / 256 with
  | 1 => passCheck s p l cx w0
  | 2 => drainCheck h w0 w1
  | 3 => descCheck k c w0
  | 4 => vecCheck h w0
  | 5 =>
    match key % 256 with
    | 1 => moveCheck s l w0 w1
    | 2 => tileOutCheck w0 w1
    | 3 => signalCheck w1
    | 4 => grantCheck k w0 w1
    | _ => deepReadCheck w0 w1
  | 6 => if w1 ≠ 0 then .badValue else syncCheck w0
  | _ => .badValue

/-- The exponents of a slot that grad_rel adjusts (R196). -/
def slotExps (key b : Nat) : List Int :=
  let w0 := slotWord b 1
  match key / 256 with
  | 2 => drainExps w0
  | 3 => [signed8 (fieldN w0 3 8)]
  | 4 => vecExps w0
  | 5 => if key % 256 = 1 then moveExps w0 else []
  | _ => []

/-- The checks of R197. -/
def gradCheck (h : Header) (x : Ctx) (exps : List Int) : Status :=
  if !h.gradRel then .done
  else if exps.isEmpty then .badValue
  else if exps.any (fun o => decide (o - x.gradScale < -127) || decide (127 < o - x.gradScale)) then .badState
  else .done

/-- The done flag of a slot: its enable and virtual id (R76, R141, R152, R168, R260, R264, R266, R304). -/
def slotDone (key b : Nat) : Bool × Nat :=
  let w0 := slotWord b 1
  let w1 := slotWord b 2
  match key / 256 with
  | 1 => (bitN w0 40, fieldN w0 32 8)
  | 2 => (bitN w1 33, fieldN w1 25 8)
  | 3 => (bitN w0 22, fieldN w0 14 8)
  | 4 => (bitN w0 62, fieldN w0 54 8)
  | 5 =>
    match key % 256 with
    | 1 => (bitN w0 54, fieldN w0 46 8)
    | 2 => (bitN w0 24, fieldN w0 16 8)
    | 0x11 => (bitN w0 38, fieldN w0 30 8)
    | _ => (false, 0)
  | 6 => (bitN w0 48, fieldN w0 40 8)
  | _ => (false, 0)

/-- The decoded command of a slot whose flags are translated: `vf` the object flag of a sync command, `df` the done
flag. -/
def buildCmd (x : Ctx) (key b vf df : Nat) : Cmd :=
  let h := parseHeader b
  let w0 := slotWord b 1
  let w1 := slotWord b 2
  let g : Int := if h.gradRel then x.gradScale else 0
  match key / 256 with
  | 1 => .pass (passBuild w0 df)
  | 2 => .drain (drainBuild w0 w1 g df)
  | 3 => .desc (descBuild w0 g df)
  | 4 => .vec (vecBuild w0 g df)
  | 5 =>
    match key % 256 with
    | 1 => .move (moveBuild w0 w1 g df)
    | 2 => .move (tileOutBuild w0 w1 df)
    | 3 => .signal (fieldN w0 4 60) w1
    | 4 => .grant (fieldN w0 4 3) (fieldN w0 7 10)
    | _ => .move (deepReadBuild w0 w1 df)
  | _ => .sync (syncBuild h w0 vf df)

/-- What the command at the head of a queue does when its turn comes. -/
inductive DecodeOut where
  | hold
  | verdictGate
  | fail (st : Status)
  | noop (en : Bool) (flag : Nat)
  | ok (c : Cmd)
deriving DecidableEq, Repr

/-- The Daybreak or the Twilight gate holds a command with a budget at the head (R352, R353). -/
def gateHolds (s : State) (l budget : Nat) : Bool :=
  inBreak s l ||
  (s.day.inForce &&
   (s.day.gate || decide (s.day.period - s.day.twilight ≤ s.day.ns)) && decide (s.day.period < s.day.ns + budget))

/-- The verdict state makes a verdict-conditional command a no-op (R202, R205). -/
def skipsConditional (x : Ctx) : Bool := decide (3 ≤ x.vstate)

/-- Steps 2 to 6 of R351 for a slot with its key. -/
def decodeSlot (s : State) (p l q key b : Nat) : DecodeOut :=
  let h := parseHeader b
  let k := coreAt s p
  let cx := (queueAt k q).ctx
  let x := ctxAt k cx
  if gateHolds s l h.budget then .hold
  else if (h.verdict || h.gradRel) && x.vstate == 1 then .verdictGate
  else
    let st := chapterCheck s p l (decodeCycle s l (queueAt k q)) cx key b
    if st ≠ .done then .fail st
    else
      let st := gradCheck h x (slotExps key b)
      if st ≠ .done then .fail st
      else
        let isSync := key / 256 == 6
        let w0 := slotWord b 1
        let (en, dv) := slotDone key b
        let vf := if isSync && syncHasFlag w0 then translate x (fieldN w0 4 8) else some 0
        let df := if en then translate x dv else some 0
        match vf, df with
        | some vf, some df =>
          let c := buildCmd x key b vf df
          let st := match c with
            | .sync y => syncObjectCheck s p l q cx y
            | _ => .done
          if st ≠ .done then .fail st
          else if h.verdict && skipsConditional x && key != 0x606 then .noop en df
          else .ok c
        | _, _ => .fail .badState

/-- The translation-table words a slot's flags are read from (R502). -/
def slotXlatWords (cx key b : Nat) : List (Nat × Nat) :=
  let w0 := slotWord b 1
  let (en, dv) := slotDone key b
  (if key / 256 = 6 ∧ syncHasFlag w0 then [(5, cx * 64 + fieldN w0 4 8 / 4)] else []) ++
  (if en then [(5, cx * 64 + dv / 4)] else [])

/-- The flag and counter words a decoded sync command uses (R306, R502). -/
def syncWords (c : SyncCmd) : List (Nat × Nat) :=
  match c.sop with
  | 1 => [(4, c.flag / 64)]
  | 2 => [(4, c.flag / 64)]
  | 3 => [(4, c.flag / 64)]
  | 4 => [(6, c.counter), (6, 64 + c.counter)]
  | 5 => [(6, c.counter), (6, 64 + c.counter)] ++ (if c.refEn then [(6, c.ref), (6, 64 + c.ref)] else [])
  | _ => []

/-- Fifths of an A-cycle in one M-cycle of 2 ns at OPk (R432, R434). -/
def opRate (k : Nat) : Nat := 4 * (k + 2)

/-- The A-clock's rate in an M-cycle: a glide moves it by 4 fifths in 125 M-cycles, 1.6 GHz per µs, to the nearest fifth
(R436). DEDUCED (log 37). -/
def rateAt (c : Cav) (m : Nat) : Nat :=
  let d := (4 * (m - c.glideAt) + 62) / 125
  if c.rateFrom ≤ c.rateTo then min c.rateTo (c.rateFrom + d) else max c.rateTo (c.rateFrom - d)

/-- The A-clock glides to a rate from an M-cycle on. -/
def glideTo (c : Cav) (now from_ rate : Nat) : Cav := { c with rateFrom := rateAt c now, rateTo := rate, glideAt := from_ }

/-- The sequencer starts towards the target unless a sequence is in progress or the Cavern is coasting: 25 ns for
each voltage code and 200 ns of settling, and a glide of 250 ns for each operating point, rounded up to M-cycles of 2 ns;
a rise glides last and a fall first (R432, R435 to R437). DEDUCED (log 37). -/
def startSequence (s : State) (cav : Nat) : State :=
  updCav s cav fun c =>
    if c.running && !c.coasting && c.seqEnd.isNone && c.opNow != c.opTarget then
      let code (o : Nat) : Nat := s.fuse.vtable.getD o 0
      let gap (x y : Nat) : Nat := (x - y) + (y - x)
      let volt := 25 * gap (code c.opTarget) (code c.opNow) + 200
      let ns := volt + 250 * gap c.opTarget c.opNow
      let c := glideTo c s.mNow (if c.opNow < c.opTarget then s.mNow + (volt + 1) / 2 else s.mNow) (opRate c.opTarget)
      { c with seqEnd := some (s.mNow + (ns + 1) / 2), seqTo := c.opTarget }
    else c

/-- A rise to the target starts unless a sequence is in progress; a fall never starts here (R437). -/
def startRise (s : State) (cav : Nat) : State :=
  if (cavAt s cav).opNow < (cavAt s cav).opTarget then startSequence s cav else s

/-- A phase whose commands decode during a Day is active in its Cavern, and raises the target at once to its preferred operating
point, limited to max_op (R350, R438). DEDUCED outside a Day (log 37). -/
def notePhase (s : State) (l phase : Nat) : State :=
  let cav := cavOf l
  let x := cavAt s cav
  let want := min (s.pwr.phaseOp.getD phase 7) x.maxOp
  if !s.day.inForce then s else
  let s := updCav s cav fun c => { c with active := setInsert c.active phase }
  if !x.active.contains phase && !x.opHold && decide (x.opTarget < want) then
    startRise (updCav s cav fun c => { c with opTarget := want }) cav
  else s

/-- The flag and counter a sync command acts on, as `turnOf` names them, with its rank among the events of a cycle: clears, sets by
setter code and context, and WAITs by queue; COUNTs by queue, and WAIT_CNTs behind every update (R297, R314, R315). -/
def syncTurns (x : Ctx) (q cx key b : Nat) : List (Nat × Nat) :=
  let w0 := slotWord b 1
  let flag (rank : Nat) : List (Nat × Nat) :=
    match translate x (fieldN w0 4 8) with
    | some f => [(f, rank)]
    | none => []
  match key with
  | 0x601 => flag (setRank (setterOf q) cx)
  | 0x602 => flag 0
  | 0x603 => flag (40 + q)
  | 0x604 => [(256 + fieldN w0 4 6, q)]
  | 0x605 => (256 + fieldN w0 4 6, 40 + q) :: (if bitN w0 49 then [(256 + fieldN w0 10 6, 40 + q)] else [])
  | _ => []

/-- The cycle in which the command at the head decodes, in its turn among the events on its objects (R297, R314, R347). -/
def headCycle (s : State) (p l q key b : Nat) : Nat :=
  let k := coreAt s p
  let x := queueAt k q
  (syncTurns (ctxAt k x.ctx) q x.ctx key b).foldl (fun c t => turnOf k t.1 c t.2) (decodeCycle s l x)

/-- The place in the order of events up to which a command's decode in cycle c finds the done flags set: a CLEAR those of earlier
cycles, a SET those before its own, any other all of the cycle (R297). -/
def headPlace (q cx key c : Nat) : Nat :=
  if key = 0x602 then eventKey (c - 1) false 15 3
  else if key = 0x601 then eventKey c false (setterOf q) cx
  else eventKey c false 15 3

/-- The setter code of a slot's done flag (R299). -/
def slotSetter (q key : Nat) : Nat := if key = 0x200 then 1 else setterOf q

/-- Decode the command at the head of a queue of a live core if its key is wanted: a held command stays, a failed one is
retired (and `fail` is told of its slot), a no-op completes, and a good one is passed to its engine (R347, R351, R355,
R205). A CLEAR comes before the sets of its cycle (R297). -/
def onHeadFail (s : State) (l q : Nat) (want : Nat → Bool) (fail : State → Nat → State)
    (go : State → Nat → Nat → Header → Cmd → State) : State :=
  withLive s l fun p =>
    let x := queueAt (coreAt s p) q
    if !queueFree (coreAt s p) q then s
    else
      match headBits x with
      | none => stopBadRow s p l q
      | some b =>
        let key := slotKey q b
        if !want key then s
        else
          let c := headCycle s p l q key b
          let turns := syncTurns (ctxAt (coreAt s p) x.ctx) q x.ctx key b
          let s := settleTo s p l (headPlace q x.ctx key c)
          let kind := fieldN b 0 4
          if slotBad q b then fail (report (retireHead s p l q kind c .badValue) .badValue) b
          else
            let s := (useWords s p l (slotXlatWords x.ctx key b)).2
            match decodeSlot s p l q key b with
            | .hold => s
            | .verdictGate => s
            | .fail st => fail (report (retireHead s p l q kind c st) st) b
            | .noop en flag =>
              let slot := headSlotNo (coreAt s p) q
              let cx := x.ctx
              let (id, s) := newTrack s p q cx slot c
              let s := endTrack s p id (c + 1) (c + 1) .done
              let s := dueDone s p c en flag (slotSetter q key) cx slot id
              report (leaveHead (notePhase s l (parseHeader b).phase) p l q (c + 2)) .done
            | .ok cmd =>
              let ws := match cmd with
                | .sync y => syncWords y
                | _ => []
              let (bad, s) := useWords s p l ws
              let s := turns.foldl (fun s t => noteEvent s p t.1 c t.2) s
              if bad then report (retireHead s p l q kind c .poisoned) .poisoned
              else go (notePhase s l (parseHeader b).phase) p c (parseHeader b) cmd

/-- Decode the command at the head of a queue with nothing more to do when it fails. -/
def onHead (s : State) (l q : Nat) (want : Nat → Bool) (go : State → Nat → Nat → Header → Cmd → State) : State :=
  onHeadFail s l q want (fun s _ => s) go

/-- A command waits decoded at its queue's head: tracked, with the wait limits in force (R234, R252, R269, R287). -/
def waitHead (s : State) (p q c : Nat) (h : Header) (cmd : Cmd) : State :=
  let k := coreAt s p
  let slot := headSlotNo k q
  let cx := (queueAt k q).ctx
  let (id, s) := newTrack s p q cx slot c
  let d : Decoded := { slot := slot, ctx := cx, tag := if h.tagEn then some h.tag else none, cmd := cmd, since := c,
                       limit := 256 * k.mv.units, sbFrom := c, sbLimit := 256 * k.pool.sbUnits, idx := none, track := id }
  report (updQueue s p q fun x => { x with head := some d }) .done

/-- A decoded pass leaves the head in cycle c without having issued (R91). -/
def leftTile (k : Core) (c : Nat) (d : Decoded) : Core :=
  match d.cmd with
  | .pass _ => { k with tile := { k.tile with left := max k.tile.left (c + 1) } }
  | _ => k

/-- The decoded command at a queue's head is retired with a status in cycle c (R355). -/
def retireDecoded (s : State) (p l q c : Nat) (d : Decoded) (kind : Nat) (st : Status) : State :=
  let s := updCore (endTrack s p d.track c c st) p fun k => leftTile k c d
  report (leaveHead (retire s p l q d.slot kind st) p l q (c + 1)) st

end Sys2Proof.Machine
end

