-- ==== Sys2Proof/Machine/Arrival.lean ====
section
/-!
DEFINITION. A packet's arrival at its destination: the physical core that serves its logical id, ids without a core,
unsettled ids, and bounces (09_move_engine_and_mesh, R282, R283).
-/

namespace Sys2Proof.Machine

/-- A logical core is unsettled (R282, R292). -/
def isUnsettled (s : State) (l : Nat) : Bool := (galAt s (galOf l)).unsettled.contains (l % 64)

/-- A packet set at the ingress of a Gallery's crossbar towards its destination (R283, R389); 69 names the ingress's own
place among the crossbar's inputs. -/
def fromCrossbar (s : State) (gal : Nat) (pkt : Packet) : State :=
  { s with net := { s.net with pkts := s.net.pkts ++
      [{ pkt := pkt, node := 32 + gal, input := 69, ch := packetChannel pkt, sent := 0, age := 0, boosted := false,
         moved := fNow s gal }] } }

/-- Put a packet at a core's bundle (R387). -/
def sendDown (s : State) (p : Nat) (pkt : Packet) : State :=
  updCore s p fun k => { k with mv := { k.mv with injS := k.mv.injS ++
    [{ pkt := pkt, ch := packetChannel pkt, src := 5, sent := 0, age := 0,
       moved := fNow s (p / 68), ready := 0 }] } }

/-- Send a reply of a core back the way its packet came. -/
def replyVia (s : State) (p : Nat) (port : Port) (pkt : Packet) : State :=
  match port with
  | .vein => inject s p 5 pkt
  | .sump b _ => sendDown s b pkt

/-- The BOUNCE of a packet: the packet returned whole to its sender (R279, R283). -/
def bounceOf (s : State) (l : Nat) (pkt : Packet) : Packet :=
  { pkt with ptype := .bounce, dstDie := pkt.srcDie, dstCore := pkt.srcCore, srcDie := s.boot.dieId, srcCore := l }

/-- The logical core a packet names on this die, none when it names another die or no core; before APPLY the part has no
die id, and every arrival is taken (R424). -/
def packetCore (s : State) (pkt : Packet) : Option Nat :=
  let d := packetDest pkt
  if (d.1 = s.boot.dieId ∨ s.boot.stage < 2) ∧ d.2 < 2048 then some d.2 else none

/-- The bundle a packet arrives on carries traffic. -/
def portUp (s : State) (port : Port) : Bool :=
  match port with
  | .vein => true
  | .sump b _ => (bunAt s b).state == 2

/-- The wrong codewords of an arriving packet's flits. -/
def portErrs (port : Port) (pkt : Packet) : List (Nat × Nat) :=
  match port with
  | .vein => []
  | .sump _ errs => errs.filter fun e => decide (e.1 < 8 * packetFlits pkt)

/-- The header flit of an arriving packet has an uncorrectable codeword; that arrival is an UNCORRECTABLE_HEADER_FLIT (R411). -/
def headerLost (port : Port) (pkt : Packet) : Bool := lostWord ((portErrs port pkt).filter fun e => decide (e.1 < 8))

/-- A packet as its interface takes it: an uncorrectable codeword of a data flit marks its row (R280, R411). -/
def received (port : Port) (pkt : Packet) : Packet :=
  { pkt with poison := pkt.poison || lostWord ((portErrs port pkt).filter fun e => decide (8 ≤ e.1)) }

/-- A packet that came by a bundle is taken: its codewords in error are counted (R411), and its flits are freed in the receive
buffer, counted for the next LINK flit (R409, R410). -/
def freeFlits (s : State) (port : Port) (pkt : Packet) : State :=
  match port with
  | .vein => s
  | .sump b _ => updBun s b fun x =>
      let ch := packetChannel pkt
      { countErrs x (portErrs port pkt) with
        freed := listPut x.freed ch ((x.freed.getD ch 0 + packetFlits pkt) % 2 ^ 16), badHeaders := 0 }

/-- Two packets of one virtual channel go from one interface to one other (R281). -/
def sameWay (a b : Packet) : Bool :=
  packetChannel a == packetChannel b && a.srcDie == b.srcDie && a.srcCore == b.srcCore && a.host == b.host &&
  a.classT == b.classT && packetDest a == packetDest b

/-- A packet may arrive at an interface before any other (R281): on the Vein it is the first of its way among those that have reached
the interface. One that the commands have not brought there arrives only while no packet of its way is under way. DESIGN CHOICE
(log 68). -/
def inTurn (s : State) (port : Port) (l : Nat) (pkt : Packet) : Bool :=
  match port with
  | .sump _ _ => true
  | .vein =>
    let reached := match physOf s l with
      | some p => (coreAt s p).mv.delivered
      | none => []
    match reached.find? (sameWay pkt) with
    | some x => x == pkt
    | none =>
      !(s.net.pkts.any fun x => sameWay pkt x.pkt) &&
      !(match physOf s pkt.srcCore with
        | some q => (coreAt s q).mv.inj.any fun x => sameWay pkt x.pkt
        | none => false)

/-- The ACKs that wait for injection hold every response entry of an interface (R393). -/
def respFull (k : Core) : Bool :=
  decide (32 ≤ ((k.mv.inj ++ k.mv.injS).filter fun x => x.src == 5 && x.pkt.ptype == .ack).length)

/-- A packet arrives for a logical core (R21, R282, R283): an id without a physical core is answered MAPPED_OUT; a WR or SIG that the
receiver does not serve, or for an unsettled id, is bounced (R331, R394), a response or management packet it does not serve is sunk
(R393), and otherwise the packet is delivered to the physical core; `f` answers none while it waits in its link buffer (R384). A
packet of the Vein leaves the list of those that have reached the interface. -/
def deliverOpt (s : State) (port : Port) (pkt : Packet) (f : State → Nat → Nat → Option State) : State :=
  match packetCore s pkt with
  | none => s
  | some l =>
    if !portUp s port || headerLost port pkt || !inTurn s port l pkt then s
    else
      match physOf s l with
      | none =>
        if pkt.ptype ≠ .wr ∧ pkt.ptype ≠ .sig ∧ pkt.ptype ≠ .rd then freeFlits s port pkt
        else
        match port with
        | .vein => report (fromCrossbar s (galOf l) (ackOf s l pkt .mappedOut)) .mappedOut
        | .sump b _ => report (freeFlits (sendDown s b (ackOf s l pkt .mappedOut)) port pkt) .mappedOut
      | some p =>
        let wrongCore := match port with
          | .vein => false
          | .sump b _ => b != p && decide (2 ≤ s.boot.stage)
        let t := match port with
          | .vein => updCore s p fun k => { k with mv := { k.mv with delivered := k.mv.delivered.erase pkt } }
          | .sump _ _ => s
        if (wrongCore || isUnsettled s l) && (pkt.ptype == .wr || pkt.ptype == .sig) then
          freeFlits (replyVia t p port (bounceOf t l pkt)) port pkt
        else if wrongCore && pkt.ptype != .rd then freeFlits t port pkt
        else
          match f t l p with
          | none => s
          | some u => freeFlits u port pkt

/-- A packet that its receiver takes at once arrives (R393). -/
def deliver (s : State) (port : Port) (pkt : Packet) (f : State → Nat → Nat → State) : State :=
  deliverOpt s port pkt fun s l p => some (f s l p)

/-- A counter port of data space 0x2, page 0x01: the counter and whether it is its MAX port, none for a reserved or
misaligned byte (R311). -/
def counterPort (a : Nat) : Option (Nat × Bool) :=
  let byte := a % 4096
  if byte % 8 = 0 ∧ byte / 16 < 64 then some (byte / 16, byte % 16 == 8) else none

/-- The page of a doorbell address (R238). -/
def doorPage (a : Nat) : Nat := addrByte a / 4096

/-- The sender's entries in a record (R313). -/
def senderBody (x : Sender) : List (Nat × Nat) := [(2, x.die), (2, x.core)]

/-- A SIG arrives; it waits only for a free response entry for its ACK (R393). -/
def deliverSig (s : State) (port : Port) (pkt : Packet) (f : State → Nat → Nat → State) : State :=
  deliverOpt s port pkt fun s l p => if respFull (coreAt s p) then none else some (f s l p)

/-- A counter update from outside the core, in its turn (R36, R311, R312, R314). -/
def counterPacket (s : State) (port : Port) (pkt : Packet) : State :=
  deliverSig s port pkt fun s l p =>
    if inReset s l then answerPkt s p l port pkt .absorbed
    else
      match (if offsetHigh pkt.addr.toNat then none else counterPort pkt.addr.toNat) with
      | none => answerPkt s p l port pkt .badValue
      | some (n, isMax) =>
        let now := cycleOf s l
        let c := turnOf (coreAt s p) (256 + n) now 4
        let s := noteEvent (settleSync s p l now) p (256 + n) c 4
        let s := (useWords s p l [(6, n), (6, 64 + n)]).2
        if !(cntAt (coreAt s p) n).enable then answerPkt s p l port pkt .badState
        else
          let v : Int := if isMax then ((fieldN pkt.word.toNat 0 60 : Nat) : Int) else untwos 60 pkt.word.toNat
          let (st, s) := updateCounter s p l c n isMax v (senderOf pkt) false (senderBody (senderOf pkt))
          answerPkt s p l port pkt st

end Sys2Proof.Machine
end

