-- ==== Sys2Proof/Machine/Issue.lean ====
section
/-!
DEFINITION. Shared operations of the engines at issue: the rows a decoded command reads and writes, what blocks it, the
census counts, activity counts, tile states, poisoning, and the ramp and issue limiter of the matrix tile.
-/

namespace Sys2Proof.Machine

/-- Count activity of a logical core's Gallery for the power estimate: kinds 0 array cycles, 1 vector groups, 2 Pool
rows, 3 Flowstone rows, 4 Vein flits, 5 Sump flits (R445). -/
def countAct (s : State) (l kind n : Nat) : State :=
  updCav s (cavOf l) fun c => { c with activity := Store.modify 0 c.activity ((galOf l % 8) * 6 + kind) (· + n) }

/-- The elements of result row i of a tracked command of a context are counted into a tag in cycle c (R71, R188 to R190, R199). -/
def countTag (s : State) (p l c cx tag : Nat) (n : Counts) (track i : Nat) : State :=
  if n = Counts.none then s
  else updCore (useWords s p l [(8, tag * 4), (8, tag * 4 + 1)]).2 p fun k => addLate k c (.count cx tag n track i)

/-- Count into an optional tag. -/
def countOpt (s : State) (p l c cx : Nat) (tag : Option Nat) (n : Counts) (track i : Nat) : State :=
  match tag with
  | none => s
  | some t => countTag s p l c cx t n track i

/-- Two tile rows from u on touch tile t. -/
def rowHits (u t : Nat) : Bool := u / 32 == t || (u + 1) / 32 == t

/-- The tiles of a mask of eight bits. -/
def maskTiles (m : Nat) : List Nat := (List.range 8).filter (bitN m)

/-- A RESTORE is writing a tile (R131, R367): one of the image rows 16 × j + 8 to 16 × j + 23, which hold the j-th tile of the
mask in byte 6 of the header, has arrived. -/
def restoring (k : Core) (t : Nat) : Bool :=
  let tiles := maskTiles (fieldN (Store.get Row.zero k.op.rows 0).data.toNat 48 8)
  let j := (tiles.filter fun u => decide (u < t)).length
  k.op.busy && k.op.op == 5 && k.op.stage == 1 && tiles.contains t &&
  (List.range 16).any fun i => !k.op.left.contains (16 * j + 8 + i)

/-- The inbound writes of tile rows in progress on a tile at cycle c, by queue and tag: from the arrival of the first row to the
last commit (R131). -/
def inWrites (k : Core) (c t : Nat) : List (Nat × Nat) :=
  ((k.mv.inb.filter fun e => e.fs && decide (e.entered ≤ c) && rowHits e.row t).map fun e => (e.q, e.tag)) ++
  ((k.mv.runs.filter fun r => r.dstFs && (!r.resp.isEmpty || !r.image.isEmpty) &&
    (List.range r.rows).any fun q => rowHits (r.dst + 2 * q) t).map fun r => (r.q, r.tag)) ++
  (if restoring k t then [(9, 0)] else [])

/-- A drain, descriptor command or outbound whole-tile read holds a tile at cycle c (R131). -/
def tileHeld (k : Core) (c t : Nat) : Bool := let d := descAt k t; d.pendHeld || decide (c < d.heldEnd)

/-- The inbound writes of a tile that have begun: in a held tile those that had begun before the hold (R134). -/
def begunWrites (k : Core) (c t : Nat) : List (Nat × Nat) :=
  if tileHeld k c t then (inWrites k c t).filter (descAt k t).begun.contains else inWrites k c t

/-- The descriptor of a tile when a command takes hold of it at cycle c (R131, R134). -/
def heldDesc (k : Core) (c t : Nat) : Desc := { descAt k t with begun := begunWrites k c t }

/-- The state field of a tile's descriptor at cycle c: 0 IDLE, 1 FILLING, 2 HELD, 3 LOADING (R131). -/
def tileState (k : Core) (c t : Nat) : Nat :=
  let d := descAt k t
  if tileHeld k c t then 2
  else if d.fillEnd ≠ 0 ∧ c ≤ d.fillEnd then 1
  else if (inWrites k c t).isEmpty then 0
  else 3

/-- Tile t admits a pass (R133). -/
def tileAdmits (k : Core) (c t : Nat) : Bool := decide (tileState k c t ≤ 1)

/-- The tile's words may be used by an output-path command or an outbound read: no pass writes it, and no inbound write that
has begun (R134, R90). DEDUCED (log 59). -/
def tileFree (k : Core) (c t : Nat) : Bool :=
  let d := descAt k t
  !(decide (d.fillEnd ≠ 0) && decide (c ≤ d.fillEnd)) && (begunWrites k c t).isEmpty

/-- A Pool row of two tile rows read as NaR throughout (R160). -/
def narTrows : BitVec 4096 := BitVec.ofNat 4096 ((mkTileRow (List.replicate 32 .nar)).toNat * (1 + 2 ^ 2048))

/-- A TILE_OUT that still reads a tile as it is poisoned in cycle c: rows read from then on are NaR, and it reports POISONED (R160,
R164). -/
def poisonOut (k : Core) (t c : Nat) : Core :=
  let hit (r : MoveRun) : Bool := r.op == 2 && r.dst == t && decide (c < r.released)
  let tags := (k.mv.runs.filter hit).map (·.tag)
  if tags.isEmpty then k
  else
    let nar (p : Packet) : Packet := { p with data := { p.data with data := narTrows } }
    let inj (x : InjPkt) : InjPkt :=
      if x.src = 3 ∧ x.pkt.ptype = .wr ∧ tags.contains x.pkt.tag ∧ c < x.ready then { x with pkt := nar x.pkt } else x
    let inb (x : InEntry) : InEntry :=
      if x.own ∧ x.q = 3 ∧ tags.contains x.tag ∧ c < x.entered then { x with data := { x.data with data := narTrows } } else x
    { k with mv := { k.mv with
      runs := k.mv.runs.map fun r => if hit r then { r with poisoned := true } else r,
      inj := k.mv.inj.map inj, injS := k.mv.injS.map inj, inb := k.mv.inb.map inb } }

/-- A fault of a tracked command poisons a tile in cycle `at_` (R160 to R162). -/
def poisonTile (k : Core) (t cause id now at_ : Nat) : Core :=
  poisonOut (setDesc k t (addEvs (descAt k t) now [(at_, .poison cause id)])) t at_

/-- A fault of a pass in cycle c poisons its destination tile, its rows still to be written being NaR (R122, R160, R161). -/
def poisonTrack (d : Desc) (now c id cause : Nat) : Desc :=
  let d := { d with evs := d.evs.map fun e => (e.1, match e.2 with
    | .fresh x f => .fresh x (f || (x == id && decide (c ≤ e.1)))
    | .row x u inf nar acc => if x = id ∧ c ≤ e.1 then .row x u false true acc else .row x u inf nar acc
    | v => v) }
  addEvs d now [(c, .poison cause id)]

/-- The record of a fault that poisons a tile in cycle c (R163). -/
def logTile (s : State) (p l c slot t cause : Nat) (word : List (Nat × Nat)) : State :=
  happen s p l c (.record 2 (if cause = 1 then .conflict else .poisoned) ([(4, slot), (1, t), (1, cause)] ++ word))

/-- A tile row as a read delivers it, each word corrected (R127, R501). -/
def seenTrow (k : Core) (u : Nat) : TileRow :=
  (k.upsets.fs.filter fun e => e.1 / 32 == u).foldl (fun r e =>
    r ^^^ BitVec.ofNat 2048 (eccData e.2 * 2 ^ (64 * (e.1 % 32)))) (trowAt k u)

/-- The 32 tile rows of a tile. -/
def tileRowsOf (k : Core) (t : Nat) : List TileRow := (List.range 32).map fun u => seenTrow k (32 * t + u)

/-- Write tile rows from a first row on; their codewords are fresh (R126, R127). -/
def writeTrows (k : Core) (first : Nat) (rows : List TileRow) : Core :=
  let k := (rows.mapIdx fun i r => (first + i, r)).foldl (fun k x => setTrow k x.1 x.2) k
  let hit (r : Nat) : Bool := decide (first ≤ r) && decide (r < first + rows.length)
  { k with upsets := { k.upsets with fs := k.upsets.fs.filter fun e => !hit (e.1 / 32) },
           flow := { k.flow with wb := k.flow.wb.filter fun r => !hit r } }

/-- The first uncorrectable word of tile rows first to first + n − 1, as tile row and word (R161). -/
def badWord (k : Core) (first n : Nat) : Option (Nat × Nat) :=
  (k.upsets.fs.find? fun e => eccGrade e.2 == 2 && decide (first ≤ e.1 / 32) && decide (e.1 / 32 < first + n)).map fun e =>
    (e.1 / 32, e.1 % 32)

/-- Count the corrected words of tile rows read, and the first uncorrectable one, row u of them in cycle `cy u` (R127, R502, R506). -/
def countFsReads (s : State) (p l first n : Nat) (cy : Nat → Nat) : State :=
  let hits := (coreAt s p).upsets.fs.filter fun e => decide (first ≤ e.1 / 32) && decide (e.1 / 32 < first + n)
  let count (s : State) (e : Nat × Nat) (a b : Nat) : State := happen s p l (cy (e.1 / 32 - first)) (.fsErr a b)
  let s := (hits.filter fun e => eccGrade e.2 == 1).foldl (fun s e => count s e 1 0) s
  match hits.find? fun e => eccGrade e.2 == 2 with
  | none => s
  | some e => count s e 0 1

/-- A tracked command reads n tile rows from a first one on, row u of them in cycle `cy u` (R127, R161): a POISONED tile reads
as NaR (R160); an uncorrectable word poisons it in the cycle of the read with cause 0b011, and a record names the word within its
tile (R126). The answer gives the place from which the reader sees NaR, counted in words from the first row. The queue slot of
the record is the reader's. DESIGN CHOICE (log 65). -/
def tileReadFault (s : State) (p l slot id t first n : Nat) (cy : Nat → Nat) : Option Nat × State :=
  let k := coreAt s p
  let s := countFsReads s p l first n cy
  if (shownMarks (descAt k t) (cy 0 + 1)).poisoned then (some 0, s)
  else
    match badWord k first n with
    | none => (none, s)
    | some (u, w) =>
      if (shownMarks (descAt k t) (cy (u - first) + 1)).poisoned then (some ((u - first) * 32 + w), s)
      else
      let s := updCore s p fun k => poisonTile k t 3 id (cycleOf s l) (cy (u - first))
      (some ((u - first) * 32 + w), logTile s p l (cy (u - first)) slot t 3 [(1, u % 32), (1, w)])

/-- Words from a place on read as NaR. -/
def narFrom (place : Option Nat) (rows : List (List A64)) : List (List A64) :=
  match place with
  | none => rows
  | some n => rows.mapIdx fun u r => r.mapIdx fun w x => if n ≤ u * 32 + w then .nar else x

/-- The local Pool rows a move command reads: its source rows, or the gather entries (R260, R263). -/
def moveReads (m : MoveCmd) (idx : Option (List Nat)) : List Nat :=
  if m.op ≠ 1 then []
  else
    let rows := moveSrcRows m.mode m.sfmt m.dfmt m.n
    if m.gather then (idx.getD []).take rows else (List.range rows).map (m.src + ·)

/-- The destination addresses of a MOVE or TILE_OUT (R260, R263, R264); scatter entries follow the gather entries. -/
def moveDsts (m : MoveCmd) (idx : Option (List Nat)) : List Nat :=
  if m.scatter then
    ((idx.getD []).drop (if m.gather then moveSrcRows m.mode m.sfmt m.dfmt m.n else 0)).take (m.n + 1) else (List.range (m.n + 1)).map fun q => m.dst + 512 * q

/-- An address is a Pool row of logical core l of this die. -/
def isOwnPool (s : State) (l a : Nat) : Bool := addrDie a == s.boot.dieId && addrSpace a == 0 && addrCore a == l

/-- The local Pool rows a move command writes (R258, R269, R271). -/
def moveWrites (s : State) (l : Nat) (m : MoveCmd) (idx : Option (List Nat)) : List Nat :=
  if m.op = 5 then (if m.dstFs then [] else (List.range (m.n + 1)).map (m.dst + ·))
  else ((moveDsts m idx).filter (isOwnPool s l)).map fun a => addrByte a / 512

/-- Rows of consecutive numbers. -/
def rowsFrom (first n : Nat) : List Nat := (List.range n).map (first + ·)

/-- The index row a move command's prelude reads (R263). -/
def preludeRows (m : MoveCmd) : List Nat := [m.idxRow]

/-- The Pool rows a decoded command reads: those of its prelude until that has read them. -/
def cmdReads (l : Nat) (d : Decoded) : List Nat :=
  match d.cmd with
  | .pass c =>
    let i := l % 64
    let a := c.shape = 0 ∨ gangReadsA c.shape i
    let b := if c.shape = 0 then !c.flow || c.loadW else gangReadsB c.shape i c.flow c.loadW
    (if a then rowsFrom c.aRow 2 else []) ++ (if b then rowsFrom c.bRow 2 else [])
  | .drain c => (if c.scEn then [c.scRow] else []) ++ (if c.biasEn then [c.biasRow] else [])
  | .vec i =>
    rowsFrom i.aRow (vecARows i.op i.bRow i.n) ++ rowsFrom i.bRow (vecBRows i.op i.n i.bsrc) ++
    (if opHasMask i.op then rowsFrom i.dRow (i.n + 1) else [])
  | .move m => if (m.gather || m.scatter) && d.idx.isNone then preludeRows m else moveReads m d.idx
  | _ => []

/-- The Pool rows a decoded command writes. -/
def cmdWrites (s : State) (l : Nat) (d : Decoded) : List Nat :=
  match d.cmd with
  | .drain c => rowsFrom c.dstRow (ofmtRows c.ofmt) ++ (if c.topk ≠ 0 then [c.topkRow] else [])
  | .vec i => rowsFrom i.dRow (vecDRows i.op i.bRow i.n)
  | .move m => moveWrites s l m d.idx
  | _ => []

/-- What the scoreboard and the rings say of a command about to issue in cycle c (R230, R236, R245). -/
inductive Verdict where
  | go
  | abandoned
  | wait (row : Nat) (write : Bool)
deriving DecidableEq, Repr

/-- The verdict for given rows read and written. -/
def issueVerdict (k : Core) (c : Nat) (rs ws : List Nat) : Verdict :=
  let br := rs.filter fun r => !produced k c r
  let bw := ws.filter fun r => !drained k c r
  if (br ++ bw).any (readAbandoned k) then .abandoned
  else
    match br, bw with
    | r :: _, _ => .wait r false
    | [], w :: _ => .wait w true
    | [], [] => .go

/-- The verdict for a decoded command. -/
def cmdVerdict (s : State) (p l c : Nat) (d : Decoded) : Verdict :=
  issueVerdict (coreAt s p) c (cmdReads l d) (cmdWrites s l d)

/-- A command that an attempt to issue finds not held by the scoreboard: a wait because of it begins, with the limit then in
force, in the next cycle at the earliest (R234, R252). -/
def freshWait (k : Core) (c : Nat) (d : Decoded) : Decoded := { d with sbFrom := c + 1, sbLimit := 256 * k.pool.sbUnits }

/-- Note it of the command decoded at the head of a queue. -/
def noteFree (s : State) (p l q : Nat) (d : Decoded) : State :=
  updQueue s p q fun x => { x with head := some (freshWait (coreAt s p) (cycleOf s l) d) }

/-- What blocks a row, as the entries of a record of R234: 0 a pending read or write with its engine and queue slot, 1 an
inbound row, 2 a ring. -/
def blockerBody (k : Core) (c row : Nat) (write : Bool) : List (Nat × Nat) :=
  match (if write then writeBlocker k c row else readBlocker k c row) with
  | none => [(1, 2)]
  | some m =>
    if m.engine = 5 then [(1, 1)]
    else if m.write ∧ 3 ≤ m.engine then
      let run := k.mv.runs.find? fun r => r.tag == m.slot && r.q + 1 == m.engine
      [(1, 0), (1, m.engine), (4, (run.map (·.slot)).getD 0)]
    else [(1, 0), (1, m.engine), (4, m.slot)]

/-- The fill-port cycle of the last of n row writes wanted from cycle e on, past the cycles that issued passes claim, which
rise (R128, R129). -/
def fillPortEnd (e n : Nat) : List (Nat × Nat) → Nat
  | [] => e + n - 1
  | (a, b) :: t =>
    if e + n ≤ a ∨ n = 0 then e + n - 1
    else if b < e then fillPortEnd e n t
    else fillPortEnd (b + 1) (n - (a - e)) t

/-- A pass, or an inbound write already under way, has the fill port in a cycle (R128, R129). -/
def fillTaken (k : Core) (c : Nat) : Bool := k.tile.claims.any fun x => decide (x.1 ≤ c) && decide (c ≤ x.2)

/-- A RESCALE or ZERO that began in or before a cycle has its row writes under way in cycle c (R128). -/
def fillHeld (k : Core) (c began : Nat) : Bool :=
  match k.outp.run with
  | none => false
  | some r => r.fill != 0 && decide (r.start ≤ began) && decide (r.fill ≤ c) && decide (c ≤ r.ends)

/-- The drain port serves outbound tile reads in a cycle: not at phase 0, nor in cycles 8 to 23 of a drain or RESCALE
(R128). -/
def drainPortFree (starts : List Nat) (c : Nat) : Bool :=
  c % 32 != 0 && !starts.any fun x => decide (x + 8 ≤ c) && decide (c ≤ x + 23)

/-- The cycle of the last of n reads of the drain port by an outbound tile read from cycle c on (R128, R129, R270). -/
def drainPortEnd (starts : List Nat) : Nat → Nat → Nat → Nat
  | 0, c, _ => c
  | fuel + 1, c, n =>
    if drainPortFree starts c then (if n ≤ 1 then c else drainPortEnd starts fuel (c + 1) (n - 1))
    else drainPortEnd starts fuel (c + 1) n

/-- The last read of an outbound tile read (R270). -/
def tileRdEnd (k : Core) (r : TileRd) : Nat := drainPortEnd k.outp.drains 4096 r.issue r.count

/-- The cycle from which row q of an outbound tile read may leave (R128, R270). -/
def tileRowReady (k : Core) (issue q : Nat) : Nat := drainPortEnd k.outp.drains 4096 issue (q + 1) + 1

/-- The rows of a TILE_OUT or SAVE still reading tiles leave later as the reads do (R128, R129, R270); image row 8 is the first of a
SAVE's tiles (R365). -/
def laterRows (k : Core) (r : TileRd) : Core :=
  let inj (x : InjPkt) : InjPkt :=
    if x.pkt.ptype ≠ .wr then x
    else if r.save then
      let i := 16 * x.pkt.tag + x.pkt.row
      if x.src = 4 ∧ 8 ≤ i ∧ i < 8 + r.count then { x with ready := tileRowReady k r.issue (i - 8) } else x
    else if x.src = 3 ∧ x.pkt.tag = r.tag then { x with ready := tileRowReady k r.issue x.pkt.row } else x
  let inb (x : InEntry) : InEntry :=
    if !r.save ∧ x.own ∧ x.q = 3 ∧ x.tag = r.tag then { x with entered := tileRowReady k r.issue x.pkt.row } else x
  { k with mv := { k.mv with inj := k.mv.inj.map inj, injS := k.mv.injS.map inj, inb := k.mv.inb.map inb } }

/-- A drain or RESCALE starts at cycle e: a TILE_OUT or SAVE still reading tiles gives way to it, and its last read, the holds on
its tiles, its release and done flag come later (R128, R129). -/
def noteDrain (s : State) (p e : Nat) : State :=
  let k := coreAt s p
  let k := { k with outp := { k.outp with drains := (k.outp.drains.filter fun x => decide (e ≤ x + 128)) ++ [e] } }
  let s := setCore s p k
  match k.mv.tileRd, k.mv.lastRead with
  | some r, some old =>
    let new := tileRdEnd k r
    if new ≤ old then s
    else
      let k := { k with mv := { k.mv with lastRead := some new, runs := k.mv.runs.map fun x =>
        if !r.save ∧ x.tag = r.tag ∧ x.q = 3 then { x with released := new + 1 } else x } }
      let k := laterRows k r
      let k := r.tiles.foldl (fun k t =>
        if (descAt k t).heldEnd ≤ e then k else setDesc k t { descAt k t with heldEnd := max (descAt k t).heldEnd (new + 1) }) k
      shiftTrack (setCore s p k) p r.track (old + 1) (new - old)
  | _, _ => s

/-- The changes of a RESCALE or ZERO still writing, at the cycles its row writes take among given claims (R128, R129,
R154). -/
def shiftFill (d : Desc) (r : OutRun) (claims : List (Nat × Nat)) (new : Nat) : Desc :=
  let at_ (x : Nat × DescEv) : Nat :=
    match x.2 with
    | .row id u _ _ _ => if id = r.track then fillPortEnd r.fill (u + 1) claims else x.1
    | .exp _ _ => if x.1 = r.ends then new else x.1
    | .zero _ => if x.1 = r.ends then new else x.1
    | _ => x.1
  { d with evs := (d.evs.map fun x => (at_ x, x.2)).foldl insertEv [] }

/-- Put claimed fill-port cycles in their place. -/
def insertClaim : List (Nat × Nat) → Nat × Nat → List (Nat × Nat)
  | [], x => [x]
  | y :: t, x => if x.1 < y.1 then x :: y :: t else y :: insertClaim t x

/-- A pass claims fill-port cycles, or an inbound write uses them: a RESCALE or ZERO still writing takes later ones, and its end, its
hold on the tile and its done flag move with it (R128, R129, R154). -/
def claimFill (s : State) (p now first last : Nat) : State :=
  let k := coreAt s p
  let from_ := match k.outp.run with
    | some r => if r.fill ≠ 0 ∧ now ≤ r.ends then min now r.fill else now
    | none => now
  let claims := insertClaim (k.tile.claims.filter fun x => decide (from_ ≤ x.2)) (first, last)
  let k := { k with tile := { k.tile with claims := claims } }
  match k.outp.run with
  | none => setCore s p k
  | some r =>
    let new := fillPortEnd r.fill 32 claims
    if r.fill = 0 ∨ r.ends < now ∨ new ≤ r.ends then setCore s p k
    else
      let k := { k with outp := { k.outp with run := some { r with ends := new } } }
      let x := shiftFill (descAt k r.tile) r claims new
      let k := setDesc k r.tile { x with heldEnd := max x.heldEnd (new + 1) }
      shiftTrack (setCore s p k) p r.track r.ends (new - r.ends)

/-- The activity level at cycle c from the level and target since `rampAt` (R91). -/
def levelAt (t : Tile) (c : Nat) : Nat :=
  let steps := (c - t.rampAt) / 3
  if t.rampTgt then min 16 (t.level + steps) else t.level - steps

/-- The last cycle in which an issued pass holds the target at 16. -/
def busyUntil (t : Tile) : Nat := t.stepEnds.foldl max 0

/-- The tile's ramp brought to cycle c with no pass decoded: after the last k step the target is 0 (R91). -/
def rampIdle (t : Tile) (c : Nat) : Tile :=
  let fall := max t.rampAt (max (busyUntil t + 1) t.left)
  if t.rampTgt ∧ fall < c then
    let u := { t with level := levelAt t fall, rampTgt := false, rampAt := fall }
    u
  else t

/-- The cycles from a to b − 1 in which some cell row of the tile is active (R91). -/
def activeCycles (t : Tile) (a b : Nat) : Nat :=
  if t.rampTgt then b - (if 0 < t.level then a else max a (t.rampAt + 3)) else min b (t.rampAt + 3 * t.level) - a

/-- Bring a core's ramp to cycle c, every cycle of array activity up to it counted, filler included (R91, R92). -/
def bringRamp (s : State) (p l c : Nat) : State :=
  let k := coreAt s p
  let t := k.tile
  let u := if (match (queueAt k 0).head with
      | some { cmd := .pass _, .. } => true
      | _ => false) then t else rampIdle t c
  let mid := if t.rampTgt && !u.rampTgt then max t.counted u.rampAt else c
  let n := activeCycles t t.counted mid + activeCycles u mid c
  countAct (updCore s p fun k => { k with tile := { u with counted := max t.counted c } }) l 0 n

/-- A pass is decoded in cycle c: the target is 16 from then on (R91). -/
def rampStart (t : Tile) (c : Nat) : Tile :=
  let t := rampIdle t c
  if t.rampTgt then t else { t with level := levelAt t c, rampTgt := true, rampAt := c }

/-- The limiter of a Gallery brought to issue window w (R442): one window on, its base is the last ceiling plus 32 after
demand, else the last count plus 32; windows passed without events had no passes. -/
def rollLimiter (x : Limiter) (w : Nat) : Limiter :=
  if w ≤ x.window then x
  else
    let base := if w = x.window + 1 then (if x.demand then x.ceiling + 32 else x.used + 32) else 32
    { x with ceiling := min (min x.hostCap x.ctlCap) base, used := 0, demand := false, window := w,
             prevUsed := if w = x.window + 1 then x.used else 0,
             prev2Used := if w = x.window + 1 then x.prevUsed else if w = x.window + 2 then x.used else 0 }

/-- The passes a limiter admitted in issue window w. -/
def usedIn (x : Limiter) (w : Nat) : Nat :=
  if w = x.window then x.used else if w + 1 = x.window then x.prevUsed else if w + 2 = x.window then x.prev2Used else 0

/-- The die's admitted passes in the window that Cavern 0 numbers w: in another Cavern, the window as many windows before
its present one (R443). -/
def dieUsed (s : State) (w : Nat) : Nat :=
  (List.range 32).foldl (fun n g =>
    n + usedIn (galAt s g).lim (aNow s (g / 8) / 256 + w - aNow s 0 / 256)) 0

/-- Count the windows of Cavern 0 ended since Gallery 0's limiter was last brought up in which the die's admitted passes
fell by more than 1,024 below the window before; only the first three of them can differ from an idle one (R443).
DEDUCED (log 43). -/
def judgeSlope (s : State) : State :=
  let w0 := (galAt s 0).lim.window
  let n := ([w0, w0 + 1, w0 + 2].filter fun w =>
    decide (w < aNow s 0 / 256) && decide (0 < w) && decide (dieUsed s w + 1024 < dieUsed s (w - 1))).length
  let s := if n = 0 then s else
    { s with pwr := { s.pwr with slopeFalls := min 0xFFFFFFFF (s.pwr.slopeFalls + n), slopeFallSeen := true } }
  updGal s 0 fun x => { x with lim := rollLimiter x.lim (aNow s 0 / 256) }

/-- Bring a Gallery's limiter to the window of a cycle, the windows that ended having been judged (R442, R443). -/
def rollGal (s : State) (g c : Nat) : State :=
  updGal (judgeSlope s) g fun x => { x with lim := rollLimiter x.lim (c / 256) }

/-- The limiter admits a count of passes. -/
def limAdmits (x : Limiter) (n : Nat) : Bool := decide (x.used + n ≤ x.ceiling)

/-- The place of a Gallery-local index in the rotation of cycle e, after the last core admitted before it (R384, R442). -/
def limTurn (x : Limiter) (e i : Nat) : Nat :=
  match (if x.lastAt = e then x.rotCore else x.lastCore) with
  | none => i
  | some j => (i + 63 - j) % 64

/-- The limiter after it has admitted in cycle e the passes, n in all, of Gallery-local index i (R384, R442). -/
def limTake (x : Limiter) (e i n : Nat) : Limiter :=
  let later := decide (x.lastAt = e) && x.lastCore.any fun j => decide (limTurn x e i < limTurn x e j)
  { x with
    used := x.used + n, lastAt := e, rotCore := if x.lastAt = e then x.rotCore else x.lastCore,
    lastCore := if later then x.lastCore else some i }

/-- The limiter admits index i with n passes in cycle e after the others ready in that cycle, given by index and count, each of which
it admits in rotation if there is room (R384, R442). A gang pass takes the turn of index 0, and one without room is passed over.
DEDUCED (log 43). -/
def limAdmitsTurn (x : Limiter) (e i n : Nat) (others : List (Nat × Nat)) : Bool :=
  let ahead := (List.range (limTurn x e i)).foldl (fun u t =>
    match others.find? fun o => limTurn x e o.1 == t with
    | none => u
    | some o => if u + o.2 ≤ x.ceiling then u + o.2 else u) x.used
  limAdmits { x with used := ahead } n

/-- Logical core of Gallery-local index i. -/
def memberOf (g i : Nat) : Nat := 64 * g + i

/-- The pass command decoded at the head of a core's matrix queue. -/
def headPass (k : Core) : Option (Decoded × PassCmd) :=
  match (queueAt k 0).head with
  | none => none
  | some d =>
    match d.cmd with
    | .pass c => some (d, c)
    | _ => none

/-- The kind of a decoded command (R349). -/
def cmdKind (c : Cmd) : Nat :=
  match c with
  | .pass _ => 1
  | .drain _ => 2
  | .desc _ => 3
  | .vec _ => 4
  | .sync _ => 6
  | _ => 5

/-- End with a status the gang passes waiting at a Gallery's rendezvous, which is then closed. With `owe` the gang pass of every
member that has not arrived belongs to the ended rendezvous too (R112, endings 1 to 3). -/
def failRendezvous (s : State) (g : Nat) (st : Status) (owe : Bool) : State :=
  let arrived := (galAt s g).rendezvous
  let late := (List.range 64).filter fun i => !arrived.any fun a => a.1 == i
  let s := updGal s g fun x => { x with
    rendezvous := [], gangFailed := true, owed := if owe then x.owed ++ late else x.owed }
  arrived.foldl (fun s a =>
    let l := memberOf g a.1
    match physOf s l with
    | none => s
    | some p =>
      match (queueAt (coreAt s p) 0).head with
      | none => s
      | some d => retireDecoded s p l 0 (cycleOf s l) d 1 st) s

/-- A decoded command at a queue's head ends with a status before it issues; a gang pass that so ends takes those waiting at its
rendezvous with it, as ending 4 of R112 does. DESIGN CHOICE (log 65). -/
def endHead (s : State) (p l q : Nat) (d : Decoded) (st : Status) : State :=
  let s := retireDecoded s p l q (cycleOf s l) d (cmdKind d.cmd) st
  match d.cmd with
  | .pass c =>
    let rest := (galAt s (galOf l)).rendezvous.filter fun a => a.1 != l % 64
    if c.shape = 0 then s
    else report (failRendezvous (updGal s (galOf l) fun x => { x with rendezvous := rest }) (galOf l) .badState false) st
  | _ => s

/-- The tile an output-path command holds. -/
def outTile (c : Cmd) : Nat :=
  match c with
  | .drain x => x.tile
  | .desc x => x.tile
  | _ => 0

/-- The command in the output path's pending slot ends with a status before it starts (R140, R234, R245, R355). -/
def endPend (s : State) (p l : Nat) (d : Decoded) (st : Status) : State :=
  let c := cycleOf s l
  let t := outTile d.cmd
  let s := updCore s p fun k => setDesc { k with outp := { k.outp with pend := none } } t
    { descAt k t with pendHeld := false }
  report (endTrack (retire s p l 0 d.slot (cmdKind d.cmd) st) p d.track c c st) st

/-- The command decoded at a queue's head ends when it waits on a row of an abandoned ring (R245). -/
def endAbandonedHead (s : State) (p l q : Nat) : State :=
  match (queueAt (coreAt s p) q).head with
  | none => s
  | some d => if cmdVerdict s p l (cycleOf s l) d = .abandoned then endHead s p l q d .abandoned else s

/-- The command in the output path's pending slot ends when it waits on a row of an abandoned ring (R245). -/
def endAbandonedPend (s : State) (p l : Nat) : State :=
  match (coreAt s p).outp.pend with
  | none => s
  | some d => if cmdVerdict s p l (cycleOf s l) d = .abandoned then endPend s p l d .abandoned else s

/-- Every command of a core that waits on a row of an abandoned ring ends (R245). -/
def endAbandoned (s : State) (p l : Nat) : State :=
  endAbandonedPend ((List.range 4).foldl (fun s q => endAbandonedHead s p l q) s) p l

/-- Rings and counters whose producer satisfies a test become abandoned, and the commands that wait on their rows end (R245,
R327). -/
def abandonAll (s : State) (p l : Nat) (f : Nat → Nat → Nat → Bool) : State := endAbandoned (abandonWhere s p l f) p l

end Sys2Proof.Machine
end

