-- ==== Sys2Proof/Machine/MoveOps.lean ====
section
/-!
DEFINITION. Shared operations of the move engine: responses and completion, credits, the packets of a command, the
conversions of a MOVE, and tile rows arriving (09_move_engine_and_mesh, 05_accumulation).
-/

namespace Sys2Proof.Machine

/-- The status of a code (R10). A base status of 0x10 to 0xFF, which R11 leaves unsaid, is reported as OVERRUN. DESIGN CHOICE (log 65). -/
def statusOf (c : Nat) : Status :=
  match c with
  | 0 => .done
  | 1 => .badValue
  | 2 => .badState
  | 3 => .noAccess
  | 4 => .busy
  | 5 => .fenced
  | 6 => .absorbed
  | 7 => .uncredited
  | 8 => .timeout
  | 9 => .broken
  | 10 => .abandoned
  | 11 => .poisoned
  | 12 => .mappedOut
  | 13 => .destDown
  | 14 => .conflict
  | _ => .overrun

/-- The index of the credit-table entry that covers a Pool row of a target (R273). -/
def credIndex (k : Core) (a : Nat) : Option Nat :=
  if addrSpace a ≠ 0 then none
  else (findIdx (fun (x : Cred) => x.die == addrDie a && x.core == addrCore a &&
    decide (x.base ≤ addrByte a / 512) && decide (addrByte a / 512 < x.base + x.size)) k.mv.creds).map (·.1)

/-- Take or return credits of an entry. -/
def adjustCred (k : Core) (i : Nat) (f : Nat → Nat) : Core :=
  match k.mv.creds[i]? with
  | none => k
  | some x => { k with mv := { k.mv with creds := listPut k.mv.creds i { x with count := f x.count } } }

/-- Return the credit of a row to its entry, if the entry still exists (R270, R273). -/
def returnCred (k : Core) (a : Nat) : Core :=
  match credIndex k a with
  | none => k
  | some i => adjustCred k i (· + 1)

/-- A row's response code of a run, none while there is none. -/
def respOf (r : MoveRun) (row : Nat) : Option Nat := (r.resp.find? fun e => e.1 == row).map fun e => e.2 - 1

/-- The status a completed run reports (R272, R164): that of its lowest-numbered row that did not give DONE, else
POISONED for a TILE_OUT of a POISONED tile. -/
def runStatus (r : MoveRun) : Status :=
  match (List.range r.rows).find? fun q => (respOf r q).getD 0 != 0 with
  | some q => statusOf ((respOf r q).getD 0)
  | none => if r.poisoned then .poisoned else .done

/-- Replace or drop a run by its tag and queue. -/
def updRun (k : Core) (tag q : Nat) (f : MoveRun → Option MoveRun) : Core :=
  { k with mv := { k.mv with runs := k.mv.runs.filterMap fun r => if r.tag = tag ∧ r.q = q then f r else some r } }

/-- The run of a tag and queue. -/
def findRun (k : Core) (tag q : Nat) : Option MoveRun := k.mv.runs.find? fun r => r.tag == tag && r.q == q

/-- An inbound write that has ended is no longer one that had begun before a hold (R134). -/
def dropBegun (k : Core) (key : Nat × Nat) : Core :=
  (List.range 8).foldl (fun k t =>
    let d := descAt k t
    if d.begun.contains key then setDesc k t { d with begun := d.begun.filter (· != key) } else k) k

/-- A run whose rows all have their final response completes: its done flag and status (R272). -/
def finishRun (s : State) (p l tag q : Nat) : State :=
  match findRun (coreAt s p) tag q with
  | none => s
  | some r =>
    if !(List.range r.rows).all fun i => (respOf r i).isSome then s
    else
      let c := max (cycleOf s l) r.released
      let overran := (coreAt s p).track.any fun t => t.id == r.track && t.overran
      let st := if overran ∧ runStatus r = .done then .overrun else runStatus r
      let s := updCore s p fun k => dropBegun (updRun k tag q fun _ => none) (q, tag)
      let s := if r.op = 2 ∧ st = .poisoned then
          updCore s p fun k => { k with outp := { k.outp with poisonedSeen := true } } else s
      let s := if st = .timeout then updCore s p fun k => { k with mv := { k.mv with timeoutSeen := true } } else s
      let late := r.doneAt || r.op != 1 && r.op != 2
      let s := updTrack s p r.track fun t => { t with
        endAt := some (if late && r.doneEn then c + 1 else if r.op = 5 then c else t.endAt.getD r.released),
        doneAt := some (if late && r.doneEn then c + 1 else c), status := some st }
      report (if late then dueDone s p c r.doneEn r.doneFlag (setterOf q) r.ctx r.slot r.track else s) st

/-- The final response of one row of a run (R272): an ABSORBED row returns its credit; a response with no row waiting for
it is discarded and logged. -/
def respond (s : State) (p l tag q row : Nat) (st : Status) : State :=
  let k := coreAt s p
  match findRun k tag q with
  | none => logCore s 6 st l false [(1, tag), (1, row)]
  | some r =>
    if (respOf r row).isSome ∨ r.rows ≤ row then logCore s 6 st l false [(1, tag), (1, row)]
    else
      let out : Option OutEntry := k.mv.outb.find? fun e => e.tag == tag && e.row == row
      let k := match out with
        | some e => if st = Status.absorbed ∧ e.pkt.ptype = PType.wr then returnCred k e.pkt.addr.toNat else k
        | none => k
      let k := { k with mv := { k.mv with outb := if q = 3 then k.mv.outb.filter (fun e => !(e.tag == tag && e.row == row)) else k.mv.outb } }
      let k := updRun k tag q fun r => some { r with resp := Store.insert r.resp row (st.code + 1) }
      finishRun (setCore s p k) p l tag q

/-- The image row of the context operation in progress (4 SAVE, 5 RESTORE) that a response answers, by tag, row and address
(R364, R367). -/
def ctxRowOf (k : Core) (op : Nat) (pkt : Packet) : Option Nat :=
  let i := 16 * pkt.tag + pkt.row
  if k.op.busy && k.op.op == op && k.op.left.contains i && pkt.addr.toNat == k.op.img + 512 * i then some i else none

/-- An image row is answered: its contents are kept, or the first status other than DONE (R364, R367). -/
def ctxAnswer (k : Core) (i : Nat) (x : Option Row) (st : Status) : Core :=
  let o := { k.op with left := setErase k.op.left i }
  let o := match x with
    | some r => { o with rows := Store.set Row.zero o.rows i r }
    | none => o
  { k with op := if st = .done ∨ o.fail.isSome then o else { o with fail := some st.code } }

/-- A pending-write mark that an engine's row, by tag, still has to clear. -/
def isInMark (row engine slot : Nat) (m : Mark) : Bool :=
  m.row == row && m.write && m.engine == engine && m.slot == slot && m.till.isNone

/-- Clear the pending-write mark of a DEEP_READ's row that will not be written (R229, R271). -/
def clearInMark (k : Core) (row tag : Nat) : Core :=
  match k.pool.marks.find? (isInMark row 3 tag) with
  | none => k
  | some m => { k with pool := { k.pool with marks := k.pool.marks.erase m } }

/-- The pending-write mark of a row of the inbound buffer is cleared in the cycle of its commit (R229). -/
def endInMark (k : Core) (e : InEntry) (c : Nat) : Core :=
  match k.pool.marks.find? (if e.own && e.q != 4 then isInMark e.row (e.q + 1) e.tag else isInMark e.row 5 0) with
  | none => k
  | some m => { k with pool := { k.pool with marks := { m with till := some c } :: k.pool.marks.erase m } }

/-- The first row of a run's inbound write of tile rows arrives in cycle c (R131). -/
def noteBegan (k : Core) (tag q c : Nat) : Core :=
  updRun k tag q fun r => some { r with began := if r.began = 0 then c + 1 else min r.began (c + 1) }

/-- Write one arriving tile row, checked by R53 (R159): the answer says whether it was written. -/
def writeInTrow (k : Core) (u data : Nat) : Bool × Core :=
  if !rowWordsOk data 32 then (false, k)
  else
    let r := storeWords data
    let ws := tileWords r
    let t := u / 32
    (true, setDesc (writeTrows k u [r]) t (changeNow (descAt k t) fun m =>
      { m with inf := m.inf || ws.any A64.isInf, nar := m.nar || ws.any (· == .nar) }))

/-- Commit an arriving row of two tile rows from u on; a tile row that fails its check is not written (R159). -/
def commitTrows (k : Core) (u : Nat) (x : Row) : Status × Core :=
  let (a, k) := writeInTrow k u (fieldN x.data.toNat 0 2048)
  let (b, k) := writeInTrow k (u + 1) (fieldN x.data.toNat 2048 2048)
  (if a && b then .done else .badValue, k)

/-- Commit a whole-tile image that passed its checks (R158). -/
def commitImage (k : Core) (t : Nat) (rows : List Row) : Core :=
  let side := (rows.headD Row.zero).side.toNat
  let trows := imageTileRows rows
  let ws := trows.flatMap tileWords
  let poisoned := bitN side 8
  setDesc (writeTrows k (32 * t) trows) t (changeNow (descAt k t) fun m => { m with
    exp := BitVec.ofNat 8 side, poisoned := poisoned, cause := fieldN side 9 3, inf := ws.any A64.isInf,
    nar := ws.any (· == .nar) || poisoned })

/-- The tiles of two tile rows from u on are free for an inbound write at cycle c (R134). -/
def trowsOpen (k : Core) (c u : Nat) : Bool :=
  let open1 (t : Nat) : Bool :=
    let d := descAt k t
    !d.pendHeld && decide (d.heldEnd ≤ c) && (d.fillEnd == 0 || decide (d.fillEnd < c))
  open1 (u / 32) && open1 ((u + 1) / 32)

/-- The tiles of two tile rows from u on take a row of an inbound write, by queue and tag, at cycle c: once the passes have
written, and, in a held tile, only of a write that had begun before the hold (R134). -/
def trowsTake (k : Core) (c u : Nat) (key : Nat × Nat) : Bool :=
  let take1 (t : Nat) : Bool :=
    let d := descAt k t
    (!tileHeld k c t || d.begun.contains key) && (d.fillEnd == 0 || decide (d.fillEnd < c))
  take1 (u / 32) && take1 ((u + 1) / 32)

/-- The inbound write of a run may use the fill port in cycle c: no pass has it, and no RESCALE or ZERO that began before it (R128,
R129). -/
def fillFree (k : Core) (c began : Nat) : Bool := !fillTaken k c && !fillHeld k c (began - 1)

/-- An inbound write uses the first n fill-port cycles from cycle c that are free (R128, R129). -/
def useFill (s : State) (p c n : Nat) : State :=
  let claims := (coreAt s p).tile.claims
  (List.range n).foldl (fun s i => let e := fillPortEnd c (i + 1) claims; claimFill s p c e e) s

/-- The rows of a whole-tile write that have arrived by cycle c: those of a DEEP_READ wait in its run, those of a MOVE in the inbound
buffer (R158, R268). -/
def arrivedRow (k : Core) (r : MoveRun) (c i : Nat) : Option Row :=
  if r.q = 2 then (r.image.find? fun e => e.1 == i).map (·.2)
  else (k.mv.inb.find? fun e => e.own && e.q == 3 && e.tag == r.tag && e.pkt.row == i && decide (e.entered < c)).map (·.data)

/-- A whole-tile write whose 16 rows have all answered ends (R158, R266): any other status, or a failed check, rejects it;
otherwise it commits once the tile and the fill port are free. -/
def tryImage (s : State) (p l tag q : Nat) : State :=
  let k := coreAt s p
  let c := cycleOf s l
  match findRun k tag q with
  | none => s
  | some r =>
    if !r.whole then s
    else if !(List.range 16).all fun i => (respOf r i).isSome || (arrivedRow k r c i).isSome then s
    else
      let rows := (List.range 16).map fun i => (arrivedRow k r c i).getD Row.zero
      let rest := (List.range 16).filter fun i => (respOf r i).isNone
      let fill (s : State) (st : Status) : State :=
        let s := updCore s p fun k => { k with mv := { k.mv with
          inb := k.mv.inb.filter fun e => !(e.own && e.q == q && e.tag == tag) } }
        rest.foldl (fun s i => respond s p l tag q i st) s
      if rest.length < 16 then fill s .done
      else if !imageOk rows then fill s .badValue
      else if !trowsTake k c r.dst (q, tag) || !fillFree k c r.began then s
      else fill (useFill (setCore s p (commitImage k (r.dst / 32) rows)) p c 32) .done

/-- Inbound entries reserved by the core's own commands (R268). -/
def ownReserved (k : Core) : Nat :=
  (k.mv.inb.filter fun e => e.own && e.q == 3).length +
  k.mv.runs.foldl (fun n r => if r.op = 5 then n + (r.rows - r.resp.length) else n) 0

/-- Inbound entries in use (R268, R286). -/
def inRows (k : Core) : Nat := ownReserved k + (k.mv.inb.filter fun e => !e.own || e.q == 4).length

/-- An interface's table shows a logical core of this die settled, or the address is another die's (R282, R283). -/
def destSettled (s : State) (die core : Nat) : Bool :=
  die != s.boot.dieId || decide (2048 ≤ core) || !(galAt s (galOf core)).tableMask.contains (core % 64)

/-- The epoch an interface stamps for an address. -/
def stampEpoch (s : State) (die core : Nat) : Nat :=
  if die = s.boot.dieId ∧ core < 2048 then (galAt s (galOf core)).tableEpoch else 0

/-- The elements of K rows as exact values, with the exponent and NaR mark of the block each comes from (R261). -/
def rowBlocks (fmt : Nat) (rows : List Row) : List Block := rows.flatMap fun r => (List.range 16).map (kBlock fmt r)

/-- The target exponent of a destination block (R261). -/
def moveTarget (m : MoveCmd) (xs : List Wide) (src : Block) : Int :=
  match m.omode with
  | 0 => m.oexp
  | 1 => maxabsExp xs (fmtB m.dfmt)
  | _ => if src.nar then 0 else src.e

/-- The destination rows of a CONVERT: element i of the source run becomes element i of the destination run (R261). -/
def convertRows (m : MoveCmd) (rows : List Row) : List OutRow :=
  let bs := rowBlocks m.sfmt rows
  let ws := bs.flatMap blockWides
  let e := fmtElems m.dfmt
  let es := fmtElems m.sfmt
  (List.range (m.n + 1)).map fun q =>
    outK m.dfmt ((List.range 16).map fun j =>
      let first := (16 * q + j) * e
      let xs := sliceL ws first e
      convBlock m.dfmt (moveTarget m xs (bs.getD (first / es) { nar := true, e := 0, lanes := [] })) xs)

/-- The destination panels of a TRANSPOSE: destination lane j, element k is entry 32k + j of the source panel (R262). -/
def transposeRows (m : MoveCmd) (rows : List Row) : List OutRow :=
  let e := fmtElems m.sfmt
  (List.range ((m.n + 1) / 2)).flatMap fun x =>
    let ws := (rowBlocks m.sfmt (sliceL rows (2 * x) 2)).flatMap blockWides
    let lane (j : Nat) : OutBlock :=
      let xs := (List.range e).map fun k => ws.getD (32 * k + j) Wide.narV
      convBlock m.dfmt (moveTarget m xs { nar := true, e := 0, lanes := [] }) xs
    [outK m.dfmt ((List.range 16).map lane), outK m.dfmt ((List.range 16).map fun j => lane (16 + j))]

/-- The destination rows of a MOVE (R261, R262). -/
def moveRows (m : MoveCmd) (rows : List Row) : List OutRow :=
  match m.mode with
  | 0 => rows.map fun r => { row := r, counts := Counts.none }
  | 1 => convertRows m rows
  | _ => transposeRows m rows

/-- The source rows that feed a destination row, by their index (R261, R262, R270). -/
def feeders (m : MoveCmd) (q : Nat) : List Nat :=
  match m.mode with
  | 0 => [q]
  | 1 =>
    let ed := 16 * fmtElems m.dfmt
    let es := 16 * fmtElems m.sfmt
    (List.range (moveSrcRows m.mode m.sfmt m.dfmt m.n)).filter fun r => decide (r * es < (q + 1) * ed) && decide (q * ed < (r + 1) * es)
  | _ => [q / 2 * 2, q / 2 * 2 + 1]

end Sys2Proof.Machine
end

