-- ==== Sys2Proof/Machine/Inbound.lean ====
section
/-!
DEFINITION. What arrives at a core and its Pool's registers: doorbells, row writes, class-T writes, commits, rings,
windows and bank power (08_pool, 09_move_engine_and_mesh).
-/

namespace Sys2Proof.Machine

/-- A ring doorbell address: the ring and whether it is HEAD_ADD, none for a reserved or misaligned byte (R238). -/
def doorbell (a : Nat) : Option (Nat × Bool) :=
  if addrByte a / 1024 = 0 ∧ a % 64 = 0 then some (addrByte a / 64, false)
  else if addrByte a / 1024 = 0 ∧ a % 64 = 8 then some (addrByte a / 64, true)
  else none

/-- TAIL_ADD of a count on a ring, checks 2 and 5 of R239 made: the tail advances and the ring's flag is set
(R235, R240). -/
def tailAdd (s : State) (p l c n count : Nat) : Status × State :=
  let k := coreAt s p
  let r := ringAt k n
  if !r.enable then (.badState, s)
  else if r.size < ringOcc r + count then (.overrun, s)
  else
    let s := markHw (setCore s p (setRing k n { r with tail := (r.tail + count) % 2 ^ 32 })) p (0x40C + 16 * n)
    (.done, if r.flagEn then (setInTurn s p l c r.flag 5 [(1, n)]).2 else s)

/-- HEAD_ADD of a count on a ring, checks 2 and 5 of R239 made: the head advances and credits are granted
(R235, R243). -/
def headAdd (s : State) (p l n count : Nat) : Status × State :=
  let k := coreAt s p
  let r := ringAt k n
  if !r.enable then (.badState, s)
  else if ringOcc r < count then (.overrun, s)
  else
    let s := markHw (setCore s p (setRing k n { r with head := (r.head + count) % 2 ^ 32 })) p (0x408 + 16 * n)
    (.done, grantRing s p l n count)

/-- A doorbell packet (R36, R239). -/
def doorPacket (s : State) (port : Port) (pkt : Packet) : State :=
  deliverSig s port pkt fun s l p =>
    let w := pkt.word.toNat
    let count := w % 1024
    if inReset s l then answerPkt s p l port pkt .absorbed
    else if addrSpace pkt.addr.toNat ≠ 2 ∨ offsetHigh pkt.addr.toNat then answerPkt s p l port pkt .badValue
    else
      match doorbell pkt.addr.toNat with
      | none => answerPkt s p l port pkt .badValue
      | some (n, isHead) =>
        if count = 0 ∨ 512 < count ∨ w / 1024 ≠ 0 then answerPkt s p l port pkt .badValue
        else
          let s := (useWords s p l [(7, n)]).2
          let r := ringAt (coreAt s p) n
          let c := cycleOf s l
          let s := settleSync s p l c
          if !r.enable then answerPkt s p l port pkt .badState
          else if (isHead && (n < 4 || senderOf pkt != ownSender s l)) ||
              (!isHead && !isProducer s l r.kind r.die r.core (senderOf pkt)) then answerPkt s p l port pkt .noAccess
          else if r.abandoned then answerPkt s p l port pkt .abandoned
          else
            let (st, s) := if isHead then headAdd s p l n count else tailAdd s p l c n count
            answerPkt s p l port pkt st

/-- The address is the HEAD_ADD doorbell of a ring. -/
def isHeadDoor (a : Nat) : Bool := addrSpace a == 2 && (doorbell a).any (·.2)

/-- R239, R240; a SIG outside the doorbell and counter layout is answered BAD_VALUE here. A class-T SIG is none of these (R284). -/
def execTailAdd (port : Port) (pkt : Packet) (s : State) : Host.Outcome State Fault Refusal :=
  .next (if pkt.ptype = .sig ∧ !pkt.classT ∧ !isHeadDoor pkt.addr.toNat ∧
      !(addrSpace pkt.addr.toNat = 2 ∧ doorPage pkt.addr.toNat = 1) then doorPacket s port pkt else s)

/-- R239, R243. -/
def execHeadAdd (port : Port) (pkt : Packet) (s : State) : Host.Outcome State Fault Refusal :=
  .next (if pkt.ptype = .sig ∧ !pkt.classT ∧ isHeadDoor pkt.addr.toNat then doorPacket s port pkt else s)

/-- Refuse a row write with UNCREDITED (R244). -/
def refuseRow (s : State) (p l row : Nat) (port : Port) (pkt : Packet) : State :=
  let s := updCore s p fun k => { k with pool := { k.pool with uncreditedSeen := true } }
  let s := logCore s 1 .uncredited l false [(2, row), (2, pkt.srcDie), (2, pkt.srcCore)]
  answerPkt s p l port pkt .uncredited

/-- A row passes its checks and enters the inbound buffer (R229, R244); a poisoned one is answered instead (R280).
DEDUCED (log 44). -/
def enterRow (s : State) (p l row ring : Nat) (port : Port) (pkt : Packet) : State :=
  if pkt.poison then
    answerPkt (updCore s p fun k => { k with mv := { k.mv with poisonedSeen := true } }) p l port pkt .poisoned
  else
    let c := cycleOf s l
    updCore s p fun k =>
      let k := addMarks k c [{ row := row, write := true, till := none, engine := 5, slot := 0 }]
      { k with mv := { k.mv with inb := k.mv.inb ++ [{ row := row, fs := false, data := pkt.data, entered := c, own := false,
                                                       tag := 0, q := 0, ring := ring, pkt := pkt }] } }

/-- Rows from elsewhere hold the 16 inbound entries that are not kept for the core's own commands (R268, R382). DEDUCED (log
66). -/
def foreignFull (k : Core) : Bool := decide (16 ≤ (k.mv.inb.filter fun e => !e.own).length)

/-- The credit of a row that leaves the inbound buffer uncommitted returns to its ring or window, if that is still enabled or open
(R244). -/
def recredit (k : Core) (e : InEntry) : Core :=
  if e.ring < 16 then
    let r := ringAt k e.ring
    if r.enable then setRing k e.ring { r with outst := r.outst + 1 } else k
  else if e.ring < 24 then
    let x := winAt k (e.ring - 16)
    if x.opened then setWin k (e.ring - 16) { x with outst := x.outst + 1 } else k
  else k

/-- The way back to a packet's sender. -/
def portOf (s : State) (p : Nat) (pkt : Packet) : Port :=
  if pkt.srcDie = s.boot.dieId ∧ !pkt.host ∧ !pkt.classT then .vein else .sump p

/-- Make room for an arrival while rows from elsewhere hold all their entries: one from the bundle takes the entry of a row that has
come from the crossbar in the same A-cycle c, which goes back to its link buffer (R384). -/
def makeRoom (s : State) (p c : Nat) (port : Port) : Option State :=
  let k := coreAt s p
  if !foreignFull k then some s
  else
    match port with
    | .vein => none
    | .sump _ _ =>
      match k.mv.inb.reverse.find? fun e => !e.own && e.entered == c && portOf s p e.pkt == .vein with
      | none => none
      | some e =>
        let marks := match k.pool.marks.find? (isInMark e.row 5 0) with
          | none => k.pool.marks
          | some m => k.pool.marks.erase m
        some (setCore s p { recredit k e with
          pool := { (recredit k e).pool with marks := marks },
          mv := { (recredit k e).mv with inb := k.mv.inb.erase e, delivered := e.pkt :: k.mv.delivered } })

/-- A row write into space 0x0 or 0x1 arrives (R36, R244, R274); it waits while the inbound buffer is full (R384). -/
def execWr (port : Port) (pkt : Packet) (s : State) : Host.Outcome State Fault Refusal :=
  .next (
    if pkt.ptype ≠ .wr ∨ pkt.classT then s
    else deliverOpt s port pkt fun s l p =>
      let pkt := received port pkt
      let a := pkt.addr.toNat
      let row := addrByte a / 512
      if inReset s l then some (answerPkt s p l port pkt .absorbed)
      else if addrSpace a = 1 ∧ !offsetHigh a ∧ a % 256 = 0 ∧ addrByte a < 65536 then
        some (refuseRow s p l (addrByte a / 256) port pkt)
      else if addrSpace a ≠ 0 ∨ !poolSpanOk a 0 then some (answerPkt s p l port pkt .badValue)
      else
        match ringOfRow (coreAt s p) row with
        | none => some (refuseRow s p l row port pkt)
        | some (n, _) =>
          let s := (useWords s p l [(7, n)]).2
          let k := coreAt s p
          let r := ringAt k n
          if !r.enable || !isProducer s l r.kind r.die r.core (senderOf pkt) || r.kind == 0 || r.abandoned || r.outst == 0 ||
              !rowFree r row then some (refuseRow s p l row port pkt)
          else
            (makeRoom s p (cycleOf s l) port).map fun s =>
              enterRow (updCore s p fun k => setRing k n { ringAt k n with outst := (ringAt k n).outst - 1 }) p l row n port pkt)

/-- The open window of a row whose agent is a packet's (R284). -/
def agentWin (k : Core) (row agent : Nat) : Option (Nat × Win) := (winOfRow k row).filter fun x => x.2.agent == agent

/-- A class-T packet arrives (R284). -/
def execClassTWrite (port : Port) (pkt : Packet) (s : State) : Host.Outcome State Fault Refusal :=
  .next (
    if !pkt.classT then s
    else deliverOpt s port pkt fun s l p =>
      let pkt := received port pkt
      let a := pkt.addr.toNat
      let row := addrByte a / 512
      let fence (s : State) : Option State :=
        let s := updCore s p fun k => { k with mv := { k.mv with fencedSeen := true } }
        some (answerPkt (logCore s 6 .fenced l false [(2, row), (1, pkt.agent)]) p l port pkt .fenced)
      if pkt.ptype ≠ .wr ∨ addrSpace a ≠ 0 ∨ !poolSpanOk a 0 then fence s
      else
        match agentWin (coreAt s p) row pkt.agent with
        | none => fence s
        | some (w, _) =>
          let s := (useWords s p l [(7, 16 + w)]).2
          let k := coreAt s p
          let x := winAt k w
          if !x.opened ∨ x.outst = 0 then fence s
          else if inReset s l then some (answerPkt s p l port pkt .absorbed)
          else
            (makeRoom s p (cycleOf s l) port).map fun s =>
              enterRow (updCore s p fun k => setWin k w { winAt k w with outst := (winAt k w).outst - 1 }) p l row (16 + w) port pkt)

/-- The earliest of two inbound rows by the cycle they enter the buffer. -/
def earlierIn (b : Option InEntry) (e : InEntry) : Option InEntry :=
  match b with
  | none => some e
  | some x => if e.entered < x.entered then some e else some x

/-- The oldest inbound row of a bank, by the cycle it enters the buffer (R224, R232). -/
def oldestInb (k : Core) (bank : Nat) : Option InEntry :=
  (k.mv.inb.filter fun e => !e.fs && bankOf e.row == bank).foldl earlierIn none

/-- A committed row of a window counts as arrived and may set the window's flag (R284, R285). -/
def countArrived (s : State) (p l c w : Nat) : State :=
  let k := coreAt s p
  let x := winAt k w
  let n := (x.arrived + 1) % 2 ^ 32
  let s := setCore s p (setWin k w { x with arrived := n })
  if x.flagEn ∧ n % x.thresh = 0 then (setInTurn s p l c x.flag 6 [(1, w)]).2 else s

/-- An inbound row that is uncorrectable in its buffer is not committed: it is counted and recorded, the receiver notes it, and its
sender is answered POISONED (R280, R502). -/
def loseInbound (s : State) (p l : Nat) (e : InEntry) : State :=
  let s := updCore s p fun k =>
    let k := countBuf k e.errs
    { k with mv := { k.mv with inb := k.mv.inb.erase e, poisonedSeen := true } }
  let s := logCore s 11 .poisoned l false [(1, 3), (2, e.row)]
  if e.own ∧ e.q = 4 then updCore s p fun k => ctxAnswer k (16 * e.tag + e.pkt.row) none .poisoned
  else if e.own then respond s p l e.tag e.q (if e.fs then fieldN e.pkt.row 0 4 else e.pkt.row) .poisoned
  else answerPkt s p l (portOf s p e.pkt) e.pkt .poisoned

/-- The oldest inbound row for the Flowstone that may be written in cycle c, rows of whole-tile writes apart: its tiles take it, and the
fill port is free (R128, R129, R134, R159). -/
def oldestTrow (k : Core) (c : Nat) : Option InEntry :=
  let run (e : InEntry) : Option MoveRun := findRun k e.tag e.q
  (k.mv.inb.filter fun e => e.fs && !((run e).map (·.whole)).getD false && decide (e.entered < c) &&
    trowsTake k c e.row (e.q, e.tag) && fillFree k c (((run e).map (·.began)).getD 0)).foldl earlierIn none

/-- The oldest inbound row of a bank commits in the bank's reserved slot unless a command-row read waits for the bank or a
read of its row is pending (R224, R229, R232, R268); bank 16 stands for the fill port, where the oldest row for the
Flowstone whose tile takes it, or else every complete whole-tile image, commits (R129, R134, R158, R159). -/
def execInboundCommit (core bank : Nat) (s : State) : Host.Outcome State Fault Refusal :=
  .next (withLive s core fun p =>
    let k := coreAt s p
    let now := cycleOf s core
    if 16 ≤ bank then
      match oldestTrow k now with
      | none => (k.mv.runs.filter fun r => r.whole && r.dstFs).foldl (fun s r => tryImage s p core r.tag r.q) s
      | some e =>
        if badIn e.errs then loseInbound s p core e else
        let (st, k) := commitTrows (countBuf k e.errs) e.row (fixRow e.data e.errs)
        let k := { k with mv := { k.mv with inb := k.mv.inb.erase e } }
        respond (useFill (setCore s p k) p now 2) p core e.tag e.q (fieldN e.pkt.row 0 4) st
    else
      match oldestInb k bank with
      | none => s
      | some e =>
        let c := reservedFrom k (max now (e.entered + 1)) bank
        if bankOff k bank c || fetchWaits k now bank then s
        else if k.pool.marks.any fun m => m.row == e.row && !m.write && markSeen c m then s
        else if badIn e.errs then loseInbound (setCore s p (takeSlot (endInMark k e c) bank c)) p core e
        else
          let k := writeRow (countBuf k e.errs) e.row (fixRow e.data e.errs)
          let k := takeSlot (endInMark k e c) bank c
          let k := { k with mv := { k.mv with inb := k.mv.inb.erase e } }
          let s := countAct (setCore s p k) core 2 1
          if e.own ∧ e.q = 4 then setCore s p (ctxAnswer (coreAt s p) (16 * e.tag + e.pkt.row) (some (fixRow e.data e.errs)) .done)
          else if e.own then respond s p core e.tag e.q e.pkt.row .done
          else
            let s := if 16 ≤ e.ring ∧ e.ring < 24 then countArrived (settleSync s p core c) p core c (e.ring - 16) else s
            answerPkt s p core (portOf s p e.pkt) e.pkt .done)

/-- The address of a Pool, Flowstone or control access is well formed (R35, R36). -/
def rdAddrOk (a : Nat) : Bool :=
  match addrSpace a with
  | 0 => poolSpanOk a 0
  | 1 => !offsetHigh a && a % 256 == 0 && decide (addrByte a < 65536)
  | 2 => !offsetHigh a && a % 8 == 0
  | n => decide (8 ≤ n)

/-- A read request is refused (R274), at a core in reset too, unless its address is bad (R12, R35, R36). -/
def execRd (port : Port) (pkt : Packet) (s : State) : Host.Outcome State Fault Refusal :=
  .next (
    if pkt.ptype ≠ .rd ∨ pkt.classT then s
    else deliver s port pkt fun s l p =>
      answerPkt s p l port pkt (if rdAddrOk pkt.addr.toNat then .noAccess else .badValue))

/-- CORE_RINGn_CFG (R253). -/
def readRingCfg (r : Ring) : Nat :=
  r.base + 1024 * r.size + 2 ^ 21 * b2n r.enable + 2 ^ 22 * b2n r.enforce + 2 ^ 23 * b2n r.flagEn + 2 ^ 24 * r.flag

/-- CORE_RINGn_PROD (R254). -/
def readRingProd (r : Ring) : Nat := r.die + 2 ^ 16 * r.core + 2 ^ 27 * r.kind

/-- A ring with the fields of a CFG word (R253). -/
def ringFromCfg (r : Ring) (v : Nat) : Ring :=
  { r with base := fieldN v 0 10, size := fieldN v 10 11, enable := bitN v 21, enforce := bitN v 22, flagEn := bitN v 23,
           flag := fieldN v 24 8 }

/-- The checks of a write that sets a ring's enable, against the values it leaves (R256). -/
def ringEnableCheck (s : State) (k : Core) (l n : Nat) (r : Ring) : Status :=
  let others := ((List.range 16).filter (· ≠ n)).any fun m =>
    let o := ringAt k m
    o.enable && overlaps r.base r.size o.base o.size
  let wins := (List.range 8).any fun w => let o := winAt k w; o.opened && overlaps r.base r.size o.base o.size
  if r.size = 0 ∨ poolRows < r.base + r.size then .badValue
  else if !producerFieldsOk s l r.kind r.die r.core then .badValue
  else if r.size < ringOcc r then .badValue
  else if others || wins then .badValue
  else if regionOff k r.base r.size then .badState
  else .done

/-- Enable a ring with its values: the abandoned state is cleared and credits are granted (R243, R256). -/
def enableRing (s : State) (p l n : Nat) (r : Ring) : State :=
  let s := updCore s p fun k => setRing k n { r with enable := true, abandoned := false, outst := 0, withheld := 0 }
  grantRing s p l n (r.size - ringOcc r)

/-- A write of CORE_RINGn_CFG (R253, R256, R246). -/
def writeRingCfg (s : State) (p l n v : Nat) : Status × State :=
  let k := coreAt s p
  let r := ringAt k n
  let r' := ringFromCfg r v
  if n < 4 ∧ !bitN v 22 then (.badValue, s)
  else if r.enable then
    if !bitN v 21 ∧ readRingCfg { r with enable := false } = v then (.done, disableRing s p l n) else (.badState, s)
  else if r'.enable then
    let st := ringEnableCheck s k l n r'
    if st ≠ .done then (st, s) else (.done, enableRing s p l n r')
  else (.done, setCore s p (setRing k n r'))

/-- A write of CORE_RINGn_PROD (R254, R256). -/
def writeRingProd (s : State) (p n v : Nat) : Status × State :=
  let r := ringAt (coreAt s p) n
  if r.enable then (.badState, s)
  else (.done, updCore s p fun k => setRing k n { r with die := fieldN v 0 16, core := fieldN v 16 11, kind := fieldN v 27 2 })

/-- A write of CORE_RINGn_HEAD or _TAIL (R255, R256). -/
def writeRingPtr (s : State) (p n v : Nat) (isTail : Bool) : Status × State :=
  let r := ringAt (coreAt s p) n
  if r.enable then (.badState, s)
  else (.done, updCore s p fun k => setRing k n (if isTail then { r with tail := v } else { r with head := v }))

/-- CORE_RINGn_CRED (R257). -/
def readRingCred (r : Ring) : Nat := r.outst + 2 ^ 11 * r.withheld + 2 ^ 22 * b2n r.abandoned

/-- CORE_ADMITw_CFG and _SRC (R288, R289). -/
def readWinCfg (x : Win) : Nat :=
  x.base + 1024 * x.size + 2 ^ 21 * b2n x.opened + 2 ^ 22 * b2n x.flagEn + 2 ^ 24 * x.flag
def readWinSrc (x : Win) : Nat := x.agent + 256 * x.thresh

/-- The checks of a write that opens a window (R291). -/
def winOpenCheck (k : Core) (w : Nat) (x : Win) : Status :=
  let rings := (List.range 16).any fun m => let o := ringAt k m; o.enable && overlaps x.base x.size o.base o.size
  let wins := ((List.range 8).filter (· ≠ w)).any fun m =>
    let o := winAt k m
    o.opened && overlaps x.base x.size o.base o.size
  if x.size = 0 ∨ poolRows < x.base + x.size then .badValue
  else if x.flagEn ∧ (x.thresh = 0 ∨ x.size < x.thresh) then .badValue
  else if rings || wins then .badValue
  else if regionOff k x.base x.size then .badState
  else .done

/-- A write of CORE_ADMITw_CFG (R288, R291, R285). -/
def writeWinCfg (s : State) (p l w v : Nat) : Status × State :=
  let k := coreAt s p
  let x := winAt k w
  let x' := { x with base := fieldN v 0 10, size := fieldN v 10 11, opened := bitN v 21, flagEn := bitN v 22,
                     flag := fieldN v 24 8 }
  if x.opened then
    if readWinCfg { x with opened := false } = v then (.done, closeWin s p l w) else (.badState, s)
  else if x'.opened then
    let st := winOpenCheck k w x'
    if st ≠ .done then (st, s)
    else
      let s := setCore s p (setWin k w { x' with arrived := 0, outst := 0, withheld := 0 })
      (.done, grantWin s p l w x'.size)
  else (.done, setCore s p (setWin k w x'))

/-- A write of CORE_ADMITw_SRC (R289, R291). -/
def writeWinSrc (s : State) (p w v : Nat) : Status × State :=
  let x := winAt (coreAt s p) w
  if x.opened then (.badState, s)
  else (.done, updCore s p fun k => setWin k w { x with agent := fieldN v 0 8, thresh := fieldN v 8 11 })

/-- CORE_POOL_PWR (R250). -/
def readPoolPwr (k : Core) (c : Nat) : Nat :=
  let bits (bs : List Nat) : Nat := bs.foldl (fun n b => n + 2 ^ b) 0
  bits k.pool.offReq + 2 ^ 16 * bits (k.pool.off.filter fun b => decide (Store.get 0 k.pool.downAt b ≤ c))

/-- A write of CORE_POOL_PWR: requests, cancellations and power-ups, bank by bank (R247 to R250). -/
def writePoolPwr (s : State) (p l v : Nat) : Status × State :=
  let k := coreAt s p
  let want := (List.range 16).filter (bitN v)
  let ringHit := want.any fun b => !k.pool.offReq.contains b && (List.range 4).any fun n =>
    let r := ringAt k n
    r.enable && overlapsBank r.base r.size b
  if ringHit then (.badState, s)
  else
    let rising := (k.pool.off.filter fun b => !want.contains b && !k.pool.ups.any fun u => u.1 == b)
    let ups := (k.pool.ups.filter fun u => !want.contains u.1) ++ rising.map fun b => (b, cycleOf s l + 256)
    let k := rising.foldl zeroBank { k with pool := { k.pool with offReq := want, ups := ups } }
    (.done, releaseWithheld (setCore s p k) p l)

/-- Run an effect on the physical core that serves a logical id, is powered and clocked, in reset or not. -/
def withPowered (s : State) (l : Nat) (f : Nat → State) : State :=
  match physOf s l with
  | none => s
  | some p => if gateOn s p && (cavAt s (cavOf l)).running then f p else s

/-- A requested bank powers down at a reserved slot when nothing can still reach it, and keeps no contents (R247). -/
def execPoolBankPowerDown (core bank : Nat) (s : State) : Host.Outcome State Fault Refusal :=
  .next (withPowered s core fun p =>
    let k := coreAt s p
    let c := nextPhase (cycleOf s core) (reservedPhase bank) 32
    let granted := (List.range 16).any (fun n =>
        let r := ringAt k n
        r.enable && decide (0 < r.outst) && overlapsBank r.base r.size bank) ||
      (List.range 8).any fun w => let x := winAt k w; x.opened && decide (0 < x.outst) && overlapsBank x.base x.size bank
    if !k.pool.offReq.contains bank || k.pool.off.contains bank || granted ||
        k.pool.marks.any (fun m => bankOf m.row == bank && markSeen c m) ||
        k.mv.inb.any (fun e => !e.fs && bankOf e.row == bank) || k.pool.wb.any (fun r => bankOf r == bank) then s
    else setCore s p (zeroBank { k with pool := { k.pool with
      off := setInsert k.pool.off bank, ups := k.pool.ups.filter (fun u => u.1 ≠ bank), downAt := Store.set 0 k.pool.downAt bank c } } bank))

/-- A bank powering up is zeroed and accepts accesses 256 cycles after the write; its withheld credits are then granted
(R249, R221). -/
def execPoolBankReady (core bank : Nat) (s : State) : Host.Outcome State Fault Refusal :=
  .next (withPowered s core fun p =>
    let k := coreAt s p
    match k.pool.ups.find? fun u => u.1 == bank with
    | none => s
    | some u =>
      if cycleOf s core < u.2 then s
      else
        let k := { k with pool := { k.pool with off := setErase k.pool.off bank, ups := k.pool.ups.erase u } }
        releaseWithheld (setCore s p k) p core)

/-- CORE_POOL_STATUS (R251). -/
def readPoolStatus (s : State) (p l : Nat) : Nat :=
  let x := (coreAt s p).pool
  let c := cycleOf s l
  b2n x.conflictSeen + 2 * b2n x.reservedHit + 4 * b2n x.uncreditedSeen + 8 * b2n x.sbTimeoutSeen +
  16 * b2n x.uncorrSeen + 32 * b2n x.abandonedSeen + 256 * (c % 32) + 2 ^ 13 * slotCycle c

end Sys2Proof.Machine
end

