-- ==== Sys2Proof/Machine/Matrix.lean ====
section
/-!
DEFINITION. The matrix tile: passes, gang passes, the activity ramp and checksum mode (03_matrix_tile, 04_gangs).
-/

namespace Sys2Proof.Machine

/-- The partner of a logical core for duplicate execution (R97 to R100). -/
def partnerOf (l : Nat) : Nat := if l % 2 = 0 then l + 1 else l - 1

/-- A tile uses a spare row or column (R93, R104). -/
def isRepaired (k : Core) : Bool := k.repair != (0x3F, 0x3F)

/-- The physical cell row or column of a logical one, with the one that is mapped out, 0x3F for none (R93). -/
def physCell (out i : Nat) : Nat := if i < out then i else i + 1

/-- A core is under duplicate execution in cycle c: its tile is repaired and its check mode is set, or passes issued in it are
still to be compared (R100, R101). -/
def isChecked (k : Core) (c : Nat) : Bool := isRepaired k && (k.tile.checkMode || decide (c ≤ k.tile.checkEnd))

/-- A logical core serves as checker of its partner in cycle c, which a reset of the partner ends (R100 to R102). -/
def isChecker (s : State) (l c : Nat) : Bool :=
  match physOf s (partnerOf l) with
  | none => false
  | some q => isChecked (coreAt s q) c && !inReset s (partnerOf l)

/-- Duplicate execution goes on in a Gallery in cycle c: some member is checked, and its partner serves as checker (R100,
R101, R112 ending 2). -/
def gangChecked (s : State) (g c : Nat) : Bool :=
  (List.range 64).any fun i =>
    match physOf s (memberOf g i) with
    | none => false
    | some p => isChecked (coreAt s p) c && !inReset s (memberOf g i)

/-- The members arrived at a rendezvous, by ascending index, with their physical cores and decoded commands. -/
def arrivedMembers (s : State) (g : Nat) : List (Nat × Nat × Decoded × PassCmd) :=
  (List.range 64).filterMap fun i =>
    if (galAt s g).rendezvous.any (fun a => a.1 == i) then
      match physOf s (memberOf g i) with
      | none => none
      | some p => (headPass (coreAt s p)).map fun x => (i, p, x.1, x.2)
    else none

/-- The commands of a gang agree in the fields R110 fixes; the answer is the second logical core that differs from the
first (R112 ending 3). -/
def gangDiffers (ms : List (Nat × Nat × Decoded × PassCmd)) : Option (Nat × Nat) :=
  match ms with
  | [] => none
  | m :: t =>
    let key (c : PassCmd) : Nat × Bool × Bool × Nat := (c.fmt, c.flow, c.loadW, c.shape)
    (t.find? fun x => key x.2.2.2 != key m.2.2.2).map fun x => (m.1, x.1)

/-- The endings of R112 that a rendezvous meets as soon as a member has arrived or a condition changes, in their order: duplicate
execution, commands that differ, and a member in reset. -/
def judgeGang (s : State) (g : Nat) : State :=
  if (galAt s g).rendezvous.isEmpty then s
  else if gangChecked s g (aNow s (g / 8)) then failRendezvous s g .badState true
  else
    match gangDiffers (arrivedMembers s g) with
    | some (x, y) =>
      failRendezvous (logGal s 2 .badState g false [(2, memberOf g x), (2, memberOf g y)]) g .badState true
    | none => if (List.range 64).any fun i => inReset s (memberOf g i) then failRendezvous s g .badState false else s

/-- A member's gang pass arrives in cycle c. One that belongs to a rendezvous that has ended fails as the others did (R112). -/
def arriveGang (s : State) (p l c : Nat) : State :=
  let g := galOf l
  if (galAt s g).owed.contains (l % 64) then
    let s := updGal s g fun x => { x with owed := x.owed.erase (l % 64) }
    match (queueAt (coreAt s p) 0).head with
    | none => s
    | some d => retireDecoded s p l 0 c d 1 .badState
  else
    let s := updGal s g fun x => { x with
      rvLimit := if x.rendezvous.isEmpty then 256 * x.gangUnits else x.rvLimit,
      rendezvous := x.rendezvous ++ [(l % 64, c)] }
    judgeGang s g

/-- A member's gang pass fails a check: the others' fail with BAD_STATE, those still to arrive too, unless this pass belongs to a
rendezvous that has ended (R112 ending 1). -/
def refuseGang (s : State) (l : Nat) : State :=
  let g := galOf l
  let x := galAt s g
  if x.owed.contains (l % 64) then updGal s g fun y => { y with owed := y.owed.erase (l % 64) }
  else
    let st := s.answer
    let s := failRendezvous s g .badState true
    report (updGal s g fun y => { y with owed := y.owed.erase (l % 64) }) st

/-- A pass is decoded and waits to issue; a gang pass arrives at its rendezvous, and one that fails its checks fails
the others there (R78, R91, R111, R112, R245). -/
def execPass (core : Nat) (s : State) : Host.Outcome State Fault Refusal :=
  .next (onHeadFail s core 0 (fun key => key == 0x100)
    (fun s b => if fieldN (slotWord b 1) 28 2 ≠ 0 then refuseGang s core else s)
    fun s p c h cmd =>
      match cmd with
      | .pass x =>
        let s := waitHead (bringRamp s p core c) p 0 c h cmd
        let s := updCore s p fun k => { k with tile := rampStart k.tile c }
        let s := if x.shape = 0 then s else arriveGang s p core c
        endAbandonedHead s p core 0
      | _ => s)

/-- Rows of a shape along the array, in cells (R89, R117). -/
def shapeRows (shape : Nat) : Nat := 32 * gangRows shape
def shapeCols (shape : Nat) : Nat := 32 * gangCols shape

/-- The first entry a tile allows a pass of a shape that loads (or reloads) or not (R118). -/
def entryFrom (t : Tile) (shape : Nat) (loads : Bool) : Nat :=
  if !t.everEntered then 0
  else if shape ≠ 0 ∧ t.lastShape = shape ∧ !loads then
    t.lastEntry + 32 + (if t.lastLoaded then shapeRows shape else 0)
  else busyUntil t + 1

/-- The pass takes a weight-load stall: a load, or a reload from the context's shadow (R87, R88, R116). -/
def passLoads (k : Core) (cx : Nat) (c : PassCmd) : Bool := c.flow && (c.loadW || k.tile.owner != cx + 1)

/-- The checking conditions of R82, R100 and R102: a checker issues no pass of its own, and a checked core's partner is out of
reset and has finished its own. -/
def checkAdmits (s : State) (l : Nat) (k : Core) (e : Nat) : Bool :=
  !isChecker s l e &&
  (!(k.tile.checkMode && isRepaired k) ||
   match physOf s (partnerOf l) with
   | none => false
   | some q => !inReset s (partnerOf l) && decide ((coreAt s q).tile.lastWrite ≤ e))

/-- The conditions of R82 that concern one tile, but for its Pool rows and the limiter: the operand buffer, the
destination tile of a result-writing member, the entry gap, the activity level and the checker. -/
def tileReady (s : State) (p l e : Nat) (d : Decoded) (c : PassCmd) (loads : Bool) : Bool :=
  let k := coreAt s p
  let pos := gangPos c.shape (l % 64)
  let off := if c.shape = 0 then 0 else 32 * (pos.1 + pos.2)
  decide ((k.tile.stepEnds.filter fun x => decide (e + off ≤ x)).length < 2) &&
  (!gangWrites c.shape (l % 64) c.flow && c.shape != 0 || tileAdmits k e c.dstTile) &&
  decide (entryFrom k.tile c.shape loads ≤ e + 10) && decide (levelAt (rampStart k.tile d.since) (e + 10) = 16) &&
  checkAdmits s l k e

/-- A fault of a pass: its cause code, the cycle from which it poisons the destination tile, and for a difference that the check of
the pass finds the further entries of its record (R161 to R163). -/
structure PassFault where
  cause : Nat
  cycle : Nat
  more : List (Nat × Nat)
deriving DecidableEq, Repr

/-- The earlier of two faults. -/
def firstFault (a b : Option PassFault) : Option PassFault :=
  match a, b with
  | some x, some y => if y.cycle < x.cycle then b else a
  | none, _ => b
  | _, none => a

/-- The fault of a panel read (R84, R161, R162): cause 1 in the cycle of a conflict or reserved slot, cause 2 in the cycle in which the
data of an uncorrectable row is available (R215). -/
def readFault (f : Fore) (c : Option Nat) : Option PassFault :=
  match c with
  | none => none
  | some 3 => some { cause := 2, cycle := f.cycle + bankLatency (bankOf f.row), more := [] }
  | some _ => some { cause := 1, cycle := f.cycle, more := [] }

/-- Read a panel of two rows at cycle e: its rows, the first fault, and the reads marked (R83, R229). Of several failing reads of a pass
the first reported gives the cause and the one record. DESIGN CHOICE (log 65). -/
def readPanel (s : State) (p l slot : Nat) (meets : List Meet) (row e track : Nat) (use : Use) :
    (Row × Row) × Option PassFault × State :=
  let fs : List Fore := [{ row := row, cycle := e, write := false, track := track, use := use },
                         { row := row + 1, cycle := e + 1, write := false, track := track, use := use }]
  let (rs, s) := readRows s p l 0 slot meets fs
  let s := updCore s p fun k => addMarks k (cycleOf s l)
    [{ row := row, write := false, till := some e, engine := 0, slot := slot },
     { row := row + 1, write := false, till := some (e + 1), engine := 0, slot := slot }]
  let s := countAct s l 2 2
  let r (i : Nat) : Row := (rs.getD i (Row.zero, none)).1
  ((r 0, r 1), (fs.zip rs).foldl (fun a x => firstFault a (readFault x.1 x.2.2)) none, s)

/-- Meetings of the second panel of a command, renumbered from its first access. -/
def meetsFrom (ms : List Meet) (n : Nat) : List Meet :=
  (ms.filter fun m => decide (n ≤ m.access)).map fun m => { m with access := m.access - n }

/-- Load weights into a core's cells and the context's shadow; a failed read loads NaR (R88). -/
def loadWeights (k : Core) (cx fmt : Nat) (rows : Row × Row) (failed : Bool) : Core :=
  let w : Weights := if failed then { fmt := fmt, r0 := narRow, r1 := narRow } else { fmt := fmt, r0 := rows.1, r1 := rows.2 }
  setCtx { k with tile := { k.tile with weights := some w, owner := cx + 1 } } cx { ctxAt k cx with shadow := some w }

/-- Make the context of a pass the owner of the cells (R88): an output-stationary pass leaves no owner, a pass without a
load takes its context's shadow. -/
def takeWeights (k : Core) (cx : Nat) (c : PassCmd) : Core :=
  if !c.flow then { k with tile := { k.tile with owner := 0, weights := none } }
  else if c.loadW then k
  else { k with tile := { k.tile with owner := cx + 1, weights := (ctxAt k cx).shadow } }

/-- The B lanes of a weight-stationary pass: the weights in the cells. -/
def weightLanes (k : Core) : List Block :=
  match k.tile.weights with
  | none => List.replicate 32 { nar := true, e := 0, lanes := [] }
  | some w => panelLanes w.fmt w.r0 w.r1

/-- Write a pass's sums into its destination tile (R132, R135, R160, R161): `sums` gives the 32 × 32 pass sums, `last` the cycle of the
last word write. The rows stand in the tile at once; the descriptor's changes come about in the cycles of the faults and row
writes. The answer says whether the tile will be POISONED at its last word. -/
def storePass (s : State) (p l : Nat) (d : Decoded) (c : PassCmd) (sums : List (List A64)) (fault : Option PassFault)
    (last : Nat) : Bool × State :=
  let now := cycleOf s l
  let t := c.dstTile
  let old := if c.acc then (tileRowsOf (coreAt s p) t).map tileWords else []
  let s := match fault with
    | none => s
    | some f => updCore s p fun k => poisonTile k t f.cause d.track now f.cycle
  let (place, s) := if c.acc then tileReadFault s p l d.slot d.track t (32 * t) 32 fun u => last - 32 + u else (none, s)
  let vals := if c.acc then List.zipWith (fun o n => List.zipWith A64.add o n) old sums else sums
  let rows := if fault.any fun f => f.cause != 5 then List.replicate 32 (List.replicate 32 A64.nar) else narFrom place vals
  let fresh := if c.acc then [] else [(last - 31, DescEv.fresh d.track (fault.any fun f => decide (f.cycle ≤ last - 31)))]
  let writes := rows.mapIdx fun u r => (last - 31 + u, DescEv.row d.track u (r.any A64.isInf) (r.any fun x => x == .nar) c.acc)
  let x := addEvs (descAt (coreAt s p) t) now (fresh ++ writes)
  let s := updCore s p fun k =>
    addLate (setDesc (writeTrows k (32 * t) (rows.map mkTileRow)) t { x with fillEnd := max x.fillEnd last }) last
      (.passEnd d.track t)
  ((shownMarks x (last + 1)).poisoned, countAct s l 3 32)

/-- Note the end of a pass in the tile and the completion of its command (R85, R87, R89, R118, R119). -/
def notePass (s : State) (p l : Nat) (d : Decoded) (c : PassCmd) (e stepEnd lastWrite done : Nat) (loads : Bool)
    (st : Status) : State :=
  let now := cycleOf s l
  let s := if stepEnd < lastWrite then claimFill s p e (stepEnd + 1) lastWrite else s
  let s := bringRamp s p l now
  let s := updCore s p fun k => { k with tile := { rampStart k.tile d.since with
    stepEnds := (k.tile.stepEnds.filter fun x => decide (now ≤ x)) ++ [stepEnd],
    lastWrite := max k.tile.lastWrite lastWrite, lastEntry := e + 10, lastShape := c.shape, lastLoaded := loads,
    everEntered := true } }
  let s := endTrack s p d.track (if c.doneEn then done else lastWrite) lastWrite st
  let s := dueDone s p (done - 1) c.doneEn c.doneFlag 0 d.ctx d.slot d.track
  report (leaveHead s p l 0 (e + 1)) st

/-- In checksum mode, which an unrepaired tile runs, a pass whose operands carry NaR is not checked (R97, R98). -/
def noteUnchecked (s : State) (p : Nat) (a b : List Block) : State :=
  updCore s p fun k =>
    if k.tile.checkMode && !isRepaired k && (panelHasNar a || panelHasNar b) then
      { k with tile := { k.tile with unchecked := true } }
    else k

/-- The difference that the check of a pass finds, none when the pass is not checked or agrees. In checksum mode the row, column and
corner sums are formed with what the faulty cell adds, and a failed index is found in the last cycle of the steps; in duplicate
execution a word of a cell in use differs before it is written (R93, R97 to R100, R161, R162). `last` is the cycle of the last word
write. -/
def checkFault (k : Core) (l : Nat) (a b : List Block) (fault : Option CellFault) (last : Nat) : Option PassFault :=
  match fault with
  | none => none
  | some f =>
    let at_ (i j : Nat) : Bool := physCell k.repair.1 i == f.row && physCell k.repair.2 j == f.col
    if !k.tile.checkMode then none
    else if isRepaired k then
      if f.delta = 0 then none
      else
        ((List.range 32).find? fun i => (List.range 32).any fun j => at_ i j).map fun i =>
          { cause := 5, cycle := last - 31 + i, more := [(2, partnerOf l)] }
    else if panelHasNar a || panelHasNar b then none
    else
      (checksumIndex a b fun i j => if at_ i j then f.delta else 0).map fun x =>
        { cause := 4, cycle := last - 32, more := [(1, x.1), (1, x.2)] }

/-- A difference is recorded and sets CORE_TILE_STATUS.mismatch in its cycle (R99, R100, R163); `t` is the tile it poisons. -/
def noteMismatch (s : State) (p : Nat) (d : Decoded) (t : Nat) (f : Option PassFault) : State :=
  match f with
  | none => s
  | some f => updCore s p fun k => addLate k f.cycle (.mismatch d.track ([(4, d.slot), (1, t), (1, f.cause)] ++ f.more))

/-- A fault of a panel read is recorded for a pass whose destination tile it poisons (R163). In a gang each result-writing member
writes one. DESIGN CHOICE (log 65). -/
def logPanel (s : State) (p l slot t : Nat) (f : Option PassFault) : State :=
  match f with
  | none => s
  | some f => logTile s p l f.cycle slot t f.cause []

/-- Issue a single-tile pass at cycle e (R82 to R88). Its passing to a checker leaves the checker's own tile, weights, owner, level
and activity as they are, and a TILE pass leaves GAL_GANG_STATUS.last_shape as it is. DESIGN CHOICE (log 65). -/
def issueTile (s : State) (p l e : Nat) (d : Decoded) (c : PassCmd) (meets : List Meet) (fault : Option CellFault) : State :=
  let loads := passLoads (coreAt s p) d.ctx c
  let readsB := !c.flow || c.loadW
  let stall := if loads then 32 else 0
  let last := e + 10 + stall + 63
  let (a, fa, s) := readPanel s p l d.slot meets c.aRow e d.track (.panel c.dstTile none)
  let useB := Use.panel c.dstTile (if c.flow && c.loadW then some (d.ctx, c.fmt) else none)
  let (b, fb, s) := if readsB then readPanel s p l d.slot (meetsFrom meets 2) c.bRow (e + 2) d.track useB else ((a.1, a.2), none, s)
  let s := updCore s p fun k => if c.flow && c.loadW then loadWeights k d.ctx c.fmt b fb.isSome else takeWeights k d.ctx c
  let aL := panelLanes c.fmt a.1 a.2
  let bL := if c.flow then weightLanes (coreAt s p) else panelLanes c.fmt b.1 b.2
  let s := noteUnchecked s p aL bL
  let panel := firstFault fa fb
  let found := if panel.isSome then none else checkFault (coreAt s p) l aL bL fault last
  let s := noteMismatch (logPanel s p l d.slot c.dstTile panel) p d c.dstTile found
  let sacc := signed8 (finalMarks (descAt (coreAt s p) c.dstTile)).exp.toNat
  let sums := aL.map fun x => bL.map fun y => passSum sacc [(x, y)]
  let (bad, s) := storePass s p l d c sums (firstFault panel found) last
  notePass s p l d c e (e + 10 + stall + 31) last (last + 1) loads (if bad then .poisoned else .done)

/-- A TILE pass waits at the head of a member's matrix queue and meets every condition of R82 but the limiter at cycle e. -/
def offersTile (s : State) (g e i : Nat) : Bool :=
  let l := memberOf g i
  match liveCore s l with
  | none => false
  | some p =>
    match headPass (coreAt s p) with
    | none => false
    | some (d, c) =>
      c.shape == 0 && decide (d.since ≤ e) && (cmdVerdict s p l e d == .go) &&
      tileReady s p l e d c (passLoads (coreAt s p) d.ctx c)

/-- The complete gang of a Gallery meets every condition of R82 but the limiter at cycle e. -/
def gangReady (s : State) (g e : Nat) (ms : List (Nat × Nat × Decoded × PassCmd)) : Bool :=
  let loads := ms.any fun m => passLoads (coreAt s m.2.1) m.2.2.1.ctx m.2.2.2
  ms.all fun m =>
    let l := memberOf g m.1
    (liveCore s l).isSome && decide (m.2.2.1.since ≤ e) && (cmdVerdict s m.2.1 l e m.2.2.1 == .go) &&
    tileReady s m.2.1 l e m.2.2.1 m.2.2.2 loads

/-- The members of a complete rendezvous with their physical cores and decoded commands, none when one is missing. -/
def gangMembers (s : State) (g : Nat) : Option (List (Nat × Nat × Decoded × PassCmd)) :=
  let ms := arrivedMembers s g
  if ms.length = 64 then some ms else none

/-- What a Gallery offers its limiter in cycle e: the index and the passes of each (R120, R384). -/
def limOffers (s : State) (g e : Nat) : List (Nat × Nat) :=
  let tiles := ((List.range 64).filter (offersTile s g e)).map fun i => (i, 1)
  match gangMembers s g with
  | some ms => if gangReady s g e ms then (0, 64) :: tiles else tiles
  | none => tiles

/-- A decoded pass issues at phase 0 when every condition of R82 holds (R82 to R88, R245). -/
def issuePass (s : State) (core : Nat) (meets : List Meet) (fault : Option CellFault) : State :=
  withIssue s core fun s p =>
    match headPass (coreAt s p) with
    | none => s
    | some (d, c) =>
      if c.shape ≠ 0 then s
      else
        let e := nextPhase (max (cycleOf s core) d.since) 0 32
        match cmdVerdict s p core e d with
        | .abandoned => endHead s p core 0 d .abandoned
        | .wait _ _ => s
        | .go =>
          if !tileReady s p core e d c (passLoads (coreAt s p) d.ctx c) then noteFree s p core 0 d
          else
            let g := galOf core
            let s := rollGal s g e
            if limAdmitsTurn (galAt s g).lim e (core % 64) 1 (limOffers s g e) then
              let s := updGal s g fun x => { x with lim := limTake x.lim e (core % 64) 1 }
              issueTile s p core e d c meets fault
            else noteFree (updGal s g fun x => { x with lim := { x.lim with demand := true } }) p core 0 d

/-- The level moves one step toward its target at the end of every third cycle (R91). -/
def execActivityRampStep (core : Nat) (s : State) : Host.Outcome State Fault Refusal :=
  .next (withLive s core fun p =>
    let c := cycleOf s core
    let s := bringRamp s p core c
    let t := (coreAt s p).tile
    let t := if (headPass (coreAt s p)).isNone then rampIdle t c else t
    let at3 := t.rampAt + 3
    let t := if at3 ≤ c then { t with level := levelAt t at3, rampAt := at3 } else t
    updCore s p fun k => { k with tile := t })

/-- The panels read by the feeders or members of a gang: member index, rows and first fault. -/
abbrev GangPanels := List (Nat × (Row × Row) × Option PassFault)

/-- Read the A panels, or the B panels, of a gang at each member's own offsets, the A panels of a weight-stationary pass
after its stall (R113, R114, R116). -/
def readGang (s : State) (g e stall done : Nat) (ms : List (Nat × Nat × Decoded × PassCmd)) (isB : Bool)
    (meets : List (Nat × List Meet)) : GangPanels × State :=
  ms.foldl (fun acc m =>
    let (i, p, d, c) := m
    let reads := if isB then gangReadsB c.shape i c.flow c.loadW else gangReadsA c.shape i
    if !reads then acc
    else
      let pos := gangPos c.shape i
      let off := if isB && c.flow then 0 else stall + 32 * (pos.1 + pos.2)
      let mt := ((meets.find? fun x => x.1 == i).map (·.2)).getD []
      let (r, cause, s) := readPanel acc.2 p (memberOf g i) d.slot (if isB then meetsFrom mt 2 else mt)
        (if isB then c.bRow else c.aRow) (e + off + (if isB then 2 else 0)) d.track
        (.gangPanel done (if isB && c.flow && c.loadW then some (d.ctx, c.fmt) else none))
      (acc.1 ++ [(i, r, cause)], s)) ([], s)

/-- The panel read by a member. -/
def panelOf (ps : GangPanels) (i : Nat) : (Row × Row) :=
  ((ps.find? fun x => x.1 == i).map fun x => x.2.1).getD (narRow, narRow)

/-- The member at a gang position. -/
def memberAt (shape : Nat) (pos : Nat × Nat) : Nat := ((List.range 64).find? fun i => gangPos shape i == pos).getD 0

/-- The shape of the last gang pass that has entered by cycle c (R124). -/
def shownShape (x : Gal) (c : Nat) : Nat :=
  (x.entering.filter fun y => decide (y.1 ≤ c)).foldl (fun _ y => y.2) x.lastShape

/-- Issue a gang pass at cycle e with its 64 members ready (R113 to R119). -/
def issueGang (s : State) (g e : Nat) (ms : List (Nat × Nat × Decoded × PassCmd)) (meets : List (Nat × List Meet))
    (faults : List (Nat × CellFault)) : State :=
  match ms with
  | [] => s
  | (_, _, _, c0) :: _ =>
    let shape := c0.shape
    let loads := ms.any fun m => passLoads (coreAt s m.2.1) m.2.2.1.ctx m.2.2.2
    let stall := if loads then shapeRows shape else 0
    let done := e + 10 + stall + shapeRows shape + shapeCols shape
    let (as, s) := readGang s g e stall done ms false meets
    let (bs, s) := readGang s g e stall done ms true meets
    let s := ms.foldl (fun s m =>
      let (i, p, d, c) := m
      updCore s p fun k =>
        if c.flow && c.loadW then
          loadWeights k d.ctx c.fmt (panelOf bs i) (((bs.find? fun x => x.1 == i).map fun x => x.2.2.isSome).getD false)
        else takeWeights k d.ctx c) s
    let panel := (as ++ bs).foldl (fun a x => firstFault a x.2.2) none
    let aLanes (r : Nat) : List Block := let x := panelOf as (memberAt shape (r, 0)); panelLanes c0.fmt x.1 x.2
    let bLanes (q : Nat) : List Block := let x := panelOf bs (memberAt shape (0, q)); panelLanes c0.fmt x.1 x.2
    let wLanes (r q : Nat) : List Block :=
      match (ms.find? fun m => m.1 == memberAt shape (r, q)) with
      | some m => weightLanes (coreAt s m.2.1)
      | none => []
    let lanesOf (m : Nat × Nat × Decoded × PassCmd) : List Block × List Block :=
      let (r, q) := gangPos shape m.1
      (aLanes r, if c0.flow then wLanes r q else bLanes q)
    let lastOf (i : Nat) : Nat := let x := gangPos shape i; e + 10 + stall + 32 * (x.1 + x.2) + 63
    let found := ms.map fun m => (m.1, if panel.isSome then none else
      checkFault (coreAt s m.2.1) (memberOf g m.1) (lanesOf m).1 (lanesOf m).2
        ((faults.find? fun x => x.1 == m.1).map (·.2)) (lastOf m.1))
    let tileOf (m : Nat × Nat × Decoded × PassCmd) : Nat :=
      let w := if c0.flow then memberAt shape (gangRows shape - 1, (gangPos shape m.1).2) else m.1
      ((ms.find? fun x => x.1 == w).map fun x => x.2.2.2.dstTile).getD 0
    let s := ms.foldl (fun s m =>
      let s := noteUnchecked s m.2.1 (lanesOf m).1 (lanesOf m).2
      noteMismatch s m.2.1 m.2.2.1 (tileOf m) ((found.find? fun x => x.1 == m.1).bind (·.2))) s
    let faultOf (i q : Nat) : Option PassFault :=
      if c0.flow then (List.range (gangRows shape)).foldl (fun a y =>
        firstFault a ((found.find? fun x => x.1 == memberAt shape (y, q)).bind (·.2))) none
      else (found.find? fun x => x.1 == i).bind (·.2)
    let s := ms.foldl (fun s m =>
      let (i, p, d, c) := m
      let l := memberOf g i
      let (r, q) := gangPos shape i
      let first := e + 10 + stall + 32 * (r + q)
      let writes := gangWrites shape i c.flow
      let (bad, s) :=
        if !writes then (false, s)
        else
          let sacc := signed8 (finalMarks (descAt (coreAt s p) c.dstTile)).exp.toNat
          let sums :=
            if c.flow then
              (List.range 32).map fun m =>
                (List.range 32).map fun j =>
                  passSum sacc ((List.range (gangRows shape)).map fun r =>
                    ((aLanes r).getD m { nar := true, e := 0, lanes := [] },
                     (wLanes r q).getD j { nar := true, e := 0, lanes := [] }))
            else (aLanes r).map fun x => (bLanes q).map fun y => passSum sacc [(x, y)]
          storePass (logPanel s p l d.slot c.dstTile panel) p l d c sums (firstFault panel (faultOf i q)) (first + 63)
      notePass s p l d c e (first + 31) (if writes then first + 63 else first + 31) done loads
        (if bad then .poisoned else .done)) s
    let writers := (ms.filter fun m => gangWrites shape m.1 m.2.2.2.flow).map fun m =>
      (m.1, m.2.2.2.dstTile, m.2.2.1.slot, m.2.2.1.track)
    let now := aNow s (g / 8)
    updGal s g fun x => { x with
      rendezvous := [], lastShape := shownShape x now,
      entering := (x.entering.filter fun y => decide (now < y.1)) ++ [(e + 10, shape)],
      gangs := x.gangs.filter (fun r => decide (fNow s g * 2 ≤ r.ends)) ++
        [{ ends := done, members := ms.map (·.1), writers := writers }] }

/-- The gang pass issues at phase 0 when all 64 members have arrived and meet R82; a member serving as or under a
checker, or commands that differ, end the rendezvous (R112). -/
def issueRendezvous (s : State) (gal : Nat) (meets : List (Nat × List Meet)) (faults : List (Nat × CellFault)) : State :=
    if 32 ≤ gal then s
    else
    let s := judgeGang s gal
    match gangMembers s gal with
    | none => s
    | some ms =>
      if ms.any fun m => inBreak s (memberOf gal m.1) then s
      else
        let s := ms.foldl (fun s m => catchUp s m.2.1 (cycleOf s (memberOf gal m.1))) s
        match ms.find? fun m => cmdVerdict s m.2.1 (memberOf gal m.1) (cycleOf s (memberOf gal m.1)) m.2.2.1 == .abandoned with
        | some m => endHead s m.2.1 (memberOf gal m.1) 0 m.2.2.1 .abandoned
        | none =>
          let since := ms.foldl (fun t m => max t m.2.2.1.since) 0
          let e := nextPhase (max (aNow s (gal / 8)) since) 0 32
          let free (s : State) : State := ms.foldl (fun s m =>
            let l := memberOf gal m.1
            if cmdVerdict s m.2.1 l e m.2.2.1 = .go then noteFree s m.2.1 l 0 m.2.2.1 else s) s
          if !gangReady s gal e ms then free s
          else
            let s := rollGal s gal e
            if limAdmitsTurn (galAt s gal).lim e 0 64 (limOffers s gal e) then
              let s := updGal s gal fun x => { x with lim := limTake x.lim e 0 64 }
              issueGang s gal e ms meets faults
            else free (updGal s gal fun x => { x with lim := { x.lim with demand := true } })

/-- The lowest Gallery-local index of a member not yet arrived (R112, R124). -/
def absentMember (x : Gal) : Nat := ((List.range 64).find? fun i => !x.rendezvous.any fun a => a.1 == i).getD 0

/-- The rendezvous expires before all 64 have arrived (R112 ending 5). -/
def execGangTimeout (gal : Nat) (s : State) : Host.Outcome State Fault Refusal :=
  .next (
    let x := galAt s gal
    match x.rendezvous with
    | [] => s
    | a :: t =>
      let first := t.foldl (fun m b => min m b.2) a.2
      if 64 ≤ x.rendezvous.length ∨ aNow s (gal / 8) < first + x.rvLimit then s
      else failRendezvous (logGal s 2 .timeout gal false [(2, absentMember x)]) gal .timeout false)

/-- A decoded command, or the output path's pending one (q = 4), waited too long because of the scoreboard (R234). -/
def execSbTimeout (core q : Nat) (s : State) : Host.Outcome State Fault Refusal :=
  .next (withLive s core fun p =>
    let k := coreAt s p
    let c := cycleOf s core
    match (if q = 4 then k.outp.pend else (queueAt k q).head) with
    | none => s
    | some d =>
      if c ≤ d.sbFrom + d.sbLimit then s
      else
        let end_ (s : State) (st : Status) : State := if q = 4 then endPend s p core d st else endHead s p core q d st
        match cmdVerdict s p core c d with
        | .wait row write =>
          let s := updCore s p fun k => { k with pool := { k.pool with sbTimeoutSeen := true } }
          end_ (logCore s 1 .timeout core false
            ([(1, if q = 4 then 0 else q), (4, d.slot), (2, row)] ++ blockerBody k c row write)) .timeout
        | .abandoned => end_ s .abandoned
        | .go => s)

/-- CORE_TILE_CTRL.check_mode (R96, R101, R103). -/
def writeTileCtrl (s : State) (p l v : Nat) : Status × State :=
  let k := coreAt s p
  let on := bitN v 0
  let partner := physOf s (partnerOf l)
  if on ∧ isRepaired k then
    match partner with
    | none => (.mappedOut, s)
    | some q =>
      if (coreAt s q).tile.checkMode ∨ isChecker s (partnerOf l) (cycleOf s l) then (.badState, s)
      else (.done, updCore s p fun k => { k with tile := { k.tile with checkMode := true, checkEnd := 0 } })
  else
    let end_ := if !on ∧ k.tile.checkMode ∧ isRepaired k then k.tile.lastWrite else k.tile.checkEnd
    (.done, updCore s p fun k => { k with tile := { k.tile with checkMode := on, checkEnd := end_ } })

/-- CORE_TILE_STATUS (R104). -/
def readTileStatus (s : State) (p l : Nat) : Nat :=
  let k := coreAt s p
  let c := cycleOf s l
  let t := if (headPass k).isNone then rampIdle k.tile c else k.tile
  b2n (isRepaired k) + 2 * b2n (isChecker s l c) + 4 * b2n t.mismatch + 8 * b2n t.unchecked + 16 * levelAt t c + 512 * t.owner

end Sys2Proof.Machine
end

