-- ==== Sys2Proof/Machine/Move.lean ====
section
/-!
DEFINITION. The move engine's commands: decode, prelude, issue, responses, timeouts, credits and bounces
(09_move_engine_and_mesh).
-/

namespace Sys2Proof.Machine

/-- Decode a move command at the head of its queue (R267). -/
def moveRow (s : State) (l q key : Nat) : State :=
  onHead s l q (fun k => k == key) fun s p c h cmd => endAbandonedHead (waitHead s p q c h cmd) p l q

/-- MOVE (R260). -/
def execMove (core : Nat) (s : State) : Host.Outcome State Fault Refusal := .next (moveRow s core 3 0x501)
/-- TILE_OUT (R264). -/
def execTileOut (core : Nat) (s : State) : Host.Outcome State Fault Refusal := .next (moveRow s core 3 0x502)
/-- SIGNAL (R265). -/
def execSignal (core : Nat) (s : State) : Host.Outcome State Fault Refusal := .next (moveRow s core 3 0x503)
/-- GRANT (R285). -/
def execGrant (core : Nat) (s : State) : Host.Outcome State Fault Refusal := .next (moveRow s core 3 0x504)
/-- DEEP_READ (R266). -/
def execDeepRead (core : Nat) (s : State) : Host.Outcome State Fault Refusal := .next (moveRow s core 2 0x511)

/-- The entries a prelude takes from the index row, none when one is out of range (R263). -/
def preludeEntries (s : State) (l : Nat) (m : MoveCmd) (r : Row) : Option (List Nat) :=
  let x := r.data.toNat
  if m.op = 5 then
    let es := unpackN 64 x (m.n + 1)
    if es.all fun a => deepSpanOk a 0 then some es else none
  else
    let gs := if m.gather then unpackN 16 x (moveSrcRows m.mode m.sfmt m.dfmt m.n) else []
    let ds := if m.scatter then unpackN 64 x (m.n + 1) else []
    if (gs.all fun g => decide (g < poolRows)) && ds.all fun a => moveDstOk s l a 0 then some (gs ++ ds) else none

/-- The prelude of a command with gather or scatter (R263). -/
def readIndex (s : State) (core q : Nat) (meets : List Meet) : State :=
  withIssue s core fun s p =>
    match (queueAt (coreAt s p) q).head with
    | none => s
    | some d =>
      match d.cmd with
      | .move m =>
        if !(m.gather || m.scatter) || d.idx.isSome then s
        else
          let e := nextPhase (max (cycleOf s core) d.since) 3 4
          if !produced (coreAt s p) e m.idxRow then
            (if readAbandoned (coreAt s p) m.idxRow then endHead s p core q d .abandoned else s)
          else
            let (rs, s) := readRows s p core (if q = 2 then 3 else 4) d.slot meets
              [{ row := m.idxRow, cycle := e, write := false, track := d.track, use := .index q }]
            let (x, cause) := rs.headD (Row.zero, none)
            (match cause with
             | some c => retireDecoded s p core q e d 5 (if c = 3 then .poisoned else .conflict)
             | none =>
               match preludeEntries s core m x with
               | none => retireDecoded s p core q e d 5 .badValue
               | some es => updQueue s p q fun y => { y with head := some { d with idx := some es } })
      | _ => s

/-- The core's bundle is down or failed: rows bound down it are not sent (R423). -/
def bundleDown (s : State) (p : Nat) : Bool := (bunAt s p).state == 0 || (bunAt s p).state == 4

/-- An address whose packets go down the core's bundle (R37). -/
def goesDown (s : State) (a : Nat) : Bool := addrDie a != s.boot.dieId || decide (8 ≤ addrSpace a)

/-- A row or signal that completes with DEST_DOWN without being sent: one bound down a bundle that is down (R423), or one
for another die in standalone mode (R519). DEDUCED (log 58). -/
def rowUnsent (s : State) (p a : Nat) : Bool :=
  (goesDown s a && bundleDown s p) || (s.tap.standalone && addrDie a != s.boot.dieId)

/-- The destinations of a MOVE or TILE_OUT that need a credit: Pool rows of other cores, but for those that are not sent
(R269, R273, R423, R519). -/
def creditDsts (s : State) (p l : Nat) (ds : List Nat) : List Nat :=
  ds.filter fun a => addrSpace a == 0 && !isOwnPool s l a && !rowUnsent s p a

/-- Every destination is covered by credits (R269, R273). -/
def creditsCover (k : Core) (ds : List Nat) : Bool :=
  let is := ds.map (credIndex k)
  is.all fun i =>
    match i with
    | none => false
    | some n => decide ((is.filter (· == some n)).length ≤ ((k.mv.creds[n]?).map (·.count)).getD 0)

/-- Deep rows a command counts at issue (R386). -/
def deepRows (m : MoveCmd) (idx : Option (List Nat)) : Nat :=
  if m.op = 5 then m.n + 1 else ((moveDsts m idx).filter fun a => decide (8 ≤ addrSpace a)).length

/-- Deep rows that count against a cap: none while the bundle is down (R386, R423). -/
def capCharge (s : State) (p n : Nat) : Nat := if bundleDown s p then 0 else n

/-- The queue's Deep cap lets a count of rows issue (R386). -/
def capAllows (k : Core) (q n : Nat) : Bool := let x := allotAt k q; n == 0 || decide (x.issued + n ≤ x.cap)

/-- The rows of a decoded move-out command. -/
def rowsOf (c : Cmd) : Nat :=
  match c with
  | .move m => m.n + 1
  | .signal _ _ => 1
  | _ => 0

/-- The first condition of R269 that does not hold at cycle e, by its place in that rule's list; 8 stands for the Deep
cap of R386. -/
def issueBlock (s : State) (p l e : Nat) (d : Decoded) : Option Nat :=
  let k := coreAt s p
  let readsDone := match k.mv.lastRead with
    | none => true
    | some r => decide (r < e)
  if !readsDone then some 1
  else if 32 < k.mv.outb.length + rowsOf d.cmd then some 2
  else
    match d.cmd with
    | .move m =>
      let ds := moveDsts m d.idx
      let local_ := (ds.filter fun a => isOwnPool s l a || addrSpace a == 1).length
      if (m.gather || m.scatter) && d.idx.isNone then some 7
      else if (moveReads m d.idx).any fun r => !produced k e r then some 3
      else if (moveWrites s l m d.idx).any (fun r => !drained k e r) ∨ 16 < ownReserved k + local_ then some 4
      else if !creditsCover k (creditDsts s p l ds) then some 5
      else if m.op = 2 ∧ !tileFree k e m.tile then some 6
      else if !capAllows k 3 (capCharge s p (deepRows m d.idx)) then some 8
      else none
    | _ => none

/-- What holds a DEEP_READ at cycle e, by the place of a like condition in the list of R269 (R271, R386). -/
def deepBlock (s : State) (p l e : Nat) (d : Decoded) (m : MoveCmd) : Option Nat :=
  let k := coreAt s p
  let n := m.n + 1
  if m.gather && d.idx.isNone then some 7
  else if (moveWrites s l m d.idx).any (fun r => !drained k e r) ∨ 16 < ownReserved k + n then some 4
  else if m.dstFs ∧ !(List.range n).all fun q => trowsOpen k e (m.dst + 2 * q) then some 6
  else if !capAllows k 2 (capCharge s p n) then some 8
  else none

/-- Send one row of a run, ready from an A-cycle on: where it is not sent it gives DEST_DOWN; for an unsettled core it is held; otherwise it is
queued at its injection point and keeps an outbound entry (R268, R283, R423, R519). Its wait for a response is counted from the A-cycle
from which its interface may send it (R272, R424). DEDUCED (log 69). -/
def sendRow (s : State) (p l tag q row ready : Nat) (pkt : Packet) : State :=
  if rowUnsent s p pkt.addr.toNat then respond s p l tag q row .destDown
  else
    let dest := packetDest pkt
    let settled := goesDown s pkt.addr.toNat || destSettled s dest.1 dest.2
    let s := if q = 3 then
        updCore s p fun k => { k with mv := { k.mv with outb := k.mv.outb ++
          [{ tag := tag, row := row, pkt := pkt, held := !settled, bouncedEpoch := none }] } }
      else s
    let s := updCore s p fun k => addLate k ready (.rowSent q tag row)
    if settled then injectFrom s p q ready pkt else s

/-- Begin a run: its record, tag, release and done flag on release (R272). -/
def startRun (s : State) (p q : Nat) (d : Decoded) (op rows released dst : Nat) (en at_ fs whole poisoned : Bool)
    (flag issued : Nat) : Nat × State :=
  let k := coreAt s p
  let tag := k.mv.nextTag % 256
  let r : MoveRun :=
    { tag := tag, q := q, op := op, slot := d.slot, ctx := d.ctx, rows := rows, resp := [], deadline := [],
      released := released, doneAt := at_, doneFlag := flag, doneEn := en, dstFs := fs, whole := whole, dst := dst,
      poisoned := poisoned, image := [], issued := issued, began := 0, track := d.track }
  let s := setCore s p { k with mv := { k.mv with runs := k.mv.runs ++ [r], nextTag := (tag + 1) % 256 } }
  let s := if q = 3 then
      updTrack s p d.track fun t => { t with endAt := some (if en && !at_ then released + 1 else released) } else s
  (tag, if en && !at_ then dueDone s p released true flag (setterOf q) d.ctx d.slot d.track else s)

/-- A WR of a run. -/
def rowPacket (s : State) (l tag row a : Nat) (x : Row) (whole : Bool) : Packet :=
  { Packet.empty with
    addr := BitVec.ofNat 64 a, srcDie := s.boot.dieId, srcCore := l, ptype := .wr, tag := tag, row := row, data := x,
    whole := whole, epoch := stampEpoch s (addrDie a) (addrCore a) }

/-- Put one row of a run into the core's own inbound buffer, which it enters in A-cycle `ready`; it keeps its outbound entry until it
commits (R258, R268). -/
def loopRow (s : State) (p l tag row ready a : Nat) (x : Row) : State :=
  let fs := addrSpace a == 1
  let r := if fs then addrByte a / 256 else addrByte a / 512
  updCore s p fun k =>
    let k := if fs then k else addMarks k (cycleOf s l) [{ row := r, write := true, till := none, engine := 4, slot := tag }]
    let k := if fs then noteBegan k tag 3 ready else k
    { k with mv := { k.mv with
      inb := k.mv.inb ++
        [{ row := r, fs := fs, data := x, entered := ready, own := true, tag := tag, q := 3, ring := 24,
           pkt := { Packet.empty with row := row } }],
      outb := k.mv.outb ++ [{ tag := tag, row := row, pkt := rowPacket s l tag row a x false, held := false, bouncedEpoch := none }] } }

/-- A row of a run whose source read failed in cycle c: it returns the credit it took, and the pending-write mark of a local destination
stands until that cycle (R229, R270). -/
def failRow (s : State) (p l tag q c a : Nat) (st : Status) : State :=
  let s := updCore s p fun k =>
    if isOwnPool s l a then
      addMarks k (cycleOf s l) [{ row := addrByte a / 512, write := true, till := some c, engine := 4, slot := tag }]
    else if (creditDsts s p l [a]).isEmpty then k
    else returnCred k a
  respond s p l tag 3 q st

/-- Dispatch the rows of a run to their destinations, one by one, each with the A-cycle from which it may leave, or in which the read of
its source failed; such a row gives its status instead (R269, R270). -/
def sendRows (s : State) (p l tag : Nat) (rows : List (Nat × Nat × Row × Option Status)) (whole : Bool) : State :=
  (rows.mapIdx fun q r => (q, r)).foldl (fun s x =>
    let (q, ready, a, r, bad) := x
    match bad with
    | some st => failRow s p l tag q ready a st
    | none =>
      if isOwnPool s l a || addrSpace a == 1 then loopRow s p l tag q ready a r
      else sendRow s p l tag 3 q ready (rowPacket s l tag q a r whole)) s

/-- Take the credits of the rows of a command (R273). -/
def takeCredits (s : State) (p l : Nat) (ds : List Nat) : State :=
  let s := (useWords s p l ((ds.filterMap (credIndex (coreAt s p))).map fun i => (7, 24 + i))).2
  updCore s p fun k => (ds.filterMap (credIndex k)).foldl (fun k i => adjustCred k i (· - 1)) k

/-- Count Deep rows issued (R385, R386). -/
def noteDeep (s : State) (p q n : Nat) : State :=
  updCore s p fun k => setAllot k q { allotAt k q with issued := (allotAt k q).issued + n }

/-- Issue a MOVE at cycle e (R261, R262, R269, R270); its conversions are counted in the cycles from which their rows may leave. A MOVE
into all 32 rows of a tile is a whole-tile write (R158). -/
def issueMove (s : State) (p l e : Nat) (d : Decoded) (m : MoveCmd) (meets : List Meet) : State :=
  let srcs := moveReads m d.idx
  let ds := moveDsts m d.idx
  let s := noteDeep (takeCredits s p l (creditDsts s p l ds)) p 3 (capCharge s p (deepRows m d.idx))
  let fs : List Fore := srcs.mapIdx fun i r =>
    { row := r, cycle := e + 4 * i, write := false, track := d.track,
      use := .moveRow ((List.range (m.n + 1)).filter fun q => (feeders m q).contains i) }
  let (rs, s) := readRows s p l 4 d.slot meets fs
  let last := e + 4 * (srcs.length - 1)
  let s := updCore s p fun k => { (addMarks k (cycleOf s l) (fs.map fun f =>
    { row := f.row, write := false, till := some f.cycle, engine := 4, slot := d.slot })) with
    mv := { k.mv with lastRead := some last, tileRd := none } }
  let dst := if m.dstFs then addrByte m.dst / 256 else 0
  let whole := m.dstFs && m.n == 15 && dst % 32 == 0
  let (tag, s) := startRun s p 3 d 1 (m.n + 1) (last + 1) dst m.doneEn m.doneAt m.dstFs whole false m.doneFlag e
  let outs := moveRows m (rs.map (·.1))
  let bad (q : Nat) : Option Status :=
    let cs := (feeders m q).filterMap fun i => (rs.getD i (Row.zero, none)).2
    if cs.contains 3 then some .poisoned else if cs.isEmpty then none else some .conflict
  let ready (q : Nat) : Nat :=
    match (feeders m q).find? fun i => ((rs.getD i (Row.zero, none)).2).isSome with
    | some i => e + 4 * i
    | none => (feeders m q).foldl (fun n i => max n (e + 4 * i + bankLatency (bankOf (srcs.getD i 0)) + 1)) (e + 1)
  let s := (List.range (m.n + 1)).foldl (fun s q =>
    if (bad q).isNone then countOpt s p l (ready q) d.ctx d.tag ((outs.map (·.counts)).getD q Counts.none) d.track q else s) s
  let s := leaveHead (countAct s l 2 srcs.length) p l 3 (e + 1)
  sendRows s p l tag ((List.range (m.n + 1)).map fun q =>
    (ready q, ds.getD q 0, (outs.map (·.row)).getD q Row.zero, bad q)) false

/-- The rows of an outbound read of `count` tile rows of a tile from tile row `first` on (R156, R157, R160, R161):
the sidecars show it POISONED from the row on that meets an uncorrectable word; the answer says whether it is POISONED. -/
def readTileRows (s : State) (p l slot id t first count : Nat) (whole : Bool) (cy : Nat → Nat) : List Row × Bool × State :=
  let old := finalMarks (descAt (coreAt s p) t)
  let (place, s) := tileReadFault s p l slot id t first count cy
  let k := coreAt s p
  let met (q : Nat) : Bool := match place with
    | some n => decide (n < 64 * (q + 1))
    | none => true
  let words := narFrom place ((List.range count).map fun u => tileWords (seenTrow k (first + u)))
  let side (q : Nat) : Nat :=
    let x := if met q then finalMarks (descAt k t) else old
    if whole then imageSide x.exp.toNat x.poisoned x.cause else 0
  ((List.range (count / 2)).map fun q =>
    mkRow ((mkTileRow (words.getD (2 * q) [])).toNat + 2 ^ 2048 * (mkTileRow (words.getD (2 * q + 1) [])).toNat) (side q),
   place.isSome, s)

/-- An outbound read of a whole tile holds it until its last read (R131). -/
def holdTile (k : Core) (c t last : Nat) : Core :=
  setDesc k t { heldDesc k c t with heldEnd := max (descAt k t).heldEnd (last + 1) }

/-- Issue a TILE_OUT at cycle e (R156, R157, R160, R161, R264, R270). -/
def issueTileOut (s : State) (p l e : Nat) (d : Decoded) (m : MoveCmd) : State :=
  let whole := m.src == 0 && m.n == 15
  let ds := moveDsts m none
  let s := noteDeep (takeCredits s p l (creditDsts s p l ds)) p 3 (capCharge s p (deepRows m none))
  let count := 2 * (m.n + 1)
  let drains := (coreAt s p).outp.drains
  let (rows, poisoned, s) := readTileRows s p l d.slot d.track m.tile (32 * m.tile + m.src) count whole fun u =>
    drainPortEnd drains 4096 e (u / 2 + 1)
  let last := drainPortEnd drains 4096 e (m.n + 1)
  let s := updCore s p fun k => if whole then holdTile k e m.tile last else k
  let (tag, s) := startRun s p 3 d 2 (m.n + 1) (last + 1) m.tile m.doneEn m.doneAt false whole poisoned m.doneFlag e
  let s := updCore s p fun k => { k with mv := { k.mv with
    lastRead := some last,
    tileRd := some { issue := e, count := m.n + 1, tiles := if whole then [m.tile] else [], save := false, tag := tag, track := d.track } } }
  let s := leaveHead (countAct s l 3 count) p l 3 (e + 1)
  sendRows s p l tag (rows.mapIdx fun q r => (tileRowReady (coreAt s p) e q, ds.getD q 0, r, none)) whole

/-- Issue a SIGNAL at cycle e (R265, R272). -/
def issueSignal (s : State) (p l e : Nat) (d : Decoded) (value dst : Nat) : State :=
  let (tag, s) := startRun s p 3 d 3 1 e 0 false true false false false 0 e
  let pkt : Packet := { Packet.empty with
    addr := BitVec.ofNat 64 dst, srcDie := s.boot.dieId, srcCore := l, ptype := .sig, tag := tag,
    word := BitVec.ofNat 64 value, epoch := stampEpoch s (addrDie dst) (addrCore dst) }
  sendRow (leaveHead s p l 3 (e + 1)) p l tag 3 0 (e + 1) pkt

/-- Issue a GRANT at cycle e (R285, R272). -/
def issueGrant (s : State) (p l e : Nat) (d : Decoded) (w count : Nat) : State :=
  let s := grantWin s p l w count
  report (endTrack (leaveHead s p l 3 (e + 1)) p d.track e e .done) .done

/-- The decoded move-out command issues at phase 3 mod 4 when every condition of R269 holds and it has not waited too long (R245,
R269, R386). -/
def issueOut (s : State) (core : Nat) (meets : List Meet) : State :=
  withIssue s core fun s p =>
    match (queueAt (coreAt s p) 3).head with
    | none => s
    | some d =>
      let e := nextPhase (max (cycleOf s core) d.since) 3 4
      let v := cmdVerdict s p core e d
      match v with
      | .abandoned => endHead s p core 3 d .abandoned
      | _ =>
        if d.since + d.limit < e then s
        else
        match issueBlock s p core e d with
        | some 8 => noteFree (updCore s p fun k => setAllot k 3 { allotAt k 3 with capHit := true }) p core 3 d
        | some _ => if v = .go then noteFree s p core 3 d else s
        | none =>
          match d.cmd with
          | .move m => if m.op = 2 then issueTileOut s p core e d m else issueMove s p core e d m meets
          | .signal v dst => issueSignal s p core e d v dst
          | .grant w n => issueGrant s p core e d w n
          | _ => s

/-- Issue a DEEP_READ at cycle e: one request per row down the core's bundle. A row that is not sent sets no mark (R229, R266, R271,
R423). -/
def issueDeepRead (s : State) (p l e : Nat) (d : Decoded) (m : MoveCmd) : State :=
  let n := m.n + 1
  let whole := m.dstFs && m.dst % 32 == 0 && m.n == 15
  let (tag, s) := startRun (noteDeep s p 2 (capCharge s p n)) p 2 d 5 n e m.dst m.doneEn true m.dstFs whole false m.doneFlag e
  let src (q : Nat) : Nat := if m.gather then (d.idx.getD []).getD q 0 else m.src + 512 * q
  let sent := (List.range n).filter fun q => !rowUnsent s p (src q)
  let s := if m.dstFs then s else updCore s p fun k => addMarks k (cycleOf s l)
    (sent.map fun q => { row := m.dst + q, write := true, till := none, engine := 3, slot := tag })
  let s := leaveHead s p l 2 (e + 1)
  (List.range n).foldl (fun s q =>
    sendRow s p l tag 2 q (e + 1) { Packet.empty with
      addr := BitVec.ofNat 64 (src q), srcDie := s.boot.dieId, srcCore := l, ptype := .deepRd, tag := tag,
      row := q, whole := whole }) s

/-- The decoded DEEP_READ issues when R271 and R386 allow it and it has not waited too long. -/
def execDeepReadIssue (core : Nat) (s : State) : Host.Outcome State Fault Refusal :=
  .next (withIssue s core fun s p =>
    match (queueAt (coreAt s p) 2).head with
    | none => s
    | some d =>
      match d.cmd with
      | .move m =>
        let e := max (cycleOf s core) d.since
        (match cmdVerdict s p core e d with
         | .abandoned => endHead s p core 2 d .abandoned
         | .wait _ _ => s
         | .go =>
           if d.since + d.limit < e then s
           else
             match deepBlock s p core e d m with
             | some 8 => noteFree (updCore s p fun k => setAllot k 2 { allotAt k 2 with capHit := true }) p core 2 d
             | some _ => noteFree s p core 2 d
             | none => issueDeepRead s p core e d m)
      | _ => s)

/-- The condition that holds a move command, by its place in the list of R269, 8 for the Deep cap of R386. -/
def blockOf (s : State) (p l q c : Nat) (d : Decoded) : Nat :=
  match q, d.cmd with
  | 2, .move m => (deepBlock s p l c d m).getD 0
  | _, _ => (issueBlock s p l c d).getD 0

/-- A move command waited too long at issue (R269, R271). -/
def execMoveIssueTimeout (core q : Nat) (s : State) : Host.Outcome State Fault Refusal :=
  .next (withLive s core fun p =>
    let c := cycleOf s core
    if q ≠ 2 ∧ q ≠ 3 then s
    else
    match (queueAt (coreAt s p) q).head with
    | none => s
    | some d =>
      if c ≤ d.since + d.limit then s
      else
        let s := updCore s p fun k => { k with mv := { k.mv with timeoutSeen := true } }
        retireDecoded (logCore s 6 .timeout core false [(4, d.slot), (1, blockOf s p core q c d)]) p core q c d 5 .timeout)

/-- The Pool row that a row of the image in a RESTORE goes to, none for the rows before the Pool ranges (R365, R366). -/
def restoreDst (k : Core) (i : Nat) : Option Nat :=
  let h := (Store.get Row.zero k.op.rows 0).data.toNat
  let pools := (List.range 4).flatMap fun j => rowsFrom (fieldN h (8 * (16 + 4 * j)) 16) (fieldN h (8 * (18 + 4 * j)) 16)
  let first := 8 + 16 * (maskTiles (fieldN h 48 8)).length
  if k.op.stage = 1 ∧ first ≤ i then pools[i - first]? else none

/-- An image row of a RESTORE arrives (R367): a Pool row enters the inbound buffer, to commit in a reserved slot; any other is kept. A row
that gives another status than DONE is answered by it. -/
def restoreRow (s : State) (p l : Nat) (pkt : Packet) (i : Nat) (st : Status) : State :=
  let k := coreAt s p
  match restoreDst k i with
  | none => setCore s p (ctxAnswer k i (some pkt.data) st)
  | some r =>
    if st ≠ .done then setCore s p (ctxAnswer k i none st)
    else if k.mv.inb.any fun e => e.own && e.q == 4 && e.row == r then s
    else
      let c := cycleOf s l
      let k := addMarks k c [{ row := r, write := true, till := none, engine := 5, slot := 0 }]
      let e : InEntry := { row := r, fs := false, data := pkt.data, entered := c, own := true, tag := pkt.tag, q := 4, ring := 24,
                           pkt := { Packet.empty with row := pkt.row } }
      setCore s p { k with mv := { k.mv with inb := k.mv.inb ++ [e] } }

/-- A response row of a DEEP_READ or RESTORE arrives (R266, R271, R280, R367). -/
def execDeepData (port : Port) (pkt : Packet) (s : State) : Host.Outcome State Fault Refusal :=
  .next (
    if pkt.ptype ≠ .deepData ∨ pkt.classT then s
    else deliver s port pkt fun s l p =>
      let pkt := received port pkt
      let k := coreAt s p
      if inReset s l then s
      else if (ctxRowOf k 5 pkt).isSome then
        restoreRow s p l pkt (16 * pkt.tag + pkt.row) (if pkt.poison then .poisoned else statusOf (pkt.word.toNat % 256))
      else
        match findRun k pkt.tag 2 with
        | none => logCore s 6 .done l false [(1, pkt.tag), (1, pkt.row)]
        | some r =>
          let st := if pkt.poison then Status.poisoned else statusOf (pkt.word.toNat % 256)
          if r.rows ≤ pkt.row ∨ (respOf r pkt.row).isSome ∨ r.image.any (fun e => e.1 == pkt.row) ∨
              k.mv.inb.any (fun e => e.own && e.q == 2 && e.tag == pkt.tag && e.pkt.row == pkt.row) then
            logCore s 6 st l false [(1, pkt.tag), (1, pkt.row)]
          else
            let s := updCore s p fun k =>
              let k := if pkt.poison then { k with mv := { k.mv with poisonedSeen := true } } else k
              if r.dstFs && st == .done then noteBegan k pkt.tag 2 (cycleOf s l) else k
            if st ≠ .done then
              let s := updCore s p fun k => if r.dstFs then k else clearInMark k (r.dst + pkt.row) pkt.tag
              tryImage (respond s p l pkt.tag 2 pkt.row st) p l pkt.tag 2
            else if r.whole then
              let s := updCore s p fun k => updRun k pkt.tag 2 fun r =>
                some { r with image := Store.insert r.image pkt.row pkt.data }
              tryImage s p l pkt.tag 2
            else
              let e : InEntry :=
                { row := if r.dstFs then r.dst + 2 * pkt.row else r.dst + pkt.row, fs := r.dstFs, data := pkt.data,
                  entered := cycleOf s l, own := true, tag := pkt.tag, q := 2, ring := 24,
                  pkt := { Packet.empty with row := pkt.row } }
              updCore s p fun k => { k with mv := { k.mv with inb := k.mv.inb ++ [e] } })

/-- A final response arrives (R272, R273); the base may answer a DEEP_RD with an ACK (R411). -/
def execAck (port : Port) (pkt : Packet) (s : State) : Host.Outcome State Fault Refusal :=
  .next (
    if pkt.ptype ≠ .ack ∨ pkt.classT then s
    else deliver s port pkt fun s l p =>
      let st := statusOf (pkt.word.toNat % 256)
      let k := coreAt s p
      if inReset s l then s
      else
        match (ctxRowOf k 4 pkt).orElse fun _ => ctxRowOf k 5 pkt with
        | some i => setCore s p (ctxAnswer k i none st)
        | none =>
          match findRun k pkt.tag 2 with
          | some r =>
            if (findRun k pkt.tag 3).isSome then respond s p l pkt.tag 3 pkt.row st
            else
              let s := updCore s p fun k => if r.dstFs then k else clearInMark k (r.dst + pkt.row) pkt.tag
              tryImage (respond s p l pkt.tag 2 pkt.row st) p l pkt.tag 2
          | none => respond s p l pkt.tag 3 pkt.row st)

/-- The data of a DEEP_READ's row has arrived and waits to commit (R272). -/
def dataWaits (k : Core) (r : MoveRun) (row : Nat) : Bool :=
  r.image.any (fun e => e.1 == row) || k.mv.inb.any fun e => e.own && e.q == r.q && e.tag == r.tag && e.pkt.row == row

/-- A row has no response after the limit in force as its wait began (R272, R287); `tag` is the command's tag on the move-out queue, or 256 + the
tag on the move-in queue. DESIGN CHOICE (log 45). -/
def execRowTimeout (core tag row : Nat) (s : State) : Host.Outcome State Fault Refusal :=
  .next (withLive s core fun p =>
    let q := if tag < 256 then 3 else 2
    let s := catchUp s p (cycleOf s core)
    match findRun (coreAt s p) (tag % 256) q with
    | none => s
    | some r =>
      match Store.get 0 r.deadline row with
      | 0 => s
      | t + 1 =>
        if cycleOf s core ≤ t ∨ (respOf r row).isSome ∨ dataWaits (coreAt s p) r row then s
        else
          let s := updCore s p fun k => { k with mv := { k.mv with timeoutSeen := true } }
          let s := updCore s p fun k => if q = 2 ∧ !r.dstFs then clearInMark k (r.dst + row) (tag % 256) else k
          tryImage (respond s p core (tag % 256) q row .timeout) p core (tag % 256) q)

/-- A grant of credits reaches the sender (R273). -/
def execCreditGrant (port : Port) (pkt : Packet) (s : State) : Host.Outcome State Fault Refusal :=
  .next (
    if pkt.ptype ≠ .grant ∨ pkt.classT then s
    else deliver s port pkt fun s l p =>
      if inReset s l then s
      else
        let k := coreAt s p
        match findIdx (fun (x : Cred) => x.die == pkt.srcDie && x.core == pkt.srcCore && x.ring == pkt.ring) k.mv.creds with
        | some (i, _) =>
          updCore (useWords s p l [(7, 24 + i)]).2 p fun k => adjustCred k i (· + pkt.count)
        | none =>
          if k.mv.creds.length < 16 then
            setCore s p { k with mv := { k.mv with creds := k.mv.creds ++
              [{ die := pkt.srcDie, core := pkt.srcCore, ring := pkt.ring, base := pkt.base, size := pkt.size,
                 count := pkt.count }] } }
          else
            let s := setCore s p { k with mv := { k.mv with credFull := true } }
            logCore s 6 .done l true [(2, pkt.srcDie), (2, pkt.srcCore), (1, pkt.ring)])

/-- A revoke frees the credit-table entry (R273). -/
def execRevoke (port : Port) (pkt : Packet) (s : State) : Host.Outcome State Fault Refusal :=
  .next (
    if pkt.ptype ≠ .revoke ∨ pkt.classT then s
    else deliver s port pkt fun s l p =>
      if inReset s l then s
      else updCore s p fun k => { k with mv := { k.mv with creds := k.mv.creds.filter fun x =>
        !(x.die == pkt.srcDie && x.core == pkt.srcCore && x.ring == pkt.ring) } })

/-- Inject the held rows of a core whose destination the table shows settled, a bounced one only under an epoch other than its bounced
packet's (R283). The table holds no epoch of another die, so a row bounced from there is sent again at once. DESIGN CHOICE (log
70). -/
def resendHeld (s : State) (p : Nat) : State :=
  (coreAt s p).mv.outb.foldl (fun s e =>
    let d := packetDest e.pkt
    let ep := stampEpoch s d.1 d.2
    if e.held && destSettled s d.1 d.2 && (d.1 != s.boot.dieId || e.bouncedEpoch != some ep) then
      let pkt := { e.pkt with epoch := ep }
      let s := updCore s p fun k => addLate { k with mv := { k.mv with outb := k.mv.outb.map fun x =>
        if x = e then { x with held := false, pkt := pkt } else x } } (aNow s (p / 544)) (.rowSent 3 e.tag e.row)
      inject s p 3 pkt
    else s) s

/-- A bounced row returns to the outbound entry that still holds it, and is sent again once the table allows it (R283, R393). -/
def execBounce (port : Port) (pkt : Packet) (s : State) : Host.Outcome State Fault Refusal :=
  .next (
    if pkt.ptype ≠ .bounce ∨ pkt.classT then s
    else deliver s port pkt fun s l p =>
      if inReset s l then s
      else
        let s := updCore (catchUp s p (cycleOf s l)) p fun k =>
          let k := { k with mv := { k.mv with bouncedSeen := true, outb := k.mv.outb.map fun e =>
            if e.tag = pkt.tag ∧ e.row = pkt.row then { e with held := true, bouncedEpoch := some pkt.epoch } else e } }
          updRun k pkt.tag 3 fun r => some { r with deadline := Store.erase r.deadline pkt.row }
        resendHeld (logCore s 6 .done l false [(8, pkt.addr.toNat), (1, pkt.tag), (1, pkt.row)]) p)

/-- A Gallery station's broadcast reaches every interface: its epoch and unsettled mask, and the rows that waited for it
are sent (R282, R283, R374). -/
def execUnsettledMaskBroadcast (gal : Nat) (s : State) : Host.Outcome State Fault Refusal :=
  .next (
    let s := updGal s gal fun g => { g with tableEpoch := g.epoch, tableMask := g.unsettled }
    (s.cores.map (·.1)).foldl resendHeld s)

/-- CORE_MOVE_STATUS (R286). -/
def readMoveStatus (k : Core) : Nat :=
  min 63 k.mv.outb.length + 64 * min 63 (inRows k) + 2 ^ 12 * b2n k.mv.timeoutSeen + 2 ^ 13 * b2n k.mv.bouncedSeen +
  2 ^ 14 * b2n k.mv.poisonedSeen + 2 ^ 15 * b2n k.mv.credFull + 2 ^ 16 * b2n k.mv.fencedSeen

end Sys2Proof.Machine
end

