-- ==== Sys2Proof/Machine/OutPath.lean ====
section
/-!
DEFINITION. The output path: drains, descriptor commands and their start (05_accumulation).
-/

namespace Sys2Proof.Machine

/-- A drain or descriptor command decoded at the head enters the pending slot if it is empty, and holds its tile
(R131, R139). -/
def enterOut (s : State) (p l : Nat) : State :=
  let k := coreAt s p
  match (queueAt k 0).head with
  | none => s
  | some d =>
    match k.outp.pend with
    | some _ => s
    | none =>
      match d.cmd with
      | .pass _ => s
      | _ =>
        let t := outTile d.cmd
        let c := max (cycleOf s l) d.since
        let k := setDesc { k with outp := { k.outp with pend := some (freshWait k c d) } } t
          { heldDesc k c t with pendHeld := true }
        leaveHead (setCore s p k) p l 0 (c + 1)

/-- The command decoded at the head of the matrix queue is of the kind a row names. -/
def headIsOut (s : State) (l : Nat) (f : Cmd → Bool) : Bool :=
  match liveCore s l with
  | none => false
  | some p =>
    match (queueAt (coreAt s p) 0).head with
    | some d => f d.cmd
    | none => false

/-- Decode an output-path command, or offer one already decoded to the pending slot again (R139). -/
def outRow (s : State) (l key : Nat) (f : Cmd → Bool) : State :=
  if headIsOut s l f then withLive s l fun p => enterOut s p l
  else onHead s l 0 (fun k => k == key) fun s p c h cmd =>
    let s := endAbandonedHead (waitHead s p 0 c h cmd) p l 0
    if (queueAt (coreAt s p) 0).head.isSome then enterOut s p l else s

/-- DRAIN: R142. -/
def execDrain (core : Nat) (s : State) : Host.Outcome State Fault Refusal :=
  .next (outRow s core 0x200 fun c => match c with | .drain _ => true | _ => false)

/-- R153, R154. -/
def execDescSet (core : Nat) (s : State) : Host.Outcome State Fault Refusal :=
  .next (outRow s core 0x300 fun c => match c with | .desc x => x.op == 0 | _ => false)

/-- R153, R154. -/
def execRescale (core : Nat) (s : State) : Host.Outcome State Fault Refusal :=
  .next (outRow s core 0x301 fun c => match c with | .desc x => x.op == 1 | _ => false)

/-- R153, R154. -/
def execZero (core : Nat) (s : State) : Host.Outcome State Fault Refusal :=
  .next (outRow s core 0x302 fun c => match c with | .desc x => x.op == 2 | _ => false)

/-- Of two statuses the one R12 reports: POISONED before CONFLICT before DONE. -/
def worseOf (poisoned conflict : Bool) : Status := if poisoned then .poisoned else if conflict then .conflict else .done

/-- The record of a failed factor or bias read of cycle c (R151). -/
def logOutRead (s : State) (p l c slot row cause : Nat) : State :=
  happen s p l (failCycle c row cause)
    (.record 2 (if cause = 3 then .poisoned else .conflict) [(4, slot), (2, row), (1, cause)])

/-- End the output-path command at the head of the pending slot: its run, done flag and status, which a drain reports in
CORE_OUT_STATUS as it completes (R150, R154, R165). -/
def startOut (s : State) (p : Nat) (d : Decoded) (tile e ends held fill : Nat) (en : Bool) (flag setter : Nat) (st : Status) :
    State :=
  let s := updCore s p fun k =>
    let r : OutRun := { tile := tile, start := e, ends := ends, fill := fill, track := d.track }
    let k := { k with outp := { k.outp with pend := none, run := some r } }
    let k := if setter = 1 ∧ (st = .poisoned ∨ st = .conflict) then addLate k ends (.outSeen (st == .poisoned)) else k
    setDesc k tile { descAt k tile with pendHeld := false, heldEnd := max (descAt k tile).heldEnd held }
  let s := endTrack s p d.track (if en then ends + 1 else ends) (ends + 1) st
  report (dueDone s p ends en flag setter d.ctx d.slot d.track) st

/-- Read a drain's factor or bias row: NaR throughout when the read fails, which CORE_OUT_STATUS shows at the drain's end too (R143,
R144, R151). -/
def readFactor (s : State) (p l slot : Nat) (meets : List Meet) (en : Bool) (row e ends track : Nat) (use : Use) :
    Option Row × Option Nat × State :=
  if !en then (none, none, s)
  else
    let (rs, s) := readRows s p l 1 slot meets [{ row := row, cycle := e, write := false, track := track, use := use }]
    let s := updCore s p fun k => addMarks k (cycleOf s l) [{ row := row, write := false, till := some e, engine := 1, slot := slot }]
    match rs with
    | [(r, none)] => (some r, none, s)
    | [(_, some c)] =>
      (some narRow, some c, updCore (logOutRead s p l e slot row c) p fun k => addLate k ends (.outSeen (c == 3)))
    | _ => (some narRow, none, s)

/-- The words of a tile as a command reads them that saw NaR from a place on (R160, R161). -/
def readWords (k : Core) (t : Nat) (place : Option Nat) : List (List A64) := narFrom place ((tileRowsOf k t).map tileWords)

/-- The Pool rows a drain writes: those of the converted tile and the top-k row (R147, R149, R150). -/
def drainOuts (c : DrainCmd) (w : Int) (tile : List (List A64)) : List DrainOut :=
  drainRows c w tile ++
  (if c.topk = 0 then [] else [{ at_ := c.topkRow, row := topkRowOf c tile, counts := Counts.none, cycle := 30 }])

/-- Run a drain that starts at cycle e, its row u of the tile being read in cycle e + 8 + u ÷ 2 (R143 to R151, R160, R161,
R164). -/
def runDrain (s : State) (p l e : Nat) (d : Decoded) (c : DrainCmd) (meets : List Meet) : State :=
  let now := cycleOf s l
  let ends := e + (if c.topk = 0 then 29 else 30)
  let sexp := signed8 (finalMarks (descAt (coreAt s p) c.tile)).exp.toNat
  let w := c.wexp.getD sexp
  let use := Use.factor c w d.ctx (if c.censusEn then d.tag else none)
  let (sc, f1, s) := readFactor s p l d.slot (meets.filter fun m => m.access == 0) c.scEn c.scRow e ends d.track use
  let (bias, f2, s) := readFactor s p l d.slot ((meets.filter fun m => m.access == 1).map fun m => { m with access := 0 })
    c.biasEn c.biasRow (e + 1) ends d.track use
  let (place, s) := tileReadFault s p l d.slot d.track c.tile (32 * c.tile) 32 fun u => e + 8 + u / 2
  let all := drainOuts c w (drainStages c sexp w sc bias (readWords (coreAt s p) c.tile place))
  let fs : List Fore := all.map fun o => { row := o.at_, cycle := e + o.cycle, write := true, track := d.track, use := .outRow }
  let (cs, s) := doFore s p l 1 d.slot (meetsOf meets) fs
  let s := updCore s p fun k => addMarks k now
    (fs.map fun f => { row := f.row, write := true, till := some f.cycle, engine := 1, slot := d.slot })
  let s := ((all.zip cs).mapIdx fun i x => (i, x)).foldl (fun s y =>
    let x := y.2
    match x.2 with
    | some _ => s
    | none =>
      let s := updCore s p fun k => laterRow k now (e + x.1.cycle) x.1.at_ x.1.row
      if c.censusEn then countOpt s p l (e + x.1.cycle) d.ctx d.tag x.1.counts d.track y.1 else s) s
  let bad := place.isSome || f1 == some 3 || f2 == some 3
  let conflict := cs.any (·.isSome) || f1.any (· != 3) || f2.any (· != 3)
  let s := countAct (countAct s l 2 (all.length + b2n c.scEn + b2n c.biasEn)) l 3 32
  startOut (noteDrain s p e) p d c.tile e ends (e + 24) 0 c.doneEn c.doneFlag 1 (worseOf bad conflict)
where
  /-- Meetings of the result rows, numbered after the two reads. -/
  meetsOf (ms : List Meet) : List Meet :=
    (ms.filter fun m => decide (2 ≤ m.access)).map fun m => { m with access := m.access - 2 }

/-- The changes a RESCALE makes to its tile's descriptor: each row's marks as it is written, the exponent at the end (R132,
R154). -/
def rescaleEvs (claims : List (Nat × Nat)) (id first ends : Nat) (code : BitVec 8) (rows : List (List A64)) :
    List (Nat × DescEv) :=
  (rows.mapIdx fun u r =>
    (fillPortEnd first (u + 1) claims, DescEv.row id u (r.any A64.isInf) (r.any fun x => x == .nar) true)) ++
  [(ends, .exp code false)]

/-- Run a descriptor command that starts at cycle e (R154, R155, R164). -/
def runDesc (s : State) (p l e : Nat) (d : Decoded) (c : DescCmd) : State :=
  let t := c.tile
  let now := cycleOf s l
  let code := BitVec.ofInt 8 c.exp
  let change (k : Core) (es : List (Nat × DescEv)) : Core := setDesc k t (addEvs (descAt k t) now es)
  match c.op with
  | 0 =>
    startOut (updCore s p fun k => change k [(e, .exp code c.clear)]) p d t e e (e + 1) 0 c.doneEn c.doneFlag 0 .done
  | 1 =>
    let (place, s) := tileReadFault s p l d.slot d.track t (32 * t) 32 fun u => e + 8 + u / 2
    let k := coreAt s p
    let sexp := signed8 (finalMarks (descAt k t)).exp.toNat
    let rows := (readWords k t place).map fun r => r.map (rescaleA64 sexp c.exp)
    let ends := fillPortEnd (e + 10) 32 k.tile.claims
    let s := updCore s p fun k =>
      change (writeTrows k (32 * t) (rows.map mkTileRow)) (rescaleEvs k.tile.claims d.track (e + 10) ends code rows)
    startOut (countAct (noteDrain s p e) l 3 64) p d t e ends (ends + 1) (e + 10) c.doneEn c.doneFlag 0
      (if place.isSome then .poisoned else .done)
  | _ =>
    let ends := fillPortEnd (e + 8) 32 (coreAt s p).tile.claims
    let s := updCore s p fun k => change (writeTrows k (32 * t) (List.replicate 32 0)) [(ends, .zero code)]
    startOut (countAct s l 3 32) p d t e ends (ends + 1) (e + 8) c.doneEn c.doneFlag 0 .done

/-- The previous output-path command lets another start at cycle e (R140). -/
def outIdle (k : Core) (e : Nat) : Bool :=
  match k.outp.run with
  | none => true
  | some r => decide (r.start + 32 ≤ e) && decide (r.ends < e)

/-- The command in the pending slot starts at a phase 0 when R140 allows it, in the cycle after it entered the slot at the earliest.
DESIGN CHOICE (log 65). -/
def startPending (s : State) (core : Nat) (meets : List Meet) : State :=
  withIssue s core fun s p =>
    let k := coreAt s p
    match k.outp.pend with
    | none => s
    | some d =>
      let e := nextPhase (max (cycleOf s core) (d.since + 1)) 0 32
      match cmdVerdict s p core e d with
      | .abandoned => endPend s p core d .abandoned
      | .wait _ _ => s
      | .go =>
        if !(tileFree k e (outTile d.cmd) && outIdle k e) then
          updCore s p fun k => { k with outp := { k.outp with pend := some (freshWait k (cycleOf s core) d) } }
        else
          match d.cmd with
          | .drain c => runDrain s p core e d c meets
          | .desc c => runDesc s p core e d c
          | _ => s

/-- CORE_OUT_STATUS (R165). -/
def readOutStatus (s : State) (p l : Nat) : Nat :=
  let o := (settleLate (coreAt s p) (cycleOf s l)).outp
  let running := match o.run with
    | some r => decide (cycleOf s l ≤ r.ends)
    | none => false
  b2n running + 2 * b2n o.pend.isSome + 4 * (match o.run with | some r => if running then r.tile else 0 | none => 0) +
  32 * (match o.pend with | some d => outTile d.cmd | none => 0) + 256 * b2n o.poisonedSeen + 512 * b2n o.conflictSeen

/-- CORE_FS_DESCn (R130). -/
def readDesc (s : State) (p l t : Nat) : Nat :=
  let k := coreAt s p
  let d := shownMarks (descAt k t) (cycleOf s l)
  d.exp.toNat + 256 * tileState k (cycleOf s l) t + 1024 * b2n d.poisoned + 2048 * b2n d.inf +
  4096 * b2n (d.nar || d.poisoned) + 8192 * d.cause

end Sys2Proof.Machine
end

