-- ==== Sys2Proof/Machine/Vector.lean ====
section
/-!
DEFINITION. The vector engine: decoding and starting its instructions, their row and scalar accesses, faults, and the
census commands (06_vector_engine, 07_training_numerics).
-/

namespace Sys2Proof.Machine

/-- Decode a vector instruction of an op at the head of the vector queue (R170). -/
def vecRow (s : State) (l op : Nat) : State :=
  onHead s l 1 (fun k => k == 0x400 + op) fun s p c h cmd => endAbandonedHead (waitHead s p 1 c h cmd) p l 1

/-- ADD (R173). -/
def execAdd (core : Nat) (s : State) : Host.Outcome State Fault Refusal := .next (vecRow s core 0x01)
/-- SUB (R173). -/
def execSub (core : Nat) (s : State) : Host.Outcome State Fault Refusal := .next (vecRow s core 0x02)
/-- MUL (R173). -/
def execMul (core : Nat) (s : State) : Host.Outcome State Fault Refusal := .next (vecRow s core 0x03)
/-- MIN (R173). -/
def execMin (core : Nat) (s : State) : Host.Outcome State Fault Refusal := .next (vecRow s core 0x04)
/-- MAX (R173). -/
def execMax (core : Nat) (s : State) : Host.Outcome State Fault Refusal := .next (vecRow s core 0x05)
/-- CMPLT (R173). -/
def execCmplt (core : Nat) (s : State) : Host.Outcome State Fault Refusal := .next (vecRow s core 0x06)
/-- CMPLE (R173). -/
def execCmple (core : Nat) (s : State) : Host.Outcome State Fault Refusal := .next (vecRow s core 0x07)
/-- CMPEQ (R173). -/
def execCmpeq (core : Nat) (s : State) : Host.Outcome State Fault Refusal := .next (vecRow s core 0x08)
/-- SEL (R175). -/
def execSel (core : Nat) (s : State) : Host.Outcome State Fault Refusal := .next (vecRow s core 0x09)
/-- COPY (R169). -/
def execCopy (core : Nat) (s : State) : Host.Outcome State Fault Refusal := .next (vecRow s core 0x10)
/-- NEG (R173). -/
def execNeg (core : Nat) (s : State) : Host.Outcome State Fault Refusal := .next (vecRow s core 0x11)
/-- ABS (R173). -/
def execAbs (core : Nat) (s : State) : Host.Outcome State Fault Refusal := .next (vecRow s core 0x12)
/-- SHIFT (R173). -/
def execShift (core : Nat) (s : State) : Host.Outcome State Fault Refusal := .next (vecRow s core 0x13)
/-- ISNAR (R175). -/
def execIsnar (core : Nat) (s : State) : Host.Outcome State Fault Refusal := .next (vecRow s core 0x14)
/-- EXP2 (R180). -/
def execExp2 (core : Nat) (s : State) : Host.Outcome State Fault Refusal := .next (vecRow s core 0x15)
/-- LOG2 (R181). -/
def execLog2 (core : Nat) (s : State) : Host.Outcome State Fault Refusal := .next (vecRow s core 0x16)
/-- RECIP (R182). -/
def execRecip (core : Nat) (s : State) : Host.Outcome State Fault Refusal := .next (vecRow s core 0x17)
/-- RSQRT (R182). -/
def execRsqrt (core : Nat) (s : State) : Host.Outcome State Fault Refusal := .next (vecRow s core 0x18)
/-- WIDEN (R176). -/
def execWiden (core : Nat) (s : State) : Host.Outcome State Fault Refusal := .next (vecRow s core 0x20)
/-- NARROW (R176). -/
def execNarrow (core : Nat) (s : State) : Host.Outcome State Fault Refusal := .next (vecRow s core 0x21)
/-- RSUM (R177). -/
def execRsum (core : Nat) (s : State) : Host.Outcome State Fault Refusal := .next (vecRow s core 0x28)
/-- RSUMSQ (R177). -/
def execRsumsq (core : Nat) (s : State) : Host.Outcome State Fault Refusal := .next (vecRow s core 0x29)
/-- RMAX (R177). -/
def execRmax (core : Nat) (s : State) : Host.Outcome State Fault Refusal := .next (vecRow s core 0x2A)
/-- RMIN (R177). -/
def execRmin (core : Nat) (s : State) : Host.Outcome State Fault Refusal := .next (vecRow s core 0x2B)
/-- SGET (R169). -/
def execSget (core : Nat) (s : State) : Host.Outcome State Fault Refusal := .next (vecRow s core 0x2C)
/-- SOFTMAX (R184). -/
def execSoftmax (core : Nat) (s : State) : Host.Outcome State Fault Refusal := .next (vecRow s core 0x30)
/-- LNORM (R185). -/
def execLnorm (core : Nat) (s : State) : Host.Outcome State Fault Refusal := .next (vecRow s core 0x31)
/-- RMSNORM (R185). -/
def execRmsnorm (core : Nat) (s : State) : Host.Outcome State Fault Refusal := .next (vecRow s core 0x32)
/-- XENT (R186). -/
def execXent (core : Nat) (s : State) : Host.Outcome State Fault Refusal := .next (vecRow s core 0x33)
/-- MSE (R186). -/
def execMse (core : Nat) (s : State) : Host.Outcome State Fault Refusal := .next (vecRow s core 0x34)
/-- CSCNT (R188). -/
def execCscnt (core : Nat) (s : State) : Host.Outcome State Fault Refusal := .next (vecRow s core 0x38)
/-- CSCLR (R190). -/
def execCsclr (core : Nat) (s : State) : Host.Outcome State Fault Refusal := .next (vecRow s core 0x39)

/-- Sweeps of an instruction over its rows (R183). -/
def vecSweeps (op : Nat) : Nat :=
  match op with
  | 0x30 => 3
  | 0x31 => 2
  | 0x32 => 2
  | 0x33 => 2
  | _ => 1

/-- The op is one of 0x30 to 0x34, whose results depend on every row read (R187). -/
def vecWhole (op : Nat) : Bool := decide (0x30 ≤ op) && decide (op ≤ 0x34)

/-- W32 rows an instruction covers (R168, R172). -/
def vecN (i : VecIns) : Nat := if i.op = 0x20 ∨ i.op = 0x21 then (i.n + 1) * wideFactor i.bRow else i.n + 1

/-- The A reads, B reads, mask reads and row writes of an instruction that starts at cycle e (R172, R183). -/
def vecFores (i : VecIns) (e : Nat) : List Fore × List Fore × List Fore × List Fore :=
  let n := vecN i
  let period := 4 * n + 8
  let sweeps := vecSweeps i.op
  let f := wideFactor i.bRow
  let stepA := if i.op = 0x20 then 4 * f else 4
  let gen (count : Nat) (g : Nat → Nat → Fore) : List Fore :=
    (List.range sweeps).flatMap fun j => (List.range count).map fun q => g j q
  (gen (vecARows i.op i.bRow i.n) fun j q => { row := i.aRow + q, cycle := e + j * period + stepA * q, write := false },
   gen (vecBRows i.op i.n i.bsrc) fun j q => { row := i.bRow + q, cycle := e + j * period + 4 * q + 1, write := false },
   (List.range (if opHasMask i.op then i.n + 1 else 0)).map fun q =>
     { row := i.dRow + q, cycle := e + 4 * q + 3, write := false },
   (List.range (vecDRows i.op i.bRow i.n)).map fun q =>
     { row := i.dRow + q, write := true, use := .vecRow,
       cycle := e + (sweeps - 1) * period + (if i.op = 0x21 then 4 * (f * q + f - 1) else 4 * q) + 14 })

/-- The scalar registers an instruction reads (R169). -/
def vecReadsSc (i : VecIns) : Bool :=
  (opHasB i.op && i.bsrc) || ((decide (0x28 ≤ i.op) && decide (i.op ≤ 0x2B)) && i.bRow % 2 == 1) || i.op == 0x31 ||
  i.op == 0x32 || i.op == 0x33

/-- The cycle of an instruction's last write, from its start (R172, R183). -/
def vecEnd (i : VecIns) : Nat :=
  let n := vecN i
  if i.op = 0x39 then 0 else if i.op = 0x2C then 14 else (vecSweeps i.op - 1) * (4 * n + 8) + 4 * n + 10

/-- The element format of the rows an instruction reads (R169, R176, R188). -/
def vecReadFmt (op b : Nat) : Nat := if op = 0x20 ∨ op = 0x38 then b else 4

/-- Rows as an instruction reads them: a failed read delivers NaR, under scale bytes the spec does not give (R187). -/
def deliverRows (s : State) (fmt : Nat) (rs : List (Row × Option Nat)) : List Row × State :=
  rs.foldl (fun acc r =>
    match r.2 with
    | none => (acc.1 ++ [r.1], acc.2)
    | some _ => let (x, s) := drawFree acc.2; (acc.1 ++ [failedRow fmt x], s)) ([], s)

/-- The record of a failed access of the vector engine in cycle c (R187). -/
def logVec (s : State) (p l c slot row cause : Nat) : State :=
  happen s p l (failCycle c row cause)
    (.record 3 (if cause = 3 then .poisoned else .conflict) [(4, slot), (2, row), (1, cause)])

/-- Records of the failed accesses of a list. -/
def logVecs (s : State) (p l slot : Nat) (fs : List Fore) (cs : List (Option Nat)) : State :=
  (fs.zip cs).foldl (fun s x => match x.2 with | some c => logVec s p l x.1.cycle slot x.1.row c | none => s) s

/-- The rows and scalar an instruction gives: NaR throughout when a whole-vector op had a failed read (R187). -/
def vecOutcome (i : VecIns) (as bs ms : List Row) (sc : List Scalar) (failed : Bool) : VecOut :=
  if failed && vecWhole i.op then
    let aG := allGroups as
    let a0 := aG.headD { nar := true, e := 0, lanes := [] }
    match i.op with
    | 0x33 => { rows := [], scalar := outScalar i (i.bRow % 8) Wide.narV a0 }
    | 0x34 => { rows := [], scalar := outScalar i i.sreg Wide.narV a0 }
    | _ => { rows := outRowsOf i aG (List.replicate (128 * as.length) Wide.narV) as.length, scalar := none }
  else vecResult i as bs ms sc

/-- The eight scalar registers of a context (R167). -/
def scalarsOf (x : Ctx) : List Scalar := (List.range 8).map fun r => Store.get Scalar.zero x.sc r

/-- Write result rows whose access is made, each in its cycle, counted then in the command's tag (R174, R187, R189). -/
def writeVecRows (s : State) (p l cx : Nat) (tag : Option Nat) (fs : List Fore) (rows : List OutRow) (cs : List (Option Nat)) :
    State :=
  (((rows.zip fs).zip cs).mapIdx fun i x => (i, x)).foldl (fun s y =>
    let x := y.2
    match x.2 with
    | some _ => s
    | none =>
      let f := x.1.2
      countOpt (updCore s p fun k => laterRow k (cycleOf s l) f.cycle f.row x.1.1.row) p l f.cycle cx tag x.1.1.counts f.track y.1) s

/-- CSCNT counts row q in cycle 4q + 14 of its run (R188). -/
def countRows (s : State) (p l e cx : Nat) (tag : Option Nat) (fmt : Nat) (rows : List Row) (track : Nat) : State :=
  (rows.mapIdx fun q r => (q, r)).foldl (fun s x =>
    countOpt s p l (e + 4 * x.1 + 14) cx tag (cscntRow fmt x.2) track x.1) s

/-- Run a vector instruction that starts at cycle e (R166 to R190). -/
def runVec (s : State) (p l e : Nat) (d : Decoded) (i : VecIns) (meets : List Meet) : State :=
  let (aF, bF, mF, wF) := vecFores i e
  let reads := (aF ++ bF ++ mF).mapIdx fun j f => { f with track := d.track, use := .vecRead j }
  let wF := wF.map fun f => { f with track := d.track }
  let (rs, s) := readRows s p l 2 d.slot meets reads
  let s := logVecs s p l d.slot reads (rs.map (·.2))
  let failed := rs.any fun r => r.2.isSome
  let sweepsA := aF.length / vecSweeps i.op
  let sweepsB := bF.length / vecSweeps i.op
  let (as, s) := deliverRows s (vecReadFmt i.op i.bRow) (rs.take sweepsA)
  let (bs, s) := deliverRows s 4 (sliceL rs aF.length sweepsB)
  let (ms, s) := deliverRows s 4 (rs.drop (aF.length + bF.length))
  let x := ctxAt (coreAt s p) d.ctx
  let out := vecOutcome i as bs ms (scalarsOf x) failed
  let nr := reads.length
  let (cs, s) := doFore s p l 2 d.slot ((meets.filter fun m => decide (nr ≤ m.access)).map fun m =>
    { m with access := m.access - nr }) wF
  let s := logVecs s p l d.slot wF cs
  let s := updCore s p fun k => addMarks k (cycleOf s l)
    ((reads ++ wF).map fun f => { row := f.row, write := f.write, till := some f.cycle, engine := 2, slot := d.slot })
  let ends := e + vecEnd i
  let s := writeVecRows s p l d.ctx d.tag wF out.rows cs
  let s := match out.scalar with
    | none => s
    | some (r, v, n) =>
      let s := updCtx s p d.ctx fun x => { x with sc := Store.set Scalar.zero x.sc r v }
      countOpt s p l ends d.ctx d.tag n d.track 0
  let s := if i.op = 0x38 then countRows s p l e d.ctx d.tag i.bRow as d.track
    else if i.op = 0x39 then updCore s p fun k => addLate k e .clearNar
    else s
  let poisoned := rs.any fun r => r.2 == some 3
  let conflict := (rs.any fun r => r.2.isSome && r.2 != some 3) || cs.any (·.isSome)
  let st : Status := if poisoned then .poisoned else if conflict then .conflict else .done
  let s := updCore s p fun k =>
    let k := if st = .done then k else addLate k ends (.vecSeen (st == .poisoned))
    { k with vec := { k.vec with
      op := i.op, runEnd := some (max ends (k.vec.runEnd.getD 0)), lastRead := some (reads.foldl (fun m f => max m f.cycle) e),
      scWrites := (k.vec.scWrites.filter fun w => decide (cycleOf s l ≤ w.2.2)) ++
        (match out.scalar with | some (r, _, _) => [(d.ctx, r, ends)] | none => []),
      runs := (k.vec.runs.filter fun r => decide (cycleOf s l ≤ r.start + vecEnd r.ins)) ++
        [{ track := d.track, slot := d.slot, ctx := d.ctx, tag := d.tag, ins := i, start := e, rowsA := as, rowsB := bs, rowsM := ms,
           sc := scalarsOf x }] } }
  let s := countAct (countAct s l 1 (4 * vecN i)) l 2 (nr + wF.length)
  let s := endTrack s p d.track (if i.doneEn then ends + 1 else ends) (ends + 1) st
  let s := dueDone s p ends i.doneEn i.doneFlag 2 d.ctx d.slot d.track
  report (leaveHead s p l 1 (e + 1)) st

/-- Earlier instructions let this one start at cycle e (R171). -/
def vecIdle (k : Core) (cx e : Nat) (i : VecIns) : Bool :=
  (match k.vec.lastRead with
   | none => true
   | some r => decide (r < e)) &&
  (!vecReadsSc i || !k.vec.scWrites.any fun w => w.1 == cx && w.2.1 == i.sreg && decide (e ≤ w.2.2))

/-- The instruction decoded at the head of the vector queue starts at a phase that is a multiple of 4 when R171
allows it. -/
def startVec (s : State) (core : Nat) (meets : List Meet) : State :=
  withIssue s core fun s p =>
    match (queueAt (coreAt s p) 1).head with
    | none => s
    | some d =>
      match d.cmd with
      | .vec i =>
        let e := nextPhase (max (cycleOf s core) d.since) 0 4
        (match cmdVerdict s p core e d with
         | .abandoned => endHead s p core 1 d .abandoned
         | .wait _ _ => s
         | .go => if vecIdle (coreAt s p) d.ctx e i then runVec s p core e d i meets else noteFree s p core 1 d)
      | _ => s

/-- CORE_VEC_STATUS (R193). -/
def readVecStatus (s : State) (p l : Nat) : Nat :=
  let v := (settleLate (coreAt s p) (cycleOf s l)).vec
  let running := match v.runEnd with
    | some e => decide (cycleOf s l ≤ e)
    | none => false
  b2n running + 2 * v.op + 128 * b2n v.conflictSeen + 256 * b2n v.poisonedSeen

/-- The shadow of the tag shown (R195). -/
def shownTag (k : Core) : TagCnt := Store.get TagCnt.init k.census.shadow k.census.sel

/-- The sum of one tag's shadows over cores, each counter limited to `bits` bits; full marks combine (R192, R540). -/
def rollAdd (bits : Nat) (r : Roll) (t : Roll) : Roll :=
  let lim (n : Nat) : Nat := min n (2 ^ bits - 1)
  { zero := lim (r.zero + t.zero), sat := lim (r.sat + t.sat), nar := lim (r.nar + t.nar), total := lim (r.total + t.total),
    full := r.full ||| t.full }

/-- A tag's shadow as a roll-up of one core. -/
def tagRoll (t : TagCnt) : Roll := { zero := t.zero, sat := t.sat, nar := t.nar, total := t.total, full := t.full }

/-- Add one core's shadows to a table of roll-ups. -/
def addShadow (bits : Nat) (sums : Store Roll) (shadow : Store Roll) : Store Roll :=
  shadow.foldl (fun m e => Store.modify Roll.init m e.1 fun r => rollAdd bits r e.2) sums

/-- The roll-up of the latest Dusk completes: every Gallery's sums over its logical cores, every Cavern's over its
Galleries, with the incomplete mark of a core reset in the Day or without a physical core (R192). DEDUCED (log 31). -/
def execCensusRollup (s : State) : Host.Outcome State Fault Refusal :=
  .next (
    if !s.day.rollForming then s
    else
      let s := { s with day := { s.day with rollForming := false } }
      let gone (l : Nat) : Bool := s.day.goneCores.contains l
      let s := (List.range 32).foldl (fun s g =>
        let sums := (List.range 64).foldl (fun m i =>
          match physOf s (64 * g + i) with
          | none => m
          | some p => addShadow 40 m ((coreAt s p).census.shadow.map fun e => (e.1, tagRoll e.2))) []
        let inc := (List.range 64).any fun i => gone (64 * g + i)
        updGal s g fun x => { x with roll := { x.roll with sums := sums, incomplete := inc, day := s.day.shadowDay } }) s
      (List.range 4).foldl (fun s c =>
        let sums := (List.range 8).foldl (fun m g => addShadow 44 m (galAt s (8 * c + g)).roll.sums) []
        let inc := (List.range 8).any fun g => (galAt s (8 * c + g)).roll.incomplete
        updCav s c fun x => { x with roll := { x.roll with sums := sums, incomplete := inc, day := s.day.shadowDay } }) s)

end Sys2Proof.Machine
end

