-- ==== Sys2Proof/Machine/Meet.lean ====
section
/-!
DEFINITION. Bank conflicts with an access that an earlier command has planned: neither is made, and what the earlier command was to do
with it is put right (08_pool R226 to R228). The commands that plan foreground accesses are here.
-/

namespace Sys2Proof.Machine

/-- Drop the counts to come that a test on the command, the result row and the cycle names. -/
def dropCounts (k : Core) (f : Nat → Nat → Nat → Bool) : Core :=
  { k with late := k.late.filter fun x =>
      match x.act with
      | .count _ _ _ track i => !f track i x.cycle
      | _ => true }

/-- A started command's row write in a cycle to come is not made: the row stays, and its elements are not counted (R148, R150, R187,
R227). -/
def unwriteRow (k : Core) (track cycle row : Nat) : Core :=
  let k := dropCounts k fun t _ c => t == track && c == cycle
  match k.pool.was.find? fun w => w.cycle == cycle && w.row == row with
  | none => k
  | some w => putBack { k with pool := { k.pool with was := k.pool.was.erase w } } w

/-- A started command ends with CONFLICT, or as it would where it ends POISONED (R12). -/
def noteConflict (k : Core) (track : Nat) : Core :=
  { k with track := k.track.map fun t =>
      if t.id = track ∧ t.status ≠ some .poisoned then { t with status := some .conflict } else t }

/-- A panel read of a pass in cycle c fails after its issue: the pass's tile is poisoned from then on and its check is not made, unless
an earlier fault of the pass has poisoned it (R84, R160 to R163). -/
def poisonPass (s : State) (p l slot tile c track : Nat) : State :=
  let d := descAt (coreAt s p) tile
  let own (e : Nat × DescEv) : Bool :=
    match e.2 with
    | .poison _ id => id == track
    | _ => false
  if d.by_ = track + 1 ∨ d.evs.any fun e => own e && decide (e.1 ≤ c) then s
  else
    let s := updCore s p fun k =>
      { setDesc (writeTrows k (32 * tile) (List.replicate 32 (mkTileRow (List.replicate 32 .nar)))) tile
          (poisonTrack { d with evs := d.evs.filter fun e => !own e } (cycleOf s l) c track 1) with
        late := k.late.filter fun x =>
          match x.act with
          | .mismatch t _ => t != track
          | .record 2 _ body => body.take 2 != [(4, slot), (1, tile)]
          | _ => true }
    logTile s p l c slot tile 1 []

/-- A B panel that was to load weights fails: they are NaR (R88). -/
def narWeights (s : State) (p : Nat) (load : Option (Nat × Nat)) : State :=
  match load with
  | none => s
  | some (cx, fmt) => updCore s p fun k => loadWeights k cx fmt (narRow, narRow) true

/-- The result rows of a command not yet written are other rows, with other counts, in a context's tag: `rows` gives each with its place,
cycle, row number and counts. A row whose write is not made stays. -/
def rewriteRows (s : State) (p l cx : Nat) (tag : Option Nat) (track : Nat) (rows : List (Nat × Nat × Nat × Row × Counts)) : State :=
  let s := updCore s p fun k => dropCounts k fun t _ _ => t == track
  rows.foldl (fun s x =>
    let (i, c, row, r, n) := x
    if (coreAt s p).pool.was.any fun w => w.cycle == c && w.row == row then
      countOpt (updCore s p fun k => setRow k row r) p l c cx tag n track i
    else s) s

/-- A drain's factor or bias read in cycle c fails after its start: every word leaves that stage as NaR (R151). -/
def mendFactor (s : State) (p l : Nat) (a : Access) (c : DrainCmd) (w : Int) (cx : Nat) (tag : Option Nat) : State :=
  match (coreAt s p).outp.run with
  | none => s
  | some r =>
    let outs := drainOuts c w (List.replicate 32 (List.replicate 32 .nar))
    let s := rewriteRows s p l cx tag a.track
      (outs.mapIdx fun i o => (i, r.start + o.cycle, o.at_, o.row, o.counts))
    updCore (logOutRead s p l a.cycle a.slot a.row 0) p fun k => addLate (noteConflict k a.track) r.ends (.outSeen false)

/-- A row write of the output path fails after its command's start (R150). -/
def mendOutRow (s : State) (p : Nat) (a : Access) : State :=
  match (coreAt s p).outp.run with
  | none => s
  | some r => updCore s p fun k => addLate (noteConflict (unwriteRow k a.track a.cycle a.row) a.track) r.ends (.outSeen false)

/-- A running vector instruction after its read i has failed: the rows it has for its first sweep (R187). -/
def failRead (r : VecRun) (i : Nat) (x : Nat) : VecRun :=
  let (aF, bF, _, _) := vecFores r.ins r.start
  let row (fmt : Nat) : Row := failedRow fmt x
  if i < aF.length then
    (if i < r.rowsA.length then { r with rowsA := listPut r.rowsA i (row (vecReadFmt r.ins.op r.ins.bRow)) } else r)
  else if i < aF.length + bF.length then
    (if i - aF.length < r.rowsB.length then { r with rowsB := listPut r.rowsB (i - aF.length) (row 4) } else r)
  else { r with rowsM := listPut r.rowsM (i - aF.length - bF.length) (row 4) }

/-- A read of a running vector instruction fails after its start: its results are formed again with NaR in that row's lanes (R187). -/
def mendVecRead (s : State) (p l : Nat) (a : Access) (i : Nat) : State :=
  match (coreAt s p).vec.runs.find? fun r => r.track == a.track with
  | none => s
  | some r0 =>
    let (x, s) := drawFree s
    let r := failRead r0 i x
    let v := r.ins
    let s := updCore s p fun k => { k with vec := { k.vec with runs := k.vec.runs.map fun y => if y.track = a.track then r else y } }
    let out := vecOutcome v r.rowsA r.rowsB r.rowsM r.sc true
    let ends := r.start + vecEnd v
    let wF := (vecFores v r.start).2.2.2
    let s := rewriteRows s p l r.ctx r.tag a.track
      ((out.rows.zip wF).mapIdx fun q y => (q, y.2.cycle, y.2.row, y.1.row, y.1.counts))
    let s := match out.scalar with
      | none => s
      | some (reg, y, n) =>
        let last := ((coreAt s p).vec.scWrites.filter fun w => w.1 == r.ctx && w.2.1 == reg).getLast?
        let s := if last = some (r.ctx, reg, ends) then
            updCtx s p r.ctx fun z => { z with sc := Store.set Scalar.zero z.sc reg y } else s
        countOpt s p l ends r.ctx r.tag n a.track 0
    let s := if v.op = 0x38 then countRows s p l r.start r.ctx r.tag v.bRow r.rowsA a.track else s
    updCore (logVec s p l a.cycle a.slot a.row 0) p fun k => addLate (noteConflict k a.track) ends (.vecSeen false)

/-- A row write of a running vector instruction fails after its start (R187). -/
def mendVecRow (s : State) (p l : Nat) (a : Access) : State :=
  match (coreAt s p).vec.runs.find? fun r => r.track == a.track with
  | none => s
  | some r =>
    let s := updCore s p fun k => addLate (noteConflict (unwriteRow k a.track a.cycle a.row) a.track)
      (r.start + vecEnd r.ins) (.vecSeen false)
    logVec s p l a.cycle a.slot a.row 0

/-- A source read of a MOVE in cycle c fails after its issue: destination row q, which it feeds, is not sent, and gives CONFLICT
(R270). -/
def unsendRow (s : State) (p l track c q : Nat) : State :=
  let k := coreAt s p
  match k.mv.runs.find? fun r => r.track == track && r.op == 1 with
  | none => s
  | some r =>
    if (respOf r q).isSome then s
    else
      let row (x : InjPkt) : Bool := x.src == 3 && x.pkt.ptype == .wr && x.pkt.tag == r.tag && x.pkt.row == q && x.sent == 0
      let kept := k.mv.inb.find? fun e => e.own && e.q == 3 && e.tag == r.tag && e.pkt.row == q
      let addr := (k.mv.outb.find? fun e => e.tag == r.tag && e.row == q).map fun e => e.pkt.addr.toNat
      let k := dropCounts k fun t i _ => t == track && i == q
      let k := match kept with
        | some e => let k := endInMark k e c; { k with mv := { k.mv with inb := k.mv.inb.erase e } }
        | none =>
          match addr with
          | some a => if (creditDsts s p l [a]).isEmpty then k else returnCred k a
          | none => k
      let k := { k with mv := { k.mv with inj := k.mv.inj.filter fun x => !row x, injS := k.mv.injS.filter fun x => !row x } }
      respond (setCore s p k) p l r.tag 3 q .conflict

/-- The index row of a prelude fails after it was read: its command ends (R263, R269). -/
def mendIndex (s : State) (p l : Nat) (a : Access) (q : Nat) : State :=
  match (queueAt (coreAt s p) q).head with
  | none => s
  | some d => if d.track = a.track then retireDecoded s p l q a.cycle d 5 .conflict else s

/-- What an earlier command was to do with an access that is not made after all (R227). -/
def mendOne (s : State) (p l : Nat) (a : Access) : State :=
  match a.use with
  | .other => s
  | .panel t load => poisonPass (narWeights s p load) p l a.slot t a.cycle a.track
  | .gangPanel ends load =>
    let g := galOf l
    let s := narWeights s p load
    (match (galAt s g).gangs.find? fun r => r.ends == ends && r.members.contains (l % 64) with
     | none => s
     | some r => r.writers.foldl (fun s w =>
         match physOf s (memberOf g w.1) with
         | none => s
         | some q => poisonPass s q (memberOf g w.1) w.2.2.1 w.2.1 a.cycle w.2.2.2) s)
  | .factor c w cx tag => mendFactor s p l a c w cx tag
  | .outRow => mendOutRow s p a
  | .vecRead i => mendVecRead s p l a i
  | .vecRow => mendVecRow s p l a
  | .moveRow rows => rows.foldl (fun s q => unsendRow s p l a.track a.cycle q) s
  | .index q => mendIndex s p l a q

/-- The accesses of a plan that a later plan shows as not made after all (R227). -/
def newlyFailed (old new : List Access) : List Access :=
  old.filter fun a => !a.failed && !new.contains a && new.contains { a with failed := true }

/-- Put right the commands of a core whose accesses, planned before a command ran on state `old`, that command has met (R227). -/
def mendMeets (old s : State) (p l : Nat) : State :=
  (newlyFailed (coreAt old p).pool.plan (coreAt s p).pool.plan).foldl (fun s a => mendOne s p l a) s

/-- Put right the commands of the physical core that serves a logical id. -/
def mendCore (old s : State) (l : Nat) : State :=
  match physOf s l with
  | none => s
  | some p => mendMeets old s p l

/-- A decoded pass issues at phase 0 when every condition of R82 holds (R82 to R88, R227). -/
def execPassIssue (core : Nat) (meets : List Meet) (fault : Option CellFault) (s : State) : Host.Outcome State Fault Refusal :=
  .next (mendCore s (issuePass s core meets fault) core)

/-- The gang pass issues at phase 0 when all 64 members have arrived and meet R82 (R112 to R119, R227). -/
def execGangIssue (gal : Nat) (meets : List (Nat × List Meet)) (faults : List (Nat × CellFault)) (s : State) :
    Host.Outcome State Fault Refusal :=
  .next ((List.range 64).foldl (fun t i => mendCore s t (memberOf gal i)) (issueRendezvous s gal meets faults))

/-- The command in the pending slot starts at a phase 0 when R140 allows it (R140, R227). -/
def execOutputPathStart (core : Nat) (meets : List Meet) (s : State) : Host.Outcome State Fault Refusal :=
  .next (mendCore s (startPending s core meets) core)

/-- The instruction decoded at the head of the vector queue starts when R171 allows it (R171, R227). -/
def execVecStart (core : Nat) (meets : List Meet) (s : State) : Host.Outcome State Fault Refusal :=
  .next (mendCore s (startVec s core meets) core)

/-- The prelude of a command with gather or scatter (R227, R263). -/
def execMovePrelude (core q : Nat) (meets : List Meet) (s : State) : Host.Outcome State Fault Refusal :=
  .next (mendCore s (readIndex s core q meets) core)

/-- The decoded move-out command issues when every condition of R269 holds (R227, R269). -/
def execMoveIssue (core : Nat) (meets : List Meet) (s : State) : Host.Outcome State Fault Refusal :=
  .next (mendCore s (issueOut s core meets) core)

end Sys2Proof.Machine
end

