-- ==== Sys2Proof/Machine/Net.lean ====
section
/-!
DEFINITION. Injection, routing, arbitration, boosting and watchdogs of the Vein and of the bundles' transmit side
(09_move_engine_and_mesh R275 to R281, 12_sharing_and_fairness R385 to R404, 13_sump_interface R409, R410).
-/

namespace Sys2Proof.Machine

/-- Flits a receive buffer of a channel holds (R277, R410). -/
def bufferFlits (ch : Nat) : Nat := if ch = 0 ∨ ch = 3 then 18 else 4

/-- The output a packet's route names at a node (R276): a crossbar's core ports and its router port 68; a router's ports
0 the crossbar, 1 to 4 toward +x, −x, +y and −y. -/
def routeOut (s : State) (node : Nat) (pkt : Packet) : Nat :=
  let l := (packetDest pkt).2
  let g := galOf l
  if 32 ≤ node then (if node - 32 = g then mapCore s l % 68 else 68)
  else if node % 8 < g % 8 then 1
  else if g % 8 < node % 8 then 2
  else if node / 8 < g / 8 then 3
  else if g / 8 < node / 8 then 4
  else 0

/-- Where a packet goes from an output: the next node and its input, none for a core's interface. -/
def nextHop (node output : Nat) : Option (Nat × Nat) :=
  if 32 ≤ node then (if output = 68 then some (node - 32, 0) else none)
  else
    match output with
    | 0 => some (32 + node, 68)
    | 1 => some (node + 1, 2)
    | 2 => some (node - 1, 1)
    | 3 => some (node + 8, 4)
    | _ => some (node - 8, 3)

/-- Flits of a buffer of the Vein that packets hold, those of a packet under way into it included, whose room is taken from its first
flit on (R277). -/
def bufferUsed (s : State) (node input ch : Nat) : Nat :=
  let held := s.net.pkts.foldl (fun n x =>
    if x.node = node ∧ x.input = input ∧ x.ch = ch then n + (packetFlits x.pkt - x.sent) else n) 0
  s.net.locks.foldl (fun n k =>
    if k.ch = ch ∧ nextHop k.node k.output = some (node, input) then
      match s.net.pkts.find? fun x => x.node == k.node && x.input == k.input && x.ch == ch with
      | some x => n + packetFlits x.pkt
      | none => n
    else n) held

/-- A buffer has room for a whole packet after `more` further flits (R277). -/
def bufferRoomPast (s : State) (node input more : Nat) (pkt : Packet) : Bool :=
  decide (bufferUsed s node input (packetChannel pkt) + more + packetFlits pkt ≤ bufferFlits (packetChannel pkt))

/-- A buffer has room for a whole packet (R277). -/
def bufferRoom (s : State) (node input : Nat) (pkt : Packet) : Bool := bufferRoomPast s node input 0 pkt

/-- The state the part reports in LINK flits and LINK_STATE messages (R409, R421): 0 UP, 1 DEGRADED, 2 RESETTING. -/
def linkStateCode (s : State) : Nat :=
  if (s.resets.asserted ++ s.resets.leaving.map (·.2)).any fun d => d.1 == 3 then 2
  else if (List.range 4).any fun c => (cavAt s c).refLost || (cavAt s c).coasting then 1
  else 0

/-- The receiver's advertised room, as shown by the counts received, holds a whole packet after `more` further flits
(R410). -/
def bundleRoomPast (x : Bundle) (more : Nat) (pkt : Packet) : Bool :=
  let ch := packetChannel pkt
  decide ((x.sentFlits.getD ch 0 + 2 ^ 16 - x.peerFreed.getD ch 0 % 2 ^ 16) % 2 ^ 16 + more + packetFlits pkt ≤ bufferFlits ch)

/-- The receiver's advertised room holds a whole packet (R410). -/
def bundleRoom (x : Bundle) (pkt : Packet) : Bool := bundleRoomPast x 0 pkt

/-- The Deep rows a packet is charged (R385). -/
def deepCharge (pkt : Packet) : Nat :=
  if (pkt.ptype = .wr ∨ pkt.ptype = .deepRd) ∧ 8 ≤ addrSpace pkt.addr.toNat then 1 else 0

/-- A queue's remaining counts cover a packet at an injection point (R385). -/
def covers (k : Core) (side : Nat) (x : InjPkt) : Bool :=
  let a := allotAt k x.src
  (x.src == 2 || x.src == 3) && (x.ch == 0 || x.ch == 2) &&
  decide (packetFlits x.pkt ≤ (if side = 0 then a.remV else a.remS)) && decide (deepCharge x.pkt ≤ a.remD)

/-- Deduct the counts of an allotted packet (R385). -/
def charge (k : Core) (side : Nat) (x : InjPkt) : Core :=
  let a := allotAt k x.src
  let n := packetFlits x.pkt
  let v := if side = 0 then a.remV - n else a.remV
  let u := if side = 0 then a.remS else a.remS - n
  let r := a.remD - deepCharge x.pkt
  setAllot k x.src { a with remV := v, remS := u, remD := r, spentV := a.spentV || (side == 0 && v == 0),
                            spentS := a.spentS || (side != 0 && u == 0),
                            spentD := a.spentD || (deepCharge x.pkt != 0 && r == 0) }

/-- The packets of an injection point: 0 the crossbar port, 1 the bundle. -/
def injOf (k : Core) (side : Nat) : List InjPkt := if side = 0 then k.mv.inj else k.mv.injS

/-- Replace them. -/
def setInj (k : Core) (side : Nat) (l : List InjPkt) : Core :=
  if side = 0 then { k with mv := { k.mv with inj := l } } else { k with mv := { k.mv with injS := l } }

/-- The order in which the sources of REQ packets take turns after the last one served (R387). -/
def rotation (last : Nat) : List Nat :=
  match last with
  | 2 => [3, 4, 5, 2]
  | 3 => [4, 5, 2, 3]
  | _ => [2, 3, 4, 5]

/-- The interface may inject a packet: it goes to no core of this die that the table shows unsettled (R283). -/
def mayInject (s : State) (x : InjPkt) : Bool :=
  !onVein s x.pkt || destSettled s (packetDest x.pkt).1 (packetDest x.pkt).2

/-- The heads of an injection point with their places: the packet begun of each channel, else the oldest of each channel that may be
injected, and for REQ the oldest of each queue. -/
def injHeads (s : State) (l : List InjPkt) : List (Nat × InjPkt) :=
  let begun (ch : Nat) : Option (Nat × InjPkt) := findIdx (fun x => x.ch == ch && decide (0 < x.sent)) l
  let oldest (ch : Nat) (f : InjPkt → Bool) : Option (Nat × InjPkt) :=
    findIdx (fun x => x.ch == ch && f x && mayInject s x) l
  ([1, 2, 3].filterMap fun ch => (begun ch).orElse fun _ => oldest ch fun _ => true) ++
  (match begun 0 with
   | some x => [x]
   | none => [2, 3, 4, 5].filterMap fun src => oldest 0 fun x => x.src == src)

/-- The REQ head that goes first (R387): the packet begun, then an allotted one, then a leftover one of age, then a
leftover one, by rotation. -/
def pickReq (k : Core) (side thresh : Nat) (hs : List (Nat × InjPkt)) : Option (Nat × InjPkt) :=
  let req := hs.filter fun x => x.2.ch == 0
  let by_ (last : Nat) (f : InjPkt → Bool) : Option (Nat × InjPkt) :=
    (rotation last).findSome? fun src => req.find? fun x => x.2.src == src && f x.2
  let last := if side = 0 then k.mv.rotV else k.mv.rotS
  ((req.find? fun x => decide (0 < x.2.sent)).orElse fun _ =>
    by_ (if side = 0 then k.mv.turnV else k.mv.turnS) (covers k side)).orElse fun _ =>
    (by_ last fun x => decide (thresh ≤ x.age)).orElse fun _ => by_ last fun _ => true

/-- The head an injection point sends a flit of (R387): RSP, SYNC, MGMT, REQ. First turn: DESIGN CHOICE (log 5). -/
def pickInj (k : Core) (side thresh : Nat) (hs : List (Nat × InjPkt)) : Option (Nat × InjPkt) :=
  let of (ch : Nat) : Option (Nat × InjPkt) := hs.find? fun x => x.2.ch == ch
  (((of 1).orElse fun _ => of 2).orElse fun _ => of 3).orElse fun _ => pickReq k side thresh hs

/-- The REQ packets, by their places, that may become heads of their queues while another is sent (R387, R392). -/
def reqWaiting (s : State) (l : List InjPkt) : List Nat :=
  [2, 3, 4, 5].filterMap fun src =>
    (findIdx (fun x => x.ch == 0 && x.sent == 0 && x.src == src && mayInject s x) l).map (·.1)

/-- Flits still to take room ahead of a waiting REQ head: those of a packet begun, all of it at the crossbar, whose buffer
counts a packet when it has entered. -/
def begunFlits (side : Nat) (l : List InjPkt) : Nat :=
  match l.find? fun x => x.ch == 0 && decide (0 < x.sent) with
  | none => 0
  | some x => packetFlits x.pkt - (if side = 0 then 0 else x.sent)

/-- A REQ packet begun is the last served of its rotation (R387). -/
def noteTurn (m : MoveEng) (side src : Nat) (allotted : Bool) : MoveEng :=
  if allotted then (if side = 0 then { m with turnV := src } else { m with turnS := src })
  else if side = 0 then { m with rotV := src } else { m with rotS := src }

/-- A packet reaches a node's input; its buffer's other packets stand before it (R389). -/
def enterNode (s : State) (node input : Nat) (pkt : Packet) : State :=
  { s with net := { s.net with pkts := s.net.pkts ++
      [{ pkt := pkt, node := node, input := input, ch := packetChannel pkt, sent := 0, age := 0, boosted := false,
         moved := fNow s (node % 32) }] } }

/-- The REQ heads of an injection point that are eligible and not granted grow older by the F-cycles that pass (R387, R392). -/
def ageHeads (s : State) (p side n : Nat) : State :=
  let k := coreAt s p
  let l := injOf k side
  if l.isEmpty then s
  else
    let wait := reqWaiting s l
    let more := begunFlits side l
    let room (y : InjPkt) : Bool :=
      if side = 0 then bufferRoomPast s (32 + p / 68) (p % 68) more y.pkt else bundleRoomPast (bunAt s p) more y.pkt
    let older (j : Nat) (y : InjPkt) : Bool := wait.contains j && decide (y.ready ≤ aNow s (p / 544)) && room y
    setCore s p (setInj k side (l.mapIdx fun j y => if older j y then { y with age := y.age + n } else y))

/-- What the receiver of a flit on the Vein finds (R280, R506): its corrected codewords are counted for the Gallery; `bad` says that
the whole packet is discarded, for its header or its sideband; `poison` that a data flit is marked. A packet is discarded, counted
and logged once, with the input it came by. -/
def veinFlit (s : State) (gal port : Nat) (header bad : Bool) (err : FlitErr) : State × Bool × Bool :=
  let lost := lostWord err.words
  let drop := err.parity || (header && lost)
  let s := if fixedWords err.words = 0 then s else
    updGal s gal fun g => { g with veinCorr := min 0xFFFF (g.veinCorr + fixedWords err.words) }
  if drop && !bad then
    (logGal (updGal s gal fun g => { g with veinDisc := min 0xFF (g.veinDisc + 1) }) 6 .done gal false [(1, port)], true, false)
  else (s, bad, !header && lost)

/-- The tail of a packet leaves an injection point: into the crossbar's buffer unless it is discarded there (R280), or down the bundle
flit for flit (R409). -/
def leaveInj (s : State) (p side : Nat) (x : InjPkt) : State :=
  if side ≠ 0 then { s with out := s.out ++ [.packet p x.pkt (flitsOf x.pkt)] }
  else if x.bad then s
  else enterNode s (32 + p / 68) (p % 68) x.pkt

/-- A row that is uncorrectable in its outbound buffer is not sent: it is counted and recorded, returns its credit and gives POISONED
(R270, R502). -/
def loseOutbound (s : State) (p side i : Nat) (x : InjPkt) : State :=
  let l := (unmapCore s p).getD (2048 + p)
  let s := updCore s p fun k => setInj (countBuf k x.errs) side (dropAt (injOf k side) i)
  failRow (logCore s 11 .poisoned l false [(1, 3), (2, addrByte x.pkt.addr.toNat / 512)]) p l x.pkt.tag x.pkt.row
    (aNow s (p / 544)) x.pkt.addr.toNat .poisoned

/-- A packet as it leaves its outbound buffer, the row corrected; one that is no move command's and cannot be corrected is marked
(R280, R502). -/
def fromBuffer (x : InjPkt) : InjPkt :=
  if x.errs.isEmpty then x
  else { x with errs := [], pkt := { x.pkt with data := fixRow x.pkt.data x.errs, poison := x.pkt.poison || badIn x.errs } }

/-- One flit of the packet at place i of an injection point is sent (R385, R387); `err` is what goes wrong with it on the way to the
crossbar (R280). -/
def sendInj (s : State) (p side i : Nat) (x : InjPkt) (err : FlitErr) : State :=
  let (s, bad, poison) :=
    if side = 0 then veinFlit s (p / 68) (128 + p % 68) (x.sent == 0) x.bad err else (s, false, false)
  let x := { x with bad := bad, pkt := { x.pkt with poison := x.pkt.poison || poison } }
  let now := fNow s (p / 68)
  let k := coreAt s p
  let first := x.sent = 0
  let own := covers k side x
  let k := if first && own then charge k side x else k
  let k := if first && x.ch == 0 then { k with mv := noteTurn k.mv side x.src own } else k
  let k := { k with stuck := k.stuck.filter (· ≠ side * 4 + x.ch) }
  let ready (b : Bundle) : Bundle := if side = 1 then
      { b with sentFlits := listPut b.sentFlits x.ch ((b.sentFlits.getD x.ch 0 + 1) % 2 ^ 16) } else b
  let s := updBun s p ready
  if packetFlits x.pkt ≤ x.sent + 1 then
    let l := (dropAt (injOf k side) i).map fun y => if y.ch = x.ch then { y with moved := now } else y
    leaveInj (setCore s p (setInj k side l)) p side x
  else setCore s p (setInj k side ((listPut (injOf k side) i { x with sent := x.sent + 1 }).map fun y =>
    if y.ch = x.ch then { y with moved := now } else y))

/-- The physical core a core operand of an injection point names: a logical core, or from 2,048 on a physical one. -/
def injCore (s : State) (core : Nat) : Option Nat := if core < 2048 then physOf s core else some (core - 2048)

/-- A flit slot of an injection point (R270, R387, R409, R410): the first ready flit is sent; a bundle with none ready sends a
LINK flit. -/
def execInjectFlit (core side : Nat) (s : State) (err : FlitErr := FlitErr.none) : Host.Outcome State Fault Refusal :=
  .next (
    match injCore s core with
    | none => s
    | some p =>
      let g := p / 68
      let k := coreAt s p
      let b := bunAt s p
      if side = 0 ∧ !(cavAt s (g / 8)).running then s
      else if side ≠ 0 ∧ b.state ≠ 2 then s
      else
        let side := if side = 0 then 0 else 1
        let now := aNow s (g / 8)
        let room (x : InjPkt) : Bool := decide (x.ready ≤ now) &&
          (decide (0 < x.sent) || (if side = 0 then bufferRoom s (32 + g) (p % 68) x.pkt else bundleRoom b x.pkt))
        let hs := (injHeads s (injOf k side)).filter fun x => room x.2
        let thresh := (galAt s g).ageThresh
        match pickInj k side thresh hs with
        | none => if side = 0 then s else { s with out := s.out ++ [.link p (linkFlit (linkStateCode s) b.freed)] }
        | some (i, x) =>
          if badIn x.errs && x.src == 3 && x.pkt.ptype == .wr then loseOutbound s p side i x
          else
            let s := match unmapCore s p with
              | some l => countAct s l (if side = 0 then 4 else 5) 1
              | none => s
            sendInj (if x.errs.isEmpty then s else updCore s p fun k => countBuf k x.errs) p side i (fromBuffer x) err)

/-- A receiving interface accepts a head (R393, R396): RSP and MGMT always, SYNC with a free response entry, REQ with a free inbound
entry of those that rows from elsewhere may take (R268, R382). -/
def ifaceAccepts (s : State) (p : Nat) (pkt : Packet) : Bool :=
  let k := coreAt s p
  let waiting (ch : Nat) : Nat :=
    (k.mv.delivered.filter fun x => packetChannel x == ch).length +
    (s.net.locks.filter fun x => x.node == 32 + p / 68 && x.output == p % 68 && x.ch == ch).length
  match packetChannel pkt with
  | 0 => decide ((k.mv.inb.filter fun e => !e.own).length + waiting 0 < 16)
  | 2 => decide (((k.mv.inj ++ k.mv.injS).filter fun x => x.src == 5 && x.pkt.ptype == .ack).length + waiting 2 < 32)
  | _ => true

/-- A head is eligible at its output (R390). -/
def eligible (s : State) (node output : Nat) (x : NetPkt) : Bool :=
  decide (0 < x.sent) ||
  (match nextHop node output with
   | some (n, i) => bufferRoom s n i x.pkt
   | none =>
     match physOf s (packetDest x.pkt).2 with
     | some p => ifaceAccepts s p x.pkt
     | none => true)

/-- The heads of a node's buffers: the first packet of each input and channel. -/
def nodeHeads : List NetPkt → List (Nat × Nat) → Nat → Nat → List (Nat × NetPkt)
  | [], _, _, _ => []
  | x :: t, seen, i, node =>
    if x.node = node ∧ !seen.contains (x.input, x.ch) then
      (i, x) :: nodeHeads t ((x.input, x.ch) :: seen) (i + 1) node
    else nodeHeads t seen (i + 1) node

/-- The key of an output's channel in the table of last grants. -/
def lastKey (node output ch : Nat) : Nat := (node * 128 + output) * 4 + ch

/-- The next head of a channel in rotation after the last input granted (R389). -/
def rotatePick (last : Nat) (hs : List (Nat × NetPkt)) : Option (Nat × NetPkt) :=
  let turn (x : Nat × NetPkt) : Nat := (x.2.input + 128 - last % 128) % 128
  hs.foldl (fun b x => match b with
    | none => some x
    | some y => if turn x < turn y then some x else some y) none

/-- The head a channel of an output may send: the packet that keeps the channel, else by rotation; `last` is one past the
last input granted. -/
def channelPick (s : State) (node output ch : Nat) (hs : List (Nat × NetPkt)) : Option (Nat × NetPkt) :=
  let of := hs.filter fun x => x.2.ch == ch
  match s.net.locks.find? fun k => k.node == node && k.output == output && k.ch == ch with
  | some k => of.find? fun x => x.2.input == k.input
  | none => rotatePick (Store.get 0 s.net.last (lastKey node output ch)) of

/-- A channel of an output is kept by a packet under way. -/
def channelKept (s : State) (node output ch : Nat) : Bool :=
  s.net.locks.any fun k => k.node == node && k.output == output && k.ch == ch

/-- The oldest boosted head, ties to the lower input and then the lower channel (R389). -/
def boostedPick (s : State) (node output : Nat) (hs : List (Nat × NetPkt)) : Option (Nat × NetPkt) :=
  let c := hs.filter fun x => x.2.boosted && x.2.ch != 1 && !channelKept s node output x.2.ch
  let key (x : Nat × NetPkt) : Nat := x.2.input * 4 + x.2.ch
  c.foldl (fun b x => match b with
    | none => some x
    | some y => if y.2.age < x.2.age ∨ (y.2.age = x.2.age ∧ key x < key y) then some x else some y) none

/-- The head an output sends a flit of (R389). -/
def pickOut (s : State) (node output : Nat) (hs : List (Nat × NetPkt)) : Option (Nat × NetPkt) :=
  let of (ch : Nat) : Option (Nat × NetPkt) := channelPick s node output ch hs
  ((((of 1).orElse fun _ => boostedPick s node output hs).orElse fun _ => of 2).orElse fun _ => of 3).orElse fun _ => of 0

/-- A packet's tail leaves an output: into the next buffer, or to the interface of the core that serves its id; a
request for an id without a physical core is answered MAPPED_OUT by the crossbar's ingress (R283). DEDUCED (log 40). -/
def leaveNode (s : State) (node output : Nat) (pkt : Packet) : State :=
  match nextHop node output with
  | some (n, i) => enterNode s n i pkt
  | none =>
    let l := (packetDest pkt).2
    match physOf s l with
    | some p => updCore s p fun k => { k with mv := { k.mv with delivered := k.mv.delivered ++ [pkt] } }
    | none => if packetChannel pkt = 0 ∨ packetChannel pkt = 2 then fromCrossbar s (galOf l) (ackOf s l pkt .mappedOut) else s

/-- A flit of a node's input leaves: its stall, if any, ends (R398). -/
def clearStuck (s : State) (node input ch : Nat) : State :=
  updGal s (node % 32) fun g =>
    if node < 32 then { g with stuckIn := setErase g.stuckIn (4 * input + ch) }
    else { g with xbarStuck := setErase g.xbarStuck (4 * input + ch) }

/-- The Gallery and the input at which the flits of an output arrive, as a record names it: a router's 0 to 4, a crossbar's 128 on, and
255 an interface. -/
def flitEnd (node output : Nat) : Nat × Nat :=
  match nextHop node output with
  | some (n, i) => (n % 32, if n < 32 then i else 128 + i)
  | none => (node % 32, 255)

/-- Grant one flit of the packet at place i to an output (R389, R392); `err` is what goes wrong with it on its link (R280). -/
def grantFlit (s : State) (node output i : Nat) (x : NetPkt) (err : FlitErr) : State :=
  let tgt := flitEnd node output
  let (s, bad, poison) := veinFlit s tgt.1 tgt.2 (x.sent == 0) x.bad err
  let x := { x with bad := bad, pkt := { x.pkt with poison := x.pkt.poison || poison } }
  let now := fNow s (node % 32)
  let first := x.sent = 0
  let s := if first && x.boosted then updGal s (node % 32) fun g => { g with boosts := min 0xFFFFFFFF (g.boosts + 1) } else s
  let s := clearStuck s node x.input x.ch
  let drop (ks : List NetLock) : List NetLock := ks.filter fun k => !(k.node == node && k.output == output && k.ch == x.ch)
  let last := Store.set 0 s.net.last (lastKey node output x.ch) (x.input + 1)
  if packetFlits x.pkt ≤ x.sent + 1 then
    let pkts := (dropAt s.net.pkts i).map fun y =>
      if y.node = node ∧ y.input = x.input ∧ y.ch = x.ch then { y with moved := now } else y
    let s := { s with net := { pkts := pkts, locks := drop s.net.locks, last := last } }
    if x.bad then s else leaveNode s node output x.pkt
  else
    { s with net := {
        pkts := listPut s.net.pkts i { x with sent := x.sent + 1, age := 0, boosted := false, moved := now },
        locks := drop s.net.locks ++ [{ node := node, output := output, ch := x.ch, input := x.input }],
        last := last } }

/-- One F-cycle of a router or crossbar output (R389 to R392): the head chosen sends a flit, and the other eligible
heads grow older. DEDUCED (log 39). -/
def execRouterArbitrate (node output : Nat) (s : State) (err : FlitErr := FlitErr.none) : Host.Outcome State Fault Refusal :=
  .next (
    let hs := (nodeHeads s.net.pkts [] 0 node).filter fun x => routeOut s node x.2.pkt == output && eligible s node output x.2
    match pickOut s node output hs with
    | none => s
    | some (i, x) =>
      let older (j : Nat) (y : NetPkt) : NetPkt :=
        if j ≠ i ∧ y.sent = 0 ∧ hs.any (fun h => h.1 == j) then { y with age := y.age + 1 } else y
      grantFlit { s with net := { s.net with pkts := s.net.pkts.mapIdx older } } node output i x err)

/-- The head of a node's input and channel. -/
def headAt (s : State) (node input ch : Nat) : Option (Nat × NetPkt) :=
  findIdx (fun (x : NetPkt) => x.node == node && x.input == input && x.ch == ch) s.net.pkts

/-- A head whose age has reached GAL_AGE.thresh is boosted (R392). -/
def execHeadBoost (node input channel : Nat) (s : State) : Host.Outcome State Fault Refusal :=
  .next (
    match headAt s node input channel with
    | none => s
    | some (i, x) =>
      if x.boosted || decide (0 < x.sent) || decide (x.age < (galAt s (node % 32)).ageThresh) then s
      else { s with net := { s.net with pkts := listPut s.net.pkts i { x with boosted := true } } })

/-- The entries of a stalled head in a record (R398): a router's inputs are 0 to 4, a crossbar's 128 on. -/
def stallBody (input ch : Nat) (pkt : Packet) : List (Nat × Nat) :=
  [(1, input), (1, ch), (1, ptypeCode pkt.ptype), (2, pkt.srcDie), (2, pkt.srcCore), (8, pkt.addr.toNat)]

/-- The watchdog of an injection point (R398, R419). -/
def stallInj (s : State) (core side ch : Nat) : State :=
  match injCore s core with
  | none => s
  | some p =>
    let k := coreAt s p
    match findIdx (fun (x : InjPkt) => x.ch == ch) (injOf k side) with
    | none => s
    | some (_, x) =>
      if k.stuck.contains (side * 4 + ch) || (side == 1 && (bunAt s p).state == 3) ||
          decide (fNow s (p / 68) < x.moved + 256 * (galAt s (p / 68)).wdogUnits) then s
      else
        let s := setCore s p { k with wdogSeen := true, stuck := setInsert k.stuck (side * 4 + ch) }
        match unmapCore s p with
        | some l => logCore s 6 .done l true (stallBody side ch x.pkt)
        | none => logGal s 6 .done (p / 68) true (stallBody side ch x.pkt)

/-- The watchdog of a router or crossbar input (R398). -/
def stallNode (s : State) (node input ch : Nat) : State :=
  match headAt s node input ch with
  | none => s
  | some (_, x) =>
    let g := node % 32
    let stuck := if node < 32 then (galAt s g).stuckIn else (galAt s g).xbarStuck
    if stuck.contains (4 * input + ch) || decide (fNow s g < x.moved + 256 * (galAt s g).wdogUnits) then s
    else
      let s := updGal s g fun y =>
        if node < 32 then { y with wdogSeen := true, stuckIn := setInsert y.stuckIn (4 * input + ch) }
        else { y with wdogSeen := true, xbarStuck := setInsert y.xbarStuck (4 * input + ch) }
      logGal s 6 .done g true (stallBody (if node < 32 then input else 128 + input) ch x.pkt)

/-- A no-progress watchdog reaches its limit (R398, R399); `node` 64 + 2 × core + side names an injection point, whose core
operand is that of INJECT_FLIT. -/
def execWatchdogStall (node input channel : Nat) (s : State) : Host.Outcome State Fault Refusal :=
  .next (if node < 64 then stallNode s node input channel else stallInj s ((node - 64) / 2) (node % 2) channel)

/-- CORE_SHARE_STATUS (R402). -/
def readShareStatus (k : Core) : Nat :=
  let a (q : Nat) : Allot := allotAt k q
  packN 1 [b2n (a 2).spentV, b2n (a 3).spentV, b2n (a 2).spentS, b2n (a 3).spentS, b2n (a 2).spentD, b2n (a 3).spentD, b2n (a 2).capHit,
           b2n (a 3).capHit, b2n k.wdogSeen, b2n (k.stuck.any (· % 4 == 0)), b2n (k.stuck.any (· % 4 == 1)), b2n (k.stuck.any (· % 4 == 2)),
           b2n (k.stuck.any (· % 4 == 3))]

/-- Write-one-to-clear bits of CORE_SHARE_STATUS (R402). -/
def writeShareStatus (s : State) (p v : Nat) : Status × State :=
  (.done, updCore s p fun k =>
    let k := if bitN v 6 then setAllot k 2 { allotAt k 2 with capHit := false } else k
    let k := if bitN v 7 then setAllot k 3 { allotAt k 3 with capHit := false } else k
    if bitN v 8 then { k with wdogSeen := false } else k)

/-- Registers of a queue's allotment (R400): 0 VEIN, 1 SUMP, 2 DEEP, 3 CAP. -/
def readAllot (k : Core) (q r : Nat) : Nat :=
  let a := allotAt k q
  match r with
  | 0 => a.vein
  | 1 => a.sump
  | 2 => a.deep
  | _ => a.cap

/-- An allotment register takes effect (R401). -/
def applyAllot (s : State) (p q r v : Nat) : State :=
  updCore s p fun k =>
    let a := allotAt k q
    setAllot k q (match r with
      | 0 => { a with vein := v }
      | 1 => { a with sump := v }
      | 2 => { a with deep := v }
      | _ => { a with cap := v })

/-- The Dawn reload of a core's allotments (R385). -/
def reloadAllots (k : Core) : Core :=
  [2, 3].foldl (fun k q =>
    let a := allotAt k q
    setAllot k q { a with
      remV := a.vein, remS := a.sump, remD := a.deep, issued := 0, spentV := false, spentS := false, spentD := false }) k

/-- GAL_WDOG_STATUS (R404). -/
def readWdogStatus (g : Gal) : Nat :=
  g.stuckIn.foldl (fun n b => n + 2 ^ b) 0 + 2 ^ 20 * b2n (!g.xbarStuck.isEmpty) + 2 ^ 21 * b2n g.wdogSeen

end Sys2Proof.Machine
end

