-- ==== Sys2Proof/Machine/Context.lean ====
section
/-!
DEFINITION. Context slots: their operations, queue records, images and registers (11_queues_and_contexts R356 to R380,
07_training_numerics R209 to R211).
-/

namespace Sys2Proof.Machine

/-- Fields of byte offset, byte width and value packed into a number. -/
def packAt (fs : List (Nat × Nat × Nat)) : Nat :=
  fs.foldl (fun n f => n + f.2.2 % 2 ^ (8 * f.2.1) * 2 ^ (8 * f.1)) 0

/-- `w` bytes of a row's data from byte `o`. -/
def rowBytes (r : Row) (o w : Nat) : Nat := fieldN r.data.toNat (8 * o) (8 * w)

/-- CORE_GRAD_SCALEn (R209). -/
def readGradScale (x : Ctx) : Nat := twos 8 x.gradScale + 2 ^ 8 * twos 8 x.gradMin + 2 ^ 16 * twos 8 x.gradMax

/-- CORE_VERDICTn (R210). -/
def readVerdict (x : Ctx) : Nat := x.growth + 2 ^ 16 * x.clean

/-- CORE_VERDICT_STATEn (R211). -/
def readVerdictState (x : Ctx) : Nat :=
  x.vstate + 8 * b2n x.stepNar + 16 * x.orp + 2 ^ 12 * b2n x.andp + 2 ^ 13 * b2n x.floorHit + 2 ^ 14 * b2n x.ceilHit

/-- CORE_SYNC_RELn (R339). -/
def readRel (x : Ctx) : Nat := x.rel.slot + 2 ^ 8 * x.rel.orp + 2 ^ 16 * b2n x.rel.andp + 2 ^ 17 * x.rel.how

/-- A write of CORE_GRAD_SCALEn (R209). -/
def writeGradScale (s : State) (p c v : Nat) : Status × State :=
  let g := untwos 8 (fieldN v 0 8)
  let lo := untwos 8 (fieldN v 8 8)
  let hi := untwos 8 (fieldN v 16 8)
  if fieldN v 0 8 = 0x80 ∨ fieldN v 8 8 = 0x80 ∨ fieldN v 16 8 = 0x80 ∨ g < lo ∨ hi < g then (.badValue, s)
  else if (ctxAt (coreAt s p) c).vstate = 1 then (.badState, s)
  else (.done, updCtx s p c fun x => { x with gradScale := g, gradMin := lo, gradMax := hi })

/-- A write of CORE_VERDICTn (R210). -/
def writeVerdict (s : State) (p c v : Nat) : Status × State :=
  if fieldN v 0 16 = 0 then (.badValue, s)
  else (.done, updCtx s p c fun x => { x with growth := fieldN v 0 16, clean := fieldN v 16 16 })

/-- A write of CORE_VERDICT_STATEn (R211). -/
def writeVerdictState (s : State) (p c v : Nat) : Status × State :=
  let st := fieldN v 0 3
  if st ≠ 0 ∧ st ≠ 2 then (.badValue, s)
  else if (ctxAt (coreAt s p) c).vstate = 1 then (.badState, s)
  else (.done, updCtx s p c fun x => { x with vstate := st, floorHit := x.floorHit && !bitN v 13,
                                               ceilHit := x.ceilHit && !bitN v 14 })

/-- CORE_CNT_CFG, CORE_CNT_PROD (R336). -/
def readCntCfg (x : Counter) : Nat :=
  b2n x.enable + 2 * b2n x.mono + 4 * x.owner + 16 * b2n x.partnerEn + 32 * x.partner + 2 ^ 11 * b2n x.abandoned
def readCntProd (x : Counter) : Nat := x.die + 2 ^ 16 * x.core + 2 ^ 27 * x.kind

/-- A counter with the fields of CFG, PROD and BOUND words (R336). -/
def cntWith (x : Counter) (cfg prod bound : Nat) : Counter :=
  { x with enable := bitN cfg 0, mono := bitN cfg 1, owner := fieldN cfg 2 2, partnerEn := bitN cfg 4,
           partner := fieldN cfg 5 6, die := fieldN prod 0 16, core := fieldN prod 16 11, kind := fieldN prod 27 2,
           bound := bound }

/-- Queues bound to a context slot. -/
def boundQueues (k : Core) (c : Nat) : List Nat :=
  (List.range 4).filter fun q => (queueAt k q).state != 0 && (queueAt k q).ctx == c

/-- CORE_CTX_STATEc (R379). -/
def readCtxState (k : Core) (c : Nat) : Nat :=
  (ctxAt k c).state + 4 * (boundQueues k c).foldl (fun n q => n + 2 ^ q) 0 + 64 * (ctxAt k c).tiles

/-- A write of CORE_CTX_STATEc (R379). -/
def writeCtxState (s : State) (p c v : Nat) : Status × State :=
  if (ctxAt (coreAt s p) c).state ≠ 0 then (.badState, s)
  else (.done, updCtx s p c fun x => { x with tiles := fieldN v 6 8 })

/-- A write of CORE_CTX_POOLc_r (R380). -/
def writeCtxPool (s : State) (p c r v : Nat) : Status × State :=
  let base := fieldN v 0 10
  let count := fieldN v 10 11
  if poolRows < base + count then (.badValue, s)
  else if (ctxAt (coreAt s p) c).state ≠ 0 then (.badState, s)
  else (.done, updCtx s p c fun x => { x with pools := listPut x.pools r (base, count) })

/-- CORE_CTX_OP (R377). -/
def readCtxOp (k : Core) : Nat := 2 ^ 16 * k.op.status + 2 ^ 24 * b2n k.op.busy

/-- The valid entries of a translation table as virtual id and physical flag: an entry is a 16-bit half of CORE_XLATc_k
(R340). -/
def xlatPairs (x : List (Nat × Nat)) : List (Nat × Nat) := (x.filter fun e => bitN e.2 15).map fun e => (e.1, e.2 % 256)

/-- The physical flags that a translation table's valid entries name. -/
def xlatFlags (x : Ctx) : List Nat := (xlatPairs x.xlat).map (·.2)

/-- Clear the flags a context's valid entries name (R359, R369). -/
def clearNamed (k : Core) (c : Nat) : Core :=
  let fs := xlatFlags (ctxAt k c)
  { k with sync := { k.sync with flags := k.sync.flags.filter fun f => !fs.contains f } }

/-- The tile masks or Pool ranges of a slot overlap those of another context in a slot that is not EMPTY (R358). -/
def ctxOverlaps (k : Core) (c tiles : Nat) (pools : List (Nat × Nat)) : Bool :=
  (List.range 4).any fun o =>
    let y := ctxAt k o
    o != c && y.state != 0 &&
    (decide (tiles &&& y.tiles ≠ 0) || pools.any fun a => y.pools.any fun b => overlaps a.1 a.2 b.1 b.2)

/-- The status of CORE_CTX_OP at an operation's end (R360). -/
def endCtxOp (k : Core) (st : Status) (slotState : Nat) : Core :=
  let o := k.op
  let k := { k with op := { o with status := st.code, busy := false, stage := 0, rows := [], left := [], fail := none } }
  setCtx k o.slot { ctxAt k o.slot with state := slotState }

/-- Record the status of an operation that ends as it is written. -/
def noteCtxOp (s : State) (p : Nat) (st : Status) : State :=
  updCore s p fun k => { k with op := { k.op with status := st.code } }

/-- An accepted operation that takes time (R360). -/
def startCtxOp (s : State) (p l v : Nat) : State :=
  updCore s p fun k =>
    let c := fieldN v 3 2
    let k := { k with op := { k.op with
      busy := true, op := fieldN v 0 3, slot := c, qmask := (List.range 4).filter fun q => bitN v (5 + q),
      settle := bitN v 9, since := cycleOf s l, limit := 256 * k.op.units, stage := 0, rows := [], left := [],
      fail := none, day := s.day.number } }
    setCtx k c { ctxAt k c with state := 2 }

/-- Counters a context owns (R310). -/
def ownsCnt (k : Core) (c n : Nat) : Bool :=
  let x := cntAt k n
  x.owner == c && x != Counter.init

/-- CREATE (R359): the counters that the slot owns take their reset values with the rest of R356's contents. -/
def ctxCreate (s : State) (p c : Nat) : Status × State :=
  let k := coreAt s p
  let x := ctxAt k c
  if ctxOverlaps k c x.tiles x.pools then (.badState, s)
  else
    let k := (List.range 64).foldl (fun k n => if ownsCnt k c n then setCnt k n Counter.init else k) (clearNamed k c)
    (.done, setCore s p (setCtx k c { Ctx.init with state := 1, tiles := x.tiles, pools := x.pools, xlat := x.xlat }))

/-- The record BIND takes for a queue: the context's, or the present register values (R361). -/
def bindRec (k : Core) (c q : Nat) : QRec :=
  let r := Store.get QRec.init (ctxAt k c).recs q
  let x := queueAt k q
  if r.present then r
  else { present := true, ring := ringAt k q, nextSlot := x.nextSlot, onFail := x.onFail, wait := none }

/-- The part writes the registers of ring q and on_fail of queue q (R9, R254, R361, R375). -/
def markQueue (s : State) (p q : Nat) : State :=
  [0x400 + 16 * q, 0x404 + 16 * q, 0x408 + 16 * q, 0x40C + 16 * q, 0x100 + 4 * q].foldl (fun s off => markHw s p off) s

/-- Bind one queue (R361): the ring enabled under R256 from the record, decoding from the record's next slot. -/
def bindQueue (s : State) (p l c q : Nat) : Status × State :=
  let k := coreAt s p
  let rec_ := bindRec k c q
  let r := { rec_.ring with enable := true }
  let st := ringEnableCheck s k l q r
  if st ≠ .done then (st, s)
  else
      let s := markQueue s p q
      let s := updCtx s p c fun x => { x with recs := Store.set QRec.init x.recs q { rec_ with wait := none } }
      let s := updQueue s p q fun x => { Queue.init with
        state := 1, ctx := c, onFail := rec_.onFail, nextSlot := rec_.nextSlot, resumed := rec_.wait, ready := cycleOf s l,
        failSlot := x.failSlot, failStatus := x.failStatus, failKind := x.failKind, failValid := x.failValid }
      (.done, enableRing s p l q r)

/-- BIND: all or nothing over qmask; a ring already enabled comes first (R361). -/
def ctxBind (s : State) (p l c : Nat) (qs : List Nat) : Status × State :=
  if qs.any fun q => (ringAt (coreAt s p) q).enable then (.badState, s)
  else
  let go := qs.foldl (fun (r : Status × State) q => if r.1 = .done then bindQueue r.2 p l c q else r) (.done, s)
  if go.1 = .done then go else (go.1, s)

/-- The queue's gang pass waits at its Gallery's rendezvous (R362). -/
def gangWaits (s : State) (l : Nat) : Bool := (galAt s (galOf l)).rendezvous.any fun a => a.1 == l % 64

/-- A queue stops decoding: a command decoded but not issued goes back to the head (R362). -/
def parkQueue (s : State) (p l q : Nat) : State :=
  let k := coreAt s p
  let x := queueAt k q
  let keep := q == 0 && gangWaits s l
  let drop (t : Track) : Bool :=
    (match x.head with
     | some d => !keep && d.track == t.id
     | none => false) ||
    (match x.fence with
     | some f => f.track == t.id
     | none => false)
  setCore s p { setQueue k q { x with state := 3, wasStopped := x.state == 2, fence := none,
                                      head := if keep then x.head else none } with
    track := k.track.filter fun t => !drop t }

/-- UNBIND is accepted (R362). -/
def ctxUnbind (s : State) (p l v : Nat) : Status × State :=
  let s := startCtxOp s p l v
  (.done, (coreAt s p).op.qmask.foldl (fun s q => parkQueue s p l q) s)

/-- Reset state of a context's Flowstone tiles (R132). -/
def resetTiles (k : Core) (mask : Nat) : Core :=
  (List.range 8).foldl (fun k t => if bitN mask t then setDesc k t Desc.init else k) k

/-- DESTROY (R369). DEDUCED (log 41). -/
def ctxDestroy (s : State) (p c : Nat) : Status × State :=
  let k := coreAt s p
  let x := ctxAt k c
  let k := resetTiles (clearNamed k c) x.tiles
  let k := (List.range 64).foldl (fun k n =>
    if ownsCnt k c n then setCnt k n { cntAt k n with enable := false } else k) k
  let k := if k.tile.owner = c + 1 then { k with tile := { k.tile with owner := 0, weights := none } } else k
  (.done, setCore s p (setCtx k c { Ctx.init with tiles := x.tiles, pools := x.pools }))

/-- A logical core becomes settled (R368, R374). -/
def settleCore (s : State) (l : Nat) : State :=
  updGal s (galOf l) fun g => { g with unsettled := setErase g.unsettled (l % 64) }

/-- Rows of an image: 8 + 16 for each masked tile + the rows of the Pool ranges (R365). -/
def imageRows (tiles : Nat) (pools : List (Nat × Nat)) : Nat :=
  8 + 16 * ((List.range 8).filter (bitN tiles)).length + pools.foldl (fun n r => n + r.2) 0

/-- The Pool rows of a context's ranges, in image order (R365). -/
def poolRowsOf (pools : List (Nat × Nat)) : List Nat := pools.flatMap fun r => rowsFrom r.1 r.2

/-- Remaining timeout of a record in units of 256 A-cycles, 0 for no waiting command (R366). -/
def waitUnits (w : Option QWait) : Nat :=
  match w with
  | none => 0
  | some x => max 1 ((x.remain + 255) / 256)

/-- The fields of a queue record in the header (R366). -/
def qrecFields (q : Nat) (r : QRec) : List (Nat × Nat × Nat) :=
  let o := 144 + 64 * q
  if !r.present then []
  else
    [(o, 4, readRingCfg r.ring), (o + 4, 4, readRingProd r.ring), (o + 8, 4, r.ring.head), (o + 12, 4, r.ring.tail),
     (o + 16, 1, r.nextSlot), (o + 17, 1, 1), (o + 18, 1, b2n r.onFail),
     (o + 19, 1, match r.wait with | some w => b2n w.arrived | none => 0), (o + 20, 4, waitUnits r.wait)]

/-- The header row of an image (R366). -/
def imageHeader (s : State) (p l c : Nat) : Row :=
  let k := coreAt s p
  let x := ctxAt k c
  let bits (xs : List Nat) : Nat := xs.foldl (fun n b => n + 2 ^ b) 0
  let setEntries := ((xlatPairs x.xlat).filter fun e => flagSet k e.2).map (·.1)
  let shadow := match x.shadow with
    | some w => w.fmt + 4
    | none => 0
  mkRow (packAt (
    [(0, 4, 0x4A594358), (4, 1, 1), (5, 1, 1), (6, 1, x.tiles), (7, 1, shadow), (8, 2, imageRows x.tiles x.pools), (10, 2, l),
     (32, 8, k.op.day), (40, 4, readGradScale x), (44, 4, readVerdict x), (48, 4, readVerdictState x), (52, 4, readRel x),
     (96, 16, bits x.parity), (112, 32, bits setEntries), (400, 16, bits x.arrived)] ++
    (x.pools.mapIdx fun i r => (16 + 4 * i, 4, r.1 + 2 ^ 16 * r.2)) ++
    ((List.range 8).map fun i =>
      let y := Store.get Scalar.zero x.sc i
      (56 + 5 * i, 5, y.v.toNat + 2 ^ 32 * y.e.toNat)) ++
    ((List.range 4).flatMap fun q => qrecFields q (Store.get QRec.init x.recs q)))) 0

/-- Image rows 0 to 7 (R365). -/
def imageFront (s : State) (p l c : Nat) : List Row :=
  let k := coreAt s p
  let x := ctxAt k c
  let xlat := mkRow (packAt (x.xlat.map fun e => (2 * e.1, 2, e.2))) 0
  let shadow := match x.shadow with
    | some w => [w.r0, w.r1]
    | none => [Row.zero, Row.zero]
  let cnts := (List.range 4).map fun i => mkRow (packAt ((List.range 16).flatMap fun j =>
    let n := 16 * i + j
    let y := cntAt k n
    if ownsCnt k c n then [(32 * j, 8, y.value.toNat), (32 * j + 8, 4, readCntCfg y), (32 * j + 12, 4, readCntProd y),
                           (32 * j + 16, 4, y.bound)] else [])) 0
  [imageHeader s p l c, xlat] ++ shadow ++ cnts

/-- A Deep address of an image: spaces 0x8 to 0xF, row aligned (R364). -/
def imageAddrOk (a : Nat) : Bool := decide (8 ≤ addrSpace a) && a % 512 == 0

/-- The ring region of every present queue record lies in the Pool ranges (R364). -/
def recordsCovered (x : Ctx) : Bool :=
  x.recs.all fun e => !e.2.present ||
    (rowsFrom e.2.ring.base e.2.ring.size).all fun r => x.pools.any fun g => decide (g.1 ≤ r ∧ r < g.1 + g.2)

/-- Put an image row at the core's bundle, to be sent from an A-cycle on, charged to context operations (R387). -/
def sendImage (s : State) (p ready : Nat) (pkt : Packet) : State :=
  updCore s p fun k => { k with mv := { k.mv with injS := k.mv.injS ++
    [{ pkt := pkt, ch := packetChannel pkt, src := 4, sent := 0, age := 0, moved := fNow s (p / 68), ready := ready }] } }

/-- A row of the image goes down the core's own bundle, or completes with DEST_DOWN where it is not sent
(R364, R367, R423, R519). -/
def sendImageRow (s : State) (p l i ready : Nat) (t : PType) (x : Row) : State :=
  let k := coreAt s p
  if rowUnsent s p (k.op.img + 512 * i) then setCore s p (ctxAnswer k i none .destDown)
  else sendImage s p ready { Packet.empty with
    addr := BitVec.ofNat 64 (k.op.img + 512 * i), srcDie := s.boot.dieId, srcCore := l, ptype := t, tag := i / 16, row := i % 16,
    data := x }

/-- A SAVE may read its rows: the context's move commands are complete, its verdict is not PENDING, its arrivals have ended,
and its tiles are free (R207, R331, R364). -/
def saveReady (s : State) (p l : Nat) : Bool :=
  let k := coreAt s p
  let c := k.op.slot
  let x := ctxAt k c
  !(k.mv.runs.any fun r => r.ctx == c) && x.vstate != 1 && x.parts.all (·.out) &&
  (maskTiles x.tiles).all fun t => tileFree k (cycleOf s l) t

/-- The first cycle from c on in which the outbound half has no row left to read (R269, R270). -/
def readsFrom (k : Core) (c : Nat) : Nat :=
  match k.mv.lastRead with
  | some r => max c (r + 1)
  | none => c

/-- Read the tiles of a context whole, one after the other, through the drain port (R128, R157, R364): the rows, each with the cycle from
which it may leave; every tile is held until its last read. The queue slot of a fault's record is 0. DESIGN CHOICE (log 65). -/
def readImageTiles (s : State) (p l : Nat) (ts : List Nat) : List (Row × Nat) × State :=
  let k := coreAt s p
  let c := readsFrom k (cycleOf s l)
  let at_ (n : Nat) : Nat := drainPortEnd k.outp.drains 4096 c (n + 1)
  let id := k.nextTrack
  let k := (ts.mapIdx fun j t => (j, t)).foldl (fun k x => holdTile k c x.2 (at_ (16 * x.1 + 15))) { k with nextTrack := id + 1 }
  let k := { k with mv := { k.mv with
    tileRd := if ts.isEmpty then k.mv.tileRd
              else some { issue := c, count := 16 * ts.length, tiles := ts, save := true, tag := 0, track := id },
    lastRead := if ts.isEmpty then k.mv.lastRead else some (at_ (16 * ts.length - 1)) } }
  (ts.mapIdx fun j t => (j, t)).foldl (fun (r : List (Row × Nat) × State) x =>
    let (rows, _, s) := readTileRows r.2 p l 0 id x.2 (32 * x.2) 32 true fun u => at_ (16 * x.1 + u / 2)
    (r.1 ++ rows.mapIdx fun q y => (y, at_ (16 * x.1 + q) + 1), s)) ([], setCore s p k)

/-- Read the rows of a context after the front: its tiles, and its Pool ranges at phases 3 mod 4; a failed Pool read gives its
status (R364, R365). -/
def readImageRest (s : State) (p l c : Nat) : List (Row × Nat) × Option Status × State :=
  let x := ctxAt (coreAt s p) c
  let (tiles, s) := readImageTiles s p l (maskTiles x.tiles)
  let e := nextPhase (cycleOf s l) 3 4
  let fs : List Fore := (poolRowsOf x.pools).mapIdx fun i r => { row := r, cycle := e + 4 * i, write := false }
  let (rs, s) := readRows s p l 4 saveSlot [] fs
  let bad := rs.filterMap (·.2)
  (tiles ++ (rs.zip fs).map fun y => (y.1.1, y.2.cycle + bankLatency (bankOf y.2.row) + 1),
   if bad.contains 3 then some .poisoned else if bad.isEmpty then none else some .conflict, s)

/-- The rows of a SAVE are read and sent, once it may (R364); a read that failed ends it. -/
def saveSend (s : State) (p l : Nat) : State :=
  if !saveReady s p l then s
  else
    let s := catchUp s p (cycleOf s l)
    let c := (coreAt s p).op.slot
    let front := imageFront s p l c
    let old := s
    let (rest, bad, s) := readImageRest s p l c
    let s := mendMeets old s p l
    match bad with
    | some st => updCore s p fun k => endCtxOp k st 1
    | none =>
      let rows := front.map (fun r => (r, cycleOf s l + 1)) ++ rest
      let s := updCore s p fun k => { k with op := { k.op with stage := 1, left := List.range rows.length } }
      (rows.mapIdx fun i r => (i, r)).foldl (fun s x => sendImageRow s p l x.1 x.2.2 .wr x.2.1) s

/-- SAVE (R364). -/
def ctxSave (s : State) (p l v : Nat) : Status × State :=
  let k := coreAt s p
  if !imageAddrOk k.op.img then (.badValue, s)
  else if !recordsCovered (ctxAt k (fieldN v 3 2)) then (.badState, s)
  else (.done, saveSend (startCtxOp s p l v) p l)

/-- RESTORE: rows 0 to 7 are requested first (R367). -/
def ctxRestore (s : State) (p l v : Nat) : Status × State :=
  let k := coreAt s p
  if !imageAddrOk k.op.img then (.badValue, s)
  else
    let s := startCtxOp s p l v
    let s := updCore s p fun k => { k with op := { k.op with left := List.range 8 } }
    (.done, (List.range 8).foldl (fun s i => sendImageRow s p l i 0 .deepRd Row.zero) s)

/-- Checks 1 to 3 of R360. -/
def ctxOpCheck (s : State) (p l v : Nat) : Status :=
  let op := fieldN v 0 3
  let c := fieldN v 3 2
  let qmask := fieldN v 5 4
  let k := coreAt s p
  let qs := (List.range 4).filter (bitN qmask)
  let x := ctxAt k c
  let isQ := op = 2 ∨ op = 3
  if op = 0 ∨ (isQ ∧ qmask = 0) ∨ (¬isQ ∧ qmask ≠ 0) ∨ (bitN v 9 ∧ op ≠ 5) then .badValue
  else if k.op.busy then .busy
  else if x.state ≠ (if op = 1 ∨ op = 5 then 0 else 1) then .badState
  else if op = 2 ∧ qs.any (fun q => (queueAt k q).state != 0) then .badState
  else if op = 3 ∧ !qs.all (fun q => (queueAt k q).state != 0 && (queueAt k q).ctx == c) then .badState
  else if (op = 4 ∨ op = 6) ∧ !(boundQueues k c).isEmpty then .badState
  else if op = 7 ∧ !isUnsettled s l then .badState
  else .done

/-- A write of CORE_CTX_OP (R359, R360): the status field records a rejection too. -/
def writeCtxOp (s : State) (p l v : Nat) : Status × State :=
  let op := fieldN v 0 3
  let c := fieldN v 3 2
  let st := ctxOpCheck s p l v
  if st ≠ .done then (st, noteCtxOp s p st)
  else
    let (st, s) :=
      match op with
      | 1 => ctxCreate s p c
      | 2 => ctxBind s p l c ((List.range 4).filter fun q => bitN v (5 + q))
      | 3 => ctxUnbind s p l v
      | 4 => ctxSave s p l v
      | 5 => ctxRestore s p l v
      | 6 => ctxDestroy s p c
      | _ => (Status.done, settleCore s l)
    (st, if st = .done ∧ 3 ≤ op ∧ op ≤ 5 then s else noteCtxOp s p st)

/-- A parking queue has reached its boundary at cycle c (R362). -/
def parkReady (s : State) (l c q : Nat) (k : Core) : Bool :=
  let x := queueAt k q
  x.state == 3 && (ctxAt k x.ctx).vstate != 1 &&
  (match q with
   | 0 =>
     (k.tile.lastWrite == 0 || decide (k.tile.lastWrite < c)) && !gangWaits s l &&
     (match k.outp.pend with
      | some d => d.ctx != x.ctx
      | none => true) &&
     (match k.outp.run with
      | some r => decide (r.ends < c)
      | none => true)
   | 1 =>
     match k.vec.runEnd with
     | some e => decide (e < c)
     | none => true
   | 2 => !k.mv.runs.any fun r => r.q == 2
   | _ => k.mv.runs.all fun r => r.q != 3 || decide (r.released ≤ c))

/-- A queue parks: its ring registers and wait are copied into the record, with the timeout of the arrival that a sleeping ARRIVE has
made, and its ring is disabled; the last one ends the UNBIND (R362). -/
def parkNow (s : State) (p l c q : Nat) : State :=
  let k := coreAt s p
  let x := queueAt k q
  let wait := match x.sleep with
    | some w => some { remain := w.deadline - c, arrived := w.arrived && w.cmd.sop == 6 }
    | none => x.resumed
  let r : QRec := { present := true, ring := ringAt k q, nextSlot := x.nextSlot, onFail := x.onFail, wait := wait }
  let gone (t : Track) : Bool :=
    match x.sleep with
    | some w => w.track == t.id
    | none => false
  let s := setCore s p { k with track := k.track.filter fun t => !gone t }
  let froze (a : Part) : Bool :=
    match x.sleep with
    | some w => w.arrived && w.cmd.sop == 6 && a.slot == w.cmd.slot && !a.out
    | none => false
  let s := updCtx s p x.ctx fun y => { y with
    recs := Store.set QRec.init y.recs q r, parts := y.parts.map fun a => if froze a then { a with frozen := true } else a }
  let s := disableRing (markHw s p (0x400 + 16 * q)) p l q
  let s := updQueue s p q fun x => { Queue.init with
    ctx := x.ctx, nextSlot := x.nextSlot, onFail := x.onFail, failSlot := x.failSlot, failStatus := x.failStatus, failKind := x.failKind, failValid := x.failValid }
  updCore s p fun k =>
    if k.op.busy && k.op.op == 3 && k.op.qmask.all fun q => (queueAt k q).state != 3 then endCtxOp k .done 1 else k

/-- QUEUE_PARK: R362. -/
def execQueuePark (core q : Nat) (s : State) : Host.Outcome State Fault Refusal :=
  .next (withLive s core fun p =>
    let c := cycleOf s core
    if parkReady s core c q (coreAt s p) then
      let s := settleSync s p core c
      if (queueAt (coreAt s p) q).state = 3 then parkNow s p core c q else s
    else s)

/-- A SAVE waiting to start sends its rows; one whose rows have all been answered reports DONE, or the first other status
(R364). -/
def execSaveComplete (core : Nat) (s : State) : Host.Outcome State Fault Refusal :=
  .next (withLive s core fun p =>
    let k := coreAt s p
    if !(k.op.busy && k.op.op == 4) then s
    else if k.op.stage = 0 then saveSend s p core
    else if !k.op.left.isEmpty then s
    else setCore s p (endCtxOp k (match k.op.fail with | some f => statusOf f | none => .done) 1))

/-- The bytes of a header that are not listed are zero (R366, R367). -/
def headerZero (h : Row) : Bool :=
  h.side == 0 && rowBytes h 12 4 == 0 && rowBytes h 416 96 == 0 &&
  (List.range 4).all fun q =>
    decide (rowBytes h (144 + 64 * q + 19) 1 < 2) && rowBytes h (144 + 64 * q + 24) 40 == 0

/-- Check 1 of R367 over rows 0 to 7. -/
def imageFormOk (f : Nat → Row) : Bool :=
  let h := f 0
  let tiles := rowBytes h 6 1
  let pools := (List.range 4).map fun i => (rowBytes h (16 + 4 * i) 2, rowBytes h (18 + 4 * i) 2)
  rowBytes h 0 4 == 0x4A594358 && rowBytes h 5 1 == 1 && headerZero h && (f 1).side == 0 &&
  ((List.range 256).all fun v => rowBytes (f 1) (2 * v) 2 / 256 % 128 == 0) &&
  (bitN (rowBytes h 7 1) 2 || (f 2 == Row.zero && f 3 == Row.zero)) &&
  ([4, 5, 6, 7].all fun i => (f i).side == 0 && (List.range 16).all fun j => rowBytes (f i) (32 * j + 20) 12 == 0) &&
  rowBytes h 8 2 == imageRows tiles pools

/-- The translation table of an image (R365). -/
def imageXlat (x : Row) : Store Nat :=
  (List.range 256).filterMap fun v =>
    let e := rowBytes x (2 * v) 2
    if e = 0 then none else some (v, e)

/-- The counter n of an image for context slot c: none when its image is zero (R365). -/
def imageCnt (f : Nat → Row) (c n : Nat) : Option Counter :=
  let r := f (4 + n / 16)
  let o := 32 * (n % 16)
  if rowBytes r o 20 = 0 then none
  else
    let x := cntWith Counter.init (rowBytes r (o + 8) 4) (rowBytes r (o + 12) 4) (rowBytes r (o + 16) 4)
    some { x with value := BitVec.ofNat 64 (rowBytes r o 8), owner := c, abandoned := bitN (rowBytes r (o + 8) 4) 11 }

/-- The tile mask and Pool ranges of an image header (R366). -/
def imageMask (h : Row) : Nat := rowBytes h 6 1
def imagePools (h : Row) : List (Nat × Nat) :=
  (List.range 4).map fun i => (rowBytes h (16 + 4 * i) 2, rowBytes h (18 + 4 * i) 2)

/-- The checks of R367 on image rows 0 to 7. A valid entry that names the flag of another of the image, or of a table written into an EMPTY
slot, fails with check 5 (R295). DEDUCED (log 41). -/
def imageCheck (k : Core) (c : Nat) (f : Nat → Row) : Status :=
  let h := f 0
  let others := (List.range 4).filter fun o => o != c && (ctxAt k o).state != 0
  let names := (xlatPairs (imageXlat (f 1))).map (·.2)
  if !imageFormOk f then .badValue
  else if rowBytes h 4 1 ≠ 1 then .badState
  else if (imagePools h).any fun r => decide (poolRows < r.1 + r.2) then .badValue
  else if ctxOverlaps k c (imageMask h) (imagePools h) then .badState
  else if !names.Nodup || (List.range 4).any (fun o => o != c && (xlatFlags (ctxAt k o)).any names.contains) then .badValue
  else if (List.range 64).any (fun n => (imageCnt f c n).isSome && others.any fun o => ownsCnt k o n) then .badState
  else .done

/-- Rows 0 to 7 have arrived: they are checked, and the other rows are requested (R367). -/
def execRestoreHeaderCheck (core : Nat) (s : State) : Host.Outcome State Fault Refusal :=
  .next (withLive s core fun p =>
    let k := coreAt s p
    if !(k.op.busy && k.op.op == 5 && k.op.stage == 0 && k.op.left.isEmpty) then s
    else
      match k.op.fail with
      | some st => setCore s p (endCtxOp k (statusOf st) 0)
      | none =>
        let f (i : Nat) : Row := Store.get Row.zero k.op.rows i
        let st := imageCheck k k.op.slot f
        if st ≠ .done then setCore s p (endCtxOp k st 0)
        else
          let n := rowBytes (f 0) 8 2
          let rest := (List.range n).drop 8
          let s := setCore s p { k with op := { k.op with stage := 1, left := rest } }
          rest.foldl (fun s i => sendImageRow s p core i 0 .deepRd Row.zero) s)

/-- The rows of a RESTORE that wait uncommitted in the inbound buffer in cycle c leave it. -/
def dropRestoreIn (k : Core) (c : Nat) : Core :=
  (k.mv.inb.filter fun e => e.own && e.q == 4).foldl (fun k e =>
    let k := endInMark k e c
    { k with mv := { k.mv with inb := k.mv.inb.erase e } }) k

/-- A RESTORE fails in cycle c: after its header check the masked tiles are left POISONED, and Pool rows already committed keep their
new contents (R367). -/
def failRestore (k : Core) (c : Nat) (st : Status) : Core :=
  let k := if k.op.stage = 0 then k else
    (maskTiles (imageMask (Store.get Row.zero k.op.rows 0))).foldl (fun k t =>
      setDesc k t (changeNow (descAt k t) fun m => { m with poisoned := true, nar := true, cause := 7, by_ := 0 })) k
  endCtxOp (dropRestoreIn k c) st 0

/-- The rows of one tile of an image. -/
def imageTile (k : Core) (i : Nat) : List Row :=
  (List.range 16).map fun q => Store.get Row.zero k.op.rows (8 + 16 * i + q)

/-- A queue record of an image header (R366). -/
def imageQRec (h : Row) (q : Nat) : QRec :=
  let o := 144 + 64 * q
  let cfg := rowBytes h o 4
  let prod := rowBytes h (o + 4) 4
  let units := rowBytes h (o + 20) 4
  let ring := { ringFromCfg (Ring.init q) cfg with
    die := fieldN prod 0 16, core := fieldN prod 16 11, kind := fieldN prod 27 2, head := rowBytes h (o + 8) 4,
    tail := rowBytes h (o + 12) 4 }
  if rowBytes h (o + 17) 1 = 0 then QRec.init
  else { present := true, ring := ring, nextSlot := rowBytes h (o + 16) 1 % 16, onFail := rowBytes h (o + 18) 1 != 0,
         wait := if units = 0 then none else some { remain := 256 * units, arrived := bitN (rowBytes h (o + 19) 1) 0 } }

/-- The bits set in a field of a row. -/
def bitsAt (r : Row) (o w : Nat) : List Nat := (List.range (8 * w)).filter (bitN (rowBytes r o w))

/-- The context an image holds (R365, R366, R368). -/
def imageCtx (f : Nat → Row) : Ctx :=
  let h := f 0
  let g := rowBytes h 40 4
  let vd := rowBytes h 44 4
  let vs := rowBytes h 48 4
  let rl := rowBytes h 52 4
  let sc := (List.range 8).foldl (fun m i => Store.set Scalar.zero m i
    { v := BitVec.ofNat 32 (rowBytes h (56 + 5 * i) 4), e := BitVec.ofNat 8 (rowBytes h (60 + 5 * i) 1) }) []
  let rel : Rel := { slot := fieldN rl 0 7, orp := fieldN rl 8 8, andp := bitN rl 16, how := fieldN rl 17 2 }
  { Ctx.init with
    state := 1, tiles := imageMask h, pools := imagePools h, xlat := imageXlat (f 1), sc := sc,
    shadow := if bitN (rowBytes h 7 1) 2 then some { fmt := rowBytes h 7 1 % 4, r0 := f 2, r1 := f 3 } else none,
    gradScale := untwos 8 (fieldN g 0 8), gradMin := untwos 8 (fieldN g 8 8), gradMax := untwos 8 (fieldN g 16 8),
    growth := fieldN vd 0 16, clean := fieldN vd 16 16, vstate := fieldN vs 0 3, stepNar := bitN vs 3, orp := fieldN vs 4 8,
    andp := bitN vs 12, floorHit := bitN vs 13, ceilHit := bitN vs 14, rel := rel, parity := bitsAt h 96 16,
    arrived := bitsAt h 400 16, outcomes := if rel.how = 0 then [] else [(rel.slot, rel.how)],
    recs := (List.range 4).foldl (fun m q => Store.set QRec.init m q (imageQRec h q)) [] }

/-- Put a restored context into its slot: flags and counters as saved (R368). -/
def placeCtx (k : Core) (c : Nat) (f : Nat → Row) : Core :=
  let x := imageCtx f
  let on := bitsAt (f 0) 112 32
  let flags := (xlatPairs x.xlat).foldl (fun fs e =>
    if on.contains e.1 then setInsert fs e.2 else setErase fs e.2) k.sync.flags
  let k := { k with sync := { k.sync with flags := flags } }
  let k := (List.range 64).foldl (fun k n =>
    match imageCnt f c n with
    | some y => setCnt k n y
    | none => k) k
  setCtx k c x

/-- All image rows have arrived and the Pool rows are committed: the tiles are written, and the slot is RESIDENT as saved; a failure
leaves it EMPTY (R158, R367, R368). -/
def execRestoreComplete (core : Nat) (s : State) : Host.Outcome State Fault Refusal :=
  .next (withLive s core fun p =>
    let k := coreAt s p
    if !(k.op.busy && k.op.op == 5 && k.op.stage == 1 && k.op.left.isEmpty) then s
    else
      let f (i : Nat) : Row := Store.get Row.zero k.op.rows i
      let ts := maskTiles (imageMask (f 0))
      let now := cycleOf s core
      match k.op.fail with
      | some st => setCore s p (failRestore k now (statusOf st))
      | none =>
        if !(ts.all fun t => trowsOpen k now (32 * t)) then s
        else if !(ts.mapIdx fun i _ => imageTile k i).all imageOk then setCore s p (failRestore k now .badValue)
        else
          let k := (ts.mapIdx fun i t => (t, imageTile k i)).foldl (fun k x => commitImage k x.1 x.2) k
          let c := k.op.slot
          let settle := k.op.settle
          let k := placeCtx (endCtxOp k .done 1) c f
          let s := useFill (setCore s p k) p now (32 * ts.length)
          let s := [0x2A0 + 8 * c, 0x2A4 + 8 * c, 0x2C0 + 4 * c].foldl (fun s off => markHw s p off) s
          if settle then settleCore s core else s)

/-- An operation still unfinished after its limit ends with TIMEOUT and a record: queues not parked go on decoding (R360, R362, R397). The
record's class and its empty body are a DESIGN CHOICE (log 67). -/
def execContextOpTimeout (core : Nat) (s : State) : Host.Outcome State Fault Refusal :=
  .next (withLive s core fun p =>
    let k := coreAt s p
    if !k.op.busy || decide (cycleOf s core ≤ k.op.since + k.op.limit) then s
    else
    let s := logCore s 4 .timeout core false []
    if k.op.op = 5 then setCore s p (failRestore k (cycleOf s core) .timeout)
    else
      let s := k.op.qmask.foldl (fun s q => stopBadRow (updQueue s p q fun x =>
        if x.state = 3 then { x with state := if x.wasStopped then 2 else 1, wasStopped := false } else x) p core q) s
      updCore s p fun k => endCtxOp k .timeout 1)

end Sys2Proof.Machine
end

