-- ==== Sys2Proof/Machine/Power.lean ====
section
/-!
DEFINITION. Clocks, operating points, power windows, droop and temperature (14_clocks_and_power), and the passing of one
M-cycle.
-/

namespace Sys2Proof.Machine

/-- The Galleries of a Cavern. -/
def galsOf (cav : Nat) : List Nat := (List.range 8).map fun i => 8 * cav + i

/-- A value within limits. -/
def clampN (x lo hi : Nat) : Nat := min (max x lo) hi

/-- The target of a Cavern with run 0 becomes the preferred point of phase 0 within [min_op, max_op] (R439). -/
def idleTarget (s : State) (cav : Nat) : State :=
  let s := updCav s cav fun c =>
    if c.opHold then c else { c with opTarget := clampN (s.pwr.phaseOp.getD 0 7) c.minOp c.maxOp }
  startRise s cav

/-- The Dawn computation of a Cavern's target (R438); a fall or rise starts unless a sequence is in progress (R437). -/
def dawnTarget (s : State) (cav : Nat) : State :=
  let s := updCav s cav fun c =>
    let top := (c.active.map fun ph => s.pwr.phaseOp.getD ph 7).foldl max 0
    if c.opHold then { c with active := [] } else { c with opTarget := clampN top c.minOp c.maxOp, active := [] }
  startSequence s cav

/-- CAV_CLK.op_now (R451): the point in force; a fall leaves its point as its glide ends (R436), and so does the glide to the coasting
rate, whose voltage is that of OP0 (R440). -/
def opShown (c : Cav) (m : Nat) : Nat :=
  if c.coasting then (if rateAt c m = c.rateTo then 0 else c.opNow)
  else if c.seqEnd.isSome && decide (c.seqTo < c.opNow) && decide (c.glideAt + 125 * (c.opNow - c.seqTo) ≤ m) then c.seqTo
  else c.opNow

/-- The sequence of a Cavern ends: its point is in force, and a rise of the target is taken up (R436, R437); a held
sequencer goes on to OP0 (R490). -/
def execSequenceEnd (cav : Nat) (s : State) : Host.Outcome State Fault Refusal :=
  .next (
    match (cavAt s cav).seqEnd with
    | none => s
    | some e =>
      if s.mNow < e then s
      else
        let s := updCav s cav fun c => { c with opNow := c.seqTo, seqEnd := none }
        if (cavAt s cav).opHold then startSequence s cav else startRise s cav)

/-- The reference is lost: every PLL coasts, sequences are abandoned, and one record is reported (R440); a loss during relock does so
afresh (R441, R450). -/
def execReferenceLost (s : State) : Host.Outcome State Fault Refusal :=
  .next (
    if !s.boot.powered then s
    else
      let s := (List.range 4).foldl (fun s c => updCav s c fun x =>
        { glideTo x s.mNow s.mNow 4 with
          refLost := true, refLostSeen := true, coasting := true, locked := false, seqEnd := none, opNow := opShown x s.mNow }) s
      logChip s 8 .done true [])

/-- A Cavern's PLL is locked again, the reference having been present for 10 µs since the loss at the least: coasting ends, and the
sequencer moves to the target as a rise from the coasting frequency (R441). -/
def execReferenceRelock (cav : Nat) (s : State) : Host.Outcome State Fault Refusal :=
  .next (
    let x := cavAt s cav
    if !x.coasting || decide (s.mNow < x.glideAt + 5000) then s
    else
      let code (o : Nat) : Nat := s.fuse.vtable.getD o 0
      let volt := 25 * (code x.opTarget - code 0) + 200
      let ns := volt + 250 * (x.opTarget + 1)
      updCav s cav fun x => { glideTo x s.mNow (s.mNow + (volt + 1) / 2) (opRate x.opTarget) with
        coasting := false, refLost := false, locked := x.running, opNow := 0,
        seqEnd := if x.running then some (s.mNow + (ns + 1) / 2) else none, seqTo := x.opTarget })

/-- A Gallery's issue window begins (R442). -/
def execIssueWindow (gal : Nat) (s : State) : Host.Outcome State Fault Refusal :=
  .next (if (cavAt s (gal / 8)).running then rollGal s gal (aNow s (gal / 8)) else s)

/-- The hottest temperature of a Cavern's Galleries. -/
def hottest (s : State) (cav : Nat) : Nat := (galsOf cav).foldl (fun t g => max t (galAt s g).temp) 0

/-- The activity counts of a Cavern's window, by Gallery and kind (R445). -/
def activityCounts (c : Cav) : List Nat := (List.range 48).map fun i => Store.get 0 c.activity i

/-- The runs of agreeing and disagreeing windows after a window with estimate e and measurement m (R446). -/
def judgeWindow (c : Cav) (e : Nat) (m : Option Nat) : Cav :=
  match m with
  | none => { c with run := 0, missing := c.missing + 1 }
  | some m =>
    let agree := !decide (3 * m < 20 * ((e - m) + (m - e)))
    let n := if c.runAgree = agree then min 8 (c.run + 1) else 1
    { c with run := n, runAgree := agree, missing := 0, lastM := m,
             mismatch := if n < 8 then c.mismatch else !agree }

/-- The power rule of R447 on a ctl_cap, for power p and limit l. -/
def powerCap (ctl p l : Nat) : Nat :=
  if l < p then max 64 (ctl * l / p)
  else if 10 * p ≤ 9 * l then min 512 (ctl + 64)
  else ctl

/-- The caps of one Gallery at a window's end: the critical rule, then the thermal, then the power rule
(R447, R449, R450). -/
def windowCap (s : State) (g : Gal) (crit wasCrit : Bool) (p l : Nat) : Nat :=
  if crit then 0
  else if wasCrit then 64
  else
    let c := powerCap g.lim.ctlCap p l
    if s.pwr.limitC ≤ g.temp then max 64 (c / 2) else c

/-- PWR_STATUS notes what a power window saw (R457). -/
def notePower (s : State) (mismatch missing hot crit : Bool) : State :=
  { s with pwr := { s.pwr with
      mismatchSeen := s.pwr.mismatchSeen || mismatch, railMissingSeen := s.pwr.railMissingSeen || missing,
      thermSeen := s.pwr.thermSeen || hot, critSeen := s.pwr.critSeen || crit } }

/-- The array activity of a Cavern's tiles counted up to its present A-cycle, filler included (R92, R445). -/
def bringCav (s : State) (cav : Nat) : State :=
  (s.cores.map (·.1)).foldl (fun s p =>
    if p / 544 = cav then
      match unmapCore s p with
      | some l => bringRamp s p l (aNow s cav)
      | none => s
    else s) s

/-- A power window of a Cavern ends with or without a measurement (R445 to R449). -/
def endWindow (s : State) (cav : Nat) (m : Option Nat) : State :=
  let s := bringCav s cav
  let c0 := cavAt s cav
  let e := min 0xFFF (Config.powerEstimate (opShown c0 s.mNow) (activityCounts c0) (hottest s cav))
  let c := judgeWindow { c0 with limit := c0.limitNext } e m
  let entered := c.mismatch && !c0.mismatch
  let c := { c with est := e, meas := m.getD 0, measValid := m.isSome, activity := [], winStart := s.mNow,
                    energy := c.energy + e * (2 * (s.mNow - c0.winStart)) }
  let p := if c.mismatch then max e c.lastM else e
  let wasCrit := c0.crit
  let crit := if wasCrit then (galsOf cav).any fun g => decide (s.fuse.critC - 10 ≤ (galAt s g).temp)
    else (galsOf cav).any fun g => decide (s.fuse.critC ≤ (galAt s g).temp)
  let hot := (galsOf cav).any fun g => decide (s.pwr.limitC ≤ (galAt s g).temp)
  let s := updCav s cav fun _ => { c with crit := crit }
  let s := if c.running then (galsOf cav).foldl (fun s g => rollGal s g (aNow s cav)) s else s
  let s := (galsOf cav).foldl (fun t g => updGal t g fun x =>
    { x with lim := { x.lim with ctlCap := windowCap s x crit wasCrit p c.limit } }) s
  let s := notePower s entered (c.missing == 3) hot (crit && !wasCrit)
  let s := if entered then logCav s 8 .done cav true [(2, e), (2, m.getD 0)] else s
  let s := if c.missing = 3 then logCav s 8 .done cav true [] else s
  if crit && !wasCrit then logCav s 8 .done cav true [] else s

/-- A RAIL_POWER message arrives: the Cavern's window ends with its measurement in W (R420, R445). -/
def execRailPower (cav m : Nat) (s : State) (bundle : Nat := 0) : Host.Outcome State Fault Refusal :=
  .next (onMsg s bundle 4 fun s => endWindow s cav (some (min 0xFFF m)))

/-- No RAIL_POWER has arrived for 5,250 M-cycles (R445). -/
def execPowerWindowTimeout (cav : Nat) (s : State) : Host.Outcome State Fault Refusal :=
  .next (if s.boot.powered && decide ((cavAt s cav).winStart + 5250 ≤ s.mNow) then endWindow s cav none else s)

/-- A droop detector trips: the Cavern's A-clock is stretched (R448). -/
def execDroopTrip (gal : Nat) (s : State) : Host.Outcome State Fault Refusal :=
  .next (
    if !(cavAt s (gal / 8)).running then s
    else updCav (updGal s gal fun g => { g with tripped := true }) (gal / 8) fun c =>
      { c with stretched := true, stretchFrom := none })

/-- A droop detector clears; when it is the Cavern's last, the stretch holds 64 cycles more (R448). -/
def execDroopDetectorClear (gal : Nat) (s : State) : Host.Outcome State Fault Refusal :=
  .next (
    let cav := gal / 8
    let s := updGal s gal fun g => { g with tripped := false }
    if (cavAt s cav).stretched && (cavAt s cav).stretchFrom.isNone && !(galsOf cav).any fun g => (galAt s g).tripped then
      updCav s cav fun c => { c with stretchFrom := some (aNow s cav) }
    else s)

/-- The stretch ends 64 stretched A-cycles after the last detector cleared (R448). -/
def execStretchEnd (cav : Nat) (s : State) : Host.Outcome State Fault Refusal :=
  .next (
    match (cavAt s cav).stretchFrom with
    | none => s
    | some c => if aNow s cav < c + 64 then s else updCav s cav fun x => { x with stretched := false, stretchFrom := none })

/-- The background calibration re-trims a station's sensors and detectors in its own sampling cycles (R33, R34): no
state that the spec names changes. DEDUCED (log 46). -/
def execThermalCalibration (_gal : Nat) (s : State) : Host.Outcome State Fault Refusal := .next s

/-- A Gallery station samples its temperature (R460). -/
def execTemperatureSample (gal temp : Nat) (s : State) : Host.Outcome State Fault Refusal :=
  .next (updGal s gal fun g => { g with temp := min 0xFF temp, maxTemp := max g.maxTemp (min 0xFF temp) })

/-- Fifths of an A-cycle in one M-cycle of 2 ns: the present rate, half of it when stretched (R432, R434, R436, R448).
DEDUCED (log 37). -/
def fifthsPerM (c : Cav) (m : Nat) : Nat := if c.stretched then rateAt c m / 2 else rateAt c m

/-- A Cavern's A-clock over one M-cycle; stretched cycles are counted in each of its Galleries (R448). -/
def tickCav (s : State) (cav : Nat) : State :=
  let c := cavAt s cav
  if !c.running then s
  else
    let f := c.fifths + fifthsPerM c s.mNow
    let n := f / 5 - c.fifths / 5
    let s := updCav s cav fun c => { c with fifths := f }
    if c.stretched then
      (galsOf cav).foldl (fun s g => updGal s g fun x => { x with stretched := min 0xFFFFFFFF (x.stretched + n) }) s
    else s

/-- Time stands one M-cycle later: the Day timer counts 2 ns while run is 1, and the A-clocks advance (R432, R552). -/
def advance (s : State) : State :=
  (List.range 4).foldl tickCav
    { s with mNow := s.mNow + 1, day := { s.day with ns := if s.day.run then s.day.ns + 2 else s.day.ns } }

/-- The effects to come in the A-cycles that end with this M-cycle come about, and their records are of it (R508, R510). -/
def tickLate (s : State) : State :=
  (s.cores.map (·.1)).foldl (fun t p => catchUp t p (aNow (advance s) (p / 544))) s

/-- Bring the sync units with flags due up to the present cycle. -/
def tickSync (s : State) : State :=
  (s.cores.map (·.1)).foldl (fun s p =>
    match logOf s p with
    | none => s
    | some l => if (coreAt s p).sync.due.isEmpty then s else settleSync s p l (cycleOf s l)) s

/-- The heads that wait at injection points grow older by the F-cycles passed since state `before` (R387, R392). -/
def tickAges (before s : State) : State :=
  (s.cores.map (·.1)).foldl (fun s p =>
    let n := fNow s (p / 68) - fNow before (p / 68)
    if n = 0 then s else ageHeads (ageHeads s p 0 n) p 1 n) s

/-- One M-cycle passes (R432, R510, R552): its effects come about, its records enter the log, time advances, waiting heads grow older,
and flags fall due; without power nothing does. DESIGN CHOICE (log 11). -/
def tick (s : State) : State :=
  if !s.boot.powered then s
  else
    let s := enterFresh (tickLate s)
    tickSync (tickAges s (advance s))

/-- CAV_CLK (R451). -/
def readCavClk (c : Cav) (m : Nat) : Nat :=
  opShown c m + 8 * c.opTarget + 64 * b2n c.seqEnd.isSome + 2 ^ 7 * b2n c.locked + 2 ^ 8 * b2n c.refLost +
  2 ^ 9 * b2n c.coasting + 2 ^ 10 * b2n c.refLostSeen + 2 ^ 11 * b2n c.stretched

/-- CAV_PWR_WIN (R454). -/
def readPwrWin (c : Cav) : Nat :=
  c.est + 2 ^ 12 * c.meas + 2 ^ 24 * b2n c.measValid + 2 ^ 25 * c.run + 2 ^ 29 * b2n c.mismatch

/-- PWR_STATUS (R457). -/
def readPwrStatus (s : State) : Nat :=
  (List.range 4).foldl (fun n c => n + 2 ^ c * b2n (cavAt s c).mismatch) 0 +
  packN 1 [0, 0, 0, 0, b2n s.pwr.mismatchSeen, b2n s.pwr.railMissingSeen, b2n s.pwr.thermSeen, b2n s.pwr.critSeen,
           b2n s.pwr.slopeFallSeen]

/-- GAL_ISSUE (R459), its limiter brought to the present window. -/
def readIssue (s : State) (g : Nat) : Nat :=
  let x := rollLimiter (galAt s g).lim (aNow s (g / 8) / 256)
  x.hostCap + 2 ^ 10 * x.ctlCap + 2 ^ 20 * x.ceiling + 2 ^ 30 * b2n x.demand

/-- A write of GAL_ISSUE.host_cap, in force from the next window (R459, R450). -/
def writeIssue (s : State) (g v : Nat) : Status × State :=
  let h := fieldN v 0 10
  if (0 < h ∧ h < 64) ∨ 512 < h then (.badValue, s)
  else (.done, updGal (rollGal s g (aNow s (g / 8))) g fun x => { x with lim := { x.lim with hostCap := h } })

/-- CAV_OP_LIM takes effect; with run 0 the target follows (R452, R439). -/
def applyOpLim (s : State) (cav v : Nat) : State :=
  let s := updCav s cav fun c => { c with minOp := fieldN v 0 3, maxOp := fieldN v 4 3 }
  if s.day.run then s else idleTarget s cav

/-- PWR_PHASE_OP_LO (half 0) or _HI takes effect (R456, R439). -/
def applyPhaseOp (s : State) (half v : Nat) : State :=
  let ops := (List.range 16).map fun i => if i / 8 = half then fieldN v (4 * (i % 8)) 3 else s.pwr.phaseOp.getD i 7
  let s := { s with pwr := { s.pwr with phaseOp := ops } }
  if s.day.run then s else (List.range 4).foldl idleTarget s

end Sys2Proof.Machine
end

