-- ==== Sys2Proof/Machine/Reset.lean ====
section
/-!
DEFINITION. Partial reset (15_bringup_config_reset R489 to R494, R497): what a reset does to a core and to each domain,
and the passing of an assertion and a release.
-/

namespace Sys2Proof.Machine

/-- Logical cores of a reset domain (R489). -/
def domainCores (d : Nat × Nat) : List Nat :=
  match d.1 with
  | 0 => [d.2]
  | 1 => (List.range 64).map (64 * d.2 + ·)
  | 2 => (List.range 512).map (512 * d.2 + ·)
  | _ => dieIds

/-- Galleries wholly inside a reset domain. -/
def domainGals (d : Nat × Nat) : List Nat :=
  match d.1 with
  | 0 => []
  | 1 => [d.2]
  | 2 => galsOf d.2
  | _ => List.range 32

/-- A checked core has passes issued in duplicate execution and not yet compared in cycle c (R102). -/
def uncompared (k : Core) (c : Nat) : Bool :=
  isChecked k c && decide (c ≤ if k.tile.checkMode then k.tile.lastWrite else k.tile.checkEnd)

/-- The tile after a reset of its core in cycle c (R102, R490): check mode and its marks are kept, and passes issued but
not yet compared set unchecked. -/
def resetTile (k : Core) (c : Nat) : Tile :=
  let t := k.tile
  { Tile.init with
    checkMode := t.checkMode, mismatch := t.mismatch, unchecked := t.unchecked || uncompared k c, counted := t.counted }

/-- The checker of a core is reset in cycle c: its passes issued and not yet compared are written without comparison (R102). -/
def dropCompare (k : Core) (c : Nat) : Core :=
  if !uncompared k c then k
  else
    let stays (x : Late) : Bool :=
      match x.act with
      | .mismatch _ _ => decide (x.cycle < c)
      | _ => true
    let keeps (e : Nat × DescEv) : Bool :=
      match e.2 with
      | .poison 5 _ => decide (e.1 < c)
      | _ => true
    { k with
      late := k.late.filter stays, tile := { k.tile with unchecked := true, checkEnd := 0 },
      flow := { k.flow with desc := k.flow.desc.map fun x => (x.1, { x.2 with evs := x.2.evs.filter keeps }) } }

/-- A reset of a logical core ends the duplicate execution it serves as checker (R102). -/
def resetChecker (s : State) (l : Nat) : State :=
  match physOf s (partnerOf l) with
  | none => s
  | some q => updCore s q fun k => dropCompare k (cycleOf s l)

/-- Sync words that a reset writes afresh: flags, translation tables, counters and live census words (R326, R191). -/
def resetSyncWord (key : Nat) : Bool :=
  key / 1024 == 4 || key / 1024 == 5 || key / 1024 == 6 || (key / 1024 == 8 && decide (key % 4 < 2))

/-- What a reset in cycle c does to the state inside a core, its Pool rows, traffic and rings 0 to 3 apart (R363, R132,
R326, R191, R165, R187, R360). -/
def resetInside (k : Core) (c : Nat) : Core :=
  let k := undoRows (settleLate k c) c
  { k with
    late := [], tile := resetTile k c,
    flow := { k.flow with desc := [] },
    outp := { k.outp with pend := none, run := none, drains := [] },
    vec := { k.vec with runEnd := none, lastRead := none, scWrites := [], runs := [] },
    census := { k.census with live := [], narSeen := false, satSeen := false },
    pool := { k.pool with marks := [], plan := [], given := [] },
    sync := { k.sync with
      flags := [], counters := [], due := [], ovr := { valid := false, flag := 0, setter := 0, ctx := 0 } },
    queues := [], ctxs := [],
    op := { k.op with
      busy := false, status := if k.op.busy then Status.code .absorbed else k.op.status, stage := 0, rows := [], left := [],
      fail := none },
    track := [],
    upsets := { k.upsets with sync := k.upsets.sync.filter fun e => !resetSyncWord e.1 } }

/-- A packet of a core's own commands: a row, a signal or a Deep read (R491). -/
def isCommandPkt (p : Packet) : Bool := p.ptype == .wr || p.ptype == .sig || p.ptype == .deepRd

/-- Outbound traffic at a reset (R491 item 1): what has not begun to be injected is cancelled, commands end, and the
credit table is freed; the answer counts the rows cancelled. A stall whose head is cancelled has ended (R398, R399). -/
def cancelOutbound (k : Core) : Nat × Core :=
  let gone (x : InjPkt) : Bool := x.sent == 0 && isCommandPkt x.pkt
  let rows (f : InjPkt → Bool) (l : List InjPkt) : Nat := (l.filter fun x => f x && x.pkt.ptype == .wr).length
  let n := rows gone k.mv.inj + rows gone k.mv.injS + (k.mv.outb.filter fun e => e.held && e.pkt.ptype == .wr).length
  let same (l : List InjPkt) (ch : Nat) : Bool :=
    match l.find? fun x => x.ch == ch with
    | none => false
    | some x => !gone x
  (n, { k with
    stuck := k.stuck.filter fun b => same (if b / 4 = 0 then k.mv.inj else k.mv.injS) (b % 4),
    mv := { k.mv with
      outb := [], runs := [], creds := [], inj := k.mv.inj.filter fun x => !gone x,
      injS := k.mv.injS.filter fun x => !gone x, lastRead := none, tileRd := none } })

/-- An uncommitted inbound row at a reset (R244, R491 item 2): absorbed, and its ring or window takes its credit back; a
row of the core's own outbound half is discarded. -/
def absorbInbound (s : State) (p l : Nat) (e : InEntry) : State :=
  if e.own then s
  else
    let s := updCore s p fun k => recredit k e
    answerPkt s p l (portOf s p e.pkt) e.pkt .absorbed

/-- A reset takes effect at one logical core (R490, R491 items 1 and 2). The one record of its poisoning fault (R161, R163) names
slot 0, and 0xFF for all eight tiles. DESIGN CHOICE (log 65). -/
def resetCore (s : State) (l : Nat) : State :=
  match physOf s l with
  | none => s
  | some p =>
    let c := cycleOf s l
    let s := resetChecker (catchUp s p c) l
    let s := logCore s 2 .poisoned l false [(4, 0), (1, 0xFF), (1, 7)]
    let (n, k) := cancelOutbound (coreAt s p)
    let inb := k.mv.inb
    let k := { resetInside k c with mv := { k.mv with inb := [] } }
    let s := inb.foldl (fun s e => absorbInbound s p l e) (setCore s p k)
    let s := (List.range 4).foldl (fun s q => if (ringAt (coreAt s p) q).enable then disableRing s p l q else s) s
    let s := { s with day := { s.day with resetCores := setInsert s.day.resetCores l } }
    if n = 0 then s else logCore s 10 .done l false [(4, n)]

/-- The rendezvous of a Gallery some of whose members a domain resets (R112 ending 4): the others fail. -/
def resetRendezvous (s : State) (g : Nat) (hit : Nat → Bool) : State :=
  let s := updGal s g fun x => { x with owed := x.owed.filter fun i => !hit (memberOf g i) }
  let arrived := (galAt s g).rendezvous
  if arrived.isEmpty then s
  else
    let rest := arrived.filter fun a => !hit (memberOf g a.1)
    let s := updGal s g fun x => { x with rendezvous := rest }
    if rest.isEmpty then s else failRendezvous s g .badState false

/-- A result-writing member of a gang pass in flight is poisoned because another member was reset (R122, R163, R164). -/
def poisonWriter (s : State) (g i tile slot id : Nat) : State :=
  match physOf s (memberOf g i) with
  | none => s
  | some p =>
    let c := aNow s (g / 8)
    let s := updCore s p fun k =>
      setDesc (writeTrows k (32 * tile) (List.replicate 32 (mkTileRow (List.replicate 32 .nar)))) tile
        (poisonTrack (descAt k tile) c c id 6)
    logCore s 2 .poisoned (memberOf g i) false [(4, slot), (1, tile), (1, 6)]

/-- The gang passes in flight in a Gallery some of whose members a domain resets (R122). The one further record of a pass names the
lowest member reset. DESIGN CHOICE (log 65). -/
def resetGangs (s : State) (g : Nat) (hit : Nat → Bool) : State :=
  let now := aNow s (g / 8)
  let (caught, rest) := (galAt s g).gangs.partition fun r =>
    decide (now ≤ r.ends) && r.members.any fun i => hit (memberOf g i)
  if caught.isEmpty then s
  else
    let s := updGal s g fun x => { x with gangs := rest, gangPoisoned := true }
    caught.foldl (fun s r =>
      let s := r.writers.foldl (fun s w => if hit (memberOf g w.1) then s else poisonWriter s g w.1 w.2.1 w.2.2.1 w.2.2.2) s
      match r.members.find? fun i => hit (memberOf g i) with
      | none => s
      | some i => logCore s 2 .done (memberOf g i) false []) s

/-- Rings and counters of this die bound to a reset core of it (R491 item 3, R245, R327). -/
def abandonReset (s : State) (hit : Nat → Bool) : State :=
  (s.cores.map (·.1)).foldl (fun s p =>
    match logOf s p with
    | none => s
    | some l => abandonAll s p l fun kind _ core => kind == 1 && hit core) s

/-- The issue limiter of a Gallery restarts in the present window (R442). -/
def restartLimiter (x : Limiter) (w : Nat) : Limiter :=
  { x with ceiling := 0, used := 0, prevUsed := 0, prev2Used := 0, demand := false, lastCore := none, lastAt := 0,
           rotCore := none, window := w }

/-- Gallery statistics and the issue limiter restart (R490, R442). -/
def restartGal (s : State) (g : Nat) : State :=
  updGal s g fun x => { x with
    boosts := 0, stretched := 0, maxTemp := 0, veinCorr := 0, veinDisc := 0,
    lim := restartLimiter x.lim (aNow s (g / 8) / 256) }

/-- Registers of a physical core that frames write return to their reset values (R475, R464, R490). -/
def resetCoreCells (k : Core) : Core :=
  let k := (List.range 4).foldl (fun k n => setRing k n (Ring.init n)) k
  let k := (List.range 4).foldl (fun k q => setQueue k q { queueAt k q with onFail := false }) k
  { k with
    pool := { k.pool with sbUnits := 0x400 }, mv := { k.mv with units := 0x400, wins := [] },
    op := { k.op with units := 0x400 }, allots := [], sync := { k.sync with policy := [] } }

/-- Registers of a Gallery that frames write return to their reset values (R475). -/
def resetGalCells (x : Gal) : Gal :=
  { x with
    outCol := Gal.init.outCol, held := 0, gangUnits := Gal.init.gangUnits, ageThresh := Gal.init.ageThresh,
    wdogUnits := Gal.init.wdogUnits, margin := Gal.init.margin, lim := { x.lim with hostCap := 0x200 } }

/-- Every configuration cell returns to its reset value (R464, R475, R490), DAY_NUMBER apart. -/
def resetCells (s : State) : State :=
  let s := (s.cores.map (·.1)).foldl (fun s p => updCore s p resetCoreCells) s
  let s := (s.gals.map (·.1)).foldl (fun s g => updGal s g resetGalCells) s
  let s := (s.bundles.map (·.1)).foldl (fun s b => updBun s b fun x =>
    { x with auto := (Bundle.init b).auto, spareAuto := false }) s
  let s := (List.range 4).foldl (fun s c => updCav s c fun x =>
    { x with minOp := 0, maxOp := 7, limit := 0x113, limitNext := 0x113 }) s
  { s with
    slots := [], news := [], cfg := { s.cfg with memb := [] },
    pwr := { s.pwr with phaseOp := List.replicate 16 7, limitC := 0x69, margin := 0x10 },
    day := { s.day with period := 0x3E8, twilight := 0x64, source := true },
    boot := { s.boot with dieId := 0 } }

/-- A physical core at a die reset: its gate turns off and its registers take their reset values; the transit injection
stage and the census shadows go on (R490). -/
def dieResetCore (k : Core) : Core :=
  { Core.init with
    repair := k.repair, gateShort := k.gateShort, stuck := k.stuck, census := { Core.init.census with shadow := k.census.shadow },
    mv := { Core.init.mv with inj := k.mv.inj, injS := k.mv.injS, delivered := k.mv.delivered } }

/-- A Gallery at a die reset (R490). -/
def dieResetGal (x : Gal) : Gal :=
  { Gal.init with
    temp := x.temp, tripped := x.tripped, maxTemp := 0, stuckIn := x.stuckIn, xbarStuck := x.xbarStuck,
    lim := restartLimiter { Gal.init.lim with ctlCap := x.lim.ctlCap } x.lim.window }

/-- A Cavern at a die reset: its clock runs on, and its sequencer goes to OP0 and holds it (R490). -/
def dieResetCav (x : Cav) : Cav :=
  { Cav.init with
    running := x.running, fifths := x.fifths, opNow := x.opNow, opTarget := 0, seqEnd := x.seqEnd, seqTo := x.seqTo,
    rateFrom := x.rateFrom, rateTo := x.rateTo, glideAt := x.glideAt,
    opHold := true, locked := x.locked, refLost := x.refLost, coasting := x.coasting, refLostSeen := x.refLostSeen,
    stretched := x.stretched, stretchFrom := x.stretchFrom, est := x.est, meas := x.meas, measValid := x.measValid,
    run := x.run, runAgree := x.runAgree, missing := x.missing, mismatch := x.mismatch, lastM := x.lastM,
    winStart := x.winStart, crit := x.crit, activity := x.activity }

/-- The die's part of a die reset (R490): gates off, every slot broken and reset, configuration at reset values,
stores cleared, run 0, the stage at ECHO. DEDUCED (log 33). -/
def dieReset (s : State) : State :=
  let s := (s.slots.map (·.1)).foldl (fun s n => breakSlot s n none false) s
  let s := (s.cores.map (·.1)).foldl (fun s p => updCore s p dieResetCore) s
  let s := (s.gals.map (·.1)).foldl (fun s g => updGal s g dieResetGal) s
  let s := (List.range 4).foldl (fun s c => startSequence (updCav s c dieResetCav) c) s
  let s := resetCells s
  { s with
    day := { s.day with run := false, inForce := false, ns := 0, gate := false, breakCores := [], localDusk := false, rollForming := false },
    held := [],
    cfg := { s.cfg with
      bsState := 0, gen := 0, pending := none, faulted := [], staging := [], shadow := [], cellUpsets := [],
      shadowUpsets := [], stagingUpsets := [] },
    boot := { s.boot with
      stage := min s.boot.stage 1, busy := reloading s, gatesOn := false, released := false, topo := [], topoMade := false,
      lostIds := [] } }

/-- The record that reports a reset to Echo (R491 item 3). -/
def logReset (s : State) (d : Nat × Nat) : State :=
  match d.1 with
  | 0 => logCore s 10 .done d.2 true []
  | 1 => logGal s 10 .done d.2 true []
  | 2 => logCav s 10 .done d.2 true []
  | _ => logChip s 10 .done true []

/-- A reset takes effect in its domain (R490, R491). -/
def resetDomain (s : State) (d : Nat × Nat) : State :=
  let ls := domainCores d
  let hit (l : Nat) : Bool := domainHolds d l && decide (l < 2048)
  let s := ls.foldl resetCore s
  let gs := if d.1 = 0 then [galOf d.2] else domainGals d
  let s := gs.foldl (fun s g => resetGangs (resetRendezvous s g hit) g hit) s
  let s := logReset s d
  if d.1 = 3 then dieReset s
  else
    let s := ls.foldl breakSlotsOf s
    let s := abandonReset s hit
    let s := (domainGals d).foldl restartGal s
    if d.1 = 2 then updCav s d.2 fun x => { x with energy := 0 } else s

/-- The oldest assertion takes effect (R489, R490), in an M-cycle after its own, so that a Dusk in the same M-cycle comes first
(R32). -/
def execResetEffect (s : State) : Host.Outcome State Fault Refusal :=
  .next (
    match s.resets.taking with
    | [] => s
    | d :: t => if s.mNow ≤ s.resets.since then s else resetDomain { s with resets := { s.resets with taking := t } } d)

/-- The oldest release ends 32 M-cycles after its write: its domain leaves reset (R489). -/
def execResetExit (s : State) : Host.Outcome State Fault Refusal :=
  .next (
    match s.resets.leaving with
    | [] => s
    | x :: t => if s.mNow < x.1 + 32 then s else { s with resets := { s.resets with leaving := t } })

/-- A die reset that has taken effect releases itself (R489). -/
def execDieResetSelfRelease (s : State) : Host.Outcome State Fault Refusal :=
  .next (
    if s.resets.asserted.contains (3, 0) && !s.resets.taking.contains (3, 0) then
      { s with resets := { s.resets with asserted := s.resets.asserted.erase (3, 0) } }
    else s)

/-- A reset is asserted: it takes effect within 8 M-cycles (R489). -/
def assertReset (s : State) (d : Nat × Nat) : State :=
  { s with resets := { s.resets with since := s.mNow, asserted := s.resets.asserted ++ [d], taking := s.resets.taking ++ [d] } }

/-- Domains that hold a domain and are larger than it (R493 check 3). -/
def largerDomains (d : Nat × Nat) : List (Nat × Nat) :=
  match d.1 with
  | 0 => [(1, galOf d.2), (2, cavOf d.2), (3, 0)]
  | 1 => [(2, d.2 / 8), (3, 0)]
  | 2 => [(3, 0)]
  | _ => []

/-- A write of CHIP_RESET (R493, R497). -/
def writeReset (s : State) (v : Nat) : Status × State :=
  let d := (fieldN v 0 2, fieldN v 2 11)
  let release := bitN v 13
  let limit := match d.1 with
    | 0 => 2048
    | 1 => 32
    | 2 => 4
    | _ => 1
  if limit ≤ d.2 then (.badValue, s)
  else if s.resets.taking ≠ [] then (.busy, s)
  else if (d.1 ≠ 3 ∧ s.boot.stage < 2) ∨ (!release ∧ s.resets.asserted.contains d) ∨
      (release ∧ (!s.resets.asserted.contains d ∨ (largerDomains d).any s.resets.asserted.contains)) then (.badState, s)
  else if d.1 = 0 ∧ unserved s d.2 then (.mappedOut, s)
  else if release then
    (.done, { s with resets := { s.resets with asserted := s.resets.asserted.erase d, leaving := s.resets.leaving ++ [(s.mNow, d)] } })
  else (.done, assertReset s d)

/-- CHIP_RESET (R497). -/
def readReset (s : State) : Nat := 2 ^ 16 * s.resets.status + 2 ^ 24 * b2n (!s.resets.taking.isEmpty)

/-- A write of CHIP_PEER_DOWN (R492, R497). -/
def writePeerDown (s : State) (v : Nat) : Status × State :=
  let die := fieldN v 0 16
  let core := fieldN v 16 11
  let whole := bitN v 27
  (.done, (s.cores.map (·.1)).foldl (fun s p =>
    let s := if whole then updCore s p fun k => { k with mv := { k.mv with creds := k.mv.creds.filter fun x => x.die != die } }
      else s
    match logOf s p with
    | none => s
    | some l => abandonAll s p l fun kind d c => kind == 2 && d == die && (whole || c == core)) s)

end Sys2Proof.Machine
end

