-- ==== Sys2Proof/Machine/Integrity.lean ====
section
/-!
DEFINITION. Integrity, identity and test (16_integrity_identity_test): scrubbing, the error log, attestation, built-in
self-test, CHIP_TEST and the TAP.
-/

namespace Sys2Proof.Machine

/-- A physical core is scrubbed: its gate is on and no reset holds it (R34). -/
def scrubbed (s : State) (p : Nat) : Bool :=
  decide (p < 2176) && gateOn s p &&
  match logOf s p with
  | none => true
  | some l => !inReset s l

/-- A record about a physical core, named by the logical id it serves if any (R508). -/
def logPhys (s : State) (cls : Nat) (st : Status) (p : Nat) (body : List (Nat × Nat)) : State :=
  match logOf s p with
  | some l => logCore s cls st l false body
  | none => logGal s cls st (p / 68) false body

/-- Rows whose correction waits for write-back (R225). -/
def updWb (k : Core) (f : List Nat → List Nat) : Core := { k with pool := { k.pool with wb := f k.pool.wb } }

/-- The present A-cycle of a physical core. -/
def physCycle (s : State) (p : Nat) : Nat := aNow s (p / 544)

/-- An inbound row waits for a bank at cycle c: one that no pending read holds back (R224, R232). -/
def inbWaits (k : Core) (c b : Nat) : Bool :=
  match oldestInb k b with
  | none => false
  | some e => decide (e.entered ≤ c) && !k.pool.marks.any fun m => m.row == e.row && !m.write && markSeen c m

/-- The reserved slot of a bank that the scrubber takes next from cycle c: its own, or one that no other access wants; none while
another takes the next, or the bank is off (R222, R224). -/
def scrubSlot (k : Core) (c b : Nat) : Option Nat :=
  let e := nextPhase (max c (Store.get 0 k.pool.given b)) (reservedPhase b) 32
  if bankOff k b e || (slotCycle e != 15 && (fetchWaits k c b || inbWaits k c b)) then none else some e

/-- The scrubber reads a Pool row in a reserved slot: its corrected codewords are counted and wait for write-back, an uncorrectable row
is recorded (R224, R225, R501, R505, R506). -/
def execScrubPool (phys row : Nat) (s : State) : Host.Outcome State Fault Refusal :=
  .next (
    let k := coreAt s phys
    let es := rowErrs k row
    if !scrubbed s phys || decide (poolRows ≤ row) then s
    else
      match scrubSlot k (physCycle s phys) (bankOf row) with
      | none => s
      | some e =>
        let k := takeSlot k (bankOf row) e
        let k := { k with ecc := { k.ecc with poolCorr := min 0xFFFF (k.ecc.poolCorr + correctedIn es) } }
        if badIn es then
          let k := { k with ecc := { k.ecc with poolUnc := min 0xFF (k.ecc.poolUnc + 1) },
                            pool := { k.pool with uncorrSeen := true } }
          logPhys (setCore s phys k) 11 .poisoned phys [(1, 0), (2, row)]
        else if correctedIn es = 0 then setCore s phys k
        else setCore s phys (updWb k (setInsert · row)))

/-- A Pool row is written back as it was corrected, in a later reserved slot, unless a write has reached it since (R225). -/
def execScrubPoolWriteback (phys row : Nat) (s : State) : Host.Outcome State Fault Refusal :=
  .next (
    let k := coreAt s phys
    if !scrubbed s phys || !k.pool.wb.contains row then s
    else
      match scrubSlot k (physCycle s phys) (bankOf row) with
      | none => s
      | some e =>
        setCore s phys (writeRow (takeSlot k (bankOf row) e) row (seenRow k row)))

/-- The scrubber reads one tile row (R503 to R506). -/
def scrubTrow (s : State) (p u : Nat) : State :=
  let hits := (coreAt s p).upsets.fs.filter fun e => e.1 / 32 == u
  let one := correctedIn hits
  let two := (hits.filter fun e => eccGrade e.2 == 2).length
  let s := updCore s p fun k => { k with
    ecc := { k.ecc with fsCorr := min 0xFFFF (k.ecc.fsCorr + one), fsUnc := min 0xFF (k.ecc.fsUnc + two) },
    flow := { k.flow with wb := if one = 0 then k.flow.wb else setInsert k.flow.wb u } }
  (hits.filter fun e => eccGrade e.2 == 2).foldl (fun s e => logPhys s 11 .poisoned p [(1, 1), (1, u), (1, e.1 % 32)]) s

/-- The scrubber reads two tile rows through the drain port at phase 0 (R128, R503). -/
def execScrubFlowstone (phys trow : Nat) (s : State) : Host.Outcome State Fault Refusal :=
  .next (if !scrubbed s phys || decide (255 ≤ trow) then s else scrubTrow (scrubTrow s phys trow) phys (trow + 1))

/-- No user of R128 wants the fill port in cycle c: no pass, RESCALE, ZERO or inbound tile row (R128, R129, R504). -/
def fillIdle (k : Core) (c : Nat) : Bool :=
  !fillTaken k c && !fillHeld k c c && !k.mv.inb.any fun e => e.fs && decide (e.entered < c) && trowsOpen k c e.row

/-- Corrected words of a tile row are written back in a free cycle of the fill port, unless the row has been written since the scrub
read it (R504). -/
def execScrubFlowstoneWriteback (phys trow : Nat) (s : State) : Host.Outcome State Fault Refusal :=
  .next (
    let k := coreAt s phys
    if !scrubbed s phys || !k.flow.wb.contains trow || !fillIdle k (physCycle s phys) then s
    else
      let hit (e : Nat × Nat) : Bool := e.1 / 32 == trow && eccGrade e.2 == 1
      let x := (k.upsets.fs.filter hit).foldl (fun r e => r ^^^ BitVec.ofNat 2048 (eccData e.2 * 2 ^ (64 * (e.1 % 32)))) (trowAt k trow)
      let k := setTrow k trow x
      setCore s phys { k with
      upsets := { k.upsets with fs := k.upsets.fs.filter fun e => !hit e },
      flow := { k.flow with wb := setErase k.flow.wb trow } })

/-- The scrubber reads a sync-state or census word, named by structure × 1024 + word, and writes it back if it corrected a
bit (R503 to R506). -/
def execScrubSync (phys word : Nat) (s : State) : Host.Outcome State Fault Refusal :=
  .next (
    let k := coreAt s phys
    if !scrubbed s phys then s
    else
      match eccGrade (Store.get 0 k.upsets.sync word) with
      | 0 => s
      | 1 => setCore s phys { k with
          ecc := { k.ecc with syncCorr := min 0xFF (k.ecc.syncCorr + 1) },
          upsets := { k.upsets with sync := Store.set 0 k.upsets.sync word 0 } }
      | _ =>
        let s := setCore s phys { k with ecc := { k.ecc with syncUnc := min 0xFF (k.ecc.syncUnc + 1) } }
        logPhys s 11 .poisoned phys [(1, word / 1024), (1, word % 1024)])

/-- The place of byte i of a SYNC frame's payload in the membership table: logical core × 64 + slot ÷ 2, none outside the
payload (R478). -/
def membPlace (scope seq i : Nat) : Option Nat :=
  if 16 ≤ i ∧ i < 16 + 2048 then
    some ((512 * scope + 64 * (seq / 2) + 32 * (seq % 2) + (i - 16) / 64) * 64 + (i - 16) % 64)
  else none

/-- The live copy of byte i of a frame, where the part's cells hold one apart from the shadow store: the membership
and the die id; otherwise the shadow's byte (R475, R488). DEDUCED (log 35). -/
def liveByte (s : State) (e : FrameEntry) (i : Nat) : Nat :=
  let shadow := stByte s.cfg.shadow (e.off + i)
  if e.ftype = 6 ∧ e.scope < 4 then
    match membPlace e.scope e.seq i with
    | some n => Store.get 0 s.cfg.memb n % 256
    | none => shadow
  else if e.ftype = 1 ∧ (i = 16 ∨ i = 17) then fieldN s.boot.dieId (8 * (i - 16)) 8
  else shadow

/-- The bytes of a frame rebuilt from the live cells. -/
def liveFrame (s : State) (e : FrameEntry) : List Byte := (List.range 4096).map fun i => BitVec.ofNat 8 (liveByte s e i)

/-- Rewrite live cells of bytes `from_` to `from_ + n - 1` of a frame from the shadow. -/
def writeLive (s : State) (e : FrameEntry) (from_ n : Nat) : State :=
  (List.range n).foldl (fun s j =>
    let i := from_ + j
    let b := stByte s.cfg.shadow (e.off + i)
    if e.ftype = 6 ∧ e.scope < 4 then
      match membPlace e.scope e.seq i with
      | some m => { s with cfg := { s.cfg with memb := Store.set 0 s.cfg.memb m b } }
      | none => s
    else if e.ftype = 1 ∧ (i = 16 ∨ i = 17) then
      { s with boot := { s.boot with dieId := putField s.boot.dieId (8 * (i - 16)) 8 b } }
    else s) s

/-- Rewrite bytes of the shadow frame from the live cells. -/
def writeShadow (s : State) (e : FrameEntry) (from_ n : Nat) : State :=
  let sh := (List.range n).foldl (fun st j => Store.set 0 st (e.off + from_ + j) (liveByte s e (from_ + j))) s.cfg.shadow
  { s with cfg := { s.cfg with shadow := sh } }

/-- Frames with frame-held contents (R475): STRUCTURE, MAP, GANG and the SYNC membership. -/
def isFrameHeld (e : FrameEntry) : Bool := e.ftype == 1 || e.ftype == 2 || e.ftype == 4 || (e.ftype == 6 && decide (e.scope < 4))

/-- The record and count of a difference the configuration scrub found (R488). -/
def noteScrub (s : State) : State :=
  logChip { s with cfg := { s.cfg with fixes := min 0xFFFF (s.cfg.fixes + 1) } } 9 .done true []

/-- The scrub compares one 8-byte word of frame-held cells with its copy in the shadow store, each as corrected, and writes back a word in
which it corrected a bit (R488, R501, R503); a frame already faulted stays so. -/
def execScrubConfig (cell : Nat) (s : State) : Host.Outcome State Fault Refusal :=
  .next (
    if s.boot.stage < 2 then s
    else
      match findIdx (fun (e : FrameEntry) => decide (e.off ≤ 8 * cell) && decide (8 * cell < e.off + 4096)) (bsTable s.cfg.shadow) with
      | none => s
      | some (j, e) =>
        let o := 8 * cell - e.off
        let bytes := List.range 8
        let live := eccGrade (Store.get 0 s.cfg.cellUpsets cell)
        let shad := eccGrade (Store.get 0 s.cfg.shadowUpsets cell)
        let same := packN 8 (bytes.map fun i => liveByte s e (o + i)) ^^^ eccData (Store.get 0 s.cfg.cellUpsets cell) ==
          packN 8 (bytes.map fun i => stByte s.cfg.shadow (e.off + o + i)) ^^^ eccData (Store.get 0 s.cfg.shadowUpsets cell)
        let liveBad := live == 2
        let shadBad := shad == 2
        let fresh (s : State) : State := { s with cfg := { s.cfg with
          cellUpsets := Store.set 0 s.cfg.cellUpsets cell 0, shadowUpsets := Store.set 0 s.cfg.shadowUpsets cell 0 } }
        let fault (s : State) : State := { s with cfg := { s.cfg with
          faultedSeen := true, faultFrame := j, faulted := setInsert s.cfg.faulted j } }
        if !isFrameHeld e || s.cfg.faulted.contains j then s
        else if liveBad && shadBad then noteScrub (fault s)
        else if liveBad then noteScrub (fresh (writeLive s e o 8))
        else if shadBad then noteScrub (fresh (writeShadow s e o 8))
        else if same then fresh s
        else if frameCheck (frameBytes s.cfg.shadow e.off) = e.check then noteScrub (writeLive s e o 8)
        else if frameCheck (liveFrame s e) = e.check then noteScrub (writeShadow s e 0 4096)
        else noteScrub (fault s))

/-- A write of CHIP_LOG_HEAD: records before the new head are freed (R510, R524). -/
def writeLogHead (s : State) (v : Nat) : Status × State :=
  let ahead (x : Nat) : Nat := (x + 2 ^ 32 - s.log.head % 2 ^ 32) % 2 ^ 32
  if ahead s.log.tail < ahead v then (.badValue, s)
  else (.done, { s with log := { s.log with
    head := v, recs := s.log.recs.filter fun r => decide (ahead v ≤ ahead r.seq) } })

/-- CHIP_LOG_STATUS (R524). -/
def readLogStatus (s : State) : Nat := s.log.lost + 2 ^ 16 * b2n (decide (4096 ≤ s.log.recs.length))

/-- A write of CHIP_LOG_STATUS (R524). -/
def writeLogStatus (s : State) (v : Nat) : Status × State :=
  (.done, if bitN v 17 then { s with log := { s.log with lost := 0 } } else s)

/-- A byte of the log area (R524): record s lies at 64 × (s mod 4,096) while it is unread; its word is delivered as the code corrects
it (R501). -/
def logByte (s : State) (off : Nat) : Nat :=
  match s.log.recs.find? fun r => r.seq % 4096 == off / 64 with
  | none => 0
  | some r => ((logImage r).getD (off % 64) 0).toNat ^^^ fieldN (eccData (Store.get 0 s.log.upsets (off / 8))) (8 * (off % 8)) 8

/-- A record with an uncorrectable word is lost as it is read: it counts as lost and is recorded (R502). DEDUCED (log 73). -/
def loseRecord (s : State) (off : Nat) : State :=
  if eccGrade (Store.get 0 s.log.upsets (off / 8)) ≠ 2 then s
  else
    logChip { s with log := { s.log with
      recs := s.log.recs.filter fun r => r.seq % 4096 != off / 64,
      upsets := s.log.upsets.filter fun e => e.1 / 8 != off / 64, lost := min 0xFFFF (s.log.lost + 1) } } 11 .poisoned false
      [(1, 11), (1, off / 8 % 8)]

/-- An uncorrectable word of the Echo image buffer is recorded as lost as it is read (R502). -/
def loseEcho (s : State) (word : Nat) : State :=
  if eccGrade (Store.get 0 s.cfg.echoUpsets word) ≠ 2 then s
  else logChip { s with cfg := { s.cfg with echoUpsets := Store.erase s.cfg.echoUpsets word } } 11 .poisoned false
    [(1, 11), (4, word)]

/-- The first n bytes of a SHAKE-256 digest. -/
def digest (n : Nat) (bytes : List Byte) : List Byte := bytesOf (Config.shake256 bytes).toNat n

/-- The digest d of a bit-stream: its header and frame table (R471). -/
def bsDigest (st : Store Nat) : List Byte :=
  digest 64 (stBytes st 0 64 ++ stBytes st 0x1500 (24 * bsCount st))

/-- The bad-core mask and the repairs of the resolved defect map, as attested (R514). -/
def defectBytes (b : Boot) : List Byte :=
  bytesOf (b.badCores.foldl (fun n p => n + 2 ^ p) 0) 272 ++
  dataBundles.flatMap fun p => let r := Store.get (0x3F, 0x3F) b.repairs p; bytesOf r.1 1 ++ bytesOf r.2 1

/-- Bytes 0 to 255 of an attestation report (R514). -/
def reportHead (s : State) : List Byte :=
  bytesOf 0x5441594A 4 ++ bytesOf 1 1 ++ bytesOf 1 1 ++ bytesOf 0xA1 1 ++ bytesOf 0 1 ++ bytesOf s.boot.dieId 2 ++
  bytesOf s.boot.stage 1 ++ bytesOf s.boot.defState 1 ++ bytesOf 0 4 ++ bytesOf s.day.number 8 ++ bytesOf s.cfg.gen 4 ++
  bytesOf 0 4 ++ (if s.boot.stage < 2 then bytesOf 0 64 else bsDigest s.cfg.shadow) ++
  digest 32 (defectBytes s.boot) ++
  (if s.boot.echo then bytesOf s.boot.echoDigest.toNat 64 else bytesOf 0 64) ++
  digest 32 (Config.mldsaPublic s.boot.devKey) ++ s.attest.nonce.flatMap fun w => bytesOf w 4

/-- A write of CHIP_ATTEST (R513, R525). -/
def writeAttest (s : State) (v : Nat) : Status × State :=
  if !bitN v 0 then (.done, s)
  else if s.attest.busy then (.busy, s)
  else if s.boot.idState ≠ 1 then (.badState, s)
  else (.done, { s with attest := { s.attest with busy := true, valid := false, report := reportHead s } })

/-- The attestation signature completes (R513, R514). -/
def execAttestComplete (s : State) : Host.Outcome State Fault Refusal :=
  .next (
    if !s.attest.busy then s
    else
      let sig := (Config.mldsaSign s.boot.devKey s.attest.report ++ List.replicate 3309 0).take 3309
      { s with attest := { s.attest with busy := false, valid := true, report := s.attest.report ++ sig } })

/-- CHIP_ATTEST (R525). -/
def readAttest (s : State) : Nat := 2 ^ 8 * s.attest.status + 2 ^ 16 * b2n s.attest.busy + 2 ^ 17 * b2n s.attest.valid

/-- A byte of the report window: zero while a signature is in progress (R513, R514). -/
def reportByte (s : State) (i : Nat) : Nat := if s.attest.valid then (s.attest.report.getD i 0).toNat else 0

/-- A byte of the public-key window (R514). -/
def keyByte (s : State) (i : Nat) : Nat :=
  if s.boot.idState = 1 then ((Config.mldsaPublic s.boot.devKey).getD i 0).toNat else 0

/-- A write of GAL_BIST (R516, R527). -/
def writeBist (s : State) (g v : Nat) : Status × State :=
  let x := (galAt s g).bist
  let pc := fieldN v 0 7
  let p := 68 * g + pc
  let served := match logOf s p with
    | none => false
    | some l => !inReset s l
  if 67 < pc then (.badValue, s)
  else if !bitN v 7 then (.done, updGal s g fun y => { y with bist := { x with pcore := pc } })
  else if x.busy then (.busy, s)
  else if served || !gateOn s p then (.badState, s)
  else (.done, updGal s g fun y => { y with bist := { x with pcore := pc, running := pc, busy := true } })

/-- A tested core (R516): the Pool zero, every tile in its reset state, the sync state as a reset leaves it. -/
def bistLeaves (k : Core) : Core :=
  { k with
    pool := { k.pool with rows := [], wb := [] }, flow := { rows := [], desc := [], wb := [] },
    sync := { k.sync with flags := [], counters := [], due := [], ovr := { valid := false, flag := 0, setter := 0, ctx := 0 } },
    ctxs := k.ctxs.map fun e => (e.1, { e.2 with xlat := [], parity := [] }),
    upsets := { k.upsets with pool := [], fs := [], sync := k.upsets.sync.filter fun e => !resetSyncWord e.1 } }

/-- A mapped-out row and column name a cell row and column of a tile, 0x3F for none (R93). -/
def repairOk (r : Nat × Nat) : Bool := (decide (r.1 < 33) || r.1 == 0x3F) && (decide (r.2 < 33) || r.2 == 0x3F)

/-- The self-test ends with the unit that failed, 0 for none (R516, R527), and the tile repair it finds, if any, which waits for a Dusk
(R94). That a test finds it is a DESIGN CHOICE (log 72). -/
def execBistComplete (gal failUnit : Nat) (s : State) (repair : Option (Nat × Nat) := none) : Host.Outcome State Fault Refusal :=
  .next (
    let x := (galAt s gal).bist
    if !x.busy || decide (6 < failUnit) then s
    else
      let s := updCore s (68 * gal + x.running) fun k =>
        { bistLeaves k with found := if repair.any repairOk then repair else k.found }
      updGal s gal fun y => { y with bist := { x with busy := false, pass := failUnit == 0, failUnit := failUnit } })

/-- GAL_BIST (R527). -/
def readBist (x : Bist) : Nat :=
  x.pcore + 2 ^ 8 * b2n x.busy + 2 ^ 9 * b2n x.pass + 2 ^ 10 * x.failUnit + 2 ^ 16 * x.status

/-- GAL_VEIN_ERRS (R527), of the last Day. -/
def readVeinErrs (g : Gal) : Nat := g.veinCorrDay + 2 ^ 16 * g.veinDiscDay

/-- CORE_ECC_CNT and CORE_ECC_CNT2 (R526), of the last Day. -/
def readEcc (k : Core) : Nat := k.eccDay.poolCorr + 2 ^ 16 * k.eccDay.fsCorr
def readEcc2 (k : Core) : Nat :=
  k.eccDay.syncCorr + 2 ^ 8 * k.eccDay.poolUnc + 2 ^ 16 * k.eccDay.fsUnc + 2 ^ 24 * k.eccDay.syncUnc

/-- A write of CHIP_TEST (R519, R522). -/
def writeTest (s : State) (v : Nat) : Status × State :=
  let sa := bitN v 0
  let lock := bitN v 1
  let offDie := s.slots.any fun e => e.2.enable && e.2.offDie
  if (sa && !s.tap.standalone && (s.day.run || offDie)) || (!lock && s.tap.tapLock) then (.badState, s)
  else (.done, { s with tap := { s.tap with standalone := sa, tapLock := lock } })

/-- CHIP_TEST (R525). -/
def readTest (s : State) : Nat := b2n s.tap.standalone + 2 * b2n s.tap.tapLock

/-- Load a TAP instruction that puts a value on TDO (R521). -/
def tapLoad (s : State) (code tdo : Nat) : State :=
  if s.boot.powered then { s with tap := { s.tap with ir := code, tdo := tdo, wrapper := none } } else s

/-- Captured up-link wires as the DWR shifts them out: bit w for wire w (R517). -/
def wireBits (ws : List Nat) : Nat :=
  ws.foldl (fun n w => if w < 310128 ∧ w % 142 < 71 ∧ !bitN n w then n + 2 ^ w else n) 0

/-- An intrusive TAP instruction takes effect only at stage ROM with tap_lock 0; otherwise it acts as BYPASS and a record is
written (R522). -/
def intrusive (s : State) (f : State → State) : State :=
  if !s.boot.powered then s
  else if s.boot.stage = 0 ∧ !s.tap.tapLock then f s
  else logChip (tapLoad s 0xFF 0) 12 .done false []

/-- IDCODE (R521). -/
def execIdcode (s : State) : Host.Outcome State Fault Refusal := .next (tapLoad s 0x01 0x1204854B)

/-- SAMPLE/PRELOAD: the DWR is read and loaded without being driven (R521). -/
def execSamplePreload (load up : List Nat) (s : State) : Host.Outcome State Fault Refusal :=
  .next (
    if !s.boot.powered then s
    else
      let s := tapLoad s 0x02 (wireBits up)
      { s with tap := { s.tap with dwr := load } })

/-- EXTEST: the DWR drives the down-link wires and captures the up-link wires (R517, R521, R522). -/
def execExtest (up : List Nat) (s : State) : Host.Outcome State Fault Refusal :=
  .next (intrusive s fun s => tapLoad s 0x03 (wireBits up))

/-- WRAP_1500: the wrapper serial port of the Gallery named by GSEL is connected (R521, R522). -/
def execWrap1500 (s : State) : Host.Outcome State Fault Refusal :=
  .next (intrusive s fun s =>
    let s := tapLoad s 0x10 0
    { s with tap := { s.tap with wrapper := some s.tap.gsel } })

/-- GSEL (R521). -/
def execGsel (gal : Nat) (s : State) : Host.Outcome State Fault Refusal :=
  .next (
    if !s.boot.powered then s
    else
      let s := tapLoad s 0x11 0
      { s with tap := { s.tap with gsel := gal % 32 } })

/-- BYPASS, or any code with no instruction (R521). -/
def execBypass (code : Nat) (s : State) : Host.Outcome State Fault Refusal := .next (tapLoad s (code % 256) 0)

end Sys2Proof.Machine
end

