-- ==== Sys2Proof/Machine/Queues.lean ====
section
/-!
DEFINITION. Command rows, NOP and the queue registers (11_queues_and_contexts).
-/

namespace Sys2Proof.Machine

/-- The command processor reads the next occupied row in its bank's reserved slot; its data takes the bank's read latency
more; an uncorrectable row that is the next to decode stops the queue (R215, R344, R346). -/
def execCommandRowFetch (core q : Nat) (s : State) : Host.Outcome State Fault Refusal :=
  .next (withLive s core fun p =>
    let k := coreAt s p
    if !canFetch k (cycleOf s core) q then s
    else
      let count := fetchCount k q
      let row := ringRow (ringAt k q) count
      let e := reservedFrom k (cycleOf s core) (bankOf row)
      let f : FRow := { count := count, row := seenRow k row, bad := rowBad k row, avail := e + bankLatency (bankOf row) }
      let s := updCore (usePoolRow s p core row e false) p fun k => takeSlot k (bankOf row) e
      let s := updQueue s p q fun x => { x with
        bufs := x.bufs ++ [f], ready := if x.bufs.isEmpty then max x.ready f.avail else x.ready, restart := false }
      stopBadRow s p core q)

/-- A NOP decodes in one cycle and reports nothing; a slot that is neither a NOP nor any command the queue knows fails
with BAD_VALUE (R349, R350, R351). -/
def execNop (core q : Nat) (s : State) : Host.Outcome State Fault Refusal :=
  .next (withLive s core fun p =>
    let k := coreAt s p
    let x := queueAt k q
    if queueFree k q && headBits x == some 0 then
      if gateHolds s core 0 then s
      else leaveHead s p core q (decodeCycle s core x + 1)
    else onHead s core q (fun key => key == 0) fun s _ _ _ _ => s)

/-- CORE_QSTATq (R375); held reads 1 while a gate holds the command at the head (R353). -/
def readQstat (s : State) (l : Nat) (k : Core) (q : Nat) : Nat :=
  let x := queueAt k q
  let held := (queueFree k q && (headBits x).isSome && decide (x.ready ≤ cycleOf s l) &&
    gateHolds s l (parseHeader ((headBits x).getD 0)).budget) || (x.state == 1 && x.head.isSome && inBreak s l)
  x.state + 4 * x.ctx + 16 * x.nextSlot + 256 * b2n x.onFail + 1024 * b2n held

/-- A write of CORE_QSTATq: on_fail and resume (R375, R346, R355). -/
def writeQstat (s : State) (p l q v : Nat) : Status × State :=
  let x := queueAt (coreAt s p) q
  if bitN v 9 ∧ x.state ≠ 2 then (.badState, s)
  else
    let s := updQueue s p q fun x => { x with onFail := bitN v 8, state := if bitN v 9 then 1 else x.state }
    (.done, if bitN v 9 then stopBadRow s p l q else s)

/-- CORE_QFAILSTq (R376). -/
def readQfailst (k : Core) (q : Nat) : Nat :=
  let x := queueAt k q
  x.failStatus + 256 * x.failKind + 4096 * b2n x.failValid

/-- A write of CORE_QFAILSTq: valid is write-one-to-clear (R376). -/
def writeQfailst (s : State) (p q v : Nat) : Status × State :=
  (.done, if bitN v 12 then updQueue s p q fun x => { x with failValid := false } else s)

end Sys2Proof.Machine
end

