-- ==== Sys2Proof/Machine/Sump.lean ====
section
/-!
DEFINITION. The Sump's bundles: training, widths, marginal lanes, link flits, link-down, management messages and the loop
test (13_sump_interface, 16_integrity_identity_test R518).
-/

namespace Sys2Proof.Machine

/-- The ident of a transmitter position of a link (R413): half, position within the half and direction. -/
def identOf (q dir : Nat) : BitVec 16 := identWord (q / 34) (q % 34) dir

/-- The ident of a receiving position (R414): it showed transitions and received at least 48 identical valid words. -/
def identAt (x : RxObs) : Option (BitVec 16) :=
  if !x.toggled then none
  else (x.words.filterMap fun e => identRead e.1).find? fun w =>
    decide (48 ≤ ((x.words.filter fun e => identRead e.1 == some w).map (·.2)).sum)

/-- The valid idents of the 68 receiving positions (R414): one received at another position too is a short. -/
def validIdents (o : LinkObs) : List (Option (BitVec 16)) :=
  let ids := (List.range 68).map fun p => (o.positions[p]?).bind identAt
  ids.map fun w => w.filter fun w => ids.count (some w) == 1

/-- The link is taken as reversed (R414): more valid positions carry the ident of 67 − p than of p. -/
def rxReversed (ids : List (Option (BitVec 16))) (dir : Nat) : Bool :=
  let count (f : Nat → Nat) : Nat := ((List.range 68).filter fun p => ids.getD p none == some (identOf (f p) dir)).length
  decide (count id < count (67 - ·))

/-- The bad transmitter positions that training finds (R414). -/
def trainBad (ids : List (Option (BitVec 16))) (dir : Nat) (rev : Bool) : List Nat :=
  (List.range 68).filter fun q => ids.getD (if rev then 67 - q else q) none != some (identOf q dir)

/-- The bad clock lanes, by transmitter lane: CK0 and CK1 exchange their roles in a reversed link (R414). -/
def trainClkBad (o : LinkObs) (rev : Bool) : List Nat :=
  (List.range 3).filter fun k => !o.clocks.getD (if rev && k < 2 then 1 - k else k) false

/-- A half has a clock lane: its own, or CK2 in place of the first bad one (R412 step 1). -/
def halfClocked (clkBad : List Nat) (half : Nat) : Bool :=
  !clkBad.contains half || (!clkBad.contains 2 && (half == 0 || !clkBad.contains 0))

/-- A half is good: at least 32 good positions and a clock lane (R415). -/
def halfGood (bad clkBad : List Nat) (half : Nat) : Bool :=
  decide (32 ≤ (((List.range 34).map (34 * half + ·)).filter fun q => !bad.contains q).length) && halfClocked clkBad half

/-- The width of a link from its bad sets (R415): 0 failed, 1 half, 2 full. -/
def linkWidth (bad clkBad : List Nat) : Nat := b2n (halfGood bad clkBad 0) + b2n (halfGood bad clkBad 1)

/-- A link after training (R412 to R416): the positions found bad with those the record marks bad; the answer says whether a
position tests bad that the record marks good. Of a step that overran its limit, only what the steps before it decided changes, and
the link has no good half (R412, R429). -/
def trainLink (o : LinkObs) (was : Link) (dir : Nat) (record : List Nat × List Nat) (keptClk : Option (List Nat)) : Link × Bool :=
  let ids := validIdents o
  let rev := rxReversed ids dir
  let found := trainBad ids dir rev
  let bad := (List.range 68).filter fun q => found.contains q || record.1.contains q
  let clk := match keptClk with
    | some c => c
    | none => (List.range 3).filter fun k => (trainClkBad o rev).contains k || record.2.contains k
  let spare := (clk.contains 0 || clk.contains 1) && !clk.contains 2
  match o.overran with
  | none =>
    ({ Link.init with width := linkWidth bad clk, reversed := rev, bad := bad, clkBad := clk, clkSpare := spare },
     found.any fun q => !record.1.contains q)
  | some k =>
    ({ Link.init with
       width := 0, reversed := if k ≤ 2 then was.reversed else rev,
       bad := if k ≤ 2 then was.bad else if k ≤ 4 then found else bad,
       clkBad := if k ≤ 1 then was.clkBad else clk, clkSpare := if k ≤ 1 then was.clkSpare else spare },
     decide (4 < k) && found.any fun q => !record.1.contains q)

/-- The two links of a bundle after training, and whether they deviate from the record (R412 to R416). -/
def trainLinks (s : State) (b : Nat) (o : TrainObs) (keepClk : Bool) : Link × Link × Bool :=
  let x := bunAt s b
  let kept (l : Link) : Option (List Nat) := if keepClk then some l.clkBad else none
  let (up, d1) := trainLink o.up x.up 1 (recordBad s.cfg.shadow b false) (kept x.up)
  let (down, d2) := trainLink o.down x.down 0 (recordBad s.cfg.shadow b true) (kept x.down)
  (up, down, d1 || d2)

/-- Every step of both links has ended (R412). -/
def stepsEnded (o : TrainObs) : Bool := o.up.overran.isNone && o.down.overran.isNone

/-- The core and logical id behind a data bundle. -/
def bundleCore (s : State) (b : Nat) : Option (Nat × Nat) :=
  if b < 2176 then (logOf s b).map fun l => (b, l) else none

/-- Complete with DEST_DOWN the rows of a core sent down its bundle, or waiting for it (R423 step 1). -/
def failDown (s : State) (p l : Nat) : State :=
  let k := coreAt s p
  let s := (k.mv.outb.filter fun e => !onVein s e.pkt).foldl (fun s e => respond s p l e.tag 3 e.row .destDown) s
  let s := (k.mv.runs.filter fun r => r.q == 2).foldl (fun s r =>
    (List.range r.rows).foldl (fun s q =>
      let k := coreAt s p
      if (match findRun k r.tag 2 with
          | some r => (respOf r q).isSome || r.image.any fun e => e.1 == q
          | none => true) || k.mv.inb.any (fun e => e.own && e.q == 2 && e.tag == r.tag && e.pkt.row == q) then s
      else
        let s := updCore s p fun k => if r.dstFs then k else clearInMark k (r.dst + q) r.tag
        tryImage (respond s p l r.tag 2 q .destDown) p l r.tag 2) s) s
  let s := updCore s p fun k => k.op.left.foldl (fun k i => ctxAnswer k i none .destDown) k
  updCore s p fun k => { k with mv := { k.mv with injS := [] } }

/-- A data bundle's core after link-down (R423 steps 1, 2 and 4). -/
def coreAfterDown (s : State) (b : Nat) : State :=
  match bundleCore s b with
  | none => if b < 2176 then updCore s b fun k => { k with mv := { k.mv with injS := [] } } else s
  | some (p, l) =>
    let s := failDown s p l
    let s := updCore s p fun k => { k with mv := { k.mv with creds := k.mv.creds.filter fun x => x.die == s.boot.dieId } }
    abandonAll s p l fun kind _ _ => kind == 3

/-- Off-die slots break when neither bundle of Cavern 0's pair is in UP (R422). -/
def breakOffDie (s : State) : State :=
  if (bunAt s 2176).state = 2 ∨ (bunAt s 2177).state = 2 then s
  else (s.slots.filter fun e => e.2.offDie).foldl (fun s e => breakSlot s e.1 none false) s

/-- A data bundle has become FAILED in service: in a row that already has a mapped-out core its core is held in reset
from then on (R21, R415); nothing requests that reset, so R32 does not defer it. DEDUCED (log 29). -/
def failCore (s : State) (b : Nat) : State :=
  match bundleCore s b with
  | none => s
  | some (_, l) => if s.boot.released && failedHeld s l then resetDomain s (0, l) else s

/-- A record about a bundle: of the core behind a data bundle, or its Gallery's, or the chip block's for a management bundle. -/
def logBundle (s : State) (b : Nat) (reported : Bool) (body : List (Nat × Nat)) : State :=
  match bundleCore s b with
  | some (_, l) => logCore s 7 .done l reported body
  | none => if b < 2176 then logGal s 7 .done (b / 68) reported body else logChip s 7 .done reported body

/-- A link of a bundle goes down (R423): the bundle's state becomes `st`. -/
def goDown (s : State) (b st : Nat) (clkLost : Bool) : State :=
  let s := updBun s b fun x => { x with state := st, downSeen := true, clkLost := x.clkLost || clkLost, badHeaders := 0,
                                        clocks := !clkLost }
  let s := logBundle s b true [(2, b)]
  let s := if b < 2176 then coreAfterDown s b else if b < 2178 then breakOffDie s else s
  if st = 4 then failCore s b else s

/-- A bundle enters UP at its new widths: after a full training with flit counts from zero; after a live retraining with its
watchdogs' counts as they stood when it began (R419). -/
def enterUp (s : State) (b : Nat) (up down : Link) (deviates : Bool) (fresh : Bool) : State :=
  let zero (l : List Nat) : List Nat := if fresh then [0, 0, 0, 0] else l
  let from_ := (bunAt s b).heldFrom
  let s := updBun s b fun x => { x with
    state := 2, up := up, down := down, deviates := deviates, freed := zero x.freed, peerFreed := zero x.peerFreed,
    sentFlits := zero x.sentFlits, badHeaders := 0, clocks := true }
  if b < 2176 ∧ !fresh then
    let now := fNow s (b / 68)
    updCore s b fun k => { k with mv := { k.mv with
      injS := k.mv.injS.map fun y => { y with moved := y.moved + (now - max from_ y.moved) } } }
  else s

/-- Training of a bundle ends with what it observed (R412, R415): UP, or FAILED when a link has no good half, which in service is
reported; a step not ended leaves it in TRAINING until it overruns its limit, which `late` says. -/
def finishTrain (s : State) (b : Nat) (o : TrainObs) (late : Bool) : State :=
  if !stepsEnded o && !late then s
  else
    let (up, down, dev) := trainLinks s b o false
    if up.width = 0 ∨ down.width = 0 then
      let s := updBun s b fun x => { x with state := 4, up := up, down := down, deviates := dev }
      failCore (if b < 2176 ∧ s.boot.released then logBundle s b true [(2, b)] else s) b
    else enterUp s b up down dev true

/-- A bundle begins full training; its bad sets change only as training ends (R412, R429). -/
def startTrain (s : State) (b : Nat) : State := updBun s b fun x => { x with state := 1, trainStart := s.mNow }

/-- A bundle in UP begins a live retraining; Cavern 0's pair may then be without UP (R419, R422). -/
def startRetrain (s : State) (b : Nat) : State :=
  let s := updBun s b fun x => { x with state := 3, trainStart := s.mNow, heldFrom := fNow s (b / 68) }
  if b = 2176 ∨ b = 2177 then breakOffDie s else s

/-- A live retraining ends (R419): UP at the new width, or FAILED. -/
def finishRetrain (s : State) (b : Nat) (o : TrainObs) (late : Bool) : State :=
  if !stepsEnded o && !late then s
  else
    let (up, down, dev) := trainLinks s b o true
    if up.width = 0 ∨ down.width = 0 then
      goDown (updBun s b fun x => { x with up := up, down := down, deviates := dev }) b 4 false
    else enterUp s b up down dev false

/-- A write of SUMP_CTRL (R427, R426). -/
def writeSumpCtrl (s : State) (b v : Nat) : Status × State :=
  let x := bunAt s b
  let train := bitN v 0
  let retrain := bitN v 1
  if train ∧ retrain then (.badValue, s)
  else if (train && !((x.state == 0 || x.state == 4) && !x.loop)) || (retrain && x.state != 2) then (.badState, s)
  else if b < 2176 ∧ x.gateShort then (.mappedOut, s)
  else
    let s := updBun s b fun x => { x with auto := bitN v 2, spareAuto := bitN v 3 }
    (.done, if train then startTrain s b else if retrain then startRetrain s b else s)

/-- SUMP_STATUS (R428). -/
def readSumpStatus (x : Bundle) : Nat :=
  x.state + 8 * x.up.width + 32 * x.down.width + 2 ^ 7 * b2n x.up.reversed + 2 ^ 8 * b2n x.down.reversed +
  2 ^ 9 * b2n x.clkLost + 2 ^ 10 * b2n x.downSeen + 2 ^ 11 * b2n x.marginalSeen + 2 ^ 12 * b2n x.gateShort +
  2 ^ 13 * b2n x.deviates

/-- Write-one-to-clear bits of SUMP_STATUS (R428). -/
def writeSumpStatus (s : State) (b v : Nat) : Status × State :=
  (.done, updBun s b fun x => { x with clkLost := x.clkLost && !bitN v 9, downSeen := x.downSeen && !bitN v 10,
                                       marginalSeen := x.marginalSeen && !bitN v 11 })

/-- SUMP_BAD_UP_A to _C and SUMP_BAD_DN_A to _C (R429): word 0 to 2 of a link. -/
def readBad (x : Link) (w : Nat) : Nat :=
  let bits := x.bad.foldl (fun n q => if q / 32 = w then n + 2 ^ (q % 32) else n) 0
  if w < 2 then bits else bits + x.clkBad.foldl (fun n k => n + 2 ^ (4 + k)) 0 + 2 ^ 7 * b2n x.clkSpare

/-- SUMP_LOOP (R528). -/
def readLoop (x : Bundle) : Nat := b2n x.loop + 4 * b2n x.loopBusy + 8 * b2n x.loopPass + 256 * x.loopLen

/-- A write of SUMP_LOOP (R518, R528), judged on the enable it leaves. -/
def writeLoop (s : State) (b v : Nat) : Status × State :=
  let x := bunAt s b
  let en := bitN v 0
  let start := bitN v 1
  if fieldN v 8 16 = 0 then (.badValue, s)
  else if (en && !x.loop && !(x.state == 0 || x.state == 4)) || (start && !(en && !x.loopBusy)) then (.badState, s)
  else (.done, updBun s b fun x => { x with
    loop := en, loopLen := fieldN v 8 16, state := if en then 0 else x.state, loopBusy := en && (x.loopBusy || start) })

/-- Training by itself once the clocks are present: a bundle with auto 1 after link-down (R412, R423), or one whose training
a register write began. -/
def execLinkAutoTrain (b : Nat) (obs : TrainObs) (s : State) : Host.Outcome State Fault Refusal :=
  .next (
    let x := bunAt s b
    if !s.boot.powered then s
    else if x.state = 1 then finishTrain s b obs false
    else if x.state = 0 ∧ x.auto ∧ !x.loop ∧ !x.gateShort then finishTrain (startTrain s b) b obs false
    else s)

/-- The limit of a training step in M-cycles (R412). -/
def stepLimit (k : Nat) : Nat := 500 * [2, 4, 8, 1, 2, 1].getD (k - 1) 0

/-- A step of a link has run for longer than its limit since the training began (R412). -/
def stepLate (s : State) (b : Nat) (o : LinkObs) : Bool :=
  o.overran.all fun k => decide ((bunAt s b).trainStart + stepLimit k < s.mNow)

/-- A training step overruns its limit: its link has no good half and the bundle is FAILED, the other link keeping its own result
(R412, R415). A retraining has no step 1 (R419). -/
def execTrainingStepTimeout (b : Nat) (s : State) (obs : TrainObs := TrainObs.none) : Host.Outcome State Fault Refusal :=
  .next (
    let x := bunAt s b
    if stepsEnded obs || !stepLate s b obs.up || !stepLate s b obs.down then s
    else if x.state = 1 then finishTrain s b obs true
    else if x.state = 3 ∧ obs.up.overran ≠ some 1 ∧ obs.down.overran ≠ some 1 then finishRetrain s b obs true
    else s)

/-- The background recalibration moves to the next lane of a bundle in UP (R417): 64 logical lanes, then two clock
lanes. -/
def execLaneRecalibrate (b : Nat) (s : State) : Host.Outcome State Fault Refusal :=
  .next (if (bunAt s b).state = 2 then updBun s b fun x => { x with recalLane := (x.recalLane + 1) % 66 } else s)

/-- The transmitter position of a logical lane (R406): the j-th good position of its half, or the spare it moved to. -/
def lanePos (x : Link) (lane : Nat) : Nat :=
  match x.moves.find? fun m => m.1 == lane with
  | some m => m.2
  | none =>
    let good := ((List.range 34).map (34 * (lane / 32) + ·)).filter fun q => !x.bad.contains q || x.outs.contains q
    good.getD (lane % 32) 0

/-- The lane of the link that carries a logical lane: at half width the good half carries both (R406, R408). -/
def laneHome (x : Link) (lane : Nat) : Nat :=
  if x.width = 1 then 32 * (if halfGood x.bad x.clkBad 0 then 0 else 1) + lane % 32 else lane % 64

/-- A free spare of a lane's half (R406). -/
def freeSpare (x : Link) (half : Nat) : Option Nat :=
  let used := (List.range 32).map fun j => lanePos x (32 * half + j)
  ((List.range 34).map (34 * half + ·)).find? fun q => !x.bad.contains q && !used.contains q

/-- A logical lane of an up link is marginal (R418): more of its errors have been corrected in this Day than SUMP_MARGIN.thresh. The
record names the bundle, the direction, the position and the count, once a Day for each lane; with spare_auto 1 the lane moves to a
free spare of its half. -/
def execMarginalLane (b lane more : Nat) (s : State) : Host.Outcome State Fault Refusal :=
  .next (
    let x := bunAt s b
    let count := Store.get 0 x.laneErrs lane + more
    if x.state ≠ 2 ∨ count ≤ s.pwr.margin ∨ x.marginal.contains lane then s
    else
      let home := laneHome x.up lane
      let pos := lanePos x.up home
      let y := { x with marginal := x.marginal ++ [lane], marginalSeen := true, corr := min 0xFFFF (x.corr + more),
                        laneErrs := Store.set 0 x.laneErrs lane count }
      let y := match (if x.spareAuto then freeSpare x.up (home / 32) else none) with
        | none => y
        | some q =>
          let moves := (y.up.moves.filter fun m => m.1 != home) ++ [(home, q)]
          { y with up := { y.up with bad := setInsert y.up.bad pos, moves := moves, outs := y.up.outs ++ [pos] } }
      logBundle (updBun s b fun _ => y) b false [(2, b), (1, 0), (2, pos), (4, count)])

/-- A flit in header position has an uncorrectable codeword: it is discarded and logged, and the eighth in a row takes the link down
(R411, R423). -/
def loseHeader (s : State) (b : Nat) (errs : List (Nat × Nat)) : State :=
  let s := updBun s b fun x => { countErrs x errs with badHeaders := x.badHeaders + 1 }
  let s := logBundle s b false [(2, b), (1, 0)]
  if 8 ≤ (bunAt s b).badHeaders then goDown s b 0 false else s

/-- The base reports a die down (R424): the credit entries of the bundle's core for it are freed, and every ring and counter of the
core bound to it is abandoned. -/
def loseDie (s : State) (b die : Nat) : State :=
  match bundleCore s b with
  | none => s
  | some (p, l) =>
    let s := updCore s p fun k => { k with mv := { k.mv with creds := k.mv.creds.filter fun y => y.die != die } }
    abandonAll s p l fun kind d _ => kind == 2 && d == die

/-- A LINK flit arrives on a bundle in UP (R409, R410, R411, R419, R424): counts freed by the base, a die reported down, a request to
retrain; one with an uncorrectable codeword is lost, and a flit of another type is no LINK flit. -/
def execLinkFlit (b : Nat) (flit : BitVec 512) (s : State) (errs : List (Nat × Nat) := []) (retrain : Bool := false) :
    Host.Outcome State Fault Refusal :=
  .next (
    let x := bunAt s b
    if x.state ≠ 2 || !isLink flit then s
    else if lostWord errs then loseHeader s b errs
    else
      let s := updBun s b fun x => { countErrs x errs with peerFreed := linkCounts flit, badHeaders := 0 }
      let s := match linkDie flit with
        | none => s
        | some die => loseDie s b die
      if retrain && x.spareAuto then startRetrain s b else s)

/-- A link of a bundle goes down (R423, R426). -/
def execLinkDown (b : Nat) (clkLost : Bool) (s : State) : Host.Outcome State Fault Refusal :=
  .next (if (bunAt s b).state = 2 ∨ (bunAt s b).state = 3 then goDown s b 0 clkLost else s)

/-- The header flit of a packet arrives with an uncorrectable codeword: its packet is discarded (R411, R423). -/
def execUncorrectableHeaderFlit (b : Nat) (s : State) (errs : List (Nat × Nat) := []) : Host.Outcome State Fault Refusal :=
  .next (if (bunAt s b).state ≠ 2 || !lostWord errs then s else loseHeader s b errs)

/-- The part's LINK_STATE message (R420, R421). -/
def execLinkState (s : State) : Host.Outcome State Fault Refusal :=
  .next (sendMsg s 0x0A [(1, linkStateCode s)])

/-- A TELEMETRY message goes down a management bundle in UP (R420): the layout of its 62 body bytes is not stated, so
they are a free value. Free value: log 10. -/
def execTelemetry (bundle : Nat) (s : State) : Host.Outcome State Fault Refusal :=
  .next (
    if (bunAt s (2176 + bundle)).state ≠ 2 then s
    else
      let (x, s) := drawFree s
      sendMsg s 0x08 [(62, x)])

/-- A message of an unknown code, or at a link that is not in UP, is discarded and logged (R420). DEDUCED (log 24,
36). -/
def execUnknownMessage (bundle code : Nat) (s : State) : Host.Outcome State Fault Refusal :=
  .next (
    if (bunAt s (2176 + bundle)).state = 2 ∧ [1, 3, 4, 6, 10].contains code then s
    else logChip s 7 .done false [(2, 2176 + bundle), (1, code)])

/-- The loop test ends (R518): positions that saw an error are bad, and the width is shown. DEDUCED (log 36). -/
def execLoopTestComplete (b : Nat) (bad : List Nat) (s : State) : Host.Outcome State Fault Refusal :=
  .next (
    if !(bunAt s b).loopBusy then s
    else updBun s b fun x =>
      let set := bad.foldl (fun l q => if q < 68 then setInsert l q else l) x.up.bad
      let w := linkWidth set x.up.clkBad
      { x with loopBusy := false, loopPass := w == 2, up := { x.up with bad := set, width := w } })

end Sys2Proof.Machine
end

