-- ==== Sys2Proof/Machine/RegMap.lean ====
section
/-!
DEFINITION. The management register map (17_register_map R529 to R541): where an address leads, which bits each register
defines, what a read returns and what an accepted write does. CHIP_BOOT, CFG_RELOAD and CORE_HAND writes stand in Boot and
Regs.
-/

namespace Sys2Proof.Machine

/-- Where a management address leads (R529, R537): a block and the offset in it. A core block is named by its physical core
and by the logical id that core serves (2,048 + p when it serves none); `noCore` is a core block whose id has no physical
core, and `shut` an alias window that is not enabled. -/
inductive Reg where
  | chip (off : Nat)
  | cav (c off : Nat)
  | gal (g off : Nat)
  | core (p l off : Nat)
  | noCore (l off : Nat)
  | shut (c off : Nat)
  | nowhere
deriving DecidableEq, Repr

/-- The logical id of a physical core for its registers. -/
def idOf (s : State) (p : Nat) : Nat := (logOf s p).getD (2048 + p)

/-- Where an alias window leads (R536, R537). -/
def aliasReg (s : State) (c k off : Nat) : Reg :=
  let w := Store.get 0 (cavAt s c).aliases k
  if !bitN w 10 then .shut c off
  else
    let p := (8 * c + fieldN w 7 3) * 68 + fieldN w 0 7
    .core p (idOf s p) off

/-- Where an address leads (R529). -/
def regAt (s : State) (a : Nat) : Reg :=
  if a < 0x100000 then .chip a
  else if a < 0x200000 then
    let c := (a - 0x100000) / 0x40000
    let off := a % 0x40000
    if 0x30000 ≤ off ∧ off < 0x38000 then aliasReg s c ((off - 0x30000) / 0x1000) (off % 0x1000) else .cav c off
  else if a < 0x400000 then .gal ((a - 0x200000) / 0x10000) (a % 0x10000)
  else if a < 0x800000 ∨ 0x1000000 ≤ a then .nowhere
  else
    let l := (a - 0x800000) / 0x1000
    match physOf s l with
    | some p => .core p l (a % 0x1000)
    | none => .noCore l (a % 0x1000)

/-- The name of a register wherever it is reached from, as held writes and halves carry it. -/
def regKey (r : Reg) : Nat :=
  match r with
  | .chip off => off
  | .cav c off => 0x100000 + 0x40000 * c + off
  | .gal g off => 0x200000 + 0x10000 * g + off
  | .core p _ off => 0x1000000 + 0x1000 * p + off
  | .noCore l off => 0x800000 + 0x1000 * l + off
  | .shut c off => 0x130000 + 0x40000 * c + off
  | .nowhere => 0

/-- The block of a register's name. -/
def keyBlock (n : Nat) : Nat :=
  if n < 0x100000 then 0
  else if n < 0x200000 then 1 + (n - 0x100000) / 0x40000
  else if n < 0x400000 then 8 + (n - 0x200000) / 0x10000
  else n / 0x1000

/-- What the map says of a register: none when the offset is reserved; else whether every field is RO, and the bits that
are not reserved. -/
abbrev RegInfo := Option (Bool × Nat)

/-- A register of RO fields alone. -/
def roReg : RegInfo := some (true, 0xFFFFFFFF)

/-- A register with a writable field. -/
def rwReg (mask : Nat) : RegInfo := some (false, mask)

/-- Registers of a bundle (R427 to R430, R528). -/
def bundleInfo (off : Nat) : RegInfo :=
  if off % 4 ≠ 0 then none
  else if off = 0 then rwReg 0xF
  else if off = 4 then rwReg 0x3FFF
  else if off ≤ 0x20 then roReg
  else if off = 0x24 then rwReg 0xFFFF0F
  else none

/-- Registers and areas of the chip block (R529, R541). -/
def chipInfo (off : Nat) : RegInfo :=
  if off % 4 ≠ 0 then none
  else if off = 0 ∨ off = 4 ∨ off = 0x100 ∨ (0x200 ≤ off ∧ off ≤ 0x21C) then roReg
  else if off = 0x220 ∨ off = 0x224 then rwReg 0x77777777
  else if off = 0x228 then rwReg 0x1FF
  else if off = 0x22C then rwReg 0xFFFF
  else if off = 0x230 ∨ off = 0x304 ∨ off = 0x308 ∨ off = 0x404 ∨ off = 0x408 ∨ off = 0x504 ∨ off = 0x714 then roReg
  else if off = 0x300 then rwReg 0x1FFFF
  else if off = 0x310 then rwReg 0x1FF3FFF
  else if off = 0x314 then rwReg 0xFFFFFFF
  else if off = 0x400 then rwReg 0xFF
  else if off = 0x40C then rwReg 0xFFFF
  else if off = 0x410 then rwReg 0xFFFFFFF
  else if off = 0x500 then rwReg 0xFFFFFFFF
  else if off = 0x508 then rwReg 0x3FFFF
  else if off = 0x610 then rwReg 0x3FF01
  else if 0x614 ≤ off ∧ off ≤ 0x630 then rwReg 0xFFFFFFFF
  else if off = 0x640 then rwReg 3
  else if off = 0x700 then rwReg 0xFFFFFF
  else if off = 0x704 then rwReg 0x1FFF
  else if off = 0x708 then rwReg 0x303
  else if off = 0x70C ∨ off = 0x710 then rwReg 0xFFFFFFFF
  else if 0x800 ≤ off ∧ off < 0xA00 then bundleInfo (off % 0x40)
  else if off = 0xA00 then rwReg 0xFF
  else if 0x1000 ≤ off ∧ off < 0x1200 then rwReg 0x1FF3F
  else if (0x90000 ≤ off ∧ off ≤ 0x90DEC) ∨ (0x91000 ≤ off ∧ off ≤ 0x9179F) ∨ (0xA0000 ≤ off ∧ off < 0xE1000) then roReg
  else if 0xF0000 ≤ off then rwReg 0xFFFFFFFF
  else none

/-- The part of R540's registers that stands at +0x04 to +0x2C. -/
def rollInfo (off : Nat) : RegInfo := if off = 0 then rwReg 0x3FFF else if off = 0x0C then none else roReg

/-- Registers of a Cavern block (R541). -/
def cavInfo (off : Nat) : RegInfo :=
  if off % 4 ≠ 0 then none
  else if off = 0x100 then rwReg 0xFFF
  else if off = 0x104 then rwReg 0x77
  else if off = 0x108 then rwReg 0x3FF
  else if off = 0x10C ∨ off = 0x110 then roReg
  else if off = 0x300 then rwReg 0xFF3FFF
  else if 0x400 ≤ off ∧ off ≤ 0x41C then rwReg 0x7FF
  else if 0x500 ≤ off ∧ off ≤ 0x52C then rollInfo (off - 0x500)
  else if 0x20000 ≤ off ∧ off < 0x20000 + 0x40 * 544 then bundleInfo (off % 0x40)
  else none

/-- Registers of a Gallery block (R541). -/
def galInfo (off : Nat) : RegInfo :=
  if off % 4 ≠ 0 then none
  else if off = 0x100 ∨ off = 0x200 ∨ off = 0x204 ∨ off = 0x208 ∨ off = 0x30C ∨ off = 0x408 ∨ off = 0x40C ∨ off = 0x520 then roReg
  else if off = 0x104 then rwReg 0xFF7
  else if off = 0x108 ∨ off = 0x304 then rwReg 0xFFFFFF
  else if off = 0x300 then rwReg 0xFFF
  else if off = 0x308 then rwReg 0x3FFFFF
  else if off = 0x400 then rwReg 0x7FFFFFFF
  else if off = 0x404 then rwReg 0x7F
  else if off = 0x500 then rwReg 0xFF1FFF
  else if 0x600 ≤ off ∧ off ≤ 0x62C then rollInfo (off - 0x600)
  else none

/-- Registers of a core block (R541). -/
def coreInfo (off : Nat) : RegInfo :=
  if off % 4 ≠ 0 then none
  else if off = 0 ∨ off = 4 then roReg
  else if 0x100 ≤ off ∧ off ≤ 0x10C then rwReg 0x7FF
  else if 0x110 ≤ off ∧ off ≤ 0x12C then (if off % 8 = 0 then roReg else rwReg 0x1FFF)
  else if off = 0x130 then rwReg 0x1FF03FF
  else if off = 0x134 ∨ off = 0x138 then rwReg 0xFFFFFFFF
  else if off = 0x13C then rwReg 0xFFFFFF
  else if 0x140 ≤ off ∧ off ≤ 0x14C then rwReg 0x3FFF
  else if 0x150 ≤ off ∧ off ≤ 0x18C then rwReg 0x1FFFFF
  else if off = 0x200 then rwReg 1
  else if off = 0x204 then rwReg 0xFFF
  else if off = 0x208 ∨ (0x220 ≤ off ∧ off ≤ 0x23C) then roReg
  else if off = 0x240 then rwReg 0x3FF
  else if off = 0x260 then rwReg 0x1FF
  else if off = 0x280 then rwReg 3
  else if off = 0x284 then rwReg 0xFFF
  else if 0x288 ≤ off ∧ off ≤ 0x29C then roReg
  else if 0x2A0 ≤ off ∧ off ≤ 0x2BC then rwReg (if off % 8 = 0 then 0xFFFFFF else 0xFFFFFFFF)
  else if 0x2C0 ≤ off ∧ off ≤ 0x2CC then rwReg 0x7FFF
  else if off = 0x300 then rwReg 0xFFFFFFFF
  else if off = 0x304 then rwReg 0x1FF3F
  else if off = 0x308 then rwReg 0xFFFFFF
  else if 0x400 ≤ off ∧ off < 0x500 then rwReg (if off % 16 = 4 then 0x1FFFFFFF else 0xFFFFFFFF)
  else if 0x500 ≤ off ∧ off ≤ 0x53C then roReg
  else if off = 0x600 then rwReg 0x1FFFF
  else if off = 0x604 ∨ (0x640 ≤ off ∧ off ≤ 0x65C) then rwReg 0xFFFFFF
  else if off = 0x670 then rwReg 0x1FFF
  else if off = 0x680 ∨ off = 0x684 then roReg
  else if 0x700 ≤ off ∧ off < 0x780 then
    (if off % 16 = 0 then rwReg 0xFF7FFFFF else if off % 16 = 4 then rwReg 0x7FFFF else roReg)
  else if 0x780 ≤ off ∧ off ≤ 0x79C then roReg
  else if 0x7A0 ≤ off ∧ off ≤ 0x7BC then rwReg 0xFFFFFFFF
  else if off = 0x7C0 then rwReg 0x3F
  else if off = 0x7C4 then rwReg 0x7FFF
  else if off = 0x7C8 then rwReg 0xF3F
  else if off = 0x7CC ∨ off = 0x7E0 then rwReg 0xFFF
  else if off = 0x7D0 then rwReg 0x1FFFFFFF
  else if off = 0x7D4 ∨ off = 0x7D8 ∨ off = 0x7DC ∨ off = 0x7E4 ∨ off = 0x7E8 then rwReg 0xFFFFFFFF
  else if 0x7EC ≤ off ∧ off ≤ 0x7FC then roReg
  else if 0x800 ≤ off ∧ off < 0x1000 then rwReg 0x80FF80FF
  else none

/-- What the map says of a register. -/
def regInfo (r : Reg) : RegInfo :=
  match r with
  | .chip off => chipInfo off
  | .cav _ off => cavInfo off
  | .gal _ off => galInfo off
  | .core _ _ off => coreInfo off
  | .noCore _ off => coreInfo off
  | .shut _ _ => rwReg 0xFFFFFFFF
  | .nowhere => none

/-- The registers that the boot ROM serves (R462): the CHIP_ and CFG_ registers of the chip block and the load aperture. -/
def romServes (r : Reg) : Bool :=
  match r with
  | .chip off =>
    decide (off ≤ 0x100) || (decide (0x300 ≤ off) && decide (off ≤ 0x640)) || (decide (0x1000 ≤ off) && decide (off < 0x1200)) ||
    decide (0xF0000 ≤ off)
  | _ => false

/-- CORE_PORT_ID and CORE_PORT_STATUS are excepted from step 3 of R533 (R16). -/
def isPort (r : Reg) : Bool :=
  match r with
  | .core _ _ off => decide (off ≤ 4)
  | .noCore _ off => decide (off ≤ 4)
  | _ => false

/-- The target of an access is unreachable (R533 step 3). -/
def unreachable (s : State) (r : Reg) : Bool :=
  !isPort r &&
  match r with
  | .core p _ _ => !gateOn s p
  | .noCore _ _ => true
  | _ => false

/-- Steps 1 to 3 of R533 and R534: a read is not judged on privilege. -/
def accessCheck (s : State) (r : Reg) (write hand : Bool) : Status :=
  match r with
  | .shut _ _ => .badState
  | _ =>
    match regInfo r with
    | none => .badValue
    | some (ro, _) =>
      let isHand := match r with
        | .core _ _ off => off == 0x7E0
        | .noCore _ off => off == 0x7E0
        | _ => false
      if !s.boot.echo && !romServes r then .noAccess
      else if write && ((isHand && !hand) || ro) then .noAccess
      else if unreachable s r then .mappedOut
      else .done

/-- Four bytes as a word. -/
def word4 (f : Nat → Nat) (i : Nat) : Nat := packN 8 ((List.range 4).map fun j => f (i + j))

/-- Bits of the members of a list. -/
def bitsOf (l : List Nat) : Nat := l.foldl (fun n b => n + 2 ^ b) 0

/-- A roll-up register's value from the sums shown (R540): register x is 0 zero, 1 sat, 2 nar, 3 total. -/
def rollWord (r : Roll) (x : Nat) (hi : Bool) : Nat :=
  let v := match x with
    | 0 => r.zero
    | 1 => r.sat
    | 2 => r.nar
    | _ => r.total
  if hi then v / 2 ^ 32 else v % 2 ^ 32

/-- The roll-up a station shows: its capture, or the present one for the selected tag (R540). -/
def rollShown (x : RollUp) (forming : Bool) : Roll × Bool × Bool × Nat :=
  match x.capture with
  | some c => c
  | none => (Store.get Roll.init x.sums x.sel, x.incomplete, forming, x.day)

/-- A read of a roll-up register at +off (R540): a read of DAY_LO captures. -/
def readRoll (x : RollUp) (forming : Bool) (off : Nat) : Nat × RollUp :=
  let x := if off = 4 then
      { x with capture := some (Store.get Roll.init x.sums x.sel, x.incomplete, forming, x.day) }
    else x
  let (r, inc, form, day) := rollShown x forming
  let v :=
    if off = 0 then x.sel + 2 ^ 8 * r.full + 2 ^ 12 * b2n inc + 2 ^ 13 * b2n form
    else if off = 4 then day % 2 ^ 32
    else if off = 8 then day / 2 ^ 32
    else rollWord r ((off - 0x10) / 8) (off % 8 == 4)
  (v, x)

/-- A write of a station's SEL (R540). -/
def writeRollSel (x : RollUp) (v : Nat) : RollUp := { x with sel := fieldN v 0 8, capture := none }

/-- A bundle's registers (R427 to R430, R528). -/
def readBundle (x : Bundle) (off : Nat) : Nat :=
  if off = 0 then 4 * b2n x.auto + 8 * b2n x.spareAuto
  else if off = 4 then readSumpStatus x
  else if off < 0x14 then readBad x.up ((off - 8) / 4)
  else if off < 0x20 then readBad x.down ((off - 0x14) / 4)
  else if off = 0x20 then x.corrDay + 2 ^ 16 * x.uncorrDay
  else readLoop x

/-- CHIP_SLOTs (R341). -/
def readSlot (x : Slot) : Nat :=
  b2n x.enable + 2 * b2n x.offDie + 4 * slotState x + 16 * b2n x.parity + 256 * x.orLast + 2 ^ 16 * b2n x.andLast

/-- The store that CFG_BS_PAGE selects, and the byte of an aperture offset (R480). -/
def apertureByte (s : State) (off : Nat) : Nat :=
  let i := s.cfg.page * 65536 + off
  if s.cfg.target then stByte s.cfg.echoBuf i ^^^ fieldN (eccData (Store.get 0 s.cfg.echoUpsets (i / 8))) (8 * (i % 8)) 8
  else stByte s.cfg.staging i

/-- A read of the chip block. -/
def readChip (s : State) (off : Nat) : Nat :=
  if off = 0 then 0x204801A1
  else if off = 4 then s.boot.idState
  else if off = 0x100 then 0x200 + 0x20 * 2 ^ 11 + 8 * 2 ^ 18
  else if off < 0x220 then s.fuse.vtable.getD ((off - 0x200) / 4) 0
  else if off < 0x228 then packN 4 ((List.range 8).map fun i => s.pwr.phaseOp.getD (8 * ((off - 0x220) / 4) + i) 7)
  else if off = 0x228 then readPwrStatus s
  else if off = 0x22C then s.pwr.limitC + 2 ^ 8 * s.fuse.critC
  else if off = 0x230 then s.pwr.slopeFallsDay
  else if off = 0x300 then s.boot.stage + 2 ^ 8 * s.boot.status + 2 ^ 16 * b2n s.boot.busy
  else if off = 0x304 then s.boot.defState + 4 * s.boot.defClean + 32 * s.boot.defAgree
  else if off = 0x308 then s.boot.dieId
  else if off = 0x310 then readReset s
  else if off = 0x314 then 0
  else if off = 0x400 then s.cfg.page + 2 ^ 7 * b2n s.cfg.target
  else if off = 0x404 then s.cfg.bsState + 4 * s.cfg.fail + 2 ^ 10 * s.cfg.frame + 2 ^ 21 * s.cfg.record
  else if off = 0x408 then s.cfg.gen
  else if off = 0x40C then 2 ^ 6 * b2n s.cfg.pending.isSome + 2 ^ 7 * b2n s.cfg.partialSeen + 2 ^ 8 * s.cfg.rlStatus
  else if off = 0x410 then s.cfg.fixesDay + 2 ^ 16 * b2n s.cfg.faultedSeen + 2 ^ 17 * s.cfg.faultFrame
  else if off = 0x500 then s.log.head
  else if off = 0x504 then s.log.tail
  else if off = 0x508 then readLogStatus s
  else if off = 0x610 then readAttest s
  else if off < 0x640 then s.attest.nonce.getD ((off - 0x614) / 4) 0
  else if off = 0x640 then readTest s
  else if off = 0x700 then s.day.period
  else if off = 0x704 then s.day.twilight
  else if off = 0x708 then b2n s.day.run + 2 * b2n s.day.source + 2 ^ 8 * b2n s.day.markLost + 2 ^ 9 * b2n s.day.overrun
  else if off = 0x70C then s.day.number % 2 ^ 32
  else if off = 0x710 then
    match s.capture with
    | some h => h.value
    | none => s.day.number / 2 ^ 32
  else if off = 0x714 then dayNs s % 2 ^ 24
  else if off < 0xA00 then readBundle (bunAt s (2176 + (off - 0x800) / 0x40)) (off % 0x40)
  else if off = 0xA00 then s.pwr.margin
  else if off < 0x1200 then readSlot (slotAt s ((off - 0x1000) / 4))
  else if off < 0x91000 then word4 (reportByte s) (off - 0x90000)
  else if off < 0xA0000 then word4 (keyByte s) (off - 0x91000)
  else if off < 0xE0000 then word4 (logByte s) (off - 0xA0000)
  else if off < 0xF0000 then (if s.boot.topoMade then word4 (fun i => Store.get 0 s.boot.topo i) (off - 0xE0000) else 0)
  else word4 (apertureByte s) (off - 0xF0000)

/-- A read of a Cavern block but for its roll-ups. -/
def readCav (s : State) (c off : Nat) : Nat :=
  let x := cavAt s c
  if off = 0x100 then readCavClk x s.mNow
  else if off = 0x104 then x.minOp + 16 * x.maxOp
  else if off = 0x108 then x.limitNext
  else if off = 0x10C then readPwrWin x
  else if off = 0x110 then x.energyDay
  else if off = 0x300 then 2 ^ 13 * b2n x.capPending.isSome + 2 ^ 16 * x.capStatus
  else if off < 0x500 then Store.get 0 x.aliases ((off - 0x400) / 4)
  else readBundle (bunAt s (544 * c + (off - 0x20000) / 0x40)) (off % 0x40)

/-- GAL_GANG_STATUS in A-cycle c (R124). -/
def readGangStatus (x : Gal) (c : Nat) : Nat :=
  let waiting := !x.rendezvous.isEmpty
  shownShape x c + 4 * b2n waiting + 16 * (if waiting then absentMember x else 0) + 2 ^ 10 * b2n x.gangFailed +
  2 ^ 11 * b2n x.gangPoisoned

/-- A read of a Gallery block but for its roll-ups. -/
def readGal (s : State) (g off : Nat) : Nat :=
  let x := galAt s g
  if off = 0x100 then 1 + 2 * x.held
  else if off = 0x104 then readGangStatus x (aNow s (g / 8))
  else if off = 0x108 then x.gangUnits
  else if off = 0x200 then x.epoch
  else if off = 0x204 then bitsOf (x.unsettled.filter (· < 32))
  else if off = 0x208 then bitsOf ((x.unsettled.filter (32 ≤ ·)).map (· - 32))
  else if off = 0x300 then x.ageThresh
  else if off = 0x304 then x.wdogUnits
  else if off = 0x308 then readWdogStatus x
  else if off = 0x30C then x.boostsDay
  else if off = 0x400 then readIssue s g
  else if off = 0x404 then x.margin + 2 ^ 6 * b2n x.tripped
  else if off = 0x408 then x.stretchedDay
  else if off = 0x40C then x.temp + 2 ^ 8 * x.maxTempDay
  else if off = 0x500 then readBist x.bist
  else readVeinErrs x

/-- CORE_PORT_STATUS of a physical core (R538). -/
def readPortStatus (s : State) (p l : Nat) : Nat :=
  let served := decide (l < 2048)
  packN 1 [b2n (gateOn s p), b2n (!served || inReset s l), b2n (s.boot.badCores.contains p), b2n (coreAt s p).gateShort,
           b2n (!served), b2n (served && isUnsettled s l)]

/-- CORE_RINGn and CORE_ADMITw registers (R253 to R257, R288 to R290). -/
def readRingWin (k : Core) (off : Nat) : Nat :=
  if off < 0x500 then
    let r := ringAt k ((off - 0x400) / 16)
    if off % 16 = 0 then readRingCfg r else if off % 16 = 4 then readRingProd r else if off % 16 = 8 then r.head else r.tail
  else if off < 0x540 then readRingCred (ringAt k ((off - 0x500) / 4))
  else
    let x := winAt k ((off - 0x700) / 16)
    if off % 16 = 0 then readWinCfg x else if off % 16 = 4 then readWinSrc x
    else if off % 16 = 8 then x.outst + 2 ^ 11 * x.withheld else x.arrived

/-- The queue and context registers of a core (R375 to R380, R209 to R211). -/
def readQueueCtx (s : State) (l : Nat) (k : Core) (off : Nat) : Nat :=
  if off < 0x110 then readQstat s l k ((off - 0x100) / 4)
  else if off < 0x130 then
    let q := (off - 0x110) / 8
    if off % 8 = 0 then (queueAt k q).failSlot else readQfailst k q
  else if off = 0x130 then readCtxOp k
  else if off = 0x134 then k.op.img % 2 ^ 32
  else if off = 0x138 then k.op.img / 2 ^ 32
  else if off = 0x13C then k.op.units
  else if off < 0x150 then readCtxState k ((off - 0x140) / 4)
  else if off < 0x190 then
    let r := (ctxAt k ((off - 0x150) / 16)).pools.getD (off % 16 / 4) (0, 0)
    r.1 + 2 ^ 10 * r.2
  else if off < 0x2C0 then
    let x := ctxAt k ((off - 0x2A0) / 8)
    if off % 8 = 0 then readGradScale x else readVerdict x
  else readVerdictState (ctxAt k ((off - 0x2C0) / 4))

/-- Sync-unit registers of a core (R332 to R340), but for captures. -/
def readSync (s : State) (k : Core) (l off : Nat) : Nat :=
  let y := k.sync
  let c := cntAt k y.selCounter
  if off < 0x7A0 then
    let j := (off - 0x780) / 4
    bitsOf ((y.flags.filter fun f => f / 32 == j).map (· % 32))
  else if off < 0x7C0 then
    let j := (off - 0x7A0) / 4
    bitsOf ((y.policy.filter fun f => f / 32 == j).map (· % 32))
  else if off = 0x7C0 then
    packN 1 [b2n y.overrunSeen, b2n y.cntOverrunSeen, b2n y.timeoutSeen, b2n y.brokenSeen, b2n y.abandonedSeen, b2n y.handSeen]
  else if off = 0x7C4 then b2n y.ovr.valid + 2 * y.ovr.flag + 2 ^ 9 * y.ovr.setter + 2 ^ 13 * y.ovr.ctx
  else if off = 0x7C8 then y.selCounter + 2 ^ 8 * y.selGroup
  else if off = 0x7CC then readCntCfg c
  else if off = 0x7D0 then readCntProd c
  else if off = 0x7D4 then c.bound
  else if off = 0x7D8 then c.value.toNat % 2 ^ 32
  else if off = 0x7DC then y.cntCapture.getD (c.value.toNat / 2 ^ 32)
  else if off = 0x7E0 then 0
  else if off = 0x7E4 then y.handVal.toNat % 2 ^ 32
  else if off = 0x7E8 then y.handVal.toNat / 2 ^ 32
  else if off = 0x7EC then packN 4 ((List.range 8).map fun i => membMask s (8 * y.selGroup + i) l)
  else if off < 0x800 then readRel (ctxAt k ((off - 0x7F0) / 4))
  else
    let x := ctxAt k ((off - 0x800) / 0x200)
    let v := (off - 0x800) % 0x200 / 4
    Store.get 0 x.xlat (2 * v) + 2 ^ 16 * Store.get 0 x.xlat (2 * v + 1)

/-- A read of a core block but for CORE_PORT_ID and captures. -/
def readCore (s : State) (p l off : Nat) : Nat :=
  let k := settleLate (coreAt s p) (cycleOf s l)
  let t := shownTag k
  if off = 4 then readPortStatus s p l
  else if off < 0x190 then readQueueCtx s l k off
  else if off = 0x200 then b2n k.tile.checkMode
  else if off = 0x204 then readTileStatus s p l
  else if off = 0x208 then k.repair.1 + 2 ^ 8 * k.repair.2
  else if off < 0x240 then readDesc s p l ((off - 0x220) / 4)
  else if off = 0x240 then readOutStatus s p l
  else if off = 0x260 then readVecStatus s p l
  else if off = 0x280 then b2n k.census.narSeen + 2 * b2n k.census.satSeen
  else if off = 0x284 then k.census.sel + 2 ^ 8 * t.full
  else if off = 0x288 then s.day.shadowDay % 2 ^ 32
  else if off = 0x28C then s.day.shadowDay / 2 ^ 32
  else if off = 0x290 then t.zero
  else if off = 0x294 then t.sat
  else if off = 0x298 then t.nar
  else if off = 0x29C then t.total
  else if off < 0x300 then readQueueCtx s l k off
  else if off = 0x300 then readPoolPwr k (cycleOf s l)
  else if off = 0x304 then readPoolStatus s p l
  else if off = 0x308 then k.pool.sbUnits
  else if off < 0x600 then readRingWin k off
  else if off = 0x600 then readMoveStatus k
  else if off = 0x604 then k.mv.units
  else if off < 0x670 then readAllot k ((off - 0x640) / 16 + 2) (off % 16 / 4)
  else if off = 0x670 then readShareStatus k
  else if off = 0x680 then readEcc k
  else if off = 0x684 then readEcc2 k
  else if off < 0x780 then readRingWin k off
  else readSync s k l off

/-- A read that passed its checks: the word, and the state after a capture, or after a free value where the spec
states no value (R534, R535, R538, R540). Free values: log 10, 34. -/
def regRead (s : State) (r : Reg) : Nat × State :=
  match r with
  | .chip off =>
    let s := if 0xA0000 ≤ off ∧ off < 0xE0000 then loseRecord s (off - 0xA0000)
      else if 0xF0000 ≤ off ∧ s.cfg.target then loseEcho s ((s.cfg.page * 65536 + (off - 0xF0000)) / 8) else s
    let v := readChip s off
    if off = 0x70C then (v, { s with capture := some { addr := off, value := s.day.number / 2 ^ 32 } })
    else if off = 0x710 then (v, { s with capture := none })
    else (v, s)
  | .cav c off =>
    if 0x500 ≤ off ∧ off < 0x600 then
      let (v, x) := readRoll (cavAt s c).roll s.day.rollForming (off - 0x500)
      (v, updCav s c fun y => { y with roll := x })
    else (readCav s c off, s)
  | .gal g off =>
    if 0x600 ≤ off then
      let (v, x) := readRoll (galAt s g).roll s.day.rollForming (off - 0x600)
      (v, updGal s g fun y => { y with roll := x })
    else (readGal s g off, s)
  | .core p l off =>
    if off = 0 then
      if l < 2048 then (p + 2 ^ 12 * l + 2 ^ 23, s)
      else
        let (x, s) := drawFree s
        (p + 2 ^ 12 * (x % 2048), s)
    else if off = 0x7D8 then
      (readCore s p l off, updCore s p fun k => { k with sync := { k.sync with
        cntCapture := some ((cntAt k k.sync.selCounter).value.toNat / 2 ^ 32) } })
    else if off = 0x7DC then
      (readCore s p l off, updCore s p fun k => { k with sync := { k.sync with cntCapture := none } })
    else (readCore s p l off, s)
  | .noCore _ off =>
    if off = 0 then
      let (x, s) := drawFree s
      (0xFFF + 2 ^ 12 * (x % 2048), s)
    else (0x10, s)
  | _ => (0, s)

/-- Writes to these registers wait for the next Dusk while DAY_CTRL.run is 1 (R24, R341, R401, R403, R439, R460). -/
def isHeldReg (r : Reg) : Bool :=
  match r with
  | .chip off => off == 0x700 || off == 0x704 || off == 0x220 || off == 0x224 || (decide (0x1000 ≤ off) && decide (off < 0x1200))
  | .cav _ off => off == 0x104
  | .gal _ off => off == 0x300 || off == 0x304 || off == 0x404
  | .core _ _ off => decide (0x640 ≤ off) && decide (off ≤ 0x65C)
  | _ => false

/-- The value a register's pending write will leave, else its present one (R24, R401). -/
def pendingOr (s : State) (key present : Nat) : Nat :=
  match s.held.reverse.find? fun w => w.addr == key with
  | some w => w.value.toNat
  | none => present

/-- The checks of a register whose write can wait for Dusk (R23, R24, R341, R401, R403, R452, R460, R519). -/
def heldCheck (s : State) (r : Reg) (v : Nat) : Status :=
  match r with
  | .chip off =>
    if off = 0x700 then
      (if v < 1000 ∨ v < 4 * pendingOr s 0x704 s.day.twilight then .badValue else .done)
    else if off = 0x704 then
      (if v < 32 ∨ 4096 < v ∨ pendingOr s 0x700 s.day.period < 4 * v then .badValue else .done)
    else if 0x1000 ≤ off ∧ off < 0x1200 then
      let x := slotAt s ((off - 0x1000) / 4)
      if (bitN v 5 ∧ slotState x ≠ 2) ∨ (bitN v 1 ∧ s.tap.standalone) then .badState else .done
    else .done
  | .cav _ _ => if fieldN v 4 3 < fieldN v 0 3 then .badValue else .done
  | .gal _ off =>
    if off = 0x300 then (if v < 8 then .badValue else .done)
    else if off = 0x304 then (if v = 0 then .badValue else .done)
    else if fieldN v 0 6 < 4 ∨ 40 < fieldN v 0 6 then .badValue else .done
  | .core p _ off =>
    let k := coreAt s p
    let q := (off - 0x640) / 16 + 2
    let other (j : Nat) : Nat := pendingOr s (regKey (.core p 0 (0x640 + 16 * (q - 2) + 4 * j))) (readAllot k q j)
    if (off % 16 = 8 ∧ other 3 < v) ∨ (off % 16 = 12 ∧ v < other 2) then .badValue else .done
  | _ => .done

/-- A register write that could wait for Dusk takes effect; the register is named as in PendWrite. -/
def applyHeld (s : State) (key v : Nat) : State :=
  if key = 0x700 then { s with day := { s.day with period := v } }
  else if key = 0x704 then { s with day := { s.day with twilight := v } }
  else if key = 0x220 then applyPhaseOp s 0 v
  else if key = 0x224 then applyPhaseOp s 1 v
  else if key < 0x1200 then applySlotWord s ((key - 0x1000) / 4) v
  else if key < 0x200000 then applyOpLim s ((key - 0x100000) / 0x40000) v
  else if key < 0x400000 then
    let g := (key - 0x200000) / 0x10000
    updGal s g fun x =>
      if key % 0x10000 = 0x300 then { x with ageThresh := v }
      else if key % 0x10000 = 0x304 then { x with wdogUnits := v }
      else { x with margin := fieldN v 0 6 }
  else
    let off := key % 0x1000
    applyAllot s ((key - 0x1000000) / 0x1000) ((off - 0x640) / 16 + 2) (off % 16 / 4) v

/-- Every held write takes effect in the order of arrival (R24, R29 step 3). -/
def takeHeld (s : State) : State :=
  s.held.foldl (fun s w => applyHeld s w.addr w.value.toNat) { s with held := [] }

/-- A write of DAY_CTRL (R25, R26, R24, R519, R552). -/
def writeDayCtrl (s : State) (v : Nat) : Status × State :=
  let run := bitN v 0
  let src := bitN v 1
  if (s.day.run && src != s.day.source) || (s.tap.standalone && src) then (.badState, s)
  else
    let d := { s.day with markLost := s.day.markLost && !bitN v 8, overrun := s.day.overrun && !bitN v 9, source := src }
    let s := { s with day := d }
    if run && !d.run then
      (.done, { s with day := { d with
        run := true, inForce := false, ns := 0, gate := false, breakCores := [], localDusk := false } })
    else if !run && d.run then
      let s := { s with day := { d with
        run := false, inForce := false, ns := 0, gate := false, breakCores := [], localDusk := false } }
      (.done, takeHeld s)
    else (.done, s)

/-- A write of CORE_CNT_CFG, _PROD or _BOUND of the selected counter (R336). -/
def writeCnt (s : State) (p l off v : Nat) : Status × State :=
  let k := coreAt s p
  let n := k.sync.selCounter
  let x := cntAt k n
  if x.enable then
    if off = 0x7CC ∧ !bitN v 0 ∧ fieldN v 1 10 = fieldN (readCntCfg x) 1 10 then
      (.done, setCore s p (setCnt k n { x with enable := false }))
    else (.badState, s)
  else if off = 0x7D0 then (.done, setCore s p (setCnt k n (cntWith x (readCntCfg x) v x.bound)))
  else if off = 0x7D4 then (.done, setCore s p (setCnt k n { x with bound := v }))
  else
    let y := cntWith x v (readCntProd x) x.bound
    let z := cntAt k y.partner
    if !y.enable then (.done, setCore s p (setCnt k n y))
    else if y.bound = 0 ∨ !producerFieldsOk s l y.kind y.die y.core ∨ (y.partnerEn ∧ (!y.mono ∨ y.partner = n)) then (.badValue, s)
    else if y.partnerEn && !(z.enable && z.mono && z.owner == y.owner) then (.badState, s)
    else (.done, setCore s p (setCnt k n { y with abandoned := false }))

/-- A write of CORE_CNT_VAL_HI (R336, R535): with the staged low half, or the present one; a WAIT_CNT on the counter is evaluated again
(R315). -/
def writeCntHi (s : State) (p l off v : Nat) : Status × State :=
  let k := coreAt s p
  let n := k.sync.selCounter
  let x := cntAt k n
  let lo := match s.half with
    | some h => if h.addr = regKey (.core p 0 (off - 4)) then h.value else x.value.toNat % 2 ^ 32
    | none => x.value.toNat % 2 ^ 32
  let s := { s with half := none }
  if x.enable then (.badState, s)
  else (.done, wakeWaiters (setCore s p (setCnt k n { x with value := BitVec.ofNat 64 (lo + 2 ^ 32 * v) })) p l (cycleOf s l))

/-- A write of DAY_NUMBER_HI (R28, R535). -/
def writeDayHi (s : State) (v : Nat) : Status × State :=
  let lo := match s.half with
    | some h => if h.addr = 0x70C then h.value else s.day.number % 2 ^ 32
    | none => s.day.number % 2 ^ 32
  let s := { s with half := none }
  if s.day.run then (.badState, s) else (.done, { s with day := { s.day with number := lo + 2 ^ 32 * v } })

/-- A write of CAV_CAPACITY (R381): operation, Gallery, row, column. -/
def writeCapacity (s : State) (c v : Nat) : Status × State :=
  let op := fieldN v 0 3
  let g := fieldN v 3 3
  let y := fieldN v 6 2
  let col := fieldN v 8 5
  let x := cavAt s c
  let out := (galAt s (8 * c + g)).outCol.getD y 16
  if 4 < op ∨ 16 < col then (.badValue, s)
  else if op ≠ 0 ∧ x.capPending.isSome then (.busy, s)
  else if (op = 1 ∧ out ≠ 16) ∨ (op = 2 ∧ out = 16) ∨ (op = 3 ∧ x.offline) ∨ (op = 4 ∧ !x.offline) then (.badState, s)
  else (.done, updCav s c fun x => { x with capPending := if op = 0 then none else some (op, g, y, col) })

/-- A write of an aperture word into the selected store (R480). -/
def writeAperture (s : State) (off v : Nat) : Status × State :=
  let i := s.cfg.page * 65536 + off
  if s.cfg.target then (.done, { s with cfg := { s.cfg with
    echoBuf := stPut s.cfg.echoBuf i v, echoUpsets := Store.set 0 s.cfg.echoUpsets (i / 8) 0 } })
  else if 2 ≤ s.cfg.bsState then (.badState, s)
  else (.done, { s with cfg := { s.cfg with
    staging := stPut s.cfg.staging i v, bsState := 1, stagingUpsets := Store.set 0 s.cfg.stagingUpsets (i / 8) 0 } })

/-- A write of a bundle's register (R427, R428, R528). -/
def writeBundle (s : State) (b off v : Nat) : Status × State :=
  if off = 0 then writeSumpCtrl s b v else if off = 4 then writeSumpStatus s b v else writeLoop s b v

/-- A write of a chip register: its own checks and effect (R533 steps 4 and 5). -/
def writeChip (s : State) (off v : Nat) : Status × State :=
  if off = 0x228 then
    (.done, { s with pwr := { s.pwr with
      mismatchSeen := s.pwr.mismatchSeen && !bitN v 4, railMissingSeen := s.pwr.railMissingSeen && !bitN v 5,
      thermSeen := s.pwr.thermSeen && !bitN v 6, critSeen := s.pwr.critSeen && !bitN v 7,
      slopeFallSeen := s.pwr.slopeFallSeen && !bitN v 8 } })
  else if off = 0x22C then
    if fieldN v 0 8 < 60 ∨ 115 < fieldN v 0 8 then (.badValue, s)
    else (.done, { s with pwr := { s.pwr with limitC := fieldN v 0 8 } })
  else if off = 0x310 then writeReset s v
  else if off = 0x314 then writePeerDown s v
  else if off = 0x400 then
    if (if bitN v 7 then 16 else 64) < fieldN v 0 7 then (.badValue, s)
    else (.done, { s with cfg := { s.cfg with page := fieldN v 0 7, target := bitN v 7 } })
  else if off = 0x410 then (.done, { s with cfg := { s.cfg with faultedSeen := s.cfg.faultedSeen && !bitN v 16 } })
  else if off = 0x500 then writeLogHead s v
  else if off = 0x508 then writeLogStatus s v
  else if off = 0x610 then writeAttest s v
  else if off < 0x640 then
    (.done, { s with attest := { s.attest with nonce := listPut s.attest.nonce ((off - 0x614) / 4) v } })
  else if off = 0x640 then writeTest s v
  else if off = 0x708 then writeDayCtrl s v
  else if off = 0x70C then (.done, { s with half := some { addr := 0x70C, value := v } })
  else if off = 0x710 then writeDayHi s v
  else if off < 0xA00 then writeBundle s (2176 + (off - 0x800) / 0x40) (off % 0x40) v
  else if off = 0xA00 then
    if v = 0 then (.badValue, s) else (.done, { s with pwr := { s.pwr with margin := v } })
  else writeAperture s (off - 0xF0000) v

/-- A write of a Cavern register. -/
def writeCav (s : State) (c off v : Nat) : Status × State :=
  if off = 0x100 then (.done, updCav s c fun x => { x with refLostSeen := x.refLostSeen && !bitN v 10 })
  else if off = 0x108 then
    if v < 16 ∨ 400 < v then (.badValue, s) else (.done, updCav s c fun x => { x with limitNext := v })
  else if off = 0x300 then writeCapacity s c v
  else if off < 0x500 then
    if 67 < fieldN v 0 7 then (.badValue, s)
    else (.done, updCav s c fun x => { x with aliases := Store.set 0 x.aliases ((off - 0x400) / 4) v })
  else if off = 0x500 then (.done, updCav s c fun x => { x with roll := writeRollSel x.roll v })
  else writeBundle s (544 * c + (off - 0x20000) / 0x40) (off % 0x40) v

/-- A write of a Gallery register. -/
def writeGal (s : State) (g off v : Nat) : Status × State :=
  if off = 0x104 then (.done, updGal s g fun x =>
    { x with gangFailed := x.gangFailed && !bitN v 10, gangPoisoned := x.gangPoisoned && !bitN v 11 })
  else if off = 0x108 then
    if v = 0 then (.badValue, s) else (.done, updGal s g fun x => { x with gangUnits := v })
  else if off = 0x308 then (.done, updGal s g fun x => { x with wdogSeen := x.wdogSeen && !bitN v 21 })
  else if off = 0x400 then writeIssue s g v
  else if off = 0x500 then writeBist s g v
  else (.done, updGal s g fun x => { x with roll := writeRollSel x.roll v })

/-- Status bits of a core written as one to clear (R104, R165, R193, R194, R251, R286, R333, R334). -/
def clearSeen (k : Core) (off v : Nat) : Core :=
  if off = 0x204 then { k with tile := { k.tile with
    mismatch := k.tile.mismatch && !bitN v 2, unchecked := k.tile.unchecked && !bitN v 3 } }
  else if off = 0x240 then { k with outp := { k.outp with
    poisonedSeen := k.outp.poisonedSeen && !bitN v 8, conflictSeen := k.outp.conflictSeen && !bitN v 9 } }
  else if off = 0x260 then { k with vec := { k.vec with
    conflictSeen := k.vec.conflictSeen && !bitN v 7, poisonedSeen := k.vec.poisonedSeen && !bitN v 8 } }
  else if off = 0x280 then { k with census := { k.census with
    narSeen := k.census.narSeen && !bitN v 0, satSeen := k.census.satSeen && !bitN v 1 } }
  else if off = 0x304 then { k with pool := { k.pool with
    conflictSeen := k.pool.conflictSeen && !bitN v 0, reservedHit := k.pool.reservedHit && !bitN v 1,
    uncreditedSeen := k.pool.uncreditedSeen && !bitN v 2, sbTimeoutSeen := k.pool.sbTimeoutSeen && !bitN v 3,
    uncorrSeen := k.pool.uncorrSeen && !bitN v 4, abandonedSeen := k.pool.abandonedSeen && !bitN v 5 } }
  else if off = 0x600 then { k with mv := { k.mv with
    timeoutSeen := k.mv.timeoutSeen && !bitN v 12, bouncedSeen := k.mv.bouncedSeen && !bitN v 13,
    poisonedSeen := k.mv.poisonedSeen && !bitN v 14, credFull := k.mv.credFull && !bitN v 15,
    fencedSeen := k.mv.fencedSeen && !bitN v 16 } }
  else if off = 0x7C0 then { k with sync := { k.sync with
    overrunSeen := k.sync.overrunSeen && !bitN v 0, cntOverrunSeen := k.sync.cntOverrunSeen && !bitN v 1,
    timeoutSeen := k.sync.timeoutSeen && !bitN v 2, brokenSeen := k.sync.brokenSeen && !bitN v 3,
    abandonedSeen := k.sync.abandonedSeen && !bitN v 4, handSeen := k.sync.handSeen && !bitN v 5 } }
  else { k with sync := { k.sync with ovr := { k.sync.ovr with valid := k.sync.ovr.valid && !bitN v 0 } } }

/-- A wait limit in units of 256 cycles (R125, R252, R287, R378): 0 is rejected. -/
def writeUnits (s : State) (p v : Nat) (f : Core → Core) : Status × State :=
  if v = 0 then (.badValue, s) else (.done, updCore s p f)

/-- A write of CORE_XLATc_k (R340): its two entries. One that makes two valid entries of the core's tables name the same
physical flag is rejected (R295). -/
def writeXlat (s : State) (p off v : Nat) : Status × State :=
  let c := (off - 0x800) / 0x200
  let n := (off - 0x800) % 0x200 / 4
  let t := updCtx s p c fun x =>
    { x with xlat := Store.set 0 (Store.set 0 x.xlat (2 * n) (fieldN v 0 16)) (2 * n + 1) (fieldN v 16 16) }
  if ((List.range 4).flatMap fun o => xlatFlags (ctxAt (coreAt t p) o)).Nodup then (.done, t) else (.badValue, s)

/-- Sync-unit register writes of a core but for CORE_HAND (R332 to R337). -/
def writeSync (s : State) (p l off v : Nat) : Status × State :=
  if off < 0x7C0 then
    let j := (off - 0x7A0) / 4
    (.done, updCore s p fun k => { k with sync := { k.sync with
      policy := (List.range 32).foldl (fun q b => if bitN v b then setInsert q (32 * j + b) else setErase q (32 * j + b)) k.sync.policy } })
  else if off ≤ 0x7C4 then (.done, updCore s p fun k => clearSeen k off v)
  else if off = 0x7C8 then
    (.done, updCore s p fun k => { k with sync := { k.sync with selCounter := fieldN v 0 6, selGroup := fieldN v 8 4 } })
  else if off ≤ 0x7D4 then writeCnt s p l off v
  else if off = 0x7D8 then (.done, { s with half := some { addr := regKey (.core p 0 off), value := v } })
  else if off = 0x7DC then writeCntHi s p l off v
  else if off = 0x7E4 then (.done, updCore s p fun k => { k with sync := { k.sync with
    handVal := BitVec.ofNat 64 (putField k.sync.handVal.toNat 0 32 v) } })
  else if off = 0x7E8 then (.done, updCore s p fun k => { k with sync := { k.sync with
    handVal := BitVec.ofNat 64 (putField k.sync.handVal.toNat 32 32 v) } })
  else writeXlat s p off v

/-- A write of a core register but for CORE_HAND and the allotments; the effects of earlier cycles have come about. -/
def writeCore (s : State) (p l off v : Nat) : Status × State :=
  let s := catchUp s p (cycleOf s l)
  if off < 0x110 then writeQstat s p l ((off - 0x100) / 4) v
  else if off < 0x130 then writeQfailst s p ((off - 0x110) / 8) v
  else if off = 0x130 then writeCtxOp s p l v
  else if off = 0x134 then (.done, updCore s p fun k => { k with op := { k.op with img := putField k.op.img 0 32 v } })
  else if off = 0x138 then (.done, updCore s p fun k => { k with op := { k.op with img := putField k.op.img 32 32 v } })
  else if off = 0x13C then writeUnits s p v fun k => { k with op := { k.op with units := v } }
  else if off < 0x150 then writeCtxState s p ((off - 0x140) / 4) v
  else if off < 0x190 then writeCtxPool s p ((off - 0x150) / 16) (off % 16 / 4) v
  else if off = 0x200 then writeTileCtrl s p l v
  else if off = 0x284 then (.done, updCore s p fun k => { k with census := { k.census with sel := fieldN v 0 8 } })
  else if off < 0x2A0 then (.done, updCore s p fun k => clearSeen k off v)
  else if off < 0x2C0 then
    if off % 8 = 0 then writeGradScale s p ((off - 0x2A0) / 8) v else writeVerdict s p ((off - 0x2A0) / 8) v
  else if off < 0x300 then writeVerdictState s p ((off - 0x2C0) / 4) v
  else if off = 0x300 then writePoolPwr s p l v
  else if off = 0x304 then (.done, updCore s p fun k => clearSeen k off v)
  else if off = 0x308 then writeUnits s p v fun k => { k with pool := { k.pool with sbUnits := v } }
  else if off < 0x500 then
    let n := (off - 0x400) / 16
    if off % 16 = 0 then writeRingCfg s p l n v
    else if off % 16 = 4 then writeRingProd s p n v
    else writeRingPtr s p n v (off % 16 == 12)
  else if off = 0x600 then (.done, updCore s p fun k => clearSeen k off v)
  else if off = 0x604 then writeUnits s p v fun k => { k with mv := { k.mv with units := v } }
  else if off = 0x670 then writeShareStatus s p v
  else if off < 0x780 then
    if off % 16 = 0 then writeWinCfg s p l ((off - 0x700) / 16) v else writeWinSrc s p ((off - 0x700) / 16) v
  else writeSync s p l off v

/-- The name under which `Core.hw` keeps a core register: the counter registers by the counter selected. -/
def hwKey (k : Core) (off : Nat) : Nat := if 0x7CC ≤ off ∧ off ≤ 0x7DC then 0x10000 + k.sync.selCounter else off

/-- The part has changed an RWH field of a register in the present M-cycle (R9, R17, R208). -/
def hwHit (s : State) (r : Reg) : Bool :=
  match r with
  | .core p _ off => (coreAt s p).hw.contains (hwKey (coreAt s p) off, s.mNow)
  | .chip off => (off == 0x70C || off == 0x710) && s.day.numberAt == some s.mNow
  | _ => false

/-- Step 5 of R533: a write that passes every other check meets a change of the register by the part in its M-cycle, and is
rejected. -/
def rejectBusy (s : State) (r : Reg) (x : Status × State) : Status × State :=
  if x.1 = .done ∧ hwHit s r then (.busy, s) else x

/-- Step 4 of R533 for a register: R8, its own checks, and its effect, or its wait for Dusk. -/
def regEffect (s : State) (r : Reg) (v : Nat) : Status × State :=
  match regInfo r with
  | none => (.badValue, s)
  | some (_, mask) =>
    if v &&& mask ≠ v then (.badValue, s)
    else if isHeldReg r then
      match heldCheck s r v with
      | .done =>
        if s.day.run then (.done, { s with held := s.held ++ [{ addr := regKey r, value := BitVec.ofNat 32 v }] })
        else (.done, applyHeld s (regKey r) v)
      | st => (st, s)
    else
      match r with
      | .chip off => writeChip s off v
      | .cav c off => writeCav s c off v
      | .gal g off => writeGal s g off v
      | .core p l off => writeCore s p l off v
      | _ => (.badState, s)

/-- Steps 4 and 5 of R533 for a register. -/
def regWrite (s : State) (r : Reg) (v : Nat) : Status × State := rejectBusy s r (regEffect s r v)

end Sys2Proof.Machine
end

