-- ==== Sys2Proof/Machine/Boot.lean ====
section
/-!
DEFINITION. Power-up, the Echo image, the configuration bit-stream and the CHIP_BOOT commands (15_bringup_config_reset R461
to R486, 18_physical_and_ordering R545).
-/

namespace Sys2Proof.Machine

/-- The map that two of the readable copies agree on (R482). -/
def resolveCopies (cs : List (Option (List Nat × Store (Nat × Nat)))) : Option (List Nat × Store (Nat × Nat)) :=
  let xs := cs.filterMap id
  xs.find? fun x => decide (2 ≤ (xs.filter (· == x)).length)

/-- Bits k of the copies that satisfy a test. -/
def copyBits (cs : List (Option (List Nat × Store (Nat × Nat)))) (f : Option (List Nat × Store (Nat × Nat)) → Bool) : Nat :=
  bitsOf ((List.range 3).filter fun k => f (cs.getD k none))

/-- The fuse reader resolves the defect map (R482): the odd or bad copy of a resolved map is logged. -/
def readDefects (s : State) : State :=
  let cs := s.fuse.copies
  let clean := copyBits cs Option.isSome
  match resolveCopies cs with
  | none => { s with boot := { s.boot with defState := 2, defClean := clean, defAgree := 0, badCores := [], repairs := [] } }
  | some m =>
    let agree := copyBits cs fun c => c == some m
    let s := { s with boot := { s.boot with
      defState := 1, defClean := clean, defAgree := agree, badCores := m.1, repairs := m.2 } }
    let s := m.2.foldl (fun s e => updCore s e.1 fun k => { k with repair := e.2 }) s
    ((List.range 3).filter fun k => !bitN agree k).foldl (fun s k => logChip s 9 .done false [(1, k)]) s

/-- The text "JY2048-ID" of R511. -/
def idText : List Byte := [0x4A, 0x59, 0x32, 0x30, 0x34, 0x38, 0x2D, 0x49, 0x44]

/-- The identity unit derives the device key (R511, R512). -/
def deriveKey (s : State) : State :=
  match s.fuse.pufKey with
  | none => logChip { s with boot := { s.boot with idState := 2 } } 12 .done true []
  | some puf =>
    let xi := digest 32 (idText ++ bytesOf s.fuse.seed.toNat 32 ++ bytesOf puf.toNat 32)
    let key := BitVec.ofNat 256 (ofBytes xi)
    let ok := digest 32 (Config.mldsaPublic key) == bytesOf s.fuse.deviceKey.toNat 32
    let s := { s with boot := { s.boot with devKey := key, idState := if ok then 1 else 3 } }
    if ok then s else logChip s 12 .done true []

/-- Rails and reference present and POR_N released (R461, R482, R511). DEDUCED (log 23). -/
def execPowerUp (s : State) : Host.Outcome State Fault Refusal :=
  .next (
    if s.boot.powered then s
    else deriveKey (readDefects { s with boot := { s.boot with powered := true, refPresent := true } }))

/-- VDD_AON leaves its range, or POR_N falls during a die reset: every state is lost (R545); the fuses, and what was
already sent, stay. DEDUCED (log 23). -/
def execPowerDown (s : State) : Host.Outcome State Fault Refusal :=
  .next { State.reset with pending := s.pending, fuse := s.fuse, out := s.out, free := s.free }

/-- VDD_IN stays low: the part asserts a die reset itself, which takes effect and is reported (R545, R489, R490).
DEDUCED (log 22). -/
def execVddInLow (s : State) : Host.Outcome State Fault Refusal :=
  .next (
    if !s.boot.powered then s
    else
      let d := (3, 0)
      let on := if s.resets.asserted.contains d then s.resets.asserted else s.resets.asserted ++ [d]
      resetDomain { s with resets := { s.resets with asserted := on, taking := s.resets.taking.filter (· != d) } } d)

/-- VDD_SUMP leaves its range: every bundle with a link up or in training goes down (R545, R423). -/
def execVddSumpFault (s : State) : Host.Outcome State Fault Refusal :=
  .next (
    if !s.boot.powered then s
    else (s.bundles.map (·.1)).foldl (fun s b =>
      let st := (bunAt s b).state
      if 1 ≤ st ∧ st ≤ 3 then goDown s b 0 false else s) s)

/-- No byte of a range of a store is nonzero. -/
def rangeZero (st : Store Nat) (a n : Nat) : Bool := !st.any fun e => decide (a ≤ e.1) && decide (e.1 < a + n) && e.2 != 0

/-- The form of an Echo image (R466, R467 check 1). -/
def echoFormOk (st : Store Nat) : Bool :=
  let len := stWord st 8 4
  stWord st 0 4 == 0x4F484345 && stByte st 4 == 1 && rangeZero st 5 3 && rangeZero st 12 52 && rangeZero st 0x14CD 51 &&
  decide (4096 ≤ len) && decide (len ≤ 1048576) && len % 4096 == 0

/-- The digest d that the Echo image's signature covers (R466). -/
def echoDigestOf (st : Store Nat) : BitVec 512 := Config.shake256 (stBytes st 0 64 ++ stBytes st 0x1500 (stWord st 8 4))

/-- The vendor key of an image or bit-stream has the fused digest (R467, R471). -/
def keyFused (s : State) (st : Store Nat) : Bool := digest 32 (stBytes st 0x40 1952) == bytesOf s.fuse.vendorKey.toNat 32

/-- The signature of an image or bit-stream verifies over a digest (R466, R471). -/
def signedOk (st : Store Nat) (d : List Byte) : Bool := Config.mldsaVerify (stBytes st 0x40 1952) d (stBytes st 0x7E0 3309)

/-- The words of the Echo image that cannot be corrected (R502). -/
def echoLost (s : State) : List Nat :=
  ((s.cfg.echoUpsets.filter fun e => decide (8 * e.1 < 0x1500 + stWord s.cfg.echoBuf 8 4) && eccGrade e.2 == 2)).map (·.1)

/-- ECHO_START and ECHO_RELOAD verify the image buffer and start its code (R467); an image with a lost word has no signature that
verifies, and each such word is recorded (R502). DEDUCED (log 17). -/
def startEcho (s : State) : Status × State :=
  let st := s.cfg.echoBuf
  let d := echoDigestOf st
  if !(echoLost s).isEmpty then (.noAccess, (echoLost s).foldl loseEcho s)
  else if !echoFormOk st then (.badValue, s)
  else if !keyFused s st then (.noAccess, s)
  else if !signedOk st (bytesOf d.toNat 64) then (.noAccess, s)
  else (.done, { s with boot := { s.boot with echo := true, echoDigest := d, stage := max s.boot.stage 1 } })

/-- The header, the padding and the frame table's place (R469, R470). -/
def bsHeaderOk (st : Store Nat) : Bool :=
  let n := bsCount st
  stWord st 0 4 == 0x5342594A && stByte st 4 == 1 && decide (1 ≤ n) && decide (n ≤ 1024) && rangeZero st 14 2 &&
  stWord st 16 4 == bsFirst n + 4096 * n && stWord st 20 4 == 0x1500 && rangeZero st 24 40 && rangeZero st 0x14CD 51 &&
  rangeZero st (0x1500 + 24 * n) (bsFirst n - (0x1500 + 24 * n))

/-- The place of an entry in the table's order (R472). -/
def entryKey (e : FrameEntry) : Nat := e.ftype * 2 ^ 24 + e.scope * 2 ^ 16 + e.seq

/-- Entry j of the frame table has the form of R472. -/
def entryOk (st : Store Nat) (j : Nat) : Bool :=
  let e := bsEntry st j
  e.off == bsFirst (bsCount st) + 4096 * j && rangeZero st (0x1500 + 24 * j + 16) 8 && (decide (e.scope < 4) || e.scope == 15) &&
  (j == 0 || decide (entryKey (bsEntry st (j - 1)) < entryKey e))

/-- The types, scopes and sequence numbers of R474. -/
def typeScopeOk (e : FrameEntry) : Bool :=
  let chip := e.scope == 15 && e.seq == 0
  let cav := e.scope < 4
  match e.ftype with
  | 1 => chip
  | 2 => cav && decide (e.seq < 8)
  | 3 => chip || (cav && e.seq == 0)
  | 4 => cav && e.seq == 0
  | 5 => cav && decide (e.seq < 8)
  | 6 => chip || (cav && decide (e.seq < 16))
  | 7 => cav && decide (e.seq < 8)
  | 8 => chip || (cav && e.seq == 0)
  | 9 => chip
  | _ => false

/-- Frames whose payload is a list of records (R474). -/
def isRecordFrame (e : FrameEntry) : Bool :=
  (decide (3 ≤ e.ftype) && decide (e.ftype ≤ 5)) || (decide (7 ≤ e.ftype) && decide (e.ftype ≤ 9)) ||
  (e.ftype == 6 && e.scope == 15)

/-- The header of a frame agrees with its entry (R473). -/
def frameHeaderOk (st : Store Nat) (e : FrameEntry) : Bool :=
  stByte st e.off == e.ftype && stByte st (e.off + 1) == e.scope && stWord st (e.off + 2) 2 == e.seq &&
  stByte st (e.off + 4) == 1 && rangeZero st (e.off + 5) 1 && rangeZero st (e.off + 8) 8 &&
  (isRecordFrame e || stWord st (e.off + 6) 2 == 0)

/-- A record's address lies in a block within its frame's scope (R475). -/
def recInScope (e : FrameEntry) (a : Nat) : Bool :=
  let between (lo n : Nat) : Bool := decide (lo ≤ a) && decide (a < lo + n)
  if e.scope = 15 then decide (a < 0x100000)
  else if e.ftype = 5 ∨ e.ftype = 7 then
    let g := 8 * e.scope + e.seq
    between (0x200000 + 0x10000 * g) 0x10000 || between (0x800000 + 0x40000 * g) 0x40000
  else
    between (0x100000 + 0x40000 * e.scope) 0x40000 || between (0x200000 + 0x80000 * e.scope) 0x80000 ||
    between (0x800000 + 0x200000 * e.scope) 0x200000

/-- A SUMP_CTRL word that sets only auto and spare_auto (R475). -/
def recSumpOk (v : Nat) : Bool := v &&& 12 == v

/-- Chip registers that a record of a type may write, with the fields it may not write at reset values (R475). -/
def recChipOk (crit t off v : Nat) : Bool :=
  match t with
  | 3 => (decide (0x800 ≤ off) && decide (off < 0xA00) && off % 0x40 == 0 && recSumpOk v) || off == 0xA00
  | 6 => decide (0x1000 ≤ off) && decide (off < 0x1200) && off % 4 == 0 && decide (v < 4)
  | 8 => off == 0x220 || off == 0x224 || (off == 0x22C && v / 256 == crit)
  | 9 => off == 0x700 || off == 0x704 || (off == 0x708 && (v == 0 || v == 2)) || off == 0x70C || off == 0x710
  | _ => false

/-- Core registers that a record of a type may write (R475). -/
def recCoreOk (t off v : Nat) : Bool :=
  match t with
  | 3 => off == 0x604
  | 5 =>
    (decide (0x400 ≤ off) && decide (off < 0x440) && off % 4 == 0 && !(off % 16 == 0 && bitN v 21)) ||
    (decide (0x100 ≤ off) && decide (off < 0x110) && off % 4 == 0 && (v == 0 || v == 0x100)) ||
    off == 0x308 || off == 0x13C || (decide (0x640 ≤ off) && decide (off < 0x660) && off % 4 == 0)
  | 7 =>
    (decide (0x700 ≤ off) && decide (off < 0x780) && ((off % 16 == 0 && !bitN v 21) || off % 16 == 4)) ||
    (decide (0x7A0 ≤ off) && decide (off < 0x7C0) && off % 4 == 0)
  | _ => false

/-- A record addresses a register its type may write, in its frame's scope (R475). -/
def recordOk (crit : Nat) (e : FrameEntry) (a v : Nat) : Bool :=
  recInScope e a &&
  if a < 0x100000 then recChipOk crit e.ftype a v
  else if a < 0x200000 then
    let off := a % 0x40000
    (e.ftype == 3 && decide (0x20000 ≤ off) && decide (off < 0x20000 + 0x40 * 544) && off % 0x40 == 0 && recSumpOk v) ||
    (e.ftype == 8 && (off == 0x104 || off == 0x108))
  else if a < 0x400000 then
    let off := a % 0x10000
    match e.ftype with
    | 3 => off == 0x300 || off == 0x304
    | 4 => (off == 0x100 && v % 2 == 1 && decide (v < 16)) || off == 0x108
    | 8 => (off == 0x400 && v / 1024 == 0x200) || (off == 0x404 && decide (v < 64))
    | _ => false
  else decide (0x800000 ≤ a) && recCoreOk e.ftype (a % 0x1000) v

/-- Record i of a frame (R473): address and value. -/
def recordAt (st : Store Nat) (e : FrameEntry) (i : Nat) : Nat × Nat :=
  (stWord st (e.off + 16 + 8 * i) 4, stWord st (e.off + 20 + 8 * i) 4)

/-- The number of records of a frame. -/
def recordCount (st : Store Nat) (e : FrameEntry) : Nat := stWord st (e.off + 6) 2

/-- The reserved bits of a bundle record are zero (R477). -/
def bundleRecOk (st : Store Nat) (o : Nat) : Bool :=
  decide (stByte st (o + 8) < 16) && decide (stByte st (o + 9) < 8) && decide (stByte st (o + 18) < 16) &&
  decide (stByte st (o + 19) < 8) && rangeZero st (o + 20) 12

/-- The fixed layouts (R476 to R478). -/
def fixedOk (st : Store Nat) (e : FrameEntry) : Bool :=
  let o := e.off
  match e.ftype with
  | 1 =>
    stWord st (o + 16) 2 == stWord st 6 2 && stByte st (o + 18) == stByte st 5 && rangeZero st (o + 19) 13 &&
    (List.range 128).all (fun i => let x := stByte st (o + 32 + i); decide (x ≤ 16) || x == 0xFF) &&
    (List.range 32).all (fun i => stByte st (o + 160 + i) &&& 0xE == stByte st (o + 160 + i)) &&
    dataBundles.all (fun i => fieldN (stByte st (o + 192 + i / 4)) (2 * (i % 4)) 2 != 3) &&
    (List.range 8).all (fun m => bundleRecOk st (o + 736 + 32 * m)) && rangeZero st (o + 992) 3104
  | 2 =>
    (List.range 4).all (fun y => decide (stByte st (o + 16 + y) ≤ 16)) && rangeZero st (o + 20) 12 &&
    (List.range 68).all (fun p => bundleRecOk st (o + 32 + 32 * p)) && rangeZero st (o + 2208) 1888
  | _ => rangeZero st (o + 2064) 2032

/-- What is wrong with a frame, by the record concerned, 0x1FF for none (R479 check 5). -/
def frameFail (crit : Nat) (st : Store Nat) (e : FrameEntry) : Option Nat :=
  if frameCheck (frameBytes st e.off) ≠ e.check then some 0x1FF
  else if !frameHeaderOk st e || !typeScopeOk e then some 0x1FF
  else if isRecordFrame e then
    let r := recordCount st e
    if 510 < r then some 0x1FF
    else
      match (List.range r).find? fun i => let x := recordAt st e i; !recordOk crit e x.1 x.2 with
      | some i => some i
      | none => if rangeZero st (e.off + 16 + 8 * r) (4080 - 8 * r) then none else some 0x1FF
  else if fixedOk st e then none
  else some 0x1FF

/-- The required frames are present (R474). -/
def requiredOk (st : Store Nat) : Bool :=
  (bsFind st 1 15 0).isSome && (bsFind st 6 15 0).isSome && (bsFind st 9 15 0).isSome &&
  (List.range 4).all fun c => (bsFind st 4 c 0).isSome && (List.range 8).all fun g => (bsFind st 2 c g).isSome

/-- VERIFY of the staging store (R479): its status, and the frame and record concerned. A word of the store with an
uncorrectable error fails it (R502). DEDUCED (log 17). -/
def verifyStaging (s : State) : Status × Nat × Nat :=
  let st := s.cfg.staging
  let n := bsCount st
  let len := bsFirst n + 4096 * n
  if !bsHeaderOk st then (.badValue, 0x7FF, 0x1FF)
  else
    match (List.range n).find? fun j => !entryOk st j with
    | some j => (.badValue, j, 0x1FF)
    | none =>
      if !keyFused s st then (.noAccess, 0x7FF, 0x1FF)
      else if !signedOk st (bsDigest st) then (.noAccess, 0x7FF, 0x1FF)
      else if stByte st 5 ≠ 1 then (.badState, 0x7FF, 0x1FF)
      else if s.cfg.stagingUpsets.any fun w => decide (8 * w.1 < len) && eccGrade w.2 == 2 then (.badValue, 0x7FF, 0x1FF)
      else
        match (List.range n).findSome? fun j => (frameFail s.fuse.critC st (bsEntry st j)).map fun r => (j, r) with
        | some (j, r) => (.badValue, j, r)
        | none => if requiredOk st then (.done, 0x7FF, 0x1FF) else (.badValue, 0x7FF, 0x1FF)

/-- Record a failure in CFG_BS_STATUS (R498). -/
def noteFailure (s : State) (st : Status) (frame record : Nat) : State :=
  { s with cfg := { s.cfg with fail := st.code, frame := frame, record := record } }

/-- The VERIFY command (R479). -/
def verifyCmd (s : State) : Status × State :=
  match verifyStaging s with
  | (.done, _, _) => (.done, { s with cfg := { s.cfg with bsState := 2 } })
  | (st, j, r) => (st, noteFailure { s with cfg := { s.cfg with bsState := 3 } } st j r)

/-- The first core of a SYNC frame of a Cavern (R478). -/
def syncFrameBase (e : FrameEntry) : Nat := 512 * e.scope + 64 * (e.seq / 2) + 32 * (e.seq % 2)

/-- The membership without that of a SYNC frame's cores. -/
def dropMembers (memb : Store Nat) (e : FrameEntry) : Store Nat :=
  let b := syncFrameBase e
  memb.filter fun x => !(decide (64 * b ≤ x.1) && decide (x.1 < 64 * (b + 32)))

/-- The membership with a SYNC frame's payload (R478). -/
def frameMembers (memb st : Store Nat) (e : FrameEntry) : Store Nat :=
  st.foldl (fun m x =>
    if e.off ≤ x.1 ∧ x.1 < e.off + 4096 then
      match membPlace e.scope e.seq (x.1 - e.off) with
      | some i => Store.set 0 m i x.2
      | none => m
    else m) (dropMembers memb e)

/-- The out_col values of a MAP frame (R477). -/
def frameCols (st : Store Nat) (e : FrameEntry) : List Nat := (List.range 4).map fun y => stByte st (e.off + 16 + y)

/-- The Gallery of a MAP frame. -/
def frameGal (e : FrameEntry) : Nat := 8 * e.scope + e.seq

/-- Where a record's address leads under the map in force: a core block is its mapped core's (R475, R481). -/
def recReg (s : State) (a : Nat) : Reg :=
  if 0x800000 ≤ a ∧ a < 0x1000000 then
    let l := (a - 0x800000) / 0x1000
    .core (mapCore s l) l (a % 0x1000)
  else regAt s a

/-- Discard a staged low half when its block is accessed otherwise than by its high half's write (R535). -/
def dropHalf (s : State) (r : Reg) (write : Bool) : State :=
  match s.half with
  | none => s
  | some h => if keyBlock (regKey r) = keyBlock h.addr ∧ !(write && regKey r == h.addr + 4) then { s with half := none } else s

/-- A write that takes effect at once even while Days run (R487). -/
def regWriteNow (s : State) (r : Reg) (v : Nat) : Status × State :=
  match isHeldReg r, regInfo r with
  | true, some (_, mask) =>
    if v &&& mask ≠ v then (.badValue, s)
    else
      match heldCheck s r v with
      | .done => (.done, applyHeld s (regKey r) v)
      | st => (st, s)
  | _, _ => regEffect s r v

/-- A record is applied (R481): GAL_GANG_CONF is checked only by R8 and takes bits [3:1]; any other register is written as by
the host. -/
def writeRecord (now : Bool) (s : State) (a v : Nat) : Status × State :=
  let r := recReg s a
  let s := dropHalf s r true
  match r with
  | .gal g off =>
    if off = 0x100 then
      if 16 ≤ v then (.badValue, s) else (.done, updGal s g fun x => { x with held := fieldN v 1 3 })
    else if now then regWriteNow s r v
    else regEffect s r v
  | _ => if now then regWriteNow s r v else regEffect s r v

/-- The records of a frame are applied until one is rejected: its status and index. -/
def applyRecords (now : Bool) (st : Store Nat) (e : FrameEntry) (s : State) : Option (Status × Nat) × State :=
  (List.range (recordCount st e)).foldl (fun acc i =>
    match acc with
    | (some f, s) => (some f, s)
    | (none, s) =>
      let x := recordAt st e i
      match writeRecord now s x.1 x.2 with
      | (.done, s) => (none, s)
      | (f, s) => (some (f, i), s)) (none, s)

/-- A frame is applied at APPLY (R481). -/
def applyFrame (st : Store Nat) (e : FrameEntry) (s : State) : Option (Status × Nat) × State :=
  if isRecordFrame e then applyRecords false st e s
  else if e.ftype = 2 then (none, updGal s (frameGal e) fun x => { x with outCol := frameCols st e })
  else if e.ftype = 6 then (none, { s with cfg := { s.cfg with memb := frameMembers s.cfg.memb st e } })
  else (none, s)

/-- Every frame is applied in table order until a record is rejected: its status, frame and record. -/
def applyFrames (st : Store Nat) (s : State) : Option (Status × Nat × Nat) × State :=
  (List.range (bsCount st)).foldl (fun acc j =>
    match acc with
    | (some f, s) => (some f, s)
    | (none, s) =>
      match applyFrame st (bsEntry st j) s with
      | (none, s) => (none, s)
      | (some (f, i), s) => (some (f, j, i), s)) (none, s)

/-- Each row's mapping names one of its fused-bad cores, where it has any (R481). -/
def rowMapOk (s : State) : Bool :=
  (List.range 128).all fun i =>
    let g := i / 4
    let y := i % 4
    let bad := (List.range 17).filter fun x => s.boot.badCores.contains (68 * g + 17 * y + x)
    bad.isEmpty || bad.contains ((galAt s g).outCol.getD y 16)

/-- An APPLY that fails: its status and place, and every configuration cell at its reset value (R464, R481). DEDUCED
(log 17). -/
def failApply (s : State) (st : Status) (frame record : Nat) : State :=
  let s := noteFailure (resetCells s) st frame record
  { s with day := { s.day with number := 0 }, half := none }

/-- The APPLY command (R463, R480, R481). -/
def applyCmd (s : State) : Status × State :=
  let st := s.cfg.staging
  match applyFrames st s with
  | (some (f, j, i), s) => (f, failApply s f j i)
  | (none, s) =>
    if !rowMapOk s then (.badValue, failApply s .badValue 0x7FF 0x1FF)
    else
      (.done, { s with
        cfg := { s.cfg with shadow := st, staging := [], bsState := 0, gen := bsGen st, cellUpsets := [], shadowUpsets := [],
                            stagingUpsets := [], faulted := [] },
        boot := { s.boot with dieId := stWord st 6 2, stage := 2, released := false, lostIds := [] } })

/-- The CLOCK command (R463, R490): the PLLs run and lock, a held sequencer is released, and each moves to its
target. DEDUCED (log 18). -/
def clockCmd (s : State) : Status × State :=
  if (List.range 4).any fun c => (cavAt s c).refLost then (.timeout, s)
  else
    let s := (List.range 4).foldl (fun s c =>
      idleTarget (updCav s c fun x => { x with
        running := true, locked := true, opHold := false, winStart := if x.running then x.winStart else s.mNow }) c) s
    (.done, { s with boot := { s.boot with stage := 3 } })

/-- A core's power gate draws above its short limit and is latched off (R425). -/
def latchShort (s : State) (p : Nat) : State :=
  let s := updBun (updCore s p fun k => { k with gateShort := true }) p fun x => { x with gateShort := true }
  match unmapCore s p with
  | some l => logCore s 7 .done l true [(2, p)]
  | none => logGal s 7 .done (p / 68) true [(2, p)]

/-- The POWER command (R463, R425, R221). -/
def powerCmd (shorted : List Nat) (s : State) : Status × State :=
  let s := (s.cores.map (·.1)).foldl (fun s p => updCore s p fun k => { k with
    pool := { k.pool with rows := [], wb := [] }, upsets := { k.upsets with pool := [] } }) s
  let s := (shorted.filter fun p => decide (p < 2176) && !(coreAt s p).gateShort).foldl latchShort s
  (.done, { s with boot := { s.boot with gatesOn := true, stage := 4 } })

/-- One bundle of the TRAIN command: a step that overruns its limit leaves its link without a good half (R412). -/
def trainOne (obs : List (Nat × TrainObs)) (s : State) (b : Nat) : State :=
  let x := bunAt s b
  if x.state = 2 ∨ x.loop ∨ x.gateShort then s
  else
    finishTrain (startTrain s b) b (((obs.find? fun e => e.1 == b).map (·.2)).getD TrainObs.none) true

/-- CHIP_BOOT.stage takes a value (R462, R463). -/
def setStage (s : State) (n : Nat) : State := { s with boot := { s.boot with stage := n } }

/-- The TRAIN command (R463, R412). DEDUCED (log 19). -/
def trainCmd (obs : List (Nat × TrainObs)) (s : State) : Status × State :=
  (.done, setStage (dataBundles.foldl (trainOne obs) s) 5)

/-- The ports at which a link's test flits show it bad (R483): any codeword uncorrectable, or more than 16 corrected. -/
def linksBad (obs : List VeinObs) : List (Nat × Nat) :=
  (obs.filter fun x => decide (0 < x.lost) || decide (16 < x.fixed)).map fun x => (x.gal, x.port)

/-- A Vein link on a Gallery's port is bad, judged from either side (R483); ports are 0 +x, 1 −x, 2 +y, 3 −y. -/
def veinBad (bad : List (Nat × Nat)) (g port : Nat) : Bool :=
  match port with
  | 0 => decide (g % 8 < 7) && (bad.contains (g, 0) || bad.contains (g + 1, 1))
  | 1 => decide (0 < g % 8) && (bad.contains (g, 1) || bad.contains (g - 1, 0))
  | 2 => decide (g / 8 < 3) && (bad.contains (g, 2) || bad.contains (g + 8, 3))
  | _ => decide (0 < g / 8) && (bad.contains (g, 3) || bad.contains (g - 8, 2))

/-- The bad Vein links as indices 4G + port from the lower-numbered Gallery (R485). -/
def badVeins (bad : List (Nat × Nat)) : List Nat :=
  (List.range 128).filter fun i => i % 2 == 0 && veinBad bad (i / 4) (i % 4)

/-- Gang shapes a Gallery holds: none while an id of it is unserved (R108, R465). -/
def shapesHeld (s : State) (g : Nat) : Nat :=
  if (List.range 64).any fun i => unserved s (64 * g + i) then 0 else (galAt s g).held

/-- The narrower link of a bundle. -/
def bundleWidth (x : Bundle) : Nat := min x.up.width x.down.width

/-- The mismatches of the record with STRUCTURE, in order: code and index (R485). -/
def mismatches (s : State) (bad : List (Nat × Nat)) : List (Nat × Nat) :=
  let st := s.cfg.shadow
  ((List.range 128).filter fun i =>
    let e := expectedCol st (i / 4) (i % 4)
    e != 0xFF && e != (galAt s (i / 4)).outCol.getD (i % 4) 16).map (fun i => (1, i)) ++
  (dataBundles.filter fun i => decide (bundleWidth (bunAt s i) < minWidth st i)).map (fun i => (2, i)) ++
  (badVeins bad).map (fun i => (3, i)) ++
  ((List.range 32).filter fun g => let need := requiredShapes st g; need &&& (2 * shapesHeld s g) != need).map fun g => (4, g)

/-- A bundle's byte of the topology record (R484). -/
def topoBundle (x : Bundle) : Nat :=
  x.up.width + 4 * x.down.width + 16 * b2n x.up.reversed + 32 * b2n x.down.reversed + 64 * b2n x.deviates + 128 * b2n x.gateShort

/-- A physical core is good (R484). -/
def coreGood (s : State) (p : Nat) : Bool :=
  !s.boot.badCores.contains p && gateOn s p && decide (1 ≤ bundleWidth (bunAt s p))

/-- A Gallery's 32 bytes of the topology record, as fields (width in bytes, value). -/
def topoGal (s : State) (bad : List (Nat × Nat)) (g : Nat) : List (Nat × Nat) :=
  let bits (f : Nat → Bool) : Nat := bitsOf ((List.range 68).filter fun p => f (68 * g + p))
  [(9, bits (coreGood s)), (1, bitsOf ((List.range 4).filter fun port => !veinBad bad g port)), (1, 2 * shapesHeld s g), (1, 0)] ++
  (List.range 4).map (fun y => (1, (galAt s g).outCol.getD y 16)) ++
  [(9, bits fun p => isRepaired (coreAt s p)), (7, 0)]

/-- The topology record (R484) with its mismatches. DEDUCED (log 20). -/
def topoFields (s : State) (bad : List (Nat × Nat)) (mm : List (Nat × Nat)) : List (Nat × Nat) :=
  let count (f : Bundle → Bool) : Nat := (allBundles.filter fun b => f (bunAt s b)).length
  let first := mm.headD (0, 0)
  [(4, 0x4F504F54), (1, 1), (1, 0xA1), (2, s.boot.dieId), (1, s.boot.defState), (1, 0),
   (2, (dieIds.filter (unserved s)).length),
   (2, ((List.range 128).filter fun i => (galAt s (i / 4)).outCol.getD (i % 4) 16 != 16).length),
   (2, (dataBundles.filter fun p => isRepaired (coreAt s p)).length),
   (2, count fun x => x.state != 4 && (x.up.width == 1 || x.down.width == 1)), (2, count fun x => x.state == 4),
   (2, count (·.deviates)), (1, (badVeins bad).length), (1, 0), (2, mm.length), (1, first.1), (1, 0), (2, first.2), (34, 0)] ++
  (List.range 32).flatMap (topoGal s bad) ++ allBundles.map fun b => (1, topoBundle (bunAt s b))

/-- Lay fields out as bytes from an offset. -/
def layBytes (st : Store Nat) (off : Nat) : List (Nat × Nat) → Store Nat
  | [] => st
  | (w, v) :: t =>
    layBytes ((List.range w).foldl (fun st j => Store.set 0 st (off + j) (fieldN v (8 * j) 8)) st) (off + w) t

/-- The TOPOLOGY command (R463, R483 to R485). -/
def topologyCmd (bad : List (Nat × Nat)) (s : State) : Status × State :=
  let mm := mismatches s bad
  let topo := layBytes [] 0 (topoFields s bad mm)
  (.done, { s with boot := { s.boot with topo := topo, topoMade := true, stage := if mm.isEmpty then 6 else 8 } })

/-- The READY command (R463, R465): unserved ids lose their cores, served cores leave reset with their queues unbound and
contexts empty, and slots that name an unserved id break. -/
def readyCmd (s : State) : Status × State :=
  let lost := dieIds.filter (unserved s)
  let s := (List.range 32).foldl (fun s g => updGal s g fun x => { x with held := shapesHeld s g }) s
  let s := { s with boot := { s.boot with stage := 7, released := true, lostIds := lost } }
  (.done, (s.slots.map (·.1)).foldl breakIfUnserved s)

/-- The CLEAR command (R480): a pending reload is dropped with the store. -/
def clearCmd (s : State) : Status × State :=
  (.done, { s with cfg := { s.cfg with staging := [], stagingUpsets := [], bsState := 0, pending := none } })

/-- The checks of a CHIP_BOOT command (R464). -/
def bootCheck (s : State) (cmd : Nat) : Status :=
  let b := s.boot
  let bad := match cmd with
    | 1 => b.stage != 0
    | 2 => b.stage == 0 || s.cfg.bsState != 1
    | 3 => b.stage != 1 || s.cfg.bsState != 2 || b.defState != 1
    | 4 => b.stage != 2
    | 5 => b.stage != 3
    | 6 => b.stage != 4
    | 7 => b.stage != 5
    | 8 => b.stage != 6
    | 9 => b.stage == 0 || !b.echo
    | _ => s.cfg.bsState == 0
  if cmd = 0 ∨ 10 < cmd then .badValue
  else if b.busy then .busy
  else if bad then .badState
  else .done

/-- Record a status in CHIP_BOOT.status. -/
def noteBoot (s : State) (st : Status) : State := { s with boot := { s.boot with status := st.code } }

/-- A write of CHIP_BOOT: an accepted command is in progress until its own event ends it (R464). -/
def writeBoot (s : State) (v : Nat) : Status × State :=
  let cmd := fieldN v 4 4
  match bootCheck s cmd with
  | .done => (.done, { s with boot := { s.boot with busy := true, cmd := cmd } })
  | st => (st, noteBoot s st)

/-- A CHIP_BOOT command runs to its end (R463, R464): one in progress, or one whose write this is. DEDUCED (log 16). -/
def runBoot (cmd : Nat) (f : State → Status × State) (s : State) : State :=
  let run (s : State) : State :=
    let (st, s) := f { s with boot := { s.boot with busy := false, cmd := 0 } }
    noteBoot (if cmd = 9 then flushLog s else s) st
  if !s.boot.powered then s
  else if s.boot.busy ∧ s.boot.cmd = cmd then run s
  else
    let s := dropHalf s (.chip 0x300) true
    match bootCheck s cmd with
    | .done => report (run s) .done
    | st => report (noteBoot s st) st

/-- ECHO_START (R467). -/
def execEchoStart (s : State) : Host.Outcome State Fault Refusal := .next (runBoot 1 startEcho s)

/-- ECHO_RELOAD (R467, R468). -/
def execEchoReload (s : State) : Host.Outcome State Fault Refusal := .next (runBoot 9 startEcho s)

/-- VERIFY (R479). -/
def execVerify (s : State) : Host.Outcome State Fault Refusal := .next (runBoot 2 verifyCmd s)

/-- APPLY (R481). -/
def execApply (s : State) : Host.Outcome State Fault Refusal := .next (runBoot 3 applyCmd s)

/-- CLOCK (R463). -/
def execClock (s : State) : Host.Outcome State Fault Refusal := .next (runBoot 4 clockCmd s)

/-- POWER (R463). -/
def execPower (shorted : List Nat) (s : State) : Host.Outcome State Fault Refusal := .next (runBoot 5 (powerCmd shorted) s)

/-- TRAIN (R463). -/
def execTrain (obs : List (Nat × TrainObs)) (s : State) : Host.Outcome State Fault Refusal := .next (runBoot 6 (trainCmd obs) s)

/-- TOPOLOGY (R483 to R485). -/
def execTopology (obs : List VeinObs) (s : State) : Host.Outcome State Fault Refusal :=
  .next (runBoot 7 (topologyCmd (linksBad obs)) s)

/-- READY (R463, R465). -/
def execReady (s : State) : Host.Outcome State Fault Refusal := .next (runBoot 8 readyCmd s)

/-- CLEAR (R480). -/
def execStagingClear (s : State) : Host.Outcome State Fault Refusal := .next (runBoot 10 clearCmd s)

/-- Two frames have one type, scope and sequence number. -/
def sameFrame (a b : FrameEntry) : Bool := a.ftype == b.ftype && a.scope == b.scope && a.seq == b.seq

/-- A frame is absent from a table, or has another check there. -/
def frameDiffers (tbl : List FrameEntry) (e : FrameEntry) : Bool :=
  match tbl.find? (sameFrame e) with
  | none => true
  | some x => x.check != e.check

/-- A reload names a frame's scope (R486); STRUCTURE never changes. -/
def inReload (r : List Nat × Bool) (e : FrameEntry) : Bool :=
  if e.scope = 15 then r.2 && e.ftype != 1 else r.1.contains e.scope

/-- A frame of the present bit-stream is faulted (R488). -/
def isFaulted (s : State) (e : FrameEntry) : Bool :=
  s.cfg.faulted.any fun j => sameFrame e (bsEntry s.cfg.shadow j)

/-- The frames that a reload applies, with their indices: those of its scope that are new, differ, or stand faulted. -/
def reloadFrames (s : State) (r : List Nat × Bool) : List (Nat × FrameEntry) :=
  let old := bsTable s.cfg.shadow
  ((List.range (bsCount s.cfg.staging)).map fun j => (j, bsEntry s.cfg.staging j)).filter fun x =>
    inReload r x.2 && (frameDiffers old x.2 || isFaulted s x.2)

/-- The frames that a reload drops. -/
def reloadDrops (s : State) (r : List Nat × Bool) : List FrameEntry :=
  let new := bsTable s.cfg.staging
  (bsTable s.cfg.shadow).filter fun e => inReload r e && !new.any (sameFrame e)

/-- R486 check 4: the staging bit-stream differs from the shadow's where it may not. -/
def reloadMisfit (s : State) (r : List Nat × Bool) : Bool :=
  let new := bsTable s.cfg.staging
  let old := bsTable s.cfg.shadow
  stWord s.cfg.staging 6 2 != stWord s.cfg.shadow 6 2 || decide (bsGen s.cfg.staging < bsGen s.cfg.shadow) ||
  new.any (fun e => !inReload r e && frameDiffers old e) || old.any fun e => !inReload r e && !new.any (sameFrame e)

/-- R486 check 5: the first record of the changed frames that would be rejected. -/
def reloadReject (s : State) (r : List Nat × Bool) : Option (Status × Nat × Nat) :=
  let st := s.cfg.staging
  ((reloadFrames s r).foldl (fun (acc : Option (Status × Nat × Nat) × State) x =>
    match acc with
    | (some f, s) => (some f, s)
    | (none, s) =>
      if !isRecordFrame x.2 then (none, s)
      else
        match applyRecords true st x.2 s with
        | (none, s) => (none, s)
        | (some (f, i), s) => (some (f, x.1, i), s)) (none, s)).1

/-- A write of CFG_RELOAD (R486, R499): the checks, and a reload made pending or withdrawn. -/
def writeReload (s : State) (v : Nat) : Status × State :=
  let r := ((List.range 4).filter (bitN v), bitN v 4)
  let cancel := bitN v 5
  let ok (p : Option (List Nat × Bool)) : State :=
    { s with cfg := { s.cfg with pending := p, partialSeen := s.cfg.partialSeen && !bitN v 7 } }
  if 2 ^ 16 ≤ v then (.badValue, s)
  else if r.1.isEmpty && !r.2 && !cancel then (.badValue, s)
  else if s.boot.stage ≠ 7 ∨ s.cfg.bsState ≠ 2 then (.badState, s)
  else if cancel then (.done, ok none)
  else if s.cfg.pending.isSome then (.busy, s)
  else if reloadMisfit s r then (.badState, s)
  else
    match reloadReject s r with
    | some (st, j, i) => (st, noteFailure s st j i)
    | none => (.done, ok (some r))

end Sys2Proof.Machine
end

