-- ==== Sys2Proof/Machine/Capacity.lean ====
section
/-!
DEFINITION. What a Dusk does to capacity and to reloaded configuration: commands still running, the scopes of changes, spare
swaps, mapping out, Cavern offlining, and the live reload (01_organisation R30, R31, 11_queues_and_contexts R354, R370 to R374,
15_bringup_config_reset R487).
-/

namespace Sys2Proof.Machine

/-- A command of a core is running (R354): issued or started, its last effect in the core still to come; a DEEP_READ, or any
move-in, runs until it completes. -/
def runningCmd (k : Core) (c : Nat) : Bool :=
  k.track.any (fun t => match t.endAt with
    | some e => decide (c < e)
    | none => false) ||
  k.mv.runs.any fun r => r.q == 2

/-- A logical core has a command running. DEDUCED (log 27). -/
def coreLate (s : State) (l : Nat) : Bool :=
  match liveCore s l with
  | none => false
  | some p => runningCmd (coreAt s p) (cycleOf s l)

/-- A core stops a capacity change (R371): a resident context, or a running command; a core held in reset has none. -/
def stopsChange (s : State) (l : Nat) : Bool :=
  match physOf s l with
  | none => false
  | some p => !inReset s l && ((List.range 4).any (fun c => (ctxAt (coreAt s p) c).state != 0) || coreLate s l)

/-- The change of a row of a Gallery to another mapped-out column, 16 for none. -/
structure RowChange where
  gal : Nat
  row : Nat
  out : Nat
deriving DecidableEq, Repr

/-- The moved set of a row's change (R370): the logical columns whose mapping differs. -/
def movedSet (s : State) (x : RowChange) : List Nat :=
  let k := (galAt s x.gal).outCol.getD x.row 16
  ((List.range 16).filter fun j => decide (min k x.out ≤ j) && decide (j < max k x.out)).map fun j => 64 * x.gal + 16 * x.row + j

/-- The reset state of R363 of a physical core that a logical core moves to (R372): nothing of its old traffic is kept but what
already stands at an injection point. -/
def freshCore (k : Core) (c : Nat) : Core :=
  let k := resetInside (cancelOutbound k).2 c
  let k := (List.range 4).foldl (fun k q => setRing k q { ringAt k q with enable := false, outst := 0, withheld := 0 }) k
  { k with mv := { k.mv with inb := [] } }

/-- Every enabled data ring is disabled and every open window closed, as by a host write (R373). -/
def closeDataRings (s : State) (l : Nat) : State :=
  match physOf s l with
  | none => s
  | some p =>
    let s := (List.range 12).foldl (fun s i => if (ringAt (coreAt s p) (4 + i)).enable then disableRing s p l (4 + i) else s) s
    (List.range 8).foldl (fun s w => if (winAt (coreAt s p) w).opened then closeWin s p l w else s) s

/-- The gang shapes that the GANG frame in force gives a Gallery (R108): its last record that R8 admits, else those it holds. -/
def frameShapes (s : State) (g : Nat) : Nat :=
  let st := s.cfg.shadow
  match (bsTable st).find? fun e => e.ftype == 4 && e.scope == g / 8 with
  | none => 0
  | some e =>
    let vs := ((List.range (recordCount st e)).map (recordAt st e)).filter fun r =>
      r.1 == 0x200000 + 0x10000 * g + 0x100 && decide (r.2 < 16)
    (vs.map fun r => fieldN r.2 1 3).getLastD (galAt s g).held

/-- At a Dusk a Gallery comes to hold the shapes of its frame, unless a core of it is late, or none while an id of it has no physical
core (R31, R108). -/
def fixShapes (late : List Nat) (s : State) (g : Nat) : State :=
  if (List.range 64).any fun i => (physOf s (64 * g + i)).isNone then updGal s g fun x => { x with held := 0 }
  else if late.any fun l => galOf l == g then s
  else updGal s g fun x => { x with held := frameShapes s g }

/-- A logical id loses its physical core at a Dusk: its slots break, and the failure is reported (R21, R322). -/
def loseId (s : State) (l : Nat) : State :=
  let s := breakSlotsOf { s with boot := { s.boot with lostIds := setInsert s.boot.lostIds l } } l
  logCore s 10 .mappedOut l true []

/-- A row's change takes effect (R372, R373): rings and windows of the moved cores close, the map changes, and each moved core
becomes unsettled on a physical core in its reset state. -/
def remapRow (s : State) (x : RowChange) : State :=
  let moved := movedSet s x
  let s := moved.foldl closeDataRings s
  let s := updGal s x.gal fun g => { g with outCol := listPut g.outCol x.row x.out }
  let s := { s with boot := { s.boot with lostIds := s.boot.lostIds.filter fun l => !moved.contains l } }
  let s := moved.foldl (fun s l =>
    let s := updCore s (mapCore s l) fun k => freshCore k (cycleOf s l)
    updGal s x.gal fun g => { g with unsettled := setInsert g.unsettled (l % 64) }) s
  moved.foldl (fun s l => if physBad s (mapCore s l) then loseId s l else s) s

/-- The map epoch of a Gallery advances and its map is reported while a management bundle is in UP (R282, R420, R422). -/
def advanceEpoch (s : State) (g : Nat) : State :=
  let s := updGal s g fun x => { x with epoch := (x.epoch + 1) % 256 }
  if mgmtUp s then
    { s with out := s.out ++ [.mapReport s.msgSeq g (galAt s g).outCol], msgSeq := (s.msgSeq + 1) % 256 }
  else s

/-- The logical cores of a Cavern. -/
def cavCores (c : Nat) : List Nat := (List.range 512).map (512 * c + ·)

/-- OFFLINE takes effect (R370): every id of the Cavern loses its physical core and its slots break. DEDUCED (log
28). -/
def goOffline (s : State) (c : Nat) : State :=
  (cavCores c).foldl breakSlotsOf (updCav s c fun x => { x with offline := true })

/-- ONLINE takes effect (R370): the ids regain physical cores in the reset state, settled. -/
def goOnline (s : State) (c : Nat) : State :=
  let s := updCav s c fun x => { x with offline := false }
  (cavCores c).foldl (fun s l =>
    let s := updCore s (mapCore s l) fun k => freshCore k (cycleOf s l)
    settleCore s l) s

/-- What a Dusk has changed so far: the cores that enter Daybreak (R30) and the Galleries whose map changed (R282). -/
structure DuskWork where
  cores : List Nat
  gals : List Nat
deriving DecidableEq, Repr

/-- Add cores to those that enter Daybreak. -/
def DuskWork.addCores (w : DuskWork) (ls : List Nat) : DuskWork := { w with cores := ls.foldl setInsert w.cores }

/-- Add Galleries whose map changed. -/
def DuskWork.addGals (w : DuskWork) (gs : List Nat) : DuskWork := { w with gals := gs.foldl setInsert w.gals }

/-- The pending capacity change of a Cavern at a Dusk (R370 to R373): deferred with a record while a core of its moved set has
a resident context or a running command. -/
def duskCapacity (sw : State × DuskWork) (c : Nat) : State × DuskWork :=
  let (s, w) := sw
  match (cavAt s c).capPending with
  | none => (s, w)
  | some (op, g, y, col) =>
    let x : RowChange := { gal := 8 * c + g, row := y, out := if op = 1 then col else 16 }
    let moved := if op ≤ 2 then movedSet s x else cavCores c
    match moved.find? (stopsChange s) with
    | some l => (logCore s 4 .done l false [], w)
    | none =>
      let s := updCav s c fun v => { v with capPending := none }
      if moved.isEmpty then (s, w)
      else if op ≤ 2 then (remapRow s x, (w.addCores moved).addGals [x.gal])
      else
        let s := if op = 3 then goOffline s c else goOnline s c
        (s, (w.addCores moved).addGals (galsOf c))

/-- Cores that failed in service in a row that already has a mapped-out core lose their ids at the Dusk (R21). The map of the row stays
as it is, so this advances no epoch and sends no report. DESIGN CHOICE (log 72). -/
def duskFailed (s : State) : State :=
  if !s.boot.released then s
  else
    let lost := dieIds.filter fun l => (physOf s l).isSome && failedHeld s l
    lost.foldl loseId s

/-- A tile repair found in service takes effect at a Dusk, as a capacity change of its core, deferred while that core is late (R31, R93,
R94, R106). -/
def duskRepair (late : List Nat) (sw : State × DuskWork) : State × DuskWork :=
  ((sw.1.cores.filter fun e => e.2.found.isSome).map (·.1)).foldl (fun sw p =>
    let (s, w) := sw
    let l := logOf s p
    if l.any late.contains then (s, w)
    else
      let s := updCore s p fun k => { k with repair := k.found.getD k.repair, found := none }
      (s, match l with
        | some l => w.addCores [l]
        | none => w)) sw

/-- The rows that a reload's MAP frames change (R487). -/
def reloadRows (s : State) (frames : List (Nat × FrameEntry)) : List RowChange :=
  (frames.filter fun x => x.2.ftype == 2).flatMap fun x =>
    let g := frameGal x.2
    let cols := frameCols s.cfg.staging x.2
    ((List.range 4).filter fun y => cols.getD y 16 != (galAt s g).outCol.getD y 16).map fun y =>
      { gal := g, row := y, out := cols.getD y 16 }

/-- The membership that a reload leaves (R478). -/
def reloadMemb (s : State) (frames : List (Nat × FrameEntry)) (drops : List FrameEntry) : Store Nat :=
  let isMemb (e : FrameEntry) : Bool := e.ftype == 6 && decide (e.scope < 4)
  let memb := (drops.filter isMemb).foldl dropMembers s.cfg.memb
  (frames.filter fun x => isMemb x.2).foldl (fun m x => frameMembers m s.cfg.staging x.2) memb

/-- The logical cores within the scope of a frame (R30). -/
def frameScope (e : FrameEntry) (l : Nat) : Bool := e.scope == 15 || l / 512 == e.scope

/-- The records of a frame at a Dusk: one that is rejected is skipped, logged and marks the reload partial (R487). -/
def reloadRecords (st : Store Nat) (s : State) (x : Nat × FrameEntry) : State :=
  if !isRecordFrame x.2 then s
  else
    (List.range (recordCount st x.2)).foldl (fun s i =>
      let r := recordAt st x.2 i
      match writeRecord true s r.1 r.2 with
      | (.done, s) => s
      | (f, s) => logChip { s with cfg := { s.cfg with partialSeen := true } } 9 f false []) s

/-- The frames still faulted after a reload, by their indices in the new bit-stream (R488). -/
def stillFaulted (s : State) (frames : List (Nat × FrameEntry)) : List Nat :=
  let n := bsCount s.cfg.staging
  (List.range n).filter fun j =>
    let e := bsEntry s.cfg.staging j
    isFaulted s e && !frames.any fun x => x.1 == j

/-- Upsets of live cells after a reload: those of frames it leaves, at their new places. -/
def movedUpsets (s : State) (frames : List (Nat × FrameEntry)) : Store Nat :=
  s.cfg.cellUpsets.foldl (fun m u =>
    match (bsTable s.cfg.shadow).find? fun e => decide (e.off ≤ 8 * u.1) && decide (8 * u.1 < e.off + 4096) with
    | none => m
    | some e =>
      if frames.any fun x => sameFrame e x.2 then m
      else
        match (bsTable s.cfg.staging).find? (sameFrame e) with
        | none => m
        | some y => Store.set 0 m (u.1 - e.off / 8 + y.off / 8) u.2) []

/-- The configuration store after a reload has been applied (R487). -/
def reloadStore (s : State) (frames : List (Nat × FrameEntry)) (drops : List FrameEntry) : Cfg :=
  { s.cfg with
    memb := reloadMemb s frames drops, faulted := stillFaulted s frames, cellUpsets := movedUpsets s frames,
    shadow := s.cfg.staging, shadowUpsets := [], gen := bsGen s.cfg.staging, staging := [], stagingUpsets := [], bsState := 0,
    pending := none }

/-- A pending reload at a Dusk (R487): deferred whole while a core within its scope runs a command or stops its
capacity change, with a record of the first core that does (R371); else its frames are applied in order, its rows change, and its
stores move. DEDUCED (log 25). -/
def duskReload (late : List Nat) (sw : State × DuskWork) : State × DuskWork :=
  let (s, w) := sw
  match s.cfg.pending with
  | none => (s, w)
  | some r =>
    let st := s.cfg.staging
    let frames := reloadFrames s r
    let drops := reloadDrops s r
    let scope := dieIds.filter fun l => (frames.map (·.2) ++ drops).any fun e => frameScope e l
    let rows := reloadRows s frames
    let moved := rows.flatMap (movedSet s)
    if late.any scope.contains then
      (match moved.find? (stopsChange s) with
       | some l => (logCore s 4 .done l false [], w)
       | none => (s, w))
    else
      match moved.find? (stopsChange s) with
      | some l => (logCore s 4 .done l false [], w)
      | none =>
        let cfg := reloadStore s frames drops
        let s := frames.foldl (reloadRecords st) s
        let s := { s with cfg := { cfg with partialSeen := s.cfg.partialSeen } }
        let gs := (rows.map (·.gal)).eraseDups
        (rows.foldl remapRow s, (w.addCores scope).addGals gs)

end Sys2Proof.Machine
end

