-- ==== Sys2Proof/Machine/Day.lean ====
section
/-!
DEFINITION. Dusk and Dawn (01_organisation R23 to R31, R552, R553): the steps of a Dusk, marks and the local timer, the first
Dawn, Daybreak and Twilight.
-/

namespace Sys2Proof.Machine

/-- Census words of a core with an error are used as their counters latch (R502). -/
def useCensus (s : State) (p : Nat) : State :=
  let words := ((coreAt s p).upsets.sync.map (·.1)).filter fun n => n / 1024 == 8 && decide (n % 4 < 2)
  (useWords s p (idOf s p) (words.map fun n => (8, n % 1024))).2

/-- The first A-cycle of a physical core that begins at or after the present moment (R189). -/
def nextCycle (s : State) (p : Nat) : Nat := ((cavAt s (p / 544)).fifths + 4) / 5

/-- A core's statistics latch and restart (R29 step 1): census tags, with the counts of the A-cycles begun before the Dusk (R31,
R189), and ECC counters. -/
def latchCore (s : State) (p : Nat) : State :=
  updCore (catchUp (useCensus s p) p (nextCycle s p)) p fun k => { k with
    census := { k.census with shadow := k.census.live, live := [] }, eccDay := k.ecc, ecc := Ecc.init,
    upsets := { k.upsets with sync := k.upsets.sync.filter fun e => e.1 / 1024 != 8 } }

/-- A Gallery's statistics latch and restart (R29 step 1). -/
def latchGal (x : Gal) : Gal :=
  { x with
    boostsDay := x.boosts, boosts := 0, stretchedDay := x.stretched, stretched := 0, maxTempDay := x.maxTemp, maxTemp := 0,
    veinCorrDay := x.veinCorr, veinDiscDay := x.veinDisc, veinCorr := 0, veinDisc := 0 }

/-- A bundle's error counts latch and restart (R29 step 1, R418, R430). -/
def latchBundle (x : Bundle) : Bundle :=
  { x with corrDay := x.corr, uncorrDay := x.uncorr, corr := 0, uncorr := 0, laneErrs := [], marginal := [] }

/-- A Cavern's energy, summed in nJ, latches in units of 4 µJ (R454). DESIGN CHOICE (log 38). -/
def latchCav (x : Cav) : Cav := { x with energyDay := min 0xFFFFFFFF (x.energy / 4000), energy := 0 }

/-- Step 1 of R29: every statistics counter latches with the number of the Day ended, and restarts from zero; the roll-up of
R192 starts to form. -/
def duskLatch (s : State) : State :=
  let gone := dieIds.filter fun l => (physOf s l).isNone || s.day.resetCores.contains l
  let s := (s.cores.map (·.1)).foldl latchCore s
  let s := (s.gals.map (·.1)).foldl (fun s g => updGal s g latchGal) s
  let s := (s.bundles.map (·.1)).foldl (fun s b => updBun s b latchBundle) s
  let s := (List.range 4).foldl (fun s c => updCav s c latchCav) s
  { s with
    pwr := { s.pwr with slopeFallsDay := s.pwr.slopeFalls, slopeFalls := 0 },
    cfg := { s.cfg with fixesDay := s.cfg.fixes, fixes := 0 },
    day := { s.day with shadowDay := s.day.number, rollForming := true, resetCores := [], goneCores := gone } }

/-- The cores within the scope of a held register write (R30, R341). DEDUCED (log 26). -/
def heldScope (s : State) (memb : Store Nat) (w : PendWrite) (l : Nat) : Bool :=
  let a := w.addr
  if a < 0x1000 then true
  else if a < 0x1200 then
    let n := (a - 0x1000) / 4
    membMask s n l != 0 || membMask { s with cfg := { s.cfg with memb := memb } } n l != 0
  else if a < 0x200000 then l / 512 == (a - 0x100000) / 0x40000
  else if a < 0x400000 then l / 64 == (a - 0x200000) / 0x10000
  else logOf s ((a - 0x1000000) / 0x1000) == some l

/-- The held register writes at a Dusk (R29 step 3): in order of arrival, those whose scope holds no late core; the others stay
pending (R31). -/
def duskHeld (late : List Nat) (memb : Store Nat) (sw : State × DuskWork) : State × DuskWork :=
  let (s, w) := sw
  s.held.foldl (fun sw x =>
    let (s, w) := sw
    if late.any (heldScope s memb x) then ({ s with held := s.held ++ [x] }, w)
    else
      let t := applyHeld s x.addr x.value.toNat
      (t, if t = s then w else w.addCores (dieIds.filter (heldScope s memb x)))) ({ s with held := [] }, w)

/-- The membership as a pending reload would leave it (R341). -/
def membAfter (s : State) : Store Nat :=
  match s.cfg.pending with
  | none => s.cfg.memb
  | some r => reloadMemb s (reloadFrames s r) (reloadDrops s r)

/-- Step 5 of R29: Dawn, with the reload of the allotments (R385) and the computation of each Cavern's target (R438). -/
def dawn (s : State) : State :=
  let s := (s.cores.map (·.1)).foldl (fun s p => updCore s p reloadAllots) s
  (List.range 4).foldl dawnTarget { s with day := { s.day with inForce := s.day.run, ns := 0, gate := false } }

/-- Late cores set DAY_CTRL.overrun and are named in the log (R31). -/
def noteLate (s : State) (late : List Nat) : State :=
  let s := if late.isEmpty then s else { s with day := { s.day with overrun := true } }
  late.foldl (fun s l => logCore s 10 .done l false []) s

/-- A Dusk (R29 to R31): statistics latch, the Day number advances, pending configuration and then capacity changes take effect
outside the scopes of late cores, and the new Day dawns with its Daybreak. -/
def dusk (s : State) : State :=
  let late := dieIds.filter (coreLate s)
  let s := duskLatch (noteLate s late)
  let s := { s with day := { s.day with number := (s.day.number + 1) % 2 ^ 64, numberAt := some s.mNow } }
  let sw := duskReload late (duskHeld late (membAfter s) (s, { cores := [], gals := [] }))
  let (s, w) := duskRepair late ((List.range 4).foldl duskCapacity sw)
  let s := w.gals.foldl advanceEpoch (duskFailed s)
  let s := (List.range 32).foldl (fixShapes late) s
  dawn { s with day := { s.day with breakCores := w.cores } }

/-- A Dusk or first Dawn taken locally for want of a mark (R26, R27): mark_lost and a reported record. -/
def noteMarkLost (s : State) : State :=
  logChip { s with day := { s.day with markLost := true, localDusk := true } } 8 .done true []

/-- The first Dawn after run is set is no Dusk (R553). -/
def firstDawn (s : State) : State := dawn s

/-- FIRST_DAWN (R26, R553): 128 ns after the write with source 0; with source 1, period_ns + 64 ns after it from the part's own
timer, for want of a mark. -/
def execFirstDawn (s : State) : Host.Outcome State Fault Refusal :=
  .next (
    if !s.day.run || s.day.inForce then s
    else if s.day.source then
      if s.day.ns < s.day.period + 64 then s else firstDawn (noteMarkLost s)
    else if s.day.ns < 128 then s
    else firstDawn s)

/-- DUSK_MARK (R26, R27, R420): the first mark after run gives the first Dawn; later a mark more than 64 ns after the
last Dusk causes Dusk, reported when it is early; a mark within 64 ns is that Dusk's own. DEDUCED (log 30). -/
def execDuskMark (s : State) (bundle : Nat := 0) : Host.Outcome State Fault Refusal :=
  .next (onMsg s bundle 3 fun s =>
    let d := s.day
    if !d.run || !d.source then s
    else
      let t := { s with day := { d with localDusk := false } }
      if !d.inForce then firstDawn t
      else if d.ns ≤ 64 then t
      else if d.ns + 64 < d.period then dusk (logChip t 8 .done true [])
      else dusk t)

/-- LOCAL_DUSK (R25, R27): with source 0 at period_ns; with source 1 at period_ns + 64 ns for want of a mark, on every Day
that no mark ends. DEDUCED (log 30). -/
def execLocalDusk (s : State) : Host.Outcome State Fault Refusal :=
  .next (
    let d := s.day
    if !d.run || !d.inForce then s
    else if !d.source then
      if d.ns < d.period then s else dusk s
    else if d.ns < d.period + 64 then s
    else dusk (noteMarkLost s))

/-- DAYBREAK_END (R30): 64 M-cycles after Dawn. -/
def execDaybreakEnd (s : State) : Host.Outcome State Fault Refusal :=
  .next (
    if s.day.inForce ∧ s.day.ns < 128 then s
    else { s with day := { s.day with breakCores := [] } })

/-- TWILIGHT_BEGIN (R28, R352): t reaches period_ns − twilight_ns, and the gate acts until Dusk. -/
def execTwilightBegin (s : State) : Host.Outcome State Fault Refusal :=
  .next (
    if !s.day.inForce || decide (s.day.ns < s.day.period - s.day.twilight) then s
    else { s with day := { s.day with gate := true } })

end Sys2Proof.Machine
end

