-- ==== Sys2Proof/Machine/Regs.lean ====
section
/-!
DEFINITION. Register accesses as Echo makes them (17_register_map R530 to R535): the checks of a write in their order, acts by
hand, the held requests, and every command that is a write of one register.
-/

namespace Sys2Proof.Machine

/-- The value that an act by hand changes (R328, R329): a flag, a counter, a ring's head or tail; 0 when the act names
none. -/
def handValue (k : Core) (act idx : Nat) : Nat :=
  match act with
  | 1 => b2n (flagSet k idx)
  | 2 => b2n (flagSet k idx)
  | 3 => if idx < 64 then (cntAt k idx).value.toNat else 0
  | 4 => if idx < 16 then (ringAt k idx).head else 0
  | 5 => if idx < 16 then (ringAt k idx).tail else 0
  | _ => 0

/-- An act by hand on the sync state of a core (R328). -/
def handAct (s : State) (p l act idx : Nat) : Status × State :=
  let c := cycleOf s l
  let val := (coreAt s p).sync.handVal
  match act with
  | 1 =>
    let (fault, s) := setInTurn s p l c idx 7 []
    (if fault then .overrun else .done, s)
  | 2 =>
    let c := turnOf (coreAt s p) idx c 0
    (.done, clearFlag (useWord (noteEvent s p idx c 0) p l 4 (idx / 64)).2 p idx)
  | 3 =>
    if 64 ≤ idx then (.badValue, s)
    else if !(cntAt (coreAt s p) idx).enable then (.badState, s)
    else
      let c := turnOf (coreAt s p) (256 + idx) c 5
      let s := updCore (noteEvent s p (256 + idx) c 5) p fun k => setCnt k idx { cntAt k idx with value := val }
      (.done, wakeWaiters s p l c)
  | 4 =>
    if 16 ≤ idx then (.badValue, s)
    else headAdd s p l idx ((val.toNat % 2 ^ 32 + 2 ^ 32 - (ringAt (coreAt s p) idx).head % 2 ^ 32) % 2 ^ 32)
  | 5 =>
    if 16 ≤ idx then (.badValue, s)
    else tailAdd s p l c idx ((val.toNat % 2 ^ 32 + 2 ^ 32 - (ringAt (coreAt s p) idx).tail % 2 ^ 32) % 2 ^ 32)
  | _ => (.badValue, s)

/-- The record of a write of CORE_HAND (R329). -/
def logHand (s : State) (l v before after requester : Nat) (st : Status) : State :=
  logCore s 5 st l false [(1, fieldN v 0 4), (1, fieldN v 4 8), (8, before), (8, after), (2, requester)]

/-- hand_seen (R329). -/
def noteHand (s : State) (p : Nat) : State := updCore s p fun k => { k with sync := { k.sync with handSeen := true } }

/-- A write of CORE_HAND whose checks up to step 3 gave `st`: its act, its record and hand_seen (R328, R329, R337); a clear comes before
the sets of its cycle (R297). DEDUCED (log 32). -/
def writeHand (s : State) (r : Reg) (v requester : Nat) (st : Status) : Status × State :=
  let act := fieldN v 0 4
  let idx := fieldN v 4 8
  match r with
  | .core p l _ =>
    let s := settleSync s p l (if act = 2 then cycleOf s l - 1 else cycleOf s l)
    let before := handValue (coreAt s p) act idx
    let (st, s) := if st ≠ .done then (st, s) else if 2 ^ 12 ≤ v then (Status.badValue, s) else handAct s p l act idx
    (st, noteHand (logHand s l v before (handValue (coreAt s p) act idx) requester st) p)
  | .noCore l _ => (st, logHand s l v 0 0 requester st)
  | _ => (st, s)

/-- CORE_HAND, by either way to a core block. -/
def isHandReg (r : Reg) : Bool :=
  match r with
  | .core _ _ off => off == 0x7E0
  | .noCore _ off => off == 0x7E0
  | _ => false

/-- The result of steps 4 and 5 in the status field of a register that has one (R533). -/
def noteStatus (s : State) (r : Reg) (v : Nat) (st : Status) : State :=
  match r with
  | .chip off =>
    if off = 0x300 then (if st = .done then s else noteBoot s st)
    else if off = 0x310 then { s with resets := { s.resets with status := st.code } }
    else if off = 0x40C then { s with cfg := { s.cfg with rlStatus := st.code } }
    else if off = 0x610 ∧ bitN v 0 then { s with attest := { s.attest with status := st.code } }
    else s
  | .cav c off => if off = 0x300 then updCav s c fun x => { x with capStatus := st.code } else s
  | .gal g off =>
    if off = 0x500 ∧ bitN v 7 then updGal s g fun x => { x with bist := { x.bist with status := st.code } } else s
  | .core p _ off => if off = 0x130 ∧ st ≠ .done then noteCtxOp s p st else s
  | _ => s

/-- Steps 4 and 5 of R533. -/
def writeAccepted (s : State) (r : Reg) (v : Nat) : Status × State :=
  let done (x : Status × State) : Status × State := (x.1, noteStatus x.2 r v x.1)
  match r with
  | .chip off =>
    if off = 0x300 then done (if 2 ^ 17 ≤ v then (.badValue, s) else writeBoot s v)
    else if off = 0x40C then done (writeReload s v)
    else done (regWrite s r v)
  | _ => done (regWrite s r v)

/-- A write of an address with or without HAND privilege (R533): the checks in order, and the write; while ECHO_RELOAD runs it is
answered BUSY (R468). -/
def hostWrite (s : State) (a v : Nat) (hand : Bool) (requester : Nat) : Status × State :=
  let r := regAt s a
  if reloading s then (.busy, s)
  else
  let s := dropHalf s r true
  let st := accessCheck s r true hand
  if isHandReg r then writeHand s r v requester st
  else if st = .done then writeAccepted s r v
  else (st, s)

/-- A read of an address (R534): status and word; while ECHO_RELOAD runs it is answered BUSY (R468). -/
def hostRead (s : State) (a : Nat) : Status × Nat × State :=
  let r := regAt s a
  if reloading s then (.busy, 0, s)
  else
  let s := dropHalf s r false
  match accessCheck s r false false with
  | .done =>
    let (v, s) := regRead s r
    (.done, v % 2 ^ 32, s)
  | st => (st, 0, s)

/-- A REG_RSP message (R530): its request's sequence number in byte 1, then its body; it is sent while a management bundle is in UP
(R422). -/
def respondReg (s : State) (m : RegReq) (st : Status) (hand : Bool) (data : Nat) : State :=
  let s := { s with answer := st, answerData := BitVec.ofNat 32 data }
  if mgmtUp s then
    { s with out := s.out ++ [.message 2
        [(1, m.seq), (1, st.code), (1, b2n hand), (2, m.requester), (2, 0), (4, m.addr), (4, data)]] }
  else s

/-- A REG_REQ of the form of R530. -/
def reqFormOk (m : RegReq) : Bool :=
  decide (m.op < 2) && decide (m.hand < 2) && decide (1 ≤ m.requester) && decide (m.requester < 2 ^ 16) &&
  decide (m.addr < 2 ^ 24) && m.addr % 4 == 0 && decide (m.data < 2 ^ 32) && m.restZero

/-- REG_REQ (R530, R531): malformed it is answered BAD_VALUE, and with 64 held, or while Echo's code is replaced
(R468), BUSY; otherwise Echo holds it. At a link that is not in UP it is discarded and logged (R420). DEDUCED (log
21). -/
def execRegReq (m : RegReq) (s : State) : Host.Outcome State Fault Refusal :=
  .next (
    if !s.boot.powered then s
    else onMsg s m.bundle 1 fun s =>
    if !reqFormOk m then respondReg s m .badValue false 0
    else if reloading s || decide (64 ≤ s.echoQ.length) then respondReg s m .busy false 0
    else { s with echoQ := s.echoQ ++ [m] })

/-- REG_ACCESS (R531 to R534): Echo makes the oldest held access and answers it. The privilege is carried when Echo's code runs,
the request asks for it and the code's policy admits the requester (R532). -/
def execRegAccess (policy : Bool) (s : State) : Host.Outcome State Fault Refusal :=
  .next (
    match s.echoQ with
    | [] => s
    | m :: t =>
      let s := { s with echoQ := t }
      let hand := s.boot.echo && m.hand == 1 && policy
      if m.op = 1 then
        let (st, s) := hostWrite s m.addr m.data hand m.requester
        respondReg s m st hand 0
      else
        let (st, v, s) := hostRead s m.addr
        respondReg s m st hand v)

/-- A command that is the write of one register: nothing unless its word and operands are that command's. DEDUCED
(log 14, 15). -/
def regRow (s : State) (ok : Bool) (a : Nat) (v : Word) : State :=
  if !s.boot.powered || !ok then s
  else
    let (st, s) := hostWrite s a v.toNat false 0
    report s st

/-- The address of a core's register. -/
def coreReg (core off : Nat) : Nat := 0x800000 + 0x1000 * core + off

/-- The address of a Gallery's register. -/
def galReg (g off : Nat) : Nat := 0x200000 + 0x10000 * g + off

/-- The address of a Cavern's register. -/
def cavReg (c off : Nat) : Nat := 0x100000 + 0x40000 * c + off

/-- The address of a bundle's register (R427). -/
def bundleReg (b off : Nat) : Nat :=
  if b < 2176 then cavReg (b / 544) (0x20000 + 0x40 * (b % 544) + off) else 0x800 + 0x40 * (b - 2176) + off

/-- A word's bit. -/
def wbit (v : Word) (i : Nat) : Bool := bitN v.toNat i

/-- APERTURE_WRITE (R480). -/
def execApertureWrite (off : Nat) (v : Word) (s : State) : Host.Outcome State Fault Refusal :=
  .next (regRow s (decide (off < 0x10000)) (0xF0000 + off) v)

/-- RELOAD (R486). -/
def execReload (v : Word) (s : State) : Host.Outcome State Fault Refusal := .next (regRow s (!wbit v 5) 0x40C v)

/-- RELOAD_CANCEL (R486). -/
def execReloadCancel (v : Word) (s : State) : Host.Outcome State Fault Refusal := .next (regRow s (wbit v 5) 0x40C v)

/-- RESET_ASSERT (R489, R493). -/
def execResetAssert (v : Word) (s : State) : Host.Outcome State Fault Refusal := .next (regRow s (!wbit v 13) 0x310 v)

/-- RESET_RELEASE (R489, R493). -/
def execResetRelease (v : Word) (s : State) : Host.Outcome State Fault Refusal := .next (regRow s (wbit v 13) 0x310 v)

/-- PEER_DOWN (R492). -/
def execPeerDown (v : Word) (s : State) : Host.Outcome State Fault Refusal := .next (regRow s true 0x314 v)

/-- DAY_RUN_START (R26). -/
def execDayRunStart (v : Word) (s : State) : Host.Outcome State Fault Refusal := .next (regRow s (wbit v 0) 0x708 v)

/-- DAY_RUN_STOP (R24). -/
def execDayRunStop (v : Word) (s : State) : Host.Outcome State Fault Refusal := .next (regRow s (!wbit v 0) 0x708 v)

/-- QUEUE_RESUME (R375). -/
def execQueueResume (core q : Nat) (v : Word) (s : State) : Host.Outcome State Fault Refusal :=
  .next (regRow s (decide (q < 4) && wbit v 9) (coreReg core (0x100 + 4 * q)) v)

/-- CHECK_MODE_WRITE (R96, R103). -/
def execCheckModeWrite (core : Nat) (v : Word) (s : State) : Host.Outcome State Fault Refusal :=
  .next (regRow s true (coreReg core 0x200) v)

/-- RING_ENABLE (R256). -/
def execRingEnable (core n : Nat) (v : Word) (s : State) : Host.Outcome State Fault Refusal :=
  .next (regRow s (decide (n < 16) && wbit v 21) (coreReg core (0x400 + 16 * n)) v)

/-- RING_DISABLE (R246). -/
def execRingDisable (core n : Nat) (v : Word) (s : State) : Host.Outcome State Fault Refusal :=
  .next (regRow s (decide (n < 16) && !wbit v 21) (coreReg core (0x400 + 16 * n)) v)

/-- The Pool of a logical core's physical core. -/
def poolOf (s : State) (core : Nat) : Pool :=
  match physOf s core with
  | some p => (coreAt s p).pool
  | none => Core.init.pool

/-- POOL_BANK_OFF_REQUEST (R247): the word asks for a bank not yet asked for. -/
def execPoolBankOffRequest (core : Nat) (v : Word) (s : State) : Host.Outcome State Fault Refusal :=
  .next (regRow s ((List.range 16).any fun b => wbit v b && !(poolOf s core).offReq.contains b) (coreReg core 0x300) v)

/-- POOL_BANK_OFF_CANCEL (R249): the word withdraws the request for a bank that is still on. -/
def execPoolBankOffCancel (core : Nat) (v : Word) (s : State) : Host.Outcome State Fault Refusal :=
  .next (regRow s ((poolOf s core).offReq.any fun b => !wbit v b && !(poolOf s core).off.contains b) (coreReg core 0x300) v)

/-- POOL_BANK_POWER_UP (R249): the word withdraws the request for a bank that is off. -/
def execPoolBankPowerUp (core : Nat) (v : Word) (s : State) : Host.Outcome State Fault Refusal :=
  .next (regRow s ((poolOf s core).off.any fun b => !wbit v b) (coreReg core 0x300) v)

/-- WINDOW_OPEN (R291). -/
def execWindowOpen (core w : Nat) (v : Word) (s : State) : Host.Outcome State Fault Refusal :=
  .next (regRow s (decide (w < 8) && wbit v 21) (coreReg core (0x700 + 16 * w)) v)

/-- WINDOW_CLOSE (R285). -/
def execWindowClose (core w : Nat) (v : Word) (s : State) : Host.Outcome State Fault Refusal :=
  .next (regRow s (decide (w < 8) && !wbit v 21) (coreReg core (0x700 + 16 * w)) v)

/-- COUNTER_ENABLE (R336), of the counter that CORE_CNT_SEL names. -/
def execCounterEnable (core : Nat) (v : Word) (s : State) : Host.Outcome State Fault Refusal :=
  .next (regRow s (wbit v 0) (coreReg core 0x7CC) v)

/-- COUNTER_DISABLE (R336). -/
def execCounterDisable (core : Nat) (v : Word) (s : State) : Host.Outcome State Fault Refusal :=
  .next (regRow s (!wbit v 0) (coreReg core 0x7CC) v)

/-- SLOT_ENABLE (R341). -/
def execSlotEnable (slot : Nat) (v : Word) (s : State) : Host.Outcome State Fault Refusal :=
  .next (regRow s (decide (slot < 128) && wbit v 0 && !wbit v 5) (0x1000 + 4 * slot) v)

/-- SLOT_DISABLE (R341). -/
def execSlotDisable (slot : Nat) (v : Word) (s : State) : Host.Outcome State Fault Refusal :=
  .next (regRow s (decide (slot < 128) && !wbit v 0 && !wbit v 5) (0x1000 + 4 * slot) v)

/-- SLOT_REARM (R323). -/
def execSlotRearm (slot : Nat) (v : Word) (s : State) : Host.Outcome State Fault Refusal :=
  .next (regRow s (decide (slot < 128) && wbit v 5) (0x1000 + 4 * slot) v)

/-- A write of CORE_HAND with the privilege, of the act given (R328). -/
def handRow (s : State) (act core requester : Nat) (v : Word) : State :=
  if !s.boot.powered || fieldN v.toNat 0 4 != act then s
  else
    let (st, s) := hostWrite s (coreReg core 0x7E0) v.toNat true requester
    report s st

/-- SET_FLAG (R328). -/
def execSetFlag (core requester : Nat) (v : Word) (s : State) : Host.Outcome State Fault Refusal :=
  .next (handRow s 1 core requester v)

/-- CLEAR_FLAG (R328). -/
def execClearFlag (core requester : Nat) (v : Word) (s : State) : Host.Outcome State Fault Refusal :=
  .next (handRow s 2 core requester v)

/-- CNT_WRITE (R328). -/
def execCntWrite (core requester : Nat) (v : Word) (s : State) : Host.Outcome State Fault Refusal :=
  .next (handRow s 3 core requester v)

/-- RING_HEAD (R328). -/
def execRingHead (core requester : Nat) (v : Word) (s : State) : Host.Outcome State Fault Refusal :=
  .next (handRow s 4 core requester v)

/-- RING_TAIL (R328). -/
def execRingTail (core requester : Nat) (v : Word) (s : State) : Host.Outcome State Fault Refusal :=
  .next (handRow s 5 core requester v)

/-- A write of CORE_CTX_OP of the operation given (R377). -/
def ctxRow (s : State) (op core : Nat) (v : Word) : State := regRow s (fieldN v.toNat 0 3 == op) (coreReg core 0x130) v

/-- CREATE (R359). -/
def execCreate (core : Nat) (v : Word) (s : State) : Host.Outcome State Fault Refusal := .next (ctxRow s 1 core v)

/-- BIND (R361). -/
def execBind (core : Nat) (v : Word) (s : State) : Host.Outcome State Fault Refusal := .next (ctxRow s 2 core v)

/-- UNBIND (R362). -/
def execUnbind (core : Nat) (v : Word) (s : State) : Host.Outcome State Fault Refusal := .next (ctxRow s 3 core v)

/-- SAVE (R364). -/
def execSave (core : Nat) (v : Word) (s : State) : Host.Outcome State Fault Refusal := .next (ctxRow s 4 core v)

/-- RESTORE (R367). -/
def execRestore (core : Nat) (v : Word) (s : State) : Host.Outcome State Fault Refusal := .next (ctxRow s 5 core v)

/-- DESTROY (R369). -/
def execDestroy (core : Nat) (v : Word) (s : State) : Host.Outcome State Fault Refusal := .next (ctxRow s 6 core v)

/-- SETTLE (R374). -/
def execSettle (core : Nat) (v : Word) (s : State) : Host.Outcome State Fault Refusal := .next (ctxRow s 7 core v)

/-- A write of CAV_CAPACITY of the operation given (R381). -/
def capRow (s : State) (op cav : Nat) (v : Word) : State :=
  regRow s (decide (cav < 4) && fieldN v.toNat 0 3 == op) (cavReg cav 0x300) v

/-- SPARE (R370). -/
def execSpare (cav : Nat) (v : Word) (s : State) : Host.Outcome State Fault Refusal := .next (capRow s 1 cav v)

/-- UNSPARE (R370). -/
def execUnspare (cav : Nat) (v : Word) (s : State) : Host.Outcome State Fault Refusal := .next (capRow s 2 cav v)

/-- OFFLINE (R370). -/
def execOffline (cav : Nat) (v : Word) (s : State) : Host.Outcome State Fault Refusal := .next (capRow s 3 cav v)

/-- ONLINE (R370). -/
def execOnline (cav : Nat) (v : Word) (s : State) : Host.Outcome State Fault Refusal := .next (capRow s 4 cav v)

/-- CAPACITY_CANCEL (R381). -/
def execCapacityCancel (cav : Nat) (v : Word) (s : State) : Host.Outcome State Fault Refusal := .next (capRow s 0 cav v)

/-- BUNDLE_TRAIN (R412, R427): an accepted write of train, and the training that it starts. -/
def execBundleTrain (b : Nat) (v : Word) (obs : TrainObs) (s : State) : Host.Outcome State Fault Refusal :=
  .next (
    let s' := regRow s (decide (b < 2184) && wbit v 0) (bundleReg b 0) v
    if s.boot.powered && decide (b < 2184) && wbit v 0 && s'.answer == .done && (bunAt s' b).state == 1 then
      finishTrain s' b obs false else s')

/-- RETRAIN (R419, R427): by the base, of a bundle in UP whose spare_auto is 1; or by an accepted write of retrain; or the end of
a retraining already begun. -/
def execRetrain (b : Nat) (v : Word) (byBase : Bool) (obs : TrainObs) (s : State) : Host.Outcome State Fault Refusal :=
  .next (
    let x := bunAt s b
    if !s.boot.powered || decide (2184 ≤ b) then s
    else if byBase then
      if x.state = 3 then finishRetrain s b obs false
      else if x.state = 2 ∧ x.spareAuto then finishRetrain (startRetrain s b) b obs false
      else s
    else
      let s' := regRow s (wbit v 1) (bundleReg b 0) v
      if wbit v 1 && s'.answer == .done && (bunAt s' b).state == 3 then finishRetrain s' b obs false else s')

/-- LOOP_ENABLE (R518). -/
def execLoopEnable (b : Nat) (v : Word) (s : State) : Host.Outcome State Fault Refusal :=
  .next (regRow s (decide (b < 2184) && wbit v 0 && !wbit v 1) (bundleReg b 0x24) v)

/-- LOOP_TEST_START (R518): an accepted start trains the port against its own loop; LOOP_TEST_COMPLETE ends the test. -/
def execLoopTestStart (b : Nat) (v : Word) (obs : LinkObs) (s : State) : Host.Outcome State Fault Refusal :=
  .next (
    let s' := regRow s (decide (b < 2184) && wbit v 1) (bundleReg b 0x24) v
    if s.boot.powered && decide (b < 2184) && wbit v 1 && s'.answer == .done && (bunAt s' b).loopBusy then
      updBun s' b fun x => { x with up := (trainLink obs x.up 0 ([], []) none).1 }
    else s')

/-- ATTEST_REQ (R513). -/
def execAttestReq (s : State) : Host.Outcome State Fault Refusal := .next (regRow s true 0x610 1)

/-- BIST_START (R516). -/
def execBistStart (gal : Nat) (v : Word) (s : State) : Host.Outcome State Fault Refusal :=
  .next (regRow s (decide (gal < 32) && wbit v 7) (galReg gal 0x500) v)

/-- STANDALONE_SET (R519). -/
def execStandaloneSet (v : Word) (s : State) : Host.Outcome State Fault Refusal := .next (regRow s (wbit v 0) 0x640 v)

/-- TAP_LOCK (R522). -/
def execTapLock (v : Word) (s : State) : Host.Outcome State Fault Refusal := .next (regRow s (wbit v 1) 0x640 v)

/-- LOG_HEAD_ADVANCE (R510, R524). -/
def execLogHeadAdvance (v : Word) (s : State) : Host.Outcome State Fault Refusal := .next (regRow s true 0x500 v)

/-- LOG_CLEAR_LOST (R524). -/
def execLogClearLost (s : State) : Host.Outcome State Fault Refusal := .next (regRow s true 0x508 (BitVec.ofNat 32 (2 ^ 17)))

end Sys2Proof.Machine
end

