-- ==== Sys2Proof/Machine/SyncCmds.lean ====
section
/-!
DEFINITION. The sync commands of the queues, fences, wait timeouts and counter updates from outside
(10_synchronisation).
-/

namespace Sys2Proof.Machine

/-- A sync command that does not sleep completes in cycle c, its decode, with a status (R301, R304, R347). -/
def finishSync (s : State) (p l q c : Nat) (y : SyncCmd) (st : Status) : State :=
  let k := coreAt s p
  let slot := headSlotNo k q
  let cx := (queueAt k q).ctx
  let (id, s) := newTrack s p q cx slot c
  let s := endTrack s p id (if y.doneEn then c + 1 else c) c st
  let s := dueDone s p c y.doneEn y.doneFlag (setterOf q) cx slot id
  report (leaveHead s p l q (c + 1)) st

/-- The remaining timeout a command decoded in cycle c starts with: that of its frozen wait after a BIND, else its own
(R302, R361). -/
def startLimit (x : Queue) (y : SyncCmd) : Nat :=
  match x.resumed with
  | some r => r.remain
  | none => 256 * y.units

/-- A waiting command whose condition does not hold goes to sleep at the head (R300). -/
def sleepHead (s : State) (p q c : Nat) (y : SyncCmd) (arrived : Bool) (deadline : Nat) : State :=
  let k := coreAt s p
  let slot := headSlotNo k q
  let x := queueAt k q
  let (id, s) := newTrack s p q x.ctx slot c
  updQueue s p q fun x => { x with
    sleep := some { slot := slot, ctx := x.ctx, cmd := y, deadline := deadline, arrived := arrived, track := id },
    resumed := none }

/-- A slot wait decoded after its arrival's outcome: DONE after a release, else the command is retired (R318). -/
def slotOutcome (s : State) (p l q c : Nat) (y : SyncCmd) : State :=
  let k := coreAt s p
  let st := outcomeStatus (Store.get 0 (ctxAt k (queueAt k q).ctx).outcomes y.slot)
  if st = .done then finishSync s p l q c y .done else report (retireHead s p l q 6 c st) st

/-- SET (R296, R299, R305). -/
def doSet (s : State) (p l q c : Nat) (y : SyncCmd) : State :=
  let k := coreAt s p
  let (fault, s) := setFlag s p l c y.flag (setterOf q) (queueAt k q).ctx [(4, headSlotNo k q)]
  finishSync s p l q c y (if fault then .overrun else .done)

/-- CLEAR, before the sets of its cycle (R296, R297, R305). -/
def doClear (s : State) (p l q c : Nat) (y : SyncCmd) : State :=
  finishSync (settleSync (clearFlag s p y.flag) p l c) p l q c y .done

/-- WAIT (R296, R300). -/
def doWait (s : State) (p l q c : Nat) (y : SyncCmd) : State :=
  if flagSet (coreAt s p) y.flag then finishSync (if y.consume then clearFlag s p y.flag else s) p l q c y .done
  else sleepHead s p q c y false (c + startLimit (queueAt (coreAt s p) q) y)

/-- COUNT (R312, R313, R314). -/
def doCount (s : State) (p l q c : Nat) (y : SyncCmd) : State :=
  let slot := headSlotNo (coreAt s p) q
  let (st, s) := updateCounter s p l c y.counter false y.delta (ownSender s l) true [(1, setterOf q), (4, slot)]
  finishSync s p l q c y st

/-- WAIT_CNT (R315). -/
def doWaitCnt (s : State) (p l q c : Nat) (y : SyncCmd) : State :=
  if cntHolds (coreAt s p) y then finishSync s p l q c y .done
  else sleepHead s p q c y false (c + startLimit (queueAt (coreAt s p) q) y)

/-- ARRIVE (R317, R318, R321, R361): re-decoded after a BIND with its arrival made, it waits for that arrival's release;
behind an unreleased arrival of its context it sleeps; otherwise it arrives. -/
def doArrive (s : State) (p l q c : Nat) (y : SyncCmd) : State :=
  let s := catchUp s p c
  let x := queueAt (coreAt s p) q
  let cx := x.ctx
  let parts := (ctxAt (coreAt s p) cx).parts
  let again := match x.resumed with
    | some r => r.arrived
    | none => false
  if again then
    if parts.any fun a => a.slot == y.slot && !a.out then
      let limit := startLimit x y
      let s := updCtx s p cx fun z => { z with
        parts := z.parts.map fun a => if a.slot == y.slot && !a.out then { a with deadline := c + limit, frozen := false } else a }
      sleepHead s p q c y true (c + limit)
    else slotOutcome s p l q c y
  else if parts.any fun a => a.slot == y.slot then sleepHead s p q c y false (c + startLimit x y)
  else
    let s := arriveNow s p l c cx y
    if y.wait then sleepHead s p q c y true (c + 256 * y.units) else finishSync s p l q c y .done

/-- WAIT_SLOT (R318). -/
def doWaitSlot (s : State) (p l q c : Nat) (y : SyncCmd) : State :=
  let x := queueAt (coreAt s p) q
  if (ctxAt (coreAt s p) x.ctx).parts.any fun a => a.slot == y.slot && !a.out then
    sleepHead s p q c y true (c + startLimit x y)
  else slotOutcome s p l q c y

/-- The commands a FENCE decoded in cycle c awaits (R308): 0 ENGINE, 1 CORE, 2 REMOTE. -/
def fenceIds (k : Core) (q cx c scope : Nat) : List Nat :=
  (k.track.filter fun t => t.ctx == cx &&
    (((scope == 1 || t.q == q) && unfinished c t) || (scope == 2 && t.q == 3 && incomplete c t))).map (·.id)

/-- FENCE (R308): it completes at once when nothing is outstanding, else it holds its queue. -/
def doFence (s : State) (p l q c : Nat) (y : SyncCmd) : State :=
  let s := catchUp s p (c + 1)
  let k := coreAt s p
  let cx := (queueAt k q).ctx
  let ids := fenceIds k q cx c y.scope
  if ids.isEmpty then finishSync s p l q c y .done
  else
    let slot := headSlotNo k q
    let (id, s) := newTrack s p q cx slot c
    updQueue s p q fun x => { x with fence := some { slot := slot, ctx := cx, scope := y.scope, ids := ids, track := id,
                                                     doneFlag := y.doneFlag, doneEn := y.doneEn } }

/-- An awaited command is finished at cycle c for a scope (R308). -/
def fenceMet (k : Core) (c scope id : Nat) : Bool :=
  match k.track.find? fun t => t.id == id with
  | none => true
  | some t => !unfinished c t && (scope != 2 || t.q != 3 || !incomplete c t)

/-- The first status other than DONE among the awaited commands, in their order of decode (R308). -/
def fenceStatus (k : Core) (ids : List Nat) : Status :=
  let sts := ids.filterMap fun i => (k.track.find? fun t => t.id == i).bind (·.status)
  (sts.find? fun st => st != .done).getD .done

/-- A FENCE whose awaited work is finished completes (R308). -/
def completeFence (s : State) (p l q : Nat) : State :=
  let c := cycleOf s l
  let s := settleSync (catchUp s p (c + 1)) p l c
  let k := coreAt s p
  match (queueAt k q).fence with
  | none => s
  | some f =>
    if f.ids.all (fenceMet k c f.scope) then
      let st := fenceStatus k f.ids
      let s := updQueue s p q fun x => { x with fence := none }
      let s := endTrack s p f.track (if f.doneEn then c + 1 else c) c st
      let s := dueDone s p c f.doneEn f.doneFlag (setterOf q) f.ctx f.slot f.track
      report (leaveHead s p l q (c + 1)) st
    else s

/-- A sleeping command's timeout expires in or before the present cycle, after every event of the cycle (R302, R321). -/
def expireWait (s : State) (p l q : Nat) : State :=
  let c := cycleOf s l
  let s := settleSync s p l c
  match (queueAt (coreAt s p) q).sleep with
  | none => s
  | some w =>
    if c < w.deadline then s
    else if w.cmd.sop = 6 ∧ w.arrived then partTimeout s p l c w.ctx w.cmd.slot
    else
      let s := updCore s p fun k => { k with sync := { k.sync with timeoutSeen := true } }
      report (endSleep (logTimeout s p l q w) p l q c .timeout false) .timeout

/-- Run a sync command's effect from a decoded slot. -/
def syncRow (s : State) (l q sop : Nat) (f : State → Nat → Nat → SyncCmd → State) : State :=
  onHead s l q (fun key => key == 0x600 + sop) fun s p c _ cmd =>
    match cmd with
    | .sync y => f s p c y
    | _ => s

/-- SET (R296). -/
def execSet (core q : Nat) (s : State) : Host.Outcome State Fault Refusal :=
  .next (syncRow s core q 1 fun s p c y => doSet s p core q c y)

/-- CLEAR (R296). -/
def execClear (core q : Nat) (s : State) : Host.Outcome State Fault Refusal :=
  .next (syncRow s core q 2 fun s p c y => doClear s p core q c y)

/-- WAIT (R296). -/
def execWait (core q : Nat) (s : State) : Host.Outcome State Fault Refusal :=
  .next (syncRow s core q 3 fun s p c y => doWait s p core q c y)

/-- COUNT (R312). -/
def execCount (core q : Nat) (s : State) : Host.Outcome State Fault Refusal :=
  .next (syncRow s core q 4 fun s p c y => doCount s p core q c y)

/-- WAIT_CNT (R315). -/
def execWaitCnt (core q : Nat) (s : State) : Host.Outcome State Fault Refusal :=
  .next (syncRow s core q 5 fun s p c y => doWaitCnt s p core q c y)

/-- ARRIVE (R317). -/
def execArrive (core q : Nat) (s : State) : Host.Outcome State Fault Refusal :=
  .next (syncRow s core q 6 fun s p c y => doArrive s p core q c y)

/-- WAIT_SLOT (R318). -/
def execWaitSlot (core q : Nat) (s : State) : Host.Outcome State Fault Refusal :=
  .next (syncRow s core q 7 fun s p c y => doWaitSlot s p core q c y)

/-- FENCE (R308). -/
def execFence (core q : Nat) (s : State) : Host.Outcome State Fault Refusal :=
  .next (syncRow s core q 15 fun s p c y => doFence s p core q c y)

/-- FENCE_COMPLETE: R308. -/
def execFenceComplete (core q : Nat) (s : State) : Host.Outcome State Fault Refusal :=
  .next (withLive s core fun p => completeFence s p core q)

/-- WAIT_TIMEOUT: R302. -/
def execWaitTimeout (core q : Nat) (s : State) : Host.Outcome State Fault Refusal :=
  .next (withLive s core fun p => expireWait s p core q)

/-- R312: an ADD, or a write to a reserved byte of the counter page. A class-T SIG is neither (R284). -/
def execCntAdd (port : Port) (pkt : Packet) (s : State) : Host.Outcome State Fault Refusal :=
  .next (if pkt.ptype = .sig ∧ !pkt.classT ∧ addrSpace pkt.addr.toNat = 2 ∧ doorPage pkt.addr.toNat = 1 ∧
      (counterPort pkt.addr.toNat).all (fun x => !x.2) then counterPacket s port pkt else s)

/-- R312: a MAX. -/
def execCntMax (port : Port) (pkt : Packet) (s : State) : Host.Outcome State Fault Refusal :=
  .next (if pkt.ptype = .sig ∧ !pkt.classT ∧ addrSpace pkt.addr.toNat = 2 ∧ doorPage pkt.addr.toNat = 1 ∧
      (counterPort pkt.addr.toNat).any (fun x => x.2) then counterPacket s port pkt else s)

/-- ARRIVE_TIMEOUT: R321. -/
def execArriveTimeout (core ctx slot : Nat) (s : State) : Host.Outcome State Fault Refusal :=
  .next (withLive s core fun p =>
    let c := cycleOf s core
    partTimeout (settleSync s p core c) p core c ctx slot)

/-- The episode of a slot is released at its root when its last arrival is in; an off-die slot sends its combined
arrival to the base instead (R317, R320, R324). -/
def execChimneyRelease (slot parity : Nat) (s : State) : Host.Outcome State Fault Refusal :=
  .next (
    let x := slotAt s slot
    if !x.enable || x.broken || !allArrived s slot parity then s
    else
      let (orp, andp) := combine (slotArr x parity)
      if x.offDie then
        if x.sentUp.contains (parity == 1) then s
        else
          let s := updSlot s slot fun x => { x with sentUp := x.sentUp ++ [parity == 1] }
          sendArr s [(1, slot), (1, 0), (1, orp), (1, b2n andp)]
      else releaseSlot s slot (parity % 2) orp andp)

/-- The base's release or break of an off-die slot reaches the die root (R320, R322), on Cavern 0's pair only (R420). -/
def execChimneyRel (slot : Nat) (m : RelMsg) (s : State) (bundle : Nat := 0) : Host.Outcome State Fault Refusal :=
  .next (onMsg s bundle 6 fun s =>
    let x := slotAt s slot
    if 2 ≤ bundle then logChip s 7 .done false [(2, 2176 + bundle), (1, 6)]
    else
    if !x.enable || x.broken || !x.offDie then s
    else
      match m with
      | .broken die => breakSlot s slot (some die) true
      | .release orp andp =>
        if x.sentUp.contains x.parity then releaseSlot s slot (b2n x.parity) orp andp else s)

/-- A slot's outcome reaches a member core (R318, R322); a core held in reset has no waiter, and only its broken_seen shows a break
(R333). -/
def execReleaseReachesCore (core slot : Nat) (s : State) : Host.Outcome State Fault Refusal :=
  .next (
    match s.news.find? fun n => n.slot == slot && n.core == core with
    | none => s
    | some n =>
      let s := { s with news := s.news.erase n }
      match physOf s core with
      | none => s
      | some p =>
        if inReset s core then
          (if n.how = 2 then updCore s p fun k => { k with sync := { k.sync with brokenSeen := true } } else s)
        else
        let c := cycleOf s core
        outcomeReaches (settleSync s p core c) p core c n)

/-- A slot breaks for a cause other than a core reset (R322). DEDUCED (log 42). -/
def execSlotBreak (slot : Nat) (cause : BreakCause) (s : State) : Host.Outcome State Fault Refusal :=
  .next (
    match cause with
    | .lostCore =>
      (match (members s slot).find? fun m => (physOf s m.1).isNone with
       | some m => breakSlot s slot (some m.1) false
       | none => s)
    | .disabled => if (slotAt s slot).enable then s else updSlot s slot fun x => { x with arr0 := [], arr1 := [] }
    | .unserved => breakIfUnserved s slot
    | .mgmtDown =>
      if (slotAt s slot).offDie ∧ (bunAt s 2176).state ≠ 2 ∧ (bunAt s 2177).state ≠ 2 then breakSlot s slot none false else s)

end Sys2Proof.Machine
end

