-- ==== Sys2Proof/Machine/Dispatch.lean ====
section
/-!
DEFINITION. The dispatch: one arm per command, each one call of that command's meaning.
-/

namespace Sys2Proof.Machine

/-- The effect of a command on everything but the queue. -/
def exec (i : Instr) (s : State) : Host.Outcome State Fault Refusal :=
  match i with
  | .powerUp => Sys2Proof.Machine.execPowerUp s
  | .powerDown => Sys2Proof.Machine.execPowerDown s
  | .vddInLow => Sys2Proof.Machine.execVddInLow s
  | .vddSumpFault => Sys2Proof.Machine.execVddSumpFault s
  | .echoStart => Sys2Proof.Machine.execEchoStart s
  | .echoReload => Sys2Proof.Machine.execEchoReload s
  | .apertureWrite off v => Sys2Proof.Machine.execApertureWrite off v s
  | .verify => Sys2Proof.Machine.execVerify s
  | .apply => Sys2Proof.Machine.execApply s
  | .clock => Sys2Proof.Machine.execClock s
  | .power shorted => Sys2Proof.Machine.execPower shorted s
  | .train obs => Sys2Proof.Machine.execTrain obs s
  | .topology obs => Sys2Proof.Machine.execTopology obs s
  | .ready => Sys2Proof.Machine.execReady s
  | .stagingClear => Sys2Proof.Machine.execStagingClear s
  | .reload v => Sys2Proof.Machine.execReload v s
  | .reloadCancel v => Sys2Proof.Machine.execReloadCancel v s
  | .resetAssert v => Sys2Proof.Machine.execResetAssert v s
  | .resetEffect => Sys2Proof.Machine.execResetEffect s
  | .resetRelease v => Sys2Proof.Machine.execResetRelease v s
  | .resetExit => Sys2Proof.Machine.execResetExit s
  | .dieResetSelfRelease => Sys2Proof.Machine.execDieResetSelfRelease s
  | .peerDown v => Sys2Proof.Machine.execPeerDown v s
  | .regReq m => Sys2Proof.Machine.execRegReq m s
  | .regAccess policy => Sys2Proof.Machine.execRegAccess policy s
  | .dayRunStart v => Sys2Proof.Machine.execDayRunStart v s
  | .dayRunStop v => Sys2Proof.Machine.execDayRunStop v s
  | .firstDawn => Sys2Proof.Machine.execFirstDawn s
  | .duskMark bundle => Sys2Proof.Machine.execDuskMark s bundle
  | .localDusk => Sys2Proof.Machine.execLocalDusk s
  | .daybreakEnd => Sys2Proof.Machine.execDaybreakEnd s
  | .twilightBegin => Sys2Proof.Machine.execTwilightBegin s
  | .commandRowFetch core q => Sys2Proof.Machine.execCommandRowFetch core q s
  | .nop core q => Sys2Proof.Machine.execNop core q s
  | .queueResume core q v => Sys2Proof.Machine.execQueueResume core q v s
  | .pass core => Sys2Proof.Machine.execPass core s
  | .passIssue core meets fault => Sys2Proof.Machine.execPassIssue core meets fault s
  | .activityRampStep core => Sys2Proof.Machine.execActivityRampStep core s
  | .checkModeWrite core v => Sys2Proof.Machine.execCheckModeWrite core v s
  | .gangIssue gal meets faults => Sys2Proof.Machine.execGangIssue gal meets faults s
  | .gangTimeout gal => Sys2Proof.Machine.execGangTimeout gal s
  | .drain core => Sys2Proof.Machine.execDrain core s
  | .descSet core => Sys2Proof.Machine.execDescSet core s
  | .rescale core => Sys2Proof.Machine.execRescale core s
  | .zero core => Sys2Proof.Machine.execZero core s
  | .outputPathStart core meets => Sys2Proof.Machine.execOutputPathStart core meets s
  | .vecStart core meets => Sys2Proof.Machine.execVecStart core meets s
  | .add core => Sys2Proof.Machine.execAdd core s
  | .sub core => Sys2Proof.Machine.execSub core s
  | .mul core => Sys2Proof.Machine.execMul core s
  | .min core => Sys2Proof.Machine.execMin core s
  | .max core => Sys2Proof.Machine.execMax core s
  | .cmplt core => Sys2Proof.Machine.execCmplt core s
  | .cmple core => Sys2Proof.Machine.execCmple core s
  | .cmpeq core => Sys2Proof.Machine.execCmpeq core s
  | .sel core => Sys2Proof.Machine.execSel core s
  | .copy core => Sys2Proof.Machine.execCopy core s
  | .neg core => Sys2Proof.Machine.execNeg core s
  | .abs core => Sys2Proof.Machine.execAbs core s
  | .shift core => Sys2Proof.Machine.execShift core s
  | .isnar core => Sys2Proof.Machine.execIsnar core s
  | .exp2 core => Sys2Proof.Machine.execExp2 core s
  | .log2 core => Sys2Proof.Machine.execLog2 core s
  | .recip core => Sys2Proof.Machine.execRecip core s
  | .rsqrt core => Sys2Proof.Machine.execRsqrt core s
  | .widen core => Sys2Proof.Machine.execWiden core s
  | .narrow core => Sys2Proof.Machine.execNarrow core s
  | .rsum core => Sys2Proof.Machine.execRsum core s
  | .rsumsq core => Sys2Proof.Machine.execRsumsq core s
  | .rmax core => Sys2Proof.Machine.execRmax core s
  | .rmin core => Sys2Proof.Machine.execRmin core s
  | .sget core => Sys2Proof.Machine.execSget core s
  | .softmax core => Sys2Proof.Machine.execSoftmax core s
  | .lnorm core => Sys2Proof.Machine.execLnorm core s
  | .rmsnorm core => Sys2Proof.Machine.execRmsnorm core s
  | .xent core => Sys2Proof.Machine.execXent core s
  | .mse core => Sys2Proof.Machine.execMse core s
  | .cscnt core => Sys2Proof.Machine.execCscnt core s
  | .csclr core => Sys2Proof.Machine.execCsclr core s
  | .censusRollup => Sys2Proof.Machine.execCensusRollup s
  | .scrubPool phys row => Sys2Proof.Machine.execScrubPool phys row s
  | .scrubPoolWriteback phys row => Sys2Proof.Machine.execScrubPoolWriteback phys row s
  | .scrubFlowstone phys trow => Sys2Proof.Machine.execScrubFlowstone phys trow s
  | .scrubFlowstoneWriteback phys trow => Sys2Proof.Machine.execScrubFlowstoneWriteback phys trow s
  | .scrubSync phys word => Sys2Proof.Machine.execScrubSync phys word s
  | .scrubConfig cell => Sys2Proof.Machine.execScrubConfig cell s
  | .sbTimeout core q => Sys2Proof.Machine.execSbTimeout core q s
  | .tailAdd port p => Sys2Proof.Machine.execTailAdd port p s
  | .headAdd port p => Sys2Proof.Machine.execHeadAdd port p s
  | .ringEnable core n v => Sys2Proof.Machine.execRingEnable core n v s
  | .ringDisable core n v => Sys2Proof.Machine.execRingDisable core n v s
  | .wr port p => Sys2Proof.Machine.execWr port p s
  | .inboundCommit core bank => Sys2Proof.Machine.execInboundCommit core bank s
  | .classTWrite port p => Sys2Proof.Machine.execClassTWrite port p s
  | .rd port p => Sys2Proof.Machine.execRd port p s
  | .poolBankOffRequest core v => Sys2Proof.Machine.execPoolBankOffRequest core v s
  | .poolBankOffCancel core v => Sys2Proof.Machine.execPoolBankOffCancel core v s
  | .poolBankPowerDown core bank => Sys2Proof.Machine.execPoolBankPowerDown core bank s
  | .poolBankPowerUp core v => Sys2Proof.Machine.execPoolBankPowerUp core v s
  | .poolBankReady core bank => Sys2Proof.Machine.execPoolBankReady core bank s
  | .move core => Sys2Proof.Machine.execMove core s
  | .tileOut core => Sys2Proof.Machine.execTileOut core s
  | .signal core => Sys2Proof.Machine.execSignal core s
  | .grant core => Sys2Proof.Machine.execGrant core s
  | .deepRead core => Sys2Proof.Machine.execDeepRead core s
  | .movePrelude core q meets => Sys2Proof.Machine.execMovePrelude core q meets s
  | .moveIssue core meets => Sys2Proof.Machine.execMoveIssue core meets s
  | .deepReadIssue core => Sys2Proof.Machine.execDeepReadIssue core s
  | .moveIssueTimeout core q => Sys2Proof.Machine.execMoveIssueTimeout core q s
  | .deepData port p => Sys2Proof.Machine.execDeepData port p s
  | .ack port p => Sys2Proof.Machine.execAck port p s
  | .rowTimeout core tag row => Sys2Proof.Machine.execRowTimeout core tag row s
  | .creditGrant port p => Sys2Proof.Machine.execCreditGrant port p s
  | .revoke port p => Sys2Proof.Machine.execRevoke port p s
  | .bounce port p => Sys2Proof.Machine.execBounce port p s
  | .injectFlit core side err => Sys2Proof.Machine.execInjectFlit core side s err
  | .routerArbitrate node output err => Sys2Proof.Machine.execRouterArbitrate node output s err
  | .headBoost node input channel => Sys2Proof.Machine.execHeadBoost node input channel s
  | .watchdogStall node input channel => Sys2Proof.Machine.execWatchdogStall node input channel s
  | .windowOpen core w v => Sys2Proof.Machine.execWindowOpen core w v s
  | .windowClose core w v => Sys2Proof.Machine.execWindowClose core w v s
  | .set core q => Sys2Proof.Machine.execSet core q s
  | .clear core q => Sys2Proof.Machine.execClear core q s
  | .wait core q => Sys2Proof.Machine.execWait core q s
  | .count core q => Sys2Proof.Machine.execCount core q s
  | .waitCnt core q => Sys2Proof.Machine.execWaitCnt core q s
  | .arrive core q => Sys2Proof.Machine.execArrive core q s
  | .waitSlot core q => Sys2Proof.Machine.execWaitSlot core q s
  | .fence core q => Sys2Proof.Machine.execFence core q s
  | .fenceComplete core q => Sys2Proof.Machine.execFenceComplete core q s
  | .waitTimeout core q => Sys2Proof.Machine.execWaitTimeout core q s
  | .cntAdd port p => Sys2Proof.Machine.execCntAdd port p s
  | .cntMax port p => Sys2Proof.Machine.execCntMax port p s
  | .counterEnable core v => Sys2Proof.Machine.execCounterEnable core v s
  | .counterDisable core v => Sys2Proof.Machine.execCounterDisable core v s
  | .chimneyRelease slot parity => Sys2Proof.Machine.execChimneyRelease slot parity s
  | .chimneyRel slot m bundle => Sys2Proof.Machine.execChimneyRel slot m s bundle
  | .releaseReachesCore core slot => Sys2Proof.Machine.execReleaseReachesCore core slot s
  | .slotBreak slot cause => Sys2Proof.Machine.execSlotBreak slot cause s
  | .arriveTimeout core ctx slot => Sys2Proof.Machine.execArriveTimeout core ctx slot s
  | .slotEnable slot v => Sys2Proof.Machine.execSlotEnable slot v s
  | .slotDisable slot v => Sys2Proof.Machine.execSlotDisable slot v s
  | .slotRearm slot v => Sys2Proof.Machine.execSlotRearm slot v s
  | .setFlag core requester v => Sys2Proof.Machine.execSetFlag core requester v s
  | .clearFlag core requester v => Sys2Proof.Machine.execClearFlag core requester v s
  | .cntWrite core requester v => Sys2Proof.Machine.execCntWrite core requester v s
  | .ringHead core requester v => Sys2Proof.Machine.execRingHead core requester v s
  | .ringTail core requester v => Sys2Proof.Machine.execRingTail core requester v s
  | .create core v => Sys2Proof.Machine.execCreate core v s
  | .bind core v => Sys2Proof.Machine.execBind core v s
  | .unbind core v => Sys2Proof.Machine.execUnbind core v s
  | .queuePark core q => Sys2Proof.Machine.execQueuePark core q s
  | .save core v => Sys2Proof.Machine.execSave core v s
  | .saveComplete core => Sys2Proof.Machine.execSaveComplete core s
  | .restore core v => Sys2Proof.Machine.execRestore core v s
  | .restoreHeaderCheck core => Sys2Proof.Machine.execRestoreHeaderCheck core s
  | .restoreComplete core => Sys2Proof.Machine.execRestoreComplete core s
  | .destroy core v => Sys2Proof.Machine.execDestroy core v s
  | .settle core v => Sys2Proof.Machine.execSettle core v s
  | .contextOpTimeout core => Sys2Proof.Machine.execContextOpTimeout core s
  | .unsettledMaskBroadcast gal => Sys2Proof.Machine.execUnsettledMaskBroadcast gal s
  | .spare cav v => Sys2Proof.Machine.execSpare cav v s
  | .unspare cav v => Sys2Proof.Machine.execUnspare cav v s
  | .offline cav v => Sys2Proof.Machine.execOffline cav v s
  | .online cav v => Sys2Proof.Machine.execOnline cav v s
  | .capacityCancel cav v => Sys2Proof.Machine.execCapacityCancel cav v s
  | .bundleTrain b v obs => Sys2Proof.Machine.execBundleTrain b v obs s
  | .linkAutoTrain b obs => Sys2Proof.Machine.execLinkAutoTrain b obs s
  | .trainingStepTimeout b obs => Sys2Proof.Machine.execTrainingStepTimeout b s obs
  | .retrain b v byBase obs => Sys2Proof.Machine.execRetrain b v byBase obs s
  | .laneRecalibrate b => Sys2Proof.Machine.execLaneRecalibrate b s
  | .marginalLane b lane more => Sys2Proof.Machine.execMarginalLane b lane more s
  | .linkFlit b flit errs retrain => Sys2Proof.Machine.execLinkFlit b flit s errs retrain
  | .linkDown b clkLost => Sys2Proof.Machine.execLinkDown b clkLost s
  | .railPower cav m bundle => Sys2Proof.Machine.execRailPower cav m s bundle
  | .linkState => Sys2Proof.Machine.execLinkState s
  | .telemetry bundle => Sys2Proof.Machine.execTelemetry bundle s
  | .loopEnable b v => Sys2Proof.Machine.execLoopEnable b v s
  | .loopTestStart b v obs => Sys2Proof.Machine.execLoopTestStart b v obs s
  | .sequenceEnd cav => Sys2Proof.Machine.execSequenceEnd cav s
  | .referenceLost => Sys2Proof.Machine.execReferenceLost s
  | .referenceRelock cav => Sys2Proof.Machine.execReferenceRelock cav s
  | .issueWindow gal => Sys2Proof.Machine.execIssueWindow gal s
  | .powerWindowTimeout cav => Sys2Proof.Machine.execPowerWindowTimeout cav s
  | .droopTrip gal => Sys2Proof.Machine.execDroopTrip gal s
  | .stretchEnd cav => Sys2Proof.Machine.execStretchEnd cav s
  | .thermalCalibration gal => Sys2Proof.Machine.execThermalCalibration gal s
  | .attestReq => Sys2Proof.Machine.execAttestReq s
  | .attestComplete => Sys2Proof.Machine.execAttestComplete s
  | .bistStart gal v => Sys2Proof.Machine.execBistStart gal v s
  | .bistComplete gal failUnit repair => Sys2Proof.Machine.execBistComplete gal failUnit s repair
  | .standaloneSet v => Sys2Proof.Machine.execStandaloneSet v s
  | .tapLock v => Sys2Proof.Machine.execTapLock v s
  | .logHeadAdvance v => Sys2Proof.Machine.execLogHeadAdvance v s
  | .logClearLost => Sys2Proof.Machine.execLogClearLost s
  | .idcode => Sys2Proof.Machine.execIdcode s
  | .samplePreload load up => Sys2Proof.Machine.execSamplePreload load up s
  | .extest up => Sys2Proof.Machine.execExtest up s
  | .wrap1500 => Sys2Proof.Machine.execWrap1500 s
  | .gsel gal => Sys2Proof.Machine.execGsel gal s
  | .bypass code => Sys2Proof.Machine.execBypass code s
  | .droopDetectorClear gal => Sys2Proof.Machine.execDroopDetectorClear gal s
  | .temperatureSample gal temp => Sys2Proof.Machine.execTemperatureSample gal temp s
  | .loopTestComplete b bad => Sys2Proof.Machine.execLoopTestComplete b bad s
  | .uncorrectableHeaderFlit b errs => Sys2Proof.Machine.execUncorrectableHeaderFlit b s errs
  | .unknownMessage bundle code => Sys2Proof.Machine.execUnknownMessage bundle code s

end Sys2Proof.Machine
end

