-- ==== Sys2Proof/Safety.lean ====
section
/-!
DEFINITION. What a safe step is, the invariants the statements are made with (the tables in canonical form, the log within
its store), and the conditions on a state under which they say that a command has its own effect.
-/

namespace Sys2Proof.Machine

/-- The step answers a next state. -/
def SafeStep (s : State) : Prop := ∃ t, step s = .next t

/-- A memory (a Pool's rows by number) is in canonical form: rising addresses, no row that reads as an unlisted one. -/
def Memory.wf (m : Store Row) : Bool := Store.wf Row.zero m

/-- The tables of cores, Galleries, Caverns and Chimney slots are in canonical form. -/
def tablesWf (s : State) : Bool :=
  Store.wf Core.init s.cores && Store.wf Gal.init s.gals && Store.wf Cav.init s.cavs && Store.wf Slot.init s.slots

/-- The error log holds at most its 4,096 records, and the records of the present M-cycle stand in the order in which they will
enter it (R510). -/
def logWf (s : State) : Prop :=
  s.log.recs.length ≤ 4096 ∧ s.log.fresh.Pairwise fun x r => logBefore r x = false

/-- The invariant of the part: tables in canonical form, the error log within its store and its new records in order. -/
def Inv (s : State) : Prop := tablesWf s = true ∧ logWf s

/-- Echo serves accesses: power, Echo's code runs, and no half of a 64-bit register is staged. -/
def Serves (s : State) : Prop :=
  s.boot.powered = true ∧ s.boot.echo = true ∧ s.half = none ∧ reloading s = false

/-- No effect to come of a core's started commands falls due before cycle c. -/
def Current (k : Core) (c : Nat) : Prop := ∀ x, x ∈ k.late → c ≤ x.cycle

/-- The Guideline reaches logical core l, served by physical core p with its gate on (R16, R533), none of whose registers the
part has changed in the present M-cycle (R9, R17), and none of whose started commands has an effect overdue. -/
def Reach (s : State) (l p : Nat) : Prop :=
  Serves s ∧ physOf s l = some p ∧ gateOn s p = true ∧ (∀ h, h ∈ (coreAt s p).hw → h.2 ≠ s.mNow) ∧
  Current (coreAt s p) (cycleOf s l)

/-- The error-log records made so far, modulo 2^32: those numbered, those that wait for ECHO_RELOAD, and those of the present
M-cycle (R468, R508, R510). -/
def recordsMade (s : State) : Nat :=
  (s.log.tail + s.log.waiting.length + s.log.missed + s.log.fresh.length) % 2 ^ 32

/-- No reserved bit of a register's word is set (R8). -/
def Clean (v : Word) (mask : Nat) : Prop := v.toNat &&& mask = v.toNat

/-- The slot with bits b and key k is at the head of queue q of a running core, and passes step 1 of R351; no flag is due
and no word of the sync unit is in error. -/
def AtHead (s : State) (l q p k b : Nat) : Prop :=
  liveCore s l = some p ∧ queueFree (coreAt s p) q = true ∧ headBits (queueAt (coreAt s p) q) = some b ∧ slotKey q b = k ∧
  slotBad q b = false ∧ (coreAt s p).sync.due = [] ∧ (coreAt s p).upsets.sync = []

/-- The cycle in which the command at the head of queue q decodes, in its turn among the events on its objects (R297, R314). -/
def decodedAt (s : State) (l q p key : Nat) : Nat :=
  headCycle s p l q key ((headBits (queueAt (coreAt s p) q)).getD 0)

/-- Every other physical core is as it was. -/
def OthersKept (s t : State) (p : Nat) : Prop := ∀ i, i ≠ p → coreAt t i = coreAt s i

/-- Every Pool row and tile row of a core reads as before. -/
def MemoryKept (s t : State) (p : Nat) : Prop :=
  (∀ r, rowAt (coreAt t p) r = rowAt (coreAt s p) r) ∧ ∀ u, trowAt (coreAt t p) u = trowAt (coreAt s p) u

/-- No access of a command fails at physical core p: its accesses meet nothing, no bank is off, no row is in error. -/
def Clear (k : Core) (fs : List Fore) : Prop :=
  k.pool.plan = [] ∧ k.pool.off = [] ∧ k.upsets = { pool := [], fs := [], sync := [] } ∧
  ∀ f, f ∈ fs → f.cycle % 32 ≠ reservedPhase (bankOf f.row)

/-- A command c decoded at the head of a queue waits on no row of an abandoned ring (R245). -/
def NotAbandoned (s : State) (l p : Nat) (c : Cmd) : Prop :=
  ∀ d : Decoded, d.cmd = c → d.idx = none → cmdVerdict s p l (cycleOf s l) d ≠ .abandoned

/-- A core may issue or start a command (R30), and none of its started commands has an effect overdue. -/
def MayIssue (s : State) (l p : Nat) : Prop :=
  liveCore s l = some p ∧ inBreak s l = false ∧ Current (coreAt s p) (cycleOf s l)

/-- A single-tile pass decoded at the head of core l's matrix queue issues at cycle e: every condition of R82 holds, its turn at the
limiter included. -/
def PassIssues (s : State) (l p e : Nat) (d : Decoded) (c : PassCmd) : Prop :=
  MayIssue s l p ∧ headPass (coreAt s p) = some (d, c) ∧ c.shape = 0 ∧ e = nextPhase (max (cycleOf s l) d.since) 0 32 ∧
  cmdVerdict s p l e d = .go ∧ tileReady s p l e d c (passLoads (coreAt s p) d.ctx c) = true ∧
  limAdmitsTurn (galAt (rollGal s (galOf l) e) (galOf l)).lim e (l % 64) 1
    (limOffers (rollGal s (galOf l) e) (galOf l) e) = true

/-- The panel rows that a single-tile pass issued at cycle e reads (R83). -/
def passFores (c : PassCmd) (e : Nat) : List Fore :=
  [{ row := c.aRow, cycle := e, write := false }, { row := c.aRow + 1, cycle := e + 1, write := false }] ++
  (if c.flow && !c.loadW then []
   else [{ row := c.bRow, cycle := e + 2, write := false }, { row := c.bRow + 1, cycle := e + 3, write := false }])

/-- The A panel of a pass as its rows stand (R79). -/
def passA (k : Core) (c : PassCmd) : List Block := panelLanes c.fmt (rowAt k c.aRow) (rowAt k (c.aRow + 1))

/-- The B panel of a pass of context cx: its rows, or the weights the context last loaded (R79, R88). -/
def passB (k : Core) (cx : Nat) (c : PassCmd) : List Block :=
  if c.flow && !c.loadW then
    (match (ctxAt k cx).shadow with
     | none => List.replicate 32 { nar := true, e := 0, lanes := [] }
     | some w => panelLanes w.fmt w.r0 w.r1)
  else panelLanes c.fmt (rowAt k c.bRow) (rowAt k (c.bRow + 1))

/-- The cycle of the last word that a single-tile pass issued at cycle e writes (R85, R87). -/
def passLast (k : Core) (d : Decoded) (c : PassCmd) (e : Nat) : Nat := e + 73 + (if passLoads k d.ctx c then 32 else 0)

/-- No started command still changes a tile's descriptor fields at cycle c. -/
def FieldsStand (d : Desc) (c : Nat) : Prop := ∀ v, v ∈ d.evs → v.1 < c

/-- Two gang passes agree in the fields that R110 fixes. -/
def GangAlike (x y : PassCmd) : Prop := x.fmt = y.fmt ∧ x.flow = y.flow ∧ x.loadW = y.loadW ∧ x.shape = y.shape

/-- The gang pass of every member that has arrived at a Gallery's rendezvous has left its queue's head. -/
def RendezvousEnded (s t : State) (g : Nat) : Prop :=
  (galAt t g).rendezvous = [] ∧ (galAt t g).gangFailed = true ∧
  ∀ a q, a ∈ (galAt s g).rendezvous → physOf s (memberOf g a.1) = some q → (queueAt (coreAt t q) 0).head = none

/-- The command at the head of queue q of a running core decodes to c (steps 1 to 6 of R351 pass). -/
def Decodes (s : State) (l q p key : Nat) (c : Cmd) : Prop :=
  ∃ b, AtHead s l q p key b ∧ decodeSlot s p l q key b = .ok c

/-- The commands of the vector queue with their keys: 0x400 + op (R169). -/
def vectorRows (l : Nat) : List (Instr × Nat) :=
  [(.add l, 0x401), (.sub l, 0x402), (.mul l, 0x403), (.min l, 0x404), (.max l, 0x405), (.cmplt l, 0x406), (.cmple l, 0x407),
   (.cmpeq l, 0x408), (.sel l, 0x409), (.copy l, 0x410), (.neg l, 0x411), (.abs l, 0x412), (.shift l, 0x413),
   (.isnar l, 0x414), (.exp2 l, 0x415), (.log2 l, 0x416), (.recip l, 0x417), (.rsqrt l, 0x418), (.widen l, 0x420),
   (.narrow l, 0x421), (.rsum l, 0x428), (.rsumsq l, 0x429), (.rmax l, 0x42A), (.rmin l, 0x42B), (.sget l, 0x42C),
   (.softmax l, 0x430), (.lnorm l, 0x431), (.rmsnorm l, 0x432), (.xent l, 0x433), (.mse l, 0x434), (.cscnt l, 0x438),
   (.csclr l, 0x439)]

/-- The commands of the move-out queue with their keys (R259). -/
def moveOutRows (l : Nat) : List (Instr × Nat) := [(.move l, 0x501), (.tileOut l, 0x502), (.signal l, 0x503), (.grant l, 0x504)]

/-- The commands of the output path with their keys (R152, R349). -/
def outputRows (l : Nat) : List (Instr × Nat) := [(.drain l, 0x200), (.descSet l, 0x300), (.rescale l, 0x301), (.zero l, 0x302)]

/-- The sync commands with their keys (R294). -/
def syncRows (l q : Nat) : List (Instr × Nat) :=
  [(.set l q, 0x601), (.clear l q, 0x602), (.wait l q, 0x603), (.count l q, 0x604), (.waitCnt l q, 0x605), (.arrive l q, 0x606),
   (.waitSlot l q, 0x607), (.fence l q, 0x60F)]

/-- The commands that are the write of one register of core l, or of the register that n numbers: the row, whether the word v is that
row's, the address, and the word written. -/
def registerRows (s : State) (l n : Nat) (v : Word) : List (Instr × Bool × Nat × Word) :=
  [(.apertureWrite n v, decide (n < 0x10000), 0xF0000 + n, v), (.reload v, !wbit v 5, 0x40C, v), (.reloadCancel v, wbit v 5, 0x40C, v),
   (.resetAssert v, !wbit v 13, 0x310, v), (.resetRelease v, wbit v 13, 0x310, v), (.peerDown v, true, 0x314, v),
   (.dayRunStart v, wbit v 0, 0x708, v), (.dayRunStop v, !wbit v 0, 0x708, v), (.standaloneSet v, wbit v 0, 0x640, v),
   (.tapLock v, wbit v 1, 0x640, v), (.logHeadAdvance v, true, 0x500, v), (.logClearLost, true, 0x508, BitVec.ofNat 32 (2 ^ 17)),
   (.attestReq, true, 0x610, 1)] ++
  [(.queueResume l n v, decide (n < 4) && wbit v 9, coreReg l (0x100 + 4 * n), v), (.checkModeWrite l v, true, coreReg l 0x200, v),
   (.ringEnable l n v, decide (n < 16) && wbit v 21, coreReg l (0x400 + 16 * n), v),
   (.ringDisable l n v, decide (n < 16) && !wbit v 21, coreReg l (0x400 + 16 * n), v),
   (.windowOpen l n v, decide (n < 8) && wbit v 21, coreReg l (0x700 + 16 * n), v),
   (.windowClose l n v, decide (n < 8) && !wbit v 21, coreReg l (0x700 + 16 * n), v),
   (.counterEnable l v, wbit v 0, coreReg l 0x7CC, v), (.counterDisable l v, !wbit v 0, coreReg l 0x7CC, v),
   (.poolBankOffRequest l v, (List.range 16).any fun b => wbit v b && !(poolOf s l).offReq.contains b, coreReg l 0x300, v),
   (.poolBankOffCancel l v, (poolOf s l).offReq.any fun b => !wbit v b && !(poolOf s l).off.contains b, coreReg l 0x300, v),
   (.poolBankPowerUp l v, (poolOf s l).off.any fun b => !wbit v b, coreReg l 0x300, v)] ++
  [(.create l v, fieldN v.toNat 0 3 == 1, coreReg l 0x130, v), (.bind l v, fieldN v.toNat 0 3 == 2, coreReg l 0x130, v),
   (.unbind l v, fieldN v.toNat 0 3 == 3, coreReg l 0x130, v), (.save l v, fieldN v.toNat 0 3 == 4, coreReg l 0x130, v),
   (.restore l v, fieldN v.toNat 0 3 == 5, coreReg l 0x130, v), (.destroy l v, fieldN v.toNat 0 3 == 6, coreReg l 0x130, v),
   (.settle l v, fieldN v.toNat 0 3 == 7, coreReg l 0x130, v)] ++
  [(.slotEnable n v, decide (n < 128) && wbit v 0 && !wbit v 5, 0x1000 + 4 * n, v),
   (.slotDisable n v, decide (n < 128) && !wbit v 0 && !wbit v 5, 0x1000 + 4 * n, v),
   (.slotRearm n v, decide (n < 128) && wbit v 5, 0x1000 + 4 * n, v), (.bistStart n v, decide (n < 32) && wbit v 7, galReg n 0x500, v),
   (.spare n v, decide (n < 4) && fieldN v.toNat 0 3 == 1, cavReg n 0x300, v),
   (.unspare n v, decide (n < 4) && fieldN v.toNat 0 3 == 2, cavReg n 0x300, v),
   (.offline n v, decide (n < 4) && fieldN v.toNat 0 3 == 3, cavReg n 0x300, v),
   (.online n v, decide (n < 4) && fieldN v.toNat 0 3 == 4, cavReg n 0x300, v),
   (.capacityCancel n v, decide (n < 4) && fieldN v.toNat 0 3 == 0, cavReg n 0x300, v)]

/-- The rows of CORE_HAND, with the act each names (R328). -/
def handRows (l rq : Nat) (v : Word) : List (Instr × Nat) :=
  [(.setFlag l rq v, 1), (.clearFlag l rq v, 2), (.cntWrite l rq v, 3), (.ringHead l rq v, 4), (.ringTail l rq v, 5)]

/-- A command that stays decoded at its queue's head: the row i, its queue q and its key. -/
def WaitingRow (l : Nat) (i : Instr) (q key : Nat) : Prop :=
  ((i, key) ∈ vectorRows l ∧ q = 1) ∨ ((i, key) ∈ moveOutRows l ∧ q = 3) ∨ (i = .deepRead l ∧ q = 2 ∧ key = 0x511)

/-- A row that decodes the slot with bits b and key `key` at the head of queue q, other than a NOP and a gang pass. -/
def DecodeRow (l : Nat) (i : Instr) (q key b : Nat) : Prop :=
  WaitingRow l i q key ∨ ((i, key) ∈ outputRows l ∧ q = 0) ∨ (i, key) ∈ syncRows l q ∨ (i = .nop l q ∧ key = 0 ∧ b ≠ 0) ∨
  (i = .pass l ∧ q = 0 ∧ key = 0x100 ∧ fieldN (slotWord b 1) 28 2 = 0)

/-- Nothing of a core's sync unit is due, asleep or in error. -/
def Quiet (k : Core) : Prop := k.sync.due = [] ∧ k.upsets.sync = [] ∧ ∀ q, (queueAt k q).sleep = none

/-- The arrival a command makes in cycle c with a parity, unreleased (R317, R321). -/
def arrivalOf (y : SyncCmd) (parity : Bool) (c : Nat) : Part :=
  { slot := y.slot, parity := parity, verdict := y.verdict, deadline := c + 256 * y.units, out := false, frozen := false }

/-- A sync command y at the head of queue q, decoded in cycle c, has ended there with a status and left the head; its done flag is due in
the next cycle if the status lets it be set (R301, R304, R355). -/
def SyncEnds (s t : State) (p q c : Nat) (y : SyncCmd) (st : Status) (sets : Bool) : Prop :=
  let x := queueAt (coreAt s p) q
  let z := queueAt (coreAt t p) q
  t.answer = st ∧ z.sleep = none ∧ z.fence = none ∧ z.nextSlot = (if x.nextSlot = 15 then 0 else x.nextSlot + 1) ∧
  (ringAt (coreAt t p) q).head = (if x.nextSlot = 15 then ((ringAt (coreAt s p) q).head + 1) % 2 ^ 32
    else (ringAt (coreAt s p) q).head) ∧
  c + 1 ≤ z.ready ∧ (x.nextSlot ≠ 15 → z.ready = c + 1) ∧
  (coreAt t p).sync.due.map (fun d => (d.cycle, d.flag, d.clear)) =
    (if sets = true ∧ y.doneEn = true then [(c + 1, y.doneFlag, false)] else [])

/-- A packet for logical core l is next at its interface: its port carries traffic, its header flit is readable, and no packet of its
way precedes it (R281, R411). -/
def NextIn (s : State) (port : Port) (pkt : Packet) (l : Nat) : Prop :=
  packetCore s pkt = some l ∧ portUp s port = true ∧ headerLost port pkt = false ∧ inTurn s port l pkt = true

/-- A packet arrives for the logical core l that physical core p serves, out of reset and settled, from the Vein or down the core's own
bundle. -/
def Arrives (s : State) (port : Port) (pkt : Packet) (l p : Nat) : Prop :=
  NextIn s port pkt l ∧ physOf s l = some p ∧ isUnsettled s l = false ∧ inReset s l = false ∧
  (port = .vein ∨ ∃ errs, port = .sump p errs)

/-- The rows for a WR or SIG packet of the network, with whether a packet is the row's. -/
def arrivalRows (port : Port) (pkt : Packet) : List (Instr × Bool) :=
  let a := pkt.addr.toNat
  let sig := pkt.ptype == .sig && !pkt.classT
  let page := addrSpace a == 2 && doorPage a == 1
  [(.wr port pkt, pkt.ptype == .wr && !pkt.classT),
   (.tailAdd port pkt, sig && !isHeadDoor a && !page), (.headAdd port pkt, sig && isHeadDoor a),
   (.cntAdd port pkt, sig && page && (counterPort a).all fun x => !x.2), (.cntMax port pkt, sig && page && (counterPort a).any (·.2))]

end Sys2Proof.Machine
end

