-- ==== Sys2Proof/Certificates/Slice0/Obligations.lean ====
section
/-!
DEFINITION. The statements for the provers: what the commands of the part do, with what they leave unchanged, and where they
complete. A statement whose docstring names a log entry rests on a choice of the model there.
-/

open Sys2Proof Sys2Proof.Machine

/-- The block's interface: the step takes the command at the front of the queue and runs it with the queue's rest. -/
def Obligations.StepRunsFrontCommand : Prop :=
  ∀ (s : State) (c : Instr) (rest : List Instr), s.pending = c :: rest → step s = exec c { s with pending := rest }

/-- On an empty queue one M-cycle passes; without power nothing does (DESIGN CHOICE, log 11). -/
def Obligations.IdleStepIsOneCycle : Prop :=
  ∀ s : State, s.pending = [] → step s = .next (tick s) ∧
    (s.boot.powered = false → tick s = s) ∧
    (s.boot.powered = true → (tick s).mNow = s.mNow + 1)

/-- No command stops the machine, and none touches the queue or the fuses. -/
def Obligations.ExecAnswersAndKeepsQueue : Prop :=
  ∀ (i : Instr) (s : State), ∃ t, exec i s = .next t ∧ t.pending = s.pending ∧ t.fuse = s.fuse

/-- What reset leaves, at the values the spec gives. -/
def Obligations.ResetValues : Prop :=
  State.reset.day.period = 0x3E8 ∧ State.reset.day.twilight = 0x64 ∧ State.reset.day.run = false ∧
  State.reset.day.source = true ∧ State.reset.boot.stage = 0 ∧ State.reset.tap.ir = 0xFF ∧
  (∀ p n, (ringAt (coreAt State.reset p) n).enable = false ∧
    ((ringAt (coreAt State.reset p) n).enforce = true ↔ n < 4)) ∧
  (∀ p t, (descAt (coreAt State.reset p) t).poisoned = true ∧ (descAt (coreAt State.reset p) t).cause = 7) ∧
  (∀ p, (coreAt State.reset p).pool.sbUnits = 0x400 ∧ (coreAt State.reset p).mv.units = 0x400) ∧
  (∀ b, (bunAt State.reset b).state = 0 ∧ ((bunAt State.reset b).auto = true ↔ 2176 ≤ b)) ∧
  (∀ g, (galAt State.reset g).gangUnits = 0x40 ∧ (galAt State.reset g).margin = 0x0C) ∧
  State.reset.log.recs = [] ∧ State.reset.log.lost = 0

/-- The invariant holds at reset. -/
def Obligations.ResetMeetsInvariant : Prop :=
  Inv State.reset

/-- Every step keeps the invariant, from any state that has it: the tables of cores, Galleries, Caverns and Chimney
slots in canonical form, and the error log within its 4,096 records (R510). -/
def Obligations.StepKeepsInvariant : Prop :=
  ∀ s t : State, Inv s → step s = .next t → Inv t

/-- Once tap_lock is 1, no step but a power-down clears it (R522). -/
def Obligations.TapLockStays : Prop :=
  ∀ (s t : State), s.tap.tapLock = true → s.pending.head? ≠ some .powerDown → step s = .next t → t.tap.tapLock = true

/-- POWER_UP (R461): an unpowered part becomes powered with the defect map read and the device key derived (R482,
R511); only the always-on domain runs: no gate turns on, no core is released, run stays 0. POWER_DOWN (R545): every
state is lost, the error log included; what stays is the fuses, the queue of commands, what was already sent and the
model's counter of free values. VDD_IN_LOW (R545): a powered part takes a die reset at once: no core stays released or
gated, the stage is ROM or ECHO, run is 0, the stores are cleared and no slot stays enabled. VDD_SUMP_FAULT (R545):
every bundle in TRAINING, UP or RETRAINING goes DOWN with its event mark; no other bundle changes its state, and no
Pool row changes. -/
def Obligations.PowerRails : Prop :=
  (∀ s : State, s.boot.powered = false → ∃ t, exec .powerUp s = .next t ∧ t.boot.powered = true ∧
     t.boot.gatesOn = s.boot.gatesOn ∧ t.boot.released = s.boot.released ∧ t.boot.stage = s.boot.stage ∧ t.day = s.day ∧
     t.cavs = s.cavs ∧ t.bundles = s.bundles ∧
     (match resolveCopies s.fuse.copies with
      | none => t.boot.defState = 2
      | some m => t.boot.defState = 1 ∧ t.boot.badCores = m.1 ∧ t.boot.repairs = m.2) ∧
     (t.boot.idState = 2 ↔ s.fuse.pufKey = none)) ∧
  (∀ s : State, exec .powerDown s = .next { State.reset with pending := s.pending, fuse := s.fuse, out := s.out, free := s.free }) ∧
  (∀ s : State, s.boot.powered = true → ∃ t, exec .vddInLow s = .next t ∧ t.boot.released = false ∧ t.boot.gatesOn = false ∧
     t.boot.stage ≤ 1 ∧ t.day.run = false ∧ t.day.period = 0x3E8 ∧ t.cfg.bsState = 0 ∧ t.cfg.staging = [] ∧ t.cfg.shadow = [] ∧
     t.held = [] ∧ (∀ n, (slotAt t n).enable = false) ∧ t.pending = s.pending ∧ t.fuse = s.fuse) ∧
  (∀ s : State, s.boot.powered = true → ∃ t, exec .vddSumpFault s = .next t ∧
     (∀ b, (bunAt t b).state = if 1 ≤ (bunAt s b).state ∧ (bunAt s b).state ≤ 3 then 0 else (bunAt s b).state) ∧
     (∀ b, 1 ≤ (bunAt s b).state → (bunAt s b).state ≤ 3 → (bunAt t b).downSeen = true) ∧
     ∀ p r, rowAt (coreAt t p) r = rowAt (coreAt s p) r)

/-- RING_ENABLE (R256): a write of CORE_RINGn_CFG that sets enable of a ring not enabled and passes R256's checks
leaves the ring with the word's fields, enabled, no longer abandoned, and with one credit granted for each free count
to a bound producer of another kind than 0. RING_DISABLE (R246): a write that only clears enable leaves it disabled
with its counts 0. WINDOW_OPEN (R291) and WINDOW_CLOSE (R285) do the like for a window. No Pool or tile row changes,
and no other core. -/
def Obligations.RingAndWindowRows : Prop :=
  ∀ (s : State) (l p : Nat) (v : Word), Reach s l p →
  (∀ n, n < 16 → wbit v 21 = true → (ringAt (coreAt s p) n).enable = false → (n < 4 → wbit v 22 = true) →
    ringEnableCheck s (coreAt s p) l n (ringFromCfg (ringAt (coreAt s p) n) v.toNat) = .done →
    ∃ t, exec (.ringEnable l n v) s = .next t ∧ t.answer = .done ∧
      ringAt (coreAt t p) n =
        { ringFromCfg (ringAt (coreAt s p) n) v.toNat with
          enable := true, abandoned := false, withheld := 0,
          outst := if (ringAt (coreAt s p) n).kind = 0 then 0
            else fieldN v.toNat 10 11 - ringOcc (ringAt (coreAt s p) n) } ∧
      (∀ m, m ≠ n → ringAt (coreAt t p) m = ringAt (coreAt s p) m) ∧ MemoryKept s t p ∧ OthersKept s t p) ∧
  (∀ n, n < 16 → (ringAt (coreAt s p) n).enable = true → wbit v 21 = false → (n < 4 → wbit v 22 = true) →
    readRingCfg { ringAt (coreAt s p) n with enable := false } = v.toNat →
    ∃ t, exec (.ringDisable l n v) s = .next t ∧ t.answer = .done ∧
      ringAt (coreAt t p) n = { ringAt (coreAt s p) n with enable := false, outst := 0, withheld := 0 } ∧
      (∀ m, m ≠ n → ringAt (coreAt t p) m = ringAt (coreAt s p) m) ∧ MemoryKept s t p ∧ OthersKept s t p) ∧
  (∀ w, w < 8 → wbit v 21 = true → wbit v 23 = false → (winAt (coreAt s p) w).opened = false →
    winOpenCheck (coreAt s p) w { winAt (coreAt s p) w with
      base := fieldN v.toNat 0 10, size := fieldN v.toNat 10 11, opened := true, flagEn := wbit v 22,
      flag := fieldN v.toNat 24 8 } = .done →
    ∃ t, exec (.windowOpen l w v) s = .next t ∧ t.answer = .done ∧
      winAt (coreAt t p) w = { winAt (coreAt s p) w with
        base := fieldN v.toNat 0 10, size := fieldN v.toNat 10 11, opened := true, flagEn := wbit v 22,
        flag := fieldN v.toNat 24 8, arrived := 0, outst := fieldN v.toNat 10 11, withheld := 0 } ∧
      (∀ m, m ≠ w → winAt (coreAt t p) m = winAt (coreAt s p) m) ∧ MemoryKept s t p ∧ OthersKept s t p) ∧
  (∀ w, w < 8 → (winAt (coreAt s p) w).opened = true → wbit v 21 = false → wbit v 23 = false →
    readWinCfg { winAt (coreAt s p) w with opened := false } = v.toNat →
    ∃ t, exec (.windowClose l w v) s = .next t ∧ t.answer = .done ∧
      winAt (coreAt t p) w = { winAt (coreAt s p) w with opened := false, outst := 0, withheld := 0 } ∧
      (∀ m, m ≠ w → winAt (coreAt t p) m = winAt (coreAt s p) m) ∧ MemoryKept s t p ∧ OthersKept s t p)

/-- POOL_BANK_OFF_REQUEST (R247), POOL_BANK_OFF_CANCEL and POOL_BANK_POWER_UP (R249): an accepted write of
CORE_POOL_PWR leaves the requests as its low 16 bits say; an off bank whose request is withdrawn stays off, its rows
zero, and becomes ready 256 cycles later. A request for a bank under an enabled ring 0 to 3 is rejected with BAD_STATE
and changes nothing. -/
def Obligations.PoolPowerRows : Prop :=
  ∀ (s : State) (l p : Nat) (v : Word), Reach s l p →
  let want := (List.range 16).filter (bitN v.toNat)
  let hit := want.any fun b => !(coreAt s p).pool.offReq.contains b && (List.range 4).any fun n =>
    (ringAt (coreAt s p) n).enable && overlapsBank (ringAt (coreAt s p) n).base (ringAt (coreAt s p) n).size b
  ((∃ b, b < 16 ∧ wbit v b = true ∧ b ∉ (coreAt s p).pool.offReq) → hit = false →
    ∃ t, exec (.poolBankOffRequest l v) s = .next t ∧ t.answer = .done ∧ (coreAt t p).pool.offReq = want ∧
      (coreAt t p).pool.off = (coreAt s p).pool.off) ∧
  ((∃ b, b < 16 ∧ wbit v b = true ∧ b ∉ (coreAt s p).pool.offReq) → hit = true →
    exec (.poolBankOffRequest l v) s = .next (report s .badState)) ∧
  ((∃ b, b ∈ (coreAt s p).pool.offReq ∧ wbit v b = false ∧ b ∉ (coreAt s p).pool.off) → hit = false →
    ∃ t, exec (.poolBankOffCancel l v) s = .next t ∧ t.answer = .done ∧ (coreAt t p).pool.offReq = want ∧
      (coreAt t p).pool.off = (coreAt s p).pool.off) ∧
  (∀ b, b < 16 → b ∈ (coreAt s p).pool.off → wbit v b = false → (∀ u, u ∈ (coreAt s p).pool.ups → u.1 ≠ b) → hit = false →
    ∃ t, exec (.poolBankPowerUp l v) s = .next t ∧ t.answer = .done ∧ (coreAt t p).pool.offReq = want ∧
      (b, cycleOf s l + 256) ∈ (coreAt t p).pool.ups ∧ b ∈ (coreAt t p).pool.off ∧
      ∀ r, bankOf r = b → rowAt (coreAt t p) r = Row.zero)

/-- R248: a write that sets off_req for a bank overlapped by an enabled ring 0 to 3 is rejected with BAD_STATE.
Enabling a ring whose region overlaps a bank with off_req 1 or off 1, and which passes the checks of R256 before that
one, is rejected with BAD_STATE. Neither changes anything else. -/
def Obligations.BanksUnderRingsStayOn : Prop :=
  ∀ (s : State) (l p : Nat) (v : Word), Reach s l p →
  (∀ b n, b < 16 → n < 4 → wbit v b = true → b ∉ (coreAt s p).pool.offReq → (ringAt (coreAt s p) n).enable = true →
    overlapsBank (ringAt (coreAt s p) n).base (ringAt (coreAt s p) n).size b = true →
    exec (.poolBankOffRequest l v) s = .next (report s .badState)) ∧
  (∀ b n, b < 16 → n < 16 → (b ∈ (coreAt s p).pool.offReq ∨ b ∈ (coreAt s p).pool.off) →
    overlapsBank (fieldN v.toNat 0 10) (fieldN v.toNat 10 11) b = true → wbit v 21 = true →
    (n < 4 → wbit v 22 = true) → (ringAt (coreAt s p) n).enable = false →
    ringEnableCheck s (coreAt s p) l n (ringFromCfg (ringAt (coreAt s p) n) v.toNat) ≠ .badValue →
    exec (.ringEnable l n v) s = .next (report s .badState))

/-- COUNTER_ENABLE and COUNTER_DISABLE (R336), QUEUE_RESUME (R375), CHECK_MODE_WRITE (R101, R103). A counter enabled
loses its abandoned mark and takes the word's fields; one disabled keeps its value. A STOPPED queue resumes RUNNING
with the word's on_fail, and stops again where the row it has buffered was read uncorrectable (R346); resume of a
queue in another state is rejected with BAD_STATE. Check mode of a repaired tile needs a partner core: with none it is
rejected with MAPPED_OUT, with one in check mode or a checker itself BAD_STATE. -/
def Obligations.CounterQueueAndModeRows : Prop :=
  ∀ (s : State) (l p : Nat) (v : Word), Reach s l p →
  (∀ n y, n = (coreAt s p).sync.selCounter → (cntAt (coreAt s p) n).enable = false → wbit v 0 = true → Clean v 0xFFF →
    y = cntWith (cntAt (coreAt s p) n) v.toNat (readCntProd (cntAt (coreAt s p) n)) (cntAt (coreAt s p) n).bound →
    0 < y.bound → producerFieldsOk s l y.kind y.die y.core = true →
    (y.partnerEn = true → y.mono = true ∧ y.partner ≠ n ∧ (cntAt (coreAt s p) y.partner).enable = true ∧
      (cntAt (coreAt s p) y.partner).mono = true ∧ (cntAt (coreAt s p) y.partner).owner = y.owner) →
    ∃ t, exec (.counterEnable l v) s = .next t ∧ t.answer = .done ∧
      cntAt (coreAt t p) n = { y with enable := true, abandoned := false } ∧
      (∀ m, m ≠ n → cntAt (coreAt t p) m = cntAt (coreAt s p) m) ∧ MemoryKept s t p ∧ OthersKept s t p) ∧
  (∀ n, n = (coreAt s p).sync.selCounter → (cntAt (coreAt s p) n).enable = true → wbit v 0 = false → Clean v 0xFFF →
    fieldN v.toNat 1 10 = fieldN (readCntCfg (cntAt (coreAt s p) n)) 1 10 →
    ∃ t, exec (.counterDisable l v) s = .next t ∧ t.answer = .done ∧
      cntAt (coreAt t p) n = { cntAt (coreAt s p) n with enable := false } ∧
      (∀ m, m ≠ n → cntAt (coreAt t p) m = cntAt (coreAt s p) m) ∧ MemoryKept s t p ∧ OthersKept s t p) ∧
  (∀ q, q < 4 → wbit v 9 = true → Clean v 0x7FF → (queueAt (coreAt s p) q).state = 2 →
    let bad := (queueAt (coreAt s p) q).bufs.head?.any frowBad
    ∃ t, exec (.queueResume l q v) s = .next t ∧ t.answer = .done ∧
      (bad = false → queueAt (coreAt t p) q = { queueAt (coreAt s p) q with onFail := wbit v 8, state := 1 }) ∧
      (bad = true → (queueAt (coreAt t p) q).state = 2 ∧ (queueAt (coreAt t p) q).restart = true ∧
        (queueAt (coreAt t p) q).bufs = [] ∧ recordsMade t = (recordsMade s + 1) % 2 ^ 32) ∧
      (∀ r, r ≠ q → queueAt (coreAt t p) r = queueAt (coreAt s p) r) ∧ MemoryKept s t p ∧ OthersKept s t p) ∧
  (∀ q, q < 4 → wbit v 9 = true → Clean v 0x7FF → (queueAt (coreAt s p) q).state ≠ 2 →
    exec (.queueResume l q v) s = .next (report s .badState)) ∧
  (Clean v 1 → (wbit v 0 = false ∨ isRepaired (coreAt s p) = false) →
    ∃ t, exec (.checkModeWrite l v) s = .next t ∧ t.answer = .done ∧ (coreAt t p).tile.checkMode = wbit v 0 ∧
      MemoryKept s t p ∧ OthersKept s t p) ∧
  (Clean v 1 → wbit v 0 = true → isRepaired (coreAt s p) = true →
    (physOf s (partnerOf l) = none → exec (.checkModeWrite l v) s = .next (report s .mappedOut)) ∧
    ∀ q, physOf s (partnerOf l) = some q →
      (((coreAt s q).tile.checkMode = true ∨ isChecker s (partnerOf l) (cycleOf s l) = true) →
        exec (.checkModeWrite l v) s = .next (report s .badState)) ∧
      ((coreAt s q).tile.checkMode = false → isChecker s (partnerOf l) (cycleOf s l) = false →
        ∃ t, exec (.checkModeWrite l v) s = .next t ∧ t.answer = .done ∧ (coreAt t p).tile.checkMode = true ∧
          MemoryKept s t p ∧ OthersKept s t p))

/-- SET_FLAG, CLEAR_FLAG, CNT_WRITE, RING_HEAD and RING_TAIL (R328, R329): an act by hand with nothing asleep and no
word in error. SET sets a CLEAR flag; CLEAR clears it; CNT_WRITE of an enabled counter gives it CORE_HAND_VAL;
RING_HEAD and RING_TAIL of a ring within the bounds of HEAD_ADD and TAIL_ADD give its head or tail CORE_HAND_VAL. A
counter index of 64 or more is rejected with BAD_VALUE. Each sets hand_seen, and the acts on flags and counters write
one record. -/
def Obligations.HandRows : Prop :=
  ∀ (s : State) (l p rq : Nat) (v : Word), Reach s l p → v.toNat < 2 ^ 12 → (coreAt s p).sync.due = [] →
  (coreAt s p).upsets.sync = [] → (∀ q, (queueAt (coreAt s p) q).sleep = none) →
  (fieldN v.toNat 0 4 = 1 → fieldN v.toNat 4 8 ∉ (coreAt s p).sync.flags →
    ∃ t, exec (.setFlag l rq v) s = .next t ∧ t.answer = .done ∧ (coreAt t p).sync.handSeen = true ∧
      (coreAt t p).sync.flags = setInsert (coreAt s p).sync.flags (fieldN v.toNat 4 8) ∧
      recordsMade t = (recordsMade s + 1) % 2 ^ 32 ∧ MemoryKept s t p ∧ OthersKept s t p) ∧
  (fieldN v.toNat 0 4 = 2 → ∃ t, exec (.clearFlag l rq v) s = .next t ∧ t.answer = .done ∧
      (coreAt t p).sync.handSeen = true ∧ (coreAt t p).sync.flags = setErase (coreAt s p).sync.flags (fieldN v.toNat 4 8) ∧
      recordsMade t = (recordsMade s + 1) % 2 ^ 32 ∧ MemoryKept s t p ∧ OthersKept s t p) ∧
  (fieldN v.toNat 0 4 = 3 → fieldN v.toNat 4 8 < 64 → (cntAt (coreAt s p) (fieldN v.toNat 4 8)).enable = true →
    ∃ t, exec (.cntWrite l rq v) s = .next t ∧ t.answer = .done ∧ (coreAt t p).sync.handSeen = true ∧
      cntAt (coreAt t p) (fieldN v.toNat 4 8) =
        { cntAt (coreAt s p) (fieldN v.toNat 4 8) with value := (coreAt s p).sync.handVal } ∧
      recordsMade t = (recordsMade s + 1) % 2 ^ 32 ∧ MemoryKept s t p ∧ OthersKept s t p) ∧
  (fieldN v.toNat 0 4 = 3 → 64 ≤ fieldN v.toNat 4 8 →
    ∃ t, exec (.cntWrite l rq v) s = .next t ∧ t.answer = .badValue ∧ (coreAt t p).sync.handSeen = true ∧
      (coreAt t p).sync.counters = (coreAt s p).sync.counters ∧ recordsMade t = (recordsMade s + 1) % 2 ^ 32 ∧
      MemoryKept s t p ∧ OthersKept s t p) ∧
  (∀ n, fieldN v.toNat 4 8 = n → n < 16 → (ringAt (coreAt s p) n).enable = true →
    (fieldN v.toNat 0 4 = 4 → ((coreAt s p).sync.handVal.toNat % 2 ^ 32 + 2 ^ 32 - (ringAt (coreAt s p) n).head % 2 ^ 32) % 2 ^ 32
        ≤ ringOcc (ringAt (coreAt s p) n) →
      ∃ t, exec (.ringHead l rq v) s = .next t ∧ t.answer = .done ∧ (coreAt t p).sync.handSeen = true ∧
        (ringAt (coreAt t p) n).head = (coreAt s p).sync.handVal.toNat % 2 ^ 32 ∧
        (ringAt (coreAt t p) n).tail = (ringAt (coreAt s p) n).tail ∧ MemoryKept s t p ∧ OthersKept s t p) ∧
    (fieldN v.toNat 0 4 = 5 → ((coreAt s p).sync.handVal.toNat % 2 ^ 32 + 2 ^ 32 - (ringAt (coreAt s p) n).tail % 2 ^ 32) % 2 ^ 32 +
        ringOcc (ringAt (coreAt s p) n) ≤ (ringAt (coreAt s p) n).size →
      ∃ t, exec (.ringTail l rq v) s = .next t ∧ t.answer = .done ∧ (coreAt t p).sync.handSeen = true ∧
        ringAt (coreAt t p) n = { ringAt (coreAt s p) n with tail := (coreAt s p).sync.handVal.toNat % 2 ^ 32 } ∧
        ((ringAt (coreAt s p) n).flagEn = true → (ringAt (coreAt s p) n).flag ∈ (coreAt t p).sync.flags) ∧
        MemoryKept s t p ∧ OthersKept s t p))

/-- CREATE (R359) and SETTLE (R374): an operation that passes the checks of R360 ends at once with DONE. CREATE makes
the slot RESIDENT with its registers' tiles, ranges and table, every other part of the context and the counters it
owns at reset, and clears the flags its valid entries name; where its tiles or ranges overlap another context's it is
rejected with BAD_STATE. SETTLE takes the core from the unsettled ones. R360: an operation of CORE_CTX_OP that fails a
check is rejected with that status; the status field records it, and nothing else of any core changes. BIND (R361)
enables the ring of every queue of qmask from its record and starts it at the record's next slot, where all of them
may be bound; else it is rejected and binds none, a ring already enabled coming first, with BAD_STATE. UNBIND (R362)
begins to park the queues of qmask. -/
def Obligations.ContextRows : Prop :=
  (∀ (s : State) (l p c : Nat) (v : Word), Reach s l p → Clean v 0x1FF03FF → fieldN v.toNat 3 2 = c →
   ctxOpCheck s p l v.toNat = .done →
   (fieldN v.toNat 0 3 = 1 → ctxOverlaps (coreAt s p) c (ctxAt (coreAt s p) c).tiles (ctxAt (coreAt s p) c).pools = false →
     ∃ t, exec (.create l v) s = .next t ∧ t.answer = .done ∧ (coreAt t p).op.status = Status.done.code ∧
       ctxAt (coreAt t p) c = { Ctx.init with
         state := 1, tiles := (ctxAt (coreAt s p) c).tiles, pools := (ctxAt (coreAt s p) c).pools,
         xlat := (ctxAt (coreAt s p) c).xlat } ∧
       (∀ f, f ∈ (coreAt t p).sync.flags ↔ f ∈ (coreAt s p).sync.flags ∧ f ∉ xlatFlags (ctxAt (coreAt s p) c)) ∧
       (∀ n, n < 64 → cntAt (coreAt t p) n =
         (if ownsCnt (coreAt s p) c n = true then Counter.init else cntAt (coreAt s p) n)) ∧
       (∀ d, d ≠ c → ctxAt (coreAt t p) d = ctxAt (coreAt s p) d) ∧ MemoryKept s t p ∧ OthersKept s t p) ∧
   (fieldN v.toNat 0 3 = 1 → ctxOverlaps (coreAt s p) c (ctxAt (coreAt s p) c).tiles (ctxAt (coreAt s p) c).pools = true →
     ∃ t, exec (.create l v) s = .next t ∧ t.answer = .badState ∧ OthersKept s t p ∧
       coreAt t p = { coreAt s p with op := { (coreAt s p).op with status := Status.badState.code } }) ∧
   (fieldN v.toNat 0 3 = 7 →
     ∃ t, exec (.settle l v) s = .next t ∧ t.answer = .done ∧ (coreAt t p).op.status = Status.done.code ∧
       isUnsettled t l = false ∧ (∀ d, ctxAt (coreAt t p) d = ctxAt (coreAt s p) d) ∧ MemoryKept s t p ∧ OthersKept s t p)) ∧
  (∀ (s : State) (l p : Nat) (v : Word) (i : Instr) (st : Status), Reach s l p → Clean v 0x1FF03FF →
   (i, fieldN v.toNat 0 3) ∈ [(Instr.create l v, 1), (.bind l v, 2), (.unbind l v, 3), (.save l v, 4), (.restore l v, 5),
     (.destroy l v, 6), (.settle l v, 7)] →
   ctxOpCheck s p l v.toNat = st → st ≠ .done →
   ∃ t, exec i s = .next t ∧ t.answer = st ∧ OthersKept s t p ∧
     coreAt t p = { coreAt s p with op := { (coreAt s p).op with status := st.code } }) ∧
  (∀ (s : State) (l p c : Nat) (v : Word), Reach s l p → Clean v 0x1FF03FF → fieldN v.toNat 3 2 = c →
   ctxOpCheck s p l v.toNat = .done →
   (∀ qs, qs = (List.range 4).filter (fun q => wbit v (5 + q)) → fieldN v.toNat 0 3 = 2 →
     ((ctxBind s p l c qs).1 = .done →
       ∃ t, exec (.bind l v) s = .next t ∧ t.answer = .done ∧ (coreAt t p).op.status = Status.done.code ∧
         (∀ q r, q ∈ qs → r = bindRec (coreAt s p) c q →
           queueAt (coreAt t p) q = { Queue.init with
             state := 1, ctx := c, onFail := r.onFail, nextSlot := r.nextSlot, resumed := r.wait, ready := cycleOf s l,
             failSlot := (queueAt (coreAt s p) q).failSlot, failStatus := (queueAt (coreAt s p) q).failStatus,
             failKind := (queueAt (coreAt s p) q).failKind, failValid := (queueAt (coreAt s p) q).failValid } ∧
           ringAt (coreAt t p) q = { r.ring with
             enable := true, abandoned := false, withheld := 0,
             outst := if r.ring.kind = 0 then 0 else r.ring.size - ringOcc r.ring }) ∧
         (∀ m, m ∉ qs → queueAt (coreAt t p) m = queueAt (coreAt s p) m ∧ ringAt (coreAt t p) m = ringAt (coreAt s p) m) ∧
         (∀ d, d ≠ c → ctxAt (coreAt t p) d = ctxAt (coreAt s p) d) ∧ MemoryKept s t p ∧ OthersKept s t p) ∧
     (∀ q, q ∈ qs → (ringAt (coreAt s p) q).enable = true → (ctxBind s p l c qs).1 = .badState) ∧
     (∀ q, qs = [q] → (ringAt (coreAt s p) q).enable = false →
       (ctxBind s p l c qs).1 = ringEnableCheck s (coreAt s p) l q { (bindRec (coreAt s p) c q).ring with enable := true }) ∧
     (∀ st, (ctxBind s p l c qs).1 = st → st ≠ .done →
       ∃ t, exec (.bind l v) s = .next t ∧ t.answer = st ∧ OthersKept s t p ∧
         coreAt t p = { coreAt s p with op := { (coreAt s p).op with status := st.code } })) ∧
   (fieldN v.toNat 0 3 = 3 →
     ∃ t, exec (.unbind l v) s = .next t ∧ t.answer = .done ∧ (ctxAt (coreAt t p) c).state = 2 ∧
       (coreAt t p).op.busy = true ∧ (coreAt t p).op.op = 3 ∧ (coreAt t p).op.slot = c ∧
       (∀ q, q < 4 → wbit v (5 + q) = true → (queueAt (coreAt t p) q).state = 3 ∧
         ((queueAt (coreAt t p) q).wasStopped = true ↔ (queueAt (coreAt s p) q).state = 2)) ∧
       (∀ q, q < 4 → wbit v (5 + q) = false → queueAt (coreAt t p) q = queueAt (coreAt s p) q) ∧
       MemoryKept s t p ∧ OthersKept s t p))

/-- R369: DESTROY returns a RESIDENT slot to EMPTY. It clears the flags its valid entries name, invalidates its
translation table and disables its counters. It leaves its masked tiles in the reset state of R132, and leaves the
tile with no weight owner if the context owned it. -/
def Obligations.DestroyEmptiesTheSlot : Prop :=
  ∀ (s : State) (l p c : Nat) (v : Word), Reach s l p → Clean v 0x1FF03FF → fieldN v.toNat 3 2 = c →
  fieldN v.toNat 0 3 = 6 → ctxOpCheck s p l v.toNat = .done →
  ∃ t, exec (.destroy l v) s = .next t ∧ t.answer = .done ∧ (coreAt t p).op.status = Status.done.code ∧
    (ctxAt (coreAt s p) c).state = 1 ∧ (ctxAt (coreAt t p) c).state = 0 ∧
    (∀ f, f ∈ (coreAt t p).sync.flags ↔ f ∈ (coreAt s p).sync.flags ∧ f ∉ xlatFlags (ctxAt (coreAt s p) c)) ∧
    (ctxAt (coreAt t p) c).xlat = [] ∧
    (∀ n, n < 64 → ownsCnt (coreAt s p) c n = true → (cntAt (coreAt t p) n).enable = false) ∧
    (∀ u, u < 8 → bitN (ctxAt (coreAt s p) c).tiles u = true → descAt (coreAt t p) u = Desc.init) ∧
    (∀ u, bitN (ctxAt (coreAt s p) c).tiles u = false → descAt (coreAt t p) u = descAt (coreAt s p) u) ∧
    (coreAt t p).tile.owner = (if (coreAt s p).tile.owner = c + 1 then 0 else (coreAt s p).tile.owner) ∧
    (∀ d, d ≠ c → ctxAt (coreAt t p) d = ctxAt (coreAt s p) d) ∧ MemoryKept s t p ∧ OthersKept s t p

/-- SAVE (R364) and RESTORE (R367). A bad image address is rejected with BAD_VALUE, and a SAVE whose ranges do not
cover a recorded ring with BAD_STATE. A SAVE that must wait holds its slot with nothing sent; one that need not, and
whose rows meet nothing, sends every row of its image, the front rows first, from the context's registers. A RESTORE
asks for the eight front rows. -/
def Obligations.SaveAndRestoreRows : Prop :=
  ∀ (s : State) (l p c : Nat) (v : Word), Reach s l p → Clean v 0x1FF03FF → fieldN v.toNat 3 2 = c →
  ctxOpCheck s p l v.toNat = .done →
  (∀ i, (i, fieldN v.toNat 0 3) ∈ [(Instr.save l v, 4), (.restore l v, 5)] → imageAddrOk (coreAt s p).op.img = false →
    ∃ t, exec i s = .next t ∧ t.answer = .badValue ∧ OthersKept s t p ∧
      coreAt t p = { coreAt s p with op := { (coreAt s p).op with status := Status.badValue.code } }) ∧
  (fieldN v.toNat 0 3 = 4 → imageAddrOk (coreAt s p).op.img = true → recordsCovered (ctxAt (coreAt s p) c) = false →
    ∃ t, exec (.save l v) s = .next t ∧ t.answer = .badState ∧ OthersKept s t p ∧
      coreAt t p = { coreAt s p with op := { (coreAt s p).op with status := Status.badState.code } }) ∧
  (fieldN v.toNat 0 3 = 4 → imageAddrOk (coreAt s p).op.img = true → recordsCovered (ctxAt (coreAt s p) c) = true →
    saveReady (startCtxOp s p l v.toNat) p l = true → Clear (coreAt s p) [] →
    (∀ i, i < imageRows (ctxAt (coreAt s p) c).tiles (ctxAt (coreAt s p) c).pools →
      rowUnsent s p ((coreAt s p).op.img + 512 * i) = false) →
    ∃ t, exec (.save l v) s = .next t ∧ t.answer = .done ∧ (ctxAt (coreAt t p) c).state = 2 ∧
      (coreAt t p).op.busy = true ∧ (coreAt t p).op.op = 4 ∧ (coreAt t p).op.slot = c ∧ (coreAt t p).op.stage = 1 ∧
      (coreAt t p).op.left = List.range (imageRows (ctxAt (coreAt s p) c).tiles (ctxAt (coreAt s p) c).pools) ∧
      ((coreAt t p).mv.injS.drop (coreAt s p).mv.injS.length).map (fun x => (x.pkt.ptype, x.pkt.addr)) =
        (coreAt t p).op.left.map (fun i => (PType.wr, BitVec.ofNat 64 ((coreAt s p).op.img + 512 * i))) ∧
      (((coreAt t p).mv.injS.drop (coreAt s p).mv.injS.length).take 8).map (fun x => x.pkt.data) =
        imageFront (startCtxOp s p l v.toNat) p l c ∧ MemoryKept s t p ∧ OthersKept s t p) ∧
  (fieldN v.toNat 0 3 = 4 → imageAddrOk (coreAt s p).op.img = true → recordsCovered (ctxAt (coreAt s p) c) = true →
    saveReady (startCtxOp s p l v.toNat) p l = false →
    ∃ t, exec (.save l v) s = .next t ∧ t.answer = .done ∧ (ctxAt (coreAt t p) c).state = 2 ∧
      (coreAt t p).op.busy = true ∧ (coreAt t p).op.op = 4 ∧ (coreAt t p).op.slot = c ∧
      (coreAt t p).mv = (coreAt s p).mv ∧ MemoryKept s t p ∧ OthersKept s t p) ∧
  (fieldN v.toNat 0 3 = 5 → imageAddrOk (coreAt s p).op.img = true → (∀ i, i < 8 → rowUnsent s p ((coreAt s p).op.img + 512 * i) = false) →
    ∃ t, exec (.restore l v) s = .next t ∧ t.answer = .done ∧ (ctxAt (coreAt t p) c).state = 2 ∧
      (coreAt t p).op.busy = true ∧ (coreAt t p).op.op = 5 ∧ (coreAt t p).op.left = List.range 8 ∧
      ((coreAt t p).op.settle = true ↔ wbit v 9 = true) ∧
      ((coreAt t p).mv.injS.drop (coreAt s p).mv.injS.length).map (fun x => (x.pkt.ptype, x.pkt.addr)) =
        (List.range 8).map (fun i => (PType.deepRd, BitVec.ofNat 64 ((coreAt s p).op.img + 512 * i))) ∧
      MemoryKept s t p ∧ OthersKept s t p)

/-- The events of context operations: a queue that has parked (R362), a SAVE whose rows are answered (R364), the
header check and the end of a RESTORE (R367, R368), which leaves the tiles as their images say, or POISONED where an
image fails its checks, and an operation past its limit (R360), which leaves a record and whose queues go on decoding,
but where the row buffered first was read uncorrectable (R346). -/
def Obligations.ContextEvents : Prop :=
  ∀ (s : State) (l p : Nat), liveCore s l = some p →
  (∀ q x, (coreAt s p).sync.due = [] → parkReady s l (cycleOf s l) q (coreAt s p) = true → x = queueAt (coreAt s p) q →
    ∃ t, exec (.queuePark l q) s = .next t ∧ (queueAt (coreAt t p) q).state = 0 ∧
      (ringAt (coreAt t p) q).enable = false ∧
      Store.get QRec.init (ctxAt (coreAt t p) x.ctx).recs q =
        { present := true, ring := ringAt (coreAt s p) q, nextSlot := x.nextSlot, onFail := x.onFail,
          wait := match x.sleep with
            | some w => some { remain := w.deadline - cycleOf s l, arrived := w.arrived && w.cmd.sop == 6 }
            | none => x.resumed } ∧
      MemoryKept s t p ∧ OthersKept s t p) ∧
  ((coreAt s p).op.busy = true → (coreAt s p).op.op = 4 → (coreAt s p).op.stage ≠ 0 → (coreAt s p).op.left = [] →
    ∃ t, exec (.saveComplete l) s = .next t ∧ (coreAt t p).op.busy = false ∧
      (coreAt t p).op.status = (((coreAt s p).op.fail.map statusOf).getD .done).code ∧
      (ctxAt (coreAt t p) (coreAt s p).op.slot).state = 1 ∧ MemoryKept s t p ∧ OthersKept s t p) ∧
  ((coreAt s p).op.busy = true → (coreAt s p).op.op = 5 → (coreAt s p).op.stage = 0 → (coreAt s p).op.left = [] →
    (coreAt s p).op.fail = none →
    (∀ i, i < rowBytes (Store.get Row.zero (coreAt s p).op.rows 0) 8 2 →
      rowUnsent s p ((coreAt s p).op.img + 512 * i) = false) →
    ∃ t, exec (.restoreHeaderCheck l) s = .next t ∧ MemoryKept s t p ∧ OthersKept s t p ∧
      ((coreAt t p).op.busy = true ↔
        imageCheck (coreAt s p) (coreAt s p).op.slot (Store.get Row.zero (coreAt s p).op.rows) = .done) ∧
      ((coreAt t p).op.busy = true → (coreAt t p).op.stage = 1 ∧
        (coreAt t p).op.left = (List.range (rowBytes (Store.get Row.zero (coreAt s p).op.rows 0) 8 2)).drop 8) ∧
      ((coreAt t p).op.busy = false → (ctxAt (coreAt t p) (coreAt s p).op.slot).state = 0 ∧
        (coreAt t p).op.status =
          (imageCheck (coreAt s p) (coreAt s p).op.slot (Store.get Row.zero (coreAt s p).op.rows)).code)) ∧
  (∀ x ts, (coreAt s p).op.busy = true → (coreAt s p).op.op = 5 → (coreAt s p).op.stage = 1 → (coreAt s p).op.left = [] →
    (coreAt s p).op.fail = none → x = imageCtx (Store.get Row.zero (coreAt s p).op.rows) → ts = maskTiles x.tiles →
    (ts.all fun t => trowsOpen (coreAt s p) (cycleOf s l) (32 * t)) = true →
    ((ts.mapIdx fun i _ => imageTile (coreAt s p) i).all imageOk = true →
      ∃ t, exec (.restoreComplete l) s = .next t ∧ (coreAt t p).op.busy = false ∧
        (coreAt t p).op.status = Status.done.code ∧ ctxAt (coreAt t p) (coreAt s p).op.slot = x ∧ OthersKept s t p ∧
        (∀ i u, i < ts.length → u < 32 → trowAt (coreAt t p) (32 * ts.getD i 0 + u) =
          (imageTileRows (imageTile (coreAt s p) i)).getD u 0) ∧
        (∀ u, (∀ y, y ∈ ts → u / 32 ≠ y) → trowAt (coreAt t p) u = trowAt (coreAt s p) u) ∧
        (∀ r, rowAt (coreAt t p) r = rowAt (coreAt s p) r) ∧
        isUnsettled t l = (isUnsettled s l && !(coreAt s p).op.settle)) ∧
    ((ts.mapIdx fun i _ => imageTile (coreAt s p) i).all imageOk = false →
      ∃ t, exec (.restoreComplete l) s = .next t ∧ (coreAt t p).op.busy = false ∧
        (coreAt t p).op.status = Status.badValue.code ∧ (ctxAt (coreAt t p) (coreAt s p).op.slot).state = 0 ∧
        (∀ y, y ∈ ts → (descAt (coreAt t p) y).poisoned = true ∧ (descAt (coreAt t p) y).cause = 7) ∧
        MemoryKept s t p ∧ OthersKept s t p)) ∧
  ((coreAt s p).op.busy = true → (coreAt s p).op.since + (coreAt s p).op.limit < cycleOf s l →
    ∃ t, exec (.contextOpTimeout l) s = .next t ∧ (coreAt t p).op.busy = false ∧
      (coreAt t p).op.status = Status.timeout.code ∧
      (ctxAt (coreAt t p) (coreAt s p).op.slot).state = (if (coreAt s p).op.op = 5 then 0 else 1) ∧ OthersKept s t p ∧
      s.log.fresh.length < t.log.fresh.length ∧ (∃ r, r ∈ t.log.fresh ∧ r.status = Status.timeout.code ∧ r.core = l) ∧
      MemoryKept s t p ∧
      ((coreAt s p).op.op ≠ 5 → ∀ q, q ∈ (coreAt s p).op.qmask → (queueAt (coreAt s p) q).state = 3 →
        (queueAt (coreAt t p) q).state =
          (if (queueAt (coreAt s p) q).wasStopped || (queueAt (coreAt s p) q).bufs.head?.any frowBad then 2 else 1)))

/-- RESET_ASSERT and RESET_RELEASE (R489, R493): a write of CHIP_RESET is checked in the order of R493: a reserved bit
or an index out of range, BAD_VALUE; an assertion still taking effect, BUSY; a stage or a domain that does not allow
it, BAD_STATE; a core whose id is unserved, MAPPED_OUT. One that passes asserts or releases its domain. The status
field records the outcome, and nothing else changes at once. RESET_EXIT (R489): the oldest release ends 32 M-cycles
after its write, and not before. A die reset that has taken effect releases itself. PEER_DOWN (R492): the credits for
the die are dropped, when the whole die is meant, and every enabled ring bound to the die's core, or to any core of
it, is abandoned with its counts 0. -/
def Obligations.ResetRows : Prop :=
  (∀ (s : State) (v : Word) (d : Nat × Nat) (i : Instr) (rel off bad : Bool), Serves s →
   (i, rel) ∈ [(Instr.resetAssert v, false), (.resetRelease v, true)] → wbit v 13 = rel →
   d = (fieldN v.toNat 0 2, fieldN v.toNat 2 11) →
   off = (wbit v 14 || wbit v 15 || decide (2 ^ 25 ≤ v.toNat) ||
     decide ((match d.1 with | 0 => 2048 | 1 => 32 | 2 => 4 | _ => 1) ≤ d.2)) →
   bad = ((d.1 != 3 && decide (s.boot.stage < 2)) || (!rel && s.resets.asserted.contains d) ||
     (rel && (!s.resets.asserted.contains d || (largerDomains d).any s.resets.asserted.contains))) →
   (∀ st, st ≠ .done →
     st = (if off then .badValue else if s.resets.taking ≠ [] then .busy else if bad then .badState
       else if d.1 = 0 ∧ unserved s d.2 = true then .mappedOut else .done) →
     exec i s = .next { s with resets := { s.resets with status := st.code }, answer := st }) ∧
   (off = false → bad = false → s.resets.taking = [] → (d.1 = 0 → unserved s d.2 = false) →
     exec i s = .next { s with
       resets := { s.resets with
         status := Status.done.code,
         since := if rel then s.resets.since else s.mNow,
         taking := if rel then [] else [d],
         asserted := if rel then s.resets.asserted.erase d else s.resets.asserted ++ [d],
         leaving := if rel then s.resets.leaving ++ [(s.mNow, d)] else s.resets.leaving },
       answer := .done })) ∧
  (∀ s : State,
   (∀ x rest, s.resets.leaving = x :: rest → x.1 + 32 ≤ s.mNow →
     exec .resetExit s = .next { s with resets := { s.resets with leaving := rest } }) ∧
   ((∀ x rest, s.resets.leaving = x :: rest → s.mNow < x.1 + 32) → exec .resetExit s = .next s) ∧
   ((3, 0) ∈ s.resets.asserted → (3, 0) ∉ s.resets.taking →
     exec .dieResetSelfRelease s = .next { s with resets := { s.resets with
       asserted := s.resets.asserted.erase (3, 0) } }) ∧
   ((3, 0) ∉ s.resets.asserted ∨ (3, 0) ∈ s.resets.taking → exec .dieResetSelfRelease s = .next s)) ∧
  (∀ (s : State) (v : Word), Serves s → Clean v 0xFFFFFFF →
     ∃ t, exec (.peerDown v) s = .next t ∧ t.answer = .done ∧
       (∀ p, (coreAt t p).mv.creds = if wbit v 27 then (coreAt s p).mv.creds.filter (fun x => x.die != fieldN v.toNat 0 16)
         else (coreAt s p).mv.creds) ∧
       (∀ p l n, logOf s p = some l → n < 16 → (ringAt (coreAt s p) n).enable = true → (ringAt (coreAt s p) n).kind = 2 →
         (ringAt (coreAt s p) n).die = fieldN v.toNat 0 16 →
         (wbit v 27 = true ∨ (ringAt (coreAt s p) n).core = fieldN v.toNat 16 11) →
         (ringAt (coreAt s p) n).abandoned = false →
         (ringAt (coreAt t p) n).abandoned = true ∧ (ringAt (coreAt t p) n).outst = 0 ∧ (ringAt (coreAt t p) n).withheld = 0) ∧
       (∀ p, MemoryKept s t p))

/-- A core's reset takes effect (R363, R490, R491) in an M-cycle after its assertion (R32): its queues are unbound,
its contexts empty, its flags clear and its counters disabled, its tiles are in their reset state, its commands and
marks are gone, its rings 0 to 3 are disabled. Its Pool keeps its contents: a row that a running command had still to
write keeps what it held before. R489, R490: the reset of a Gallery or Cavern takes effect at each of its cores as a
core's does; that of the die also turns every gate off, returns the stage to ROM or ECHO, clears run and the stores,
and leaves no slot enabled. -/
def Obligations.CoreResetTakesEffect : Prop :=
  (∀ (s : State) (l p : Nat) (rest : List (Nat × Nat)), s.resets.taking = (0, l) :: rest → physOf s l = some p →
     (s.mNow ≤ s.resets.since → exec .resetEffect s = .next s) ∧
     (s.resets.since < s.mNow → ∃ t, exec .resetEffect s = .next t ∧ t.resets.taking = rest ∧
       (coreAt t p).queues = [] ∧ (coreAt t p).ctxs = [] ∧ (coreAt t p).sync.flags = [] ∧ (coreAt t p).sync.counters = [] ∧
       (coreAt t p).sync.due = [] ∧ (coreAt t p).flow.desc = [] ∧ (coreAt t p).pool.marks = [] ∧ (coreAt t p).mv.outb = [] ∧
       (coreAt t p).mv.runs = [] ∧ (coreAt t p).mv.creds = [] ∧ (coreAt t p).mv.inb = [] ∧ (coreAt t p).late = [] ∧
       (coreAt t p).outp.pend = none ∧ (coreAt t p).outp.run = none ∧ (coreAt t p).vec.runEnd = none ∧
       (coreAt t p).op.busy = false ∧ (∀ n, n < 4 → (ringAt (coreAt t p) n).enable = false) ∧
       (∀ r, (∀ w, w ∈ (coreAt s p).pool.was → w.row = r → w.cycle < cycleOf s l) →
         rowAt (coreAt t p) r = rowAt (coreAt s p) r) ∧
       (∀ w ws, (coreAt s p).pool.was.filter (fun x => decide (cycleOf s l ≤ x.cycle ∧ x.row = w.row)) = w :: ws →
         rowAt (coreAt t p) w.row = w.data) ∧
       l ∈ t.day.resetCores)) ∧
  (∀ (s : State) (d : Nat × Nat) (rest : List (Nat × Nat)), s.resets.taking = d :: rest → s.resets.since < s.mNow →
     (d.1 = 1 ∨ d.1 = 2 → ∃ t, exec .resetEffect s = .next t ∧ t.resets.taking = rest ∧ t.boot = s.boot ∧
       ∀ l p, domainHolds d l = true → physOf s l = some p →
         (coreAt t p).queues = [] ∧ (coreAt t p).ctxs = [] ∧ (coreAt t p).sync.flags = [] ∧
         (coreAt t p).sync.counters = [] ∧ (coreAt t p).flow.desc = [] ∧ (coreAt t p).mv.outb = [] ∧
         (coreAt t p).mv.creds = [] ∧ l ∈ t.day.resetCores) ∧
     (d.1 = 3 → ∃ t, exec .resetEffect s = .next t ∧ t.resets.taking = rest ∧ t.boot.released = false ∧
       t.boot.gatesOn = false ∧ t.boot.stage ≤ 1 ∧ t.day.run = false ∧ t.cfg.staging = [] ∧ t.cfg.shadow = [] ∧
       ∀ n, (slotAt t n).enable = false))

/-- R191: a core reset clears the core's live counters, its full bits (kept with them), nar_seen and sat_seen, and
keeps its shadows until the next Dusk, whose latch takes the live counters with the counts that come about before it:
counts made before the reset in that Day are lost. -/
def Obligations.CoreResetClearsTheCensus : Prop :=
  (∀ (s : State) (l p : Nat) (rest : List (Nat × Nat)), s.resets.taking = (0, l) :: rest → physOf s l = some p →
    s.resets.since < s.mNow →
    ∃ t, exec .resetEffect s = .next t ∧ (coreAt t p).census.live = [] ∧ (coreAt t p).census.narSeen = false ∧
      (coreAt t p).census.satSeen = false ∧ (coreAt t p).census.shadow = (coreAt s p).census.shadow) ∧
  (∀ (s : State) (p : Nat), Inv s → (coreAt s p).upsets.sync = [] →
    (coreAt (duskLatch s) p).census.shadow = (settleLate (coreAt s p) (nextCycle s p)).census.live ∧
    (coreAt (duskLatch s) p).census.live = [])

/-- DAY_RUN_START (R26) and DAY_RUN_STOP (R24, R552): a write of DAY_CTRL that changes source while run is 1, or sets
it in a standalone part (R519), is rejected with BAD_STATE. Any other clears the marks it writes 1 to; one that sets
run starts the Day timer with no Day in force yet; one that clears run ends the Days, and the writes held for Dusk
take effect at once, in their order, while a pending reload stays. -/
def Obligations.DayRunRows : Prop :=
  ∀ (s : State) (v : Word) (i : Instr) (d : Day), Serves s → Clean v 0x303 →
  (i, wbit v 0) ∈ [(Instr.dayRunStart v, true), (.dayRunStop v, false)] →
  d = { s.day with
    markLost := s.day.markLost && !wbit v 8, overrun := s.day.overrun && !wbit v 9, source := wbit v 1 } →
  ((s.day.run = true ∧ wbit v 1 ≠ s.day.source) ∨ (s.tap.standalone = true ∧ wbit v 1 = true) →
    exec i s = .next { s with answer := .badState }) ∧
  ((s.day.run = true → wbit v 1 = s.day.source) → (s.tap.standalone = true → wbit v 1 = false) →
    (wbit v 0 = s.day.run → exec i s = .next { s with day := d, answer := .done }) ∧
    (wbit v 0 = true → s.day.run = false → exec i s = .next { s with
      day := { d with run := true, inForce := false, ns := 0, gate := false, breakCores := [], localDusk := false },
      answer := .done }) ∧
    (wbit v 0 = false → s.day.run = true → ∃ t, exec i s = .next t ∧ t.answer = .done ∧
      t = report (s.held.foldl (fun s w => applyHeld s w.addr w.value.toNat) { s with
        held := [], day := { d with run := false, inForce := false, ns := 0, gate := false, breakCores := [],
                                    localDusk := false } }) .done ∧
      t.held = [] ∧ t.day.run = false ∧ t.day.inForce = false ∧ t.day.number = s.day.number ∧ t.cfg.pending = s.cfg.pending ∧
      (∀ w, s.held = [w] → w.addr = 0x700 → t.day.period = w.value.toNat)))

/-- The Day's gates. DAYBREAK_END (R30) lifts the Daybreak gate 64 M-cycles after Dawn, and TWILIGHT_BEGIN (R28, R352)
sets the Twilight gate from period_ns − twilight_ns on. FIRST_DAWN (R26) and LOCAL_DUSK (R27) before their time change
nothing, as does a DUSK_MARK while run or source is 0 (R27); one within 64 ns of the last Dusk is that Dusk's mark;
one on a link not in UP is discarded with a record (R420). A first Dawn (R26, R385, R438, R553): FIRST_DAWN at its
time, or the first mark with source 1, puts a Day in force at t = 0 with the same number and no statistics latched,
and reloads every move queue's allotment; one taken for want of a mark sets mark_lost and leaves a reported record. -/
def Obligations.DayGatesAndFirstDawn : Prop :=
  (∀ (s : State) (m : Nat),
   (s.day.inForce = false ∨ 128 ≤ s.day.ns → exec .daybreakEnd s = .next { s with day := { s.day with breakCores := [] } }) ∧
   (s.day.inForce = true → s.day.ns < 128 → exec .daybreakEnd s = .next s) ∧
   (s.day.inForce = true → s.day.period - s.day.twilight ≤ s.day.ns →
     exec .twilightBegin s = .next { s with day := { s.day with gate := true } }) ∧
   (s.day.inForce = false ∨ s.day.ns < s.day.period - s.day.twilight → exec .twilightBegin s = .next s) ∧
   (s.day.run = false ∨ s.day.inForce = true ∨ s.day.ns < (if s.day.source then s.day.period + 64 else 128) →
     exec .firstDawn s = .next s) ∧
   (s.day.run = false ∨ s.day.inForce = false ∨ s.day.ns < (if s.day.source then s.day.period + 64 else s.day.period) →
     exec .localDusk s = .next s) ∧
   (m < 8 → (bunAt s (2176 + m)).state = 2 → s.day.run = false ∨ s.day.source = false → exec (.duskMark m) s = .next s) ∧
   (m < 8 → (bunAt s (2176 + m)).state = 2 → s.day.run = true → s.day.source = true → s.day.inForce = true → s.day.ns ≤ 64 →
     exec (.duskMark m) s = .next { s with day := { s.day with localDusk := false } }) ∧
   (m < 8 → (bunAt s (2176 + m)).state ≠ 2 → ∃ t, exec (.duskMark m) s = .next t ∧ t.day = s.day ∧ t.cores = s.cores ∧
     t.held = s.held ∧ recordsMade t = (recordsMade s + 1) % 2 ^ 32)) ∧
  (∀ s : State, s.day.run = true → s.day.inForce = false →
   let dawns (i : Instr) (lost : Bool) : Prop := ∃ t, exec i s = .next t ∧ t.day.inForce = true ∧ t.day.ns = 0 ∧
     t.day.gate = false ∧ t.day.number = s.day.number ∧ t.day.shadowDay = s.day.shadowDay ∧ t.held = s.held ∧
     t.day.markLost = (s.day.markLost || lost) ∧
     (lost = true → ∃ r, r ∈ t.log.fresh ∧ r.reported = true ∧ r.day = s.day.number) ∧
     (∀ p q, q = 2 ∨ q = 3 → allotAt (coreAt t p) q = { allotAt (coreAt s p) q with
       remV := (allotAt (coreAt s p) q).vein, remS := (allotAt (coreAt s p) q).sump,
       remD := (allotAt (coreAt s p) q).deep, issued := 0, spentV := false, spentS := false, spentD := false }) ∧
     ∀ p, MemoryKept s t p
   ((if s.day.source then s.day.period + 64 else 128) ≤ s.day.ns → dawns .firstDawn s.day.source) ∧
   (∀ m, m < 8 → (bunAt s (2176 + m)).state = 2 → s.day.source = true → dawns (.duskMark m) false))

/-- A Dusk (R27 to R29): a mark more than 64 ns after the last Dusk with source 1, the local timer at period_ns with
source 0, or at period_ns + 64 for want of a mark, ends the Day: the shadows name the Day ended, its roll-up starts to
form, DAY_NUMBER advances by 1 and the new Day is in force at t = 0, but where a pending reload writes DAY_CTRL. A
mark more than 64 ns early leaves a reported record of the Day and its ns; a mark that is wanting sets mark_lost and
leaves a reported record. R29 step 1: the statistics counters of the cores, Galleries, Caverns and the chip block
latch into their shadows and restart from zero. CENSUS_ROLLUP (R192): the roll-up of the latest Dusk completes. A
Gallery's sums of the tags are those of its cores' shadows, saturating at 40 bits, a Cavern's those of its Galleries,
saturating at 44 bits; each shows the Day whose counters it holds, and is incomplete where an id of its scope was
reset or had no core. With none forming nothing changes. -/
def Obligations.DuskEndsDay : Prop :=
  (∀ s : State, s.day.run = true → s.day.inForce = true →
   let ends (i : Instr) (lost rec_ : Bool) : Prop := ∃ t, exec i s = .next t ∧
     t.day.shadowDay = s.day.number ∧ t.day.rollForming = true ∧ t.day.ns = 0 ∧ t.day.gate = false ∧
     ((∀ r f j, s.cfg.pending = some r → f ∈ reloadFrames s r → (recordAt s.cfg.staging f.2 j).1 ≠ 0x708) →
       t.day.number = (s.day.number + 1) % 2 ^ 64 ∧ t.day.inForce = true ∧ (lost = true → t.day.markLost = true)) ∧
     t.pwr.slopeFallsDay = s.pwr.slopeFalls ∧ t.cfg.fixesDay = s.cfg.fixes ∧
     (rec_ = true → ∃ r, r ∈ t.log.fresh ∧ r.cls = 8 ∧ r.reported = true ∧ r.day = s.day.number ∧ r.ns = s.day.ns)
   (∀ m, m < 8 → (bunAt s (2176 + m)).state = 2 → s.day.source = true → 64 < s.day.ns →
     ends (.duskMark m) false (decide (s.day.ns + 64 < s.day.period))) ∧
   (s.day.source = false → s.day.period ≤ s.day.ns → ends .localDusk false false) ∧
   (s.day.source = true → s.day.period + 64 ≤ s.day.ns → ends .localDusk true true)) ∧
  (∀ s : State, Inv s →
   (∀ p, (coreAt s p).upsets.sync = [] →
     (coreAt (duskLatch s) p).eccDay = (coreAt s p).ecc ∧ (coreAt (duskLatch s) p).ecc = Ecc.init) ∧
   (∀ g, galAt (duskLatch s) g = { galAt s g with
     boostsDay := (galAt s g).boosts, boosts := 0, stretchedDay := (galAt s g).stretched, stretched := 0,
     maxTempDay := (galAt s g).maxTemp, maxTemp := 0, veinCorrDay := (galAt s g).veinCorr, veinCorr := 0,
     veinDiscDay := (galAt s g).veinDisc, veinDisc := 0 }) ∧
   (∀ c, c < 4 → (cavAt (duskLatch s) c).energy = 0) ∧
   (duskLatch s).pwr = { s.pwr with slopeFallsDay := s.pwr.slopeFalls, slopeFalls := 0 } ∧
   (duskLatch s).cfg = { s.cfg with fixesDay := s.cfg.fixes, fixes := 0 } ∧
   (duskLatch s).day.shadowDay = s.day.number ∧ (duskLatch s).day.rollForming = true) ∧
  (∀ s : State, (s.day.rollForming = false → exec .censusRollup s = .next s) ∧ (s.day.rollForming = true →
     ∃ t, exec .censusRollup s = .next t ∧ t.day = { s.day with rollForming := false } ∧ t.cores = s.cores ∧
       (∀ g, g < 32 → (galAt t g).roll = { (galAt s g).roll with
         day := s.day.shadowDay, incomplete := (List.range 64).any fun i => s.day.goneCores.contains (64 * g + i),
         sums := (List.range 64).foldl (fun m i => match physOf s (64 * g + i) with
           | none => m
           | some p => addShadow 40 m ((coreAt s p).census.shadow.map fun e => (e.1, tagRoll e.2))) [] }) ∧
       (∀ c, c < 4 → (cavAt t c).roll = { (cavAt s c).roll with
         day := s.day.shadowDay, incomplete := (List.range 512).any fun i => s.day.goneCores.contains (512 * c + i),
         sums := (List.range 8).foldl (fun m g => addShadow 44 m (galAt t (8 * c + g)).roll.sums) [] })))

/-- SLOT_ENABLE, SLOT_DISABLE (R341) and SLOT_REARM (R323): a write of CHIP_SLOTs that rearms a slot not BROKEN, or
sets off_die in a standalone part (R519), is rejected with BAD_STATE. Any other waits for the next Dusk while run is
1; while run is 0 it takes effect at once. Enabled or rearmed, a slot is OPEN with parity 0 and no arrivals, but
BROKEN where the stage is READY and it has a member that is unserved (R322); disabled, it drops its arrivals; else
only off_die changes. -/
def Obligations.SlotRows : Prop :=
  ∀ (s : State) (n : Nat) (v : Word) (i : Instr) (x : Slot), Serves s → n < 128 → Clean v 0x1FF3F → x = slotAt s n →
  ((i = .slotEnable n v ∧ wbit v 0 = true ∧ wbit v 5 = false) ∨ (i = .slotDisable n v ∧ wbit v 0 = false ∧ wbit v 5 = false) ∨
    (i = .slotRearm n v ∧ wbit v 5 = true)) →
  let leaves (y : Slot) : Prop := ∃ t, exec i s = .next t ∧ t.answer = .done ∧ slotAt t n = y ∧
    (∀ m, m ≠ n → slotAt t m = slotAt s m) ∧ ∀ p, MemoryKept s t p
  ((wbit v 5 = true ∧ slotState x ≠ 2) ∨ (wbit v 1 = true ∧ s.tap.standalone = true) →
    exec i s = .next { s with answer := .badState }) ∧
  ((wbit v 5 = true → slotState x = 2) → (s.tap.standalone = true → wbit v 1 = false) →
    (s.day.run = true → exec i s = .next { s with
      held := s.held ++ [{ addr := 0x1000 + 4 * n, value := v }], answer := .done }) ∧
    (s.day.run = false →
      (wbit v 0 = false → x.enable = true → leaves { x with
        enable := false, offDie := wbit v 1, broken := false, arr0 := [], arr1 := [], sentUp := [] }) ∧
      (wbit v 0 = x.enable → wbit v 5 = false → (x.enable = false ∨ wbit v 0 = true) → leaves { x with offDie := wbit v 1 }) ∧
      (wbit v 0 = true → (x.enable = false ∨ wbit v 5 = true) → leaves { x with
        enable := true, offDie := wbit v 1, broken := s.boot.released && (slotUnserved s n).isSome, arr0 := [], arr1 := [],
        parity := false, sentUp := [] })))

/-- APERTURE_WRITE (R480): the word goes into the store that CFG_BS_PAGE selects and reads back from it; a verified
staging store takes none. RELOAD and RELOAD_CANCEL (R486, R499): checked in the order of R486 and accepted in READY
over a verified staging store, a reload of the named scopes becomes pending, or a pending one is withdrawn; nothing
else changes until Dusk. A rejected one leaves its status. -/
def Obligations.ApertureAndReloadRows : Prop :=
  (∀ (s : State) (off : Nat) (v : Word), Serves s → off < 0x10000 → off % 4 = 0 →
   (s.cfg.target = true → ∃ t, exec (.apertureWrite off v) s = .next t ∧ t.answer = .done ∧
     stWord t.cfg.echoBuf (s.cfg.page * 65536 + off) 4 = v.toNat ∧ t.cfg.staging = s.cfg.staging ∧
     (∀ i, (i < s.cfg.page * 65536 + off ∨ s.cfg.page * 65536 + off + 4 ≤ i) →
       stByte t.cfg.echoBuf i = stByte s.cfg.echoBuf i)) ∧
   (s.cfg.target = false → s.cfg.bsState < 2 → ∃ t, exec (.apertureWrite off v) s = .next t ∧ t.answer = .done ∧
     stWord t.cfg.staging (s.cfg.page * 65536 + off) 4 = v.toNat ∧ t.cfg.bsState = 1 ∧ t.cfg.echoBuf = s.cfg.echoBuf ∧
     (∀ i, (i < s.cfg.page * 65536 + off ∨ s.cfg.page * 65536 + off + 4 ≤ i) →
       stByte t.cfg.staging i = stByte s.cfg.staging i)) ∧
   (s.cfg.target = false → 2 ≤ s.cfg.bsState →
     exec (.apertureWrite off v) s = .next { s with answer := .badState })) ∧
  (∀ (s : State) (v : Word) (r : List Nat × Bool), Serves s →
   r = ((List.range 4).filter (bitN v.toNat), wbit v 4) →
   let rejected (i : Instr) (st : Status) : Prop :=
     exec i s = .next { s with cfg := { s.cfg with rlStatus := st.code }, answer := st }
   let live := s.boot.stage = 7 ∧ s.cfg.bsState = 2
   (∀ i, (i, wbit v 5) ∈ [(Instr.reload v, false), (.reloadCancel v, true)] →
     ((2 ^ 16 ≤ v.toNat ∨ (r = ([], false) ∧ wbit v 5 = false)) → rejected i .badValue) ∧
     (v.toNat < 2 ^ 16 → (r = ([], false) → wbit v 5 = true) → ¬live → rejected i .badState)) ∧
   (live → v.toNat < 2 ^ 16 → wbit v 5 = false → r ≠ ([], false) → s.cfg.pending = none →
     (reloadMisfit s r = true → rejected (.reload v) .badState) ∧
     (∀ st j k, reloadMisfit s r = false → reloadReject s r = some (st, j, k) → ∃ t, exec (.reload v) s = .next t ∧
       t.answer = st ∧ t.cfg = { s.cfg with fail := st.code, frame := j, record := k, rlStatus := st.code })) ∧
   (live → v.toNat < 2 ^ 16 →
   (wbit v 5 = false → (r.1 ≠ [] ∨ r.2 = true) → s.cfg.pending = none → reloadMisfit s r = false → reloadReject s r = none →
     exec (.reload v) s = .next { s with
       cfg := { s.cfg with pending := some r, partialSeen := s.cfg.partialSeen && !wbit v 7, rlStatus := Status.done.code },
       answer := .done }) ∧
   (wbit v 5 = false → (r.1 ≠ [] ∨ r.2 = true) → s.cfg.pending.isSome = true → rejected (.reload v) .busy) ∧
   (wbit v 5 = true →
     exec (.reloadCancel v) s = .next { s with
       cfg := { s.cfg with pending := none, partialSeen := s.cfg.partialSeen && !wbit v 7, rlStatus := Status.done.code },
       answer := .done })))

/-- ATTEST_REQ (R513), STANDALONE_SET (R519), TAP_LOCK (R522), LOG_HEAD_ADVANCE (R510) and LOG_CLEAR_LOST (R524): the
writes of the chip block's test and log registers, whole, accepted or rejected. R507, R510: as an M-cycle ends its
error-log records enter the log in their order, each with the next sequence number, while fewer than 4,096 are stored;
the effects of its A-cycles come about before, with their records (DESIGN CHOICE, log 71). ATTEST_COMPLETE (R513,
R514), BIST_START and BIST_COMPLETE (R516). A core under test is served by no id in use, and its gate is on; after the
test its Pool is zero, its tiles and sync state are as a reset leaves them, and GAL_BIST shows the result. A tile
repair that the test finds waits for a Dusk (DESIGN CHOICE, log 72). With nothing under way the completions change
nothing. -/
def Obligations.TestLogAndAttestationRows : Prop :=
  (∀ (s : State) (v : Word), Serves s →
   (s.attest.busy = false → s.boot.idState = 1 → exec .attestReq s = .next { s with
     attest := { s.attest with busy := true, valid := false, report := reportHead s, status := Status.done.code },
     answer := .done }) ∧
   (s.attest.busy = true → exec .attestReq s = .next { s with
     attest := { s.attest with status := Status.busy.code }, answer := .busy }) ∧
   (s.attest.busy = false → s.boot.idState ≠ 1 → exec .attestReq s = .next { s with
     attest := { s.attest with status := Status.badState.code }, answer := .badState }) ∧
   (∀ i bad, ((i = .standaloneSet v ∧ wbit v 0 = true) ∨ (i = .tapLock v ∧ wbit v 1 = true)) → Clean v 3 →
     bad = ((wbit v 0 && !s.tap.standalone && (s.day.run || s.slots.any fun e => e.2.enable && e.2.offDie)) ||
       (!wbit v 1 && s.tap.tapLock)) →
     (bad = true → exec i s = .next { s with answer := .badState }) ∧
     (bad = false → exec i s = .next { s with
       tap := { s.tap with standalone := wbit v 0, tapLock := wbit v 1 }, answer := .done })) ∧
   (s.log.head < 2 ^ 32 → s.log.tail < 2 ^ 32 →
     (v.toNat + 2 ^ 32 - s.log.head) % 2 ^ 32 ≤ (s.log.tail + 2 ^ 32 - s.log.head) % 2 ^ 32 →
     ∃ t, exec (.logHeadAdvance v) s = .next t ∧ t.answer = .done ∧ t.log.head = v.toNat ∧ t.log.tail = s.log.tail ∧
       t.log.lost = s.log.lost ∧
       (∀ r, r ∈ t.log.recs ↔ r ∈ s.log.recs ∧
         (v.toNat + 2 ^ 32 - s.log.head) % 2 ^ 32 ≤ (r.seq + 2 ^ 32 - s.log.head) % 2 ^ 32)) ∧
   (s.log.head < 2 ^ 32 →
     (s.log.tail + 2 ^ 32 - s.log.head) % 2 ^ 32 < (v.toNat + 2 ^ 32 - s.log.head) % 2 ^ 32 →
     exec (.logHeadAdvance v) s = .next { s with answer := .badValue }) ∧
   exec .logClearLost s = .next { s with log := { s.log with lost := 0 }, answer := .done }) ∧
  (∀ s : State, s.boot.powered = true →
   (∃ u, tick s = tickSync u ∧ u.log = (enterFresh (tickLate s)).log ∧ u.mNow = s.mNow + 1) ∧
   ((∀ e, e ∈ s.cores → ∀ x, x ∈ (coreAt s e.1).late → aNow (advance s) (e.1 / 544) ≤ x.cycle) → tickLate s = s) ∧
   (enterFresh s).log.fresh = [] ∧
   (reloading s = false → s.log.recs.length + s.log.fresh.length ≤ 4096 →
     (enterFresh s).log.recs = s.log.recs ++ s.log.fresh.mapIdx fun i r => { r with seq := (s.log.tail + i) % 2 ^ 32 }) ∧
   (∀ r, s.log.fresh = [r] → reloading s = false → 4096 ≤ s.log.recs.length →
     (enterFresh s).log.recs = s.log.recs ∧ (enterFresh s).log.lost = min 0xFFFF (s.log.lost + 1) ∧
     (enterFresh s).log.tail = (s.log.tail + 1) % 2 ^ 32)) ∧
  (∀ s : State,
   (s.attest.busy = true → ∃ t, exec .attestComplete s = .next t ∧ t.attest.busy = false ∧ t.attest.valid = true ∧
     t.attest.report.length = s.attest.report.length + 3309 ∧ s.attest.report <+: t.attest.report ∧ t.boot = s.boot) ∧
   (s.attest.busy = false → exec .attestComplete s = .next s) ∧
   (∀ (g : Nat) (v : Word), Serves s → g < 32 → Clean v 0xFF1FFF → wbit v 7 = true → fieldN v.toNat 0 7 ≤ 67 →
     (galAt s g).bist.busy = false → (∀ l, logOf s (68 * g + fieldN v.toNat 0 7) = some l → inReset s l = true) →
     gateOn s (68 * g + fieldN v.toNat 0 7) = true →
     ∃ t, exec (.bistStart g v) s = .next t ∧ t.answer = .done ∧ (galAt t g).bist.busy = true ∧
       (galAt t g).bist.pcore = fieldN v.toNat 0 7 ∧ (galAt t g).bist.running = fieldN v.toNat 0 7 ∧
       (galAt t g).bist.status = Status.done.code ∧ t.cores = s.cores) ∧
   (∀ (g : Nat) (v : Word) st, Serves s → g < 32 → Clean v 0xFF1FFF → wbit v 7 = true →
     st = (if 67 < fieldN v.toNat 0 7 then Status.badValue else if (galAt s g).bist.busy then .busy
       else if gateOn s (68 * g + fieldN v.toNat 0 7) = false ∨
         (∃ l, logOf s (68 * g + fieldN v.toNat 0 7) = some l ∧ inReset s l = false) then .badState else .done) →
     st ≠ .done → ∃ t, exec (.bistStart g v) s = .next t ∧ t.answer = st ∧ t.cores = s.cores ∧
       (galAt t g).bist = { (galAt s g).bist with status := st.code }) ∧
   (∀ g u r, (galAt s g).bist.busy = false ∨ 6 < u → exec (.bistComplete g u r) s = .next s) ∧
   (∀ g u fix p, (galAt s g).bist.busy = true → u ≤ 6 → p = 68 * g + (galAt s g).bist.running →
     ∃ t, exec (.bistComplete g u fix) s = .next t ∧ (galAt t g).bist.busy = false ∧ (galAt t g).bist.failUnit = u ∧
       ((galAt t g).bist.pass = true ↔ u = 0) ∧ (∀ r, rowAt (coreAt t p) r = Row.zero) ∧
       (∀ r, trowAt (coreAt t p) r = 0) ∧ (∀ n, descAt (coreAt t p) n = Desc.init) ∧
       (coreAt t p).sync.flags = [] ∧ (coreAt t p).sync.counters = [] ∧
       (coreAt t p).found = (if fix.any repairOk then fix else (coreAt s p).found) ∧
       (coreAt t p).repair = (coreAt s p).repair ∧ OthersKept s t p))

/-- SPARE, UNSPARE, OFFLINE, ONLINE and CAPACITY_CANCEL (R370, R381): an accepted write of CAV_CAPACITY makes one
change pending in its Cavern, or withdraws it, and changes no mapping. A column above 16 is rejected with BAD_VALUE, a
second change while one is pending with BUSY, and one that the present mapping does not allow with BAD_STATE; a
rejected write leaves only its status. -/
def Obligations.CapacityRows : Prop :=
  ∀ (s : State) (c : Nat) (v : Word), Serves s → c < 4 → Clean v 0xFF3FFF →
  let out := (galAt s (8 * c + fieldN v.toNat 3 3)).outCol.getD (fieldN v.toNat 6 2) 16
  let taken (i : Instr) (p : Option (Nat × Nat × Nat × Nat)) : Prop := ∃ t, exec i s = .next t ∧ t.answer = .done ∧
    cavAt t c = { cavAt s c with capPending := p, capStatus := Status.done.code } ∧
    (∀ d, d ≠ c → cavAt t d = cavAt s d) ∧ t.gals = s.gals ∧ t.cores = s.cores
  let rejected (i : Instr) (st : Status) : Prop := ∃ t, exec i s = .next t ∧ t.answer = st ∧
    cavAt t c = { cavAt s c with capStatus := st.code } ∧
    (∀ d, d ≠ c → cavAt t d = cavAt s d) ∧ t.gals = s.gals ∧ t.cores = s.cores
  let asked := some (fieldN v.toNat 0 3, fieldN v.toNat 3 3, fieldN v.toNat 6 2, fieldN v.toNat 8 5)
  (∀ i, (i, fieldN v.toNat 0 3) ∈ [(Instr.spare c v, 1), (.unspare c v, 2), (.offline c v, 3), (.online c v, 4)] →
    (16 < fieldN v.toNat 8 5 → rejected i .badValue) ∧
    (fieldN v.toNat 8 5 ≤ 16 → (cavAt s c).capPending ≠ none → rejected i .busy) ∧
    (fieldN v.toNat 8 5 ≤ 16 → (cavAt s c).capPending = none →
      ((fieldN v.toNat 0 3 = 1 ∧ out ≠ 16) ∨ (fieldN v.toNat 0 3 = 2 ∧ out = 16) ∨
        (fieldN v.toNat 0 3 = 3 ∧ (cavAt s c).offline = true) ∨ (fieldN v.toNat 0 3 = 4 ∧ (cavAt s c).offline = false)) →
      rejected i .badState)) ∧
  (fieldN v.toNat 8 5 ≤ 16 →
  (fieldN v.toNat 0 3 = 1 → (cavAt s c).capPending = none → out = 16 → taken (.spare c v) asked) ∧
  (fieldN v.toNat 0 3 = 2 → (cavAt s c).capPending = none → out ≠ 16 → taken (.unspare c v) asked) ∧
  (fieldN v.toNat 0 3 = 3 → (cavAt s c).capPending = none → (cavAt s c).offline = false → taken (.offline c v) asked) ∧
  (fieldN v.toNat 0 3 = 4 → (cavAt s c).capPending = none → (cavAt s c).offline = true → taken (.online c v) asked) ∧
  (fieldN v.toNat 0 3 = 0 → taken (.capacityCancel c v) none))

/-- R463, R464: a CHIP_BOOT command whose write finds no command in progress and the part in another stage than its
own is rejected with BAD_STATE, one that finds another in progress with BUSY; CHIP_BOOT.status records it, and nothing
else changes. A command whose write was accepted before is in progress until its own event runs it. -/
def Obligations.BootCommandsKeepTheirOrder : Prop :=
  ∀ (s : State) (shorted : List Nat) (obs : List (Nat × TrainObs)) (vs : List VeinObs),
  s.boot.powered = true → s.half = none →
  (∀ i cmd f, (i, cmd, f) ∈ [(Instr.echoStart, 1, startEcho), (.verify, 2, verifyCmd), (.apply, 3, applyCmd), (.clock, 4, clockCmd),
      (.power shorted, 5, powerCmd shorted), (.train obs, 6, trainCmd obs), (.topology vs, 7, topologyCmd (linksBad vs)),
      (.ready, 8, readyCmd), (.echoReload, 9, startEcho), (.stagingClear, 10, clearCmd)] → s.boot.busy = true →
    (s.boot.cmd ≠ cmd →
      exec i s = .next { s with boot := { s.boot with status := Status.busy.code }, answer := .busy }) ∧
    (s.boot.cmd = cmd → ∀ st u, f { s with boot := { s.boot with busy := false, cmd := 0 } } = (st, u) →
      exec i s = .next (noteBoot (if cmd = 9 then flushLog u else u) st))) ∧
  (s.boot.busy = false →
  let out (i : Instr) : Prop :=
    exec i s = .next { s with boot := { s.boot with status := Status.badState.code }, answer := .badState }
  (s.boot.stage ≠ 0 → out .echoStart) ∧
  ((s.boot.stage = 0 ∨ s.cfg.bsState ≠ 1) → out .verify) ∧
  ((s.boot.stage ≠ 1 ∨ s.cfg.bsState ≠ 2 ∨ s.boot.defState ≠ 1) → out .apply) ∧
  (s.boot.stage ≠ 2 → out .clock) ∧
  (s.boot.stage ≠ 3 → out (.power shorted)) ∧
  (s.boot.stage ≠ 4 → out (.train obs)) ∧
  (s.boot.stage ≠ 5 → out (.topology vs)) ∧
  (s.boot.stage ≠ 6 → out .ready) ∧
  ((s.boot.stage = 0 ∨ s.boot.echo = false) → out .echoReload) ∧
  (s.cfg.bsState = 0 → out .stagingClear))

/-- ECHO_START and ECHO_RELOAD (R467, R468): an image of the right form, with the fused key and a verifying signature,
runs and its digest is kept; one that fails a check leaves the code and the stage. An image with an uncorrectable word
does not verify, and leaves a record (R502; DEDUCED, log 17). The end of an ECHO_RELOAD leaves no record waiting
(R468). VERIFY (R479), APPLY (R481) and CLEAR (R480) accepted: VERIFY leaves the staging store VERIFIED or FAILED with
the first failure's place; a bit-stream whose every record is taken and whose row maps hold becomes the shadow and the
part CONFIGURED with its die id; one that fails leaves the stage, its status and the place of the failure; CLEAR
empties the staging store and drops a pending reload. -/
def Obligations.EchoAndBitStreamRows : Prop :=
  (∀ (s : State) (i : Instr), s.boot.powered = true → s.boot.busy = false → s.half = none →
   ((i = .echoStart ∧ s.boot.stage = 0) ∨ (i = .echoReload ∧ s.boot.stage ≠ 0 ∧ s.boot.echo = true)) →
   let ok := keyFused s s.cfg.echoBuf && signedOk s.cfg.echoBuf (bytesOf (echoDigestOf s.cfg.echoBuf).toNat 64)
   (echoLost s = [] → echoFormOk s.cfg.echoBuf = true →
     ∃ t, exec i s = .next t ∧ t.boot.echo = (s.boot.echo || ok) ∧
       t.boot.echoDigest = (if ok then echoDigestOf s.cfg.echoBuf else s.boot.echoDigest) ∧
       t.boot.stage = (if ok then max s.boot.stage 1 else s.boot.stage) ∧
       t.boot.status = (if ok then Status.done else .noAccess).code ∧ t.cfg = s.cfg ∧ t.cores = s.cores ∧
       (i = .echoStart → t.log = s.log) ∧ t.log.waiting = (if i = .echoStart then s.log.waiting else [])) ∧
   (echoLost s = [] → echoFormOk s.cfg.echoBuf = false →
     ∃ t, exec i s = .next t ∧ t.boot.echo = s.boot.echo ∧ t.boot.stage = s.boot.stage ∧
       t.boot.status = Status.badValue.code ∧ t.cfg = s.cfg ∧
       t.log.waiting = (if i = .echoStart then s.log.waiting else [])) ∧
   (echoLost s ≠ [] →
     ∃ t, exec i s = .next t ∧ t.boot.echo = s.boot.echo ∧ t.boot.stage = s.boot.stage ∧
       t.boot.status = Status.noAccess.code ∧ s.log.fresh.length < t.log.fresh.length ∧
       t.log.waiting = (if i = .echoStart then s.log.waiting else []))) ∧
  (∀ s : State, s.boot.powered = true → s.boot.busy = false → s.half = none →
   (s.boot.stage ≠ 0 → s.cfg.bsState = 1 →
     ∃ t st j r, exec .verify s = .next t ∧
       verifyStaging { s with boot := { s.boot with busy := false, cmd := 0 } } = (st, j, r) ∧
       t.cfg = (if st = .done then { s.cfg with bsState := 2 }
         else { s.cfg with bsState := 3, fail := st.code, frame := j, record := r }) ∧
       t.boot.status = st.code ∧ t.boot.stage = s.boot.stage ∧ t.cores = s.cores ∧ t.gals = s.gals) ∧
   (s.boot.stage = 1 → s.cfg.bsState = 2 → s.boot.defState = 1 →
     ∀ u, applyFrames s.cfg.staging { s with boot := { s.boot with busy := false, cmd := 0 } } = (none, u) → rowMapOk u = true →
     ∃ t, exec .apply s = .next t ∧ t.boot.stage = 2 ∧ t.boot.status = Status.done.code ∧
       t.boot.dieId = stWord s.cfg.staging 6 2 ∧ t.cfg.shadow = s.cfg.staging ∧ t.cfg.staging = [] ∧ t.cfg.bsState = 0 ∧
       t.cfg.gen = bsGen s.cfg.staging ∧ t.boot.released = false ∧ t.gals = u.gals ∧ t.cores = u.cores) ∧
   (s.boot.stage = 1 → s.cfg.bsState = 2 → s.boot.defState = 1 →
     ∀ u f st j r, applyFrames s.cfg.staging { s with boot := { s.boot with busy := false, cmd := 0 } } = (f, u) →
     (f = some (st, j, r) ∨ (f = none ∧ rowMapOk u = false ∧ st = .badValue ∧ j = 0x7FF ∧ r = 0x1FF)) →
     ∃ t, exec .apply s = .next t ∧ t.boot.stage = 1 ∧ t.boot.status = st.code ∧ t.cfg.fail = st.code ∧ t.cfg.frame = j ∧
       t.cfg.record = r ∧ t.cfg.staging = s.cfg.staging ∧ t.day.period = 0x3E8 ∧ ∀ g, (galAt t g).held = 0) ∧
   (s.cfg.bsState ≠ 0 →
     ∃ t, exec .stagingClear s = .next t ∧ t.boot.status = Status.done.code ∧ t.boot.stage = s.boot.stage ∧
       t.cfg = { s.cfg with staging := [], stagingUpsets := [], bsState := 0, pending := none } ∧ t.cores = s.cores ∧
       t.log = s.log))

/-- CLOCK, POWER and TRAIN (R463, R412): each accepted in its stage takes the part to the next. CLOCK runs and locks
every Cavern's PLL and ends TIMEOUT with no reference; POWER turns the gates on and leaves every Pool row zero, a core
with a short latched off; TRAIN ends with no data bundle in TRAINING. TOPOLOGY (R483 to R485) and READY (R465),
accepted. TOPOLOGY makes the record, which begins with its magic number, and holds the part at stage NOT_READY when
anything differs from STRUCTURE. READY releases the served cores; an id whose physical core is bad has none from then
on. -/
def Obligations.BringUpRows : Prop :=
  (∀ s : State, s.boot.powered = true → s.boot.busy = false → s.half = none →
   (s.boot.stage = 2 → (∀ c, c < 4 → (cavAt s c).refLost = false) →
     ∃ t, exec .clock s = .next t ∧ t.boot.stage = 3 ∧ t.boot.status = Status.done.code ∧
       (∀ c, c < 4 → (cavAt t c).running = true ∧ (cavAt t c).locked = true ∧ (cavAt t c).opHold = false) ∧
       t.cores = s.cores ∧ t.gals = s.gals ∧ t.log = s.log) ∧
   (s.boot.stage = 2 → (∃ c, c < 4 ∧ (cavAt s c).refLost = true) →
     ∃ t, exec .clock s = .next t ∧ t.boot.stage = 2 ∧ t.boot.status = Status.timeout.code ∧ t.cavs = s.cavs) ∧
   (∀ shorted, s.boot.stage = 3 →
     ∃ t, exec (.power shorted) s = .next t ∧ t.boot.stage = 4 ∧ t.boot.gatesOn = true ∧ t.boot.status = Status.done.code ∧
       (∀ p r, rowAt (coreAt t p) r = Row.zero) ∧
       (∀ p, (coreAt t p).gateShort = ((coreAt s p).gateShort || (decide (p < 2176) && shorted.contains p))) ∧
       (∀ p, gateOn t p = !(coreAt t p).gateShort)) ∧
   (∀ obs, s.boot.stage = 4 →
     ∃ t, exec (.train obs) s = .next t ∧ t.boot.stage = 5 ∧ t.boot.status = Status.done.code ∧
       (∀ b, b < 2176 → ((bunAt s b).state = 2 ∨ (bunAt s b).loop = true ∨ (bunAt s b).gateShort = true →
         bunAt t b = bunAt s b)) ∧
       (∀ b, b < 2176 → (bunAt s b).state ≠ 2 → (bunAt s b).loop = false → (bunAt s b).gateShort = false →
         (bunAt t b).state = 2 ∨ (bunAt t b).state = 4) ∧
       (∀ b, 2176 ≤ b → bunAt t b = bunAt s b))) ∧
  (∀ s : State, s.boot.powered = true → s.boot.busy = false → s.half = none →
   (∀ vs bad, s.boot.stage = 5 → bad = linksBad vs →
     ∃ t, exec (.topology vs) s = .next t ∧ t.boot.topoMade = true ∧ t.boot.status = Status.done.code ∧
       t.boot.stage = (if (mismatches s bad).isEmpty then 6 else 8) ∧ stWord t.boot.topo 0 4 = 0x4F504F54 ∧
       t.cores = s.cores ∧ t.gals = s.gals ∧ t.bundles = s.bundles ∧ t.log = s.log) ∧
   (s.boot.stage = 6 →
     ∃ t, exec .ready s = .next t ∧ t.boot.stage = 7 ∧ t.boot.released = true ∧ t.boot.status = Status.done.code ∧
       (∀ l, l < 2048 → (physOf t l = none ↔ unserved s l = true)) ∧
       (∀ g, g < 32 → (galAt t g).held = shapesHeld s g) ∧ t.day = s.day ∧ t.cfg = s.cfg))

/-- REG_REQ (R530, R531, R468, R420) and REG_ACCESS (R531, R534): a well-formed request on a management bundle in UP
joins Echo's queue; a malformed one is answered BAD_VALUE and a 65th BUSY; on a link not in UP it is discarded with a
record. Echo makes the oldest access held and answers it with REG_RSP, sent while a management bundle is in UP; while
ECHO_RELOAD runs those held are answered BUSY. A read of DAY_PERIOD returns the period. R9, R17, R533: a write whose
target or permission fails gives that status and changes nothing; one that passes meets BUSY, and changes nothing,
where the part has changed the register in the same M-cycle, and else has the register's own effect. Every command
that is the write of one register, its word being that command's, is that write, and nothing where it is not (DEDUCED,
log 14, 15). -/
def Obligations.RegisterRequestRows : Prop :=
  (∀ s : State, s.boot.powered = true →
   let answered (u : State) (m : RegReq) (st : Status) (hand : Bool) (data : Nat) : State := { u with
     answer := st, answerData := BitVec.ofNat 32 data,
     out := if mgmtUp u then u.out ++ [.message 2
       [(1, m.seq), (1, st.code), (1, b2n hand), (2, m.requester), (2, 0), (4, m.addr), (4, data)]] else u.out }
   (∀ m, m.bundle < 8 → (bunAt s (2176 + m.bundle)).state = 2 →
     let refused (st : Status) : State := answered s m st false 0
     (reqFormOk m = true → s.echoQ.length < 64 → (s.boot.busy = true → s.boot.cmd ≠ 9) →
       exec (.regReq m) s = .next { s with echoQ := s.echoQ ++ [m] }) ∧
     (reqFormOk m = false → exec (.regReq m) s = .next (refused .badValue)) ∧
     (reqFormOk m = true → (64 ≤ s.echoQ.length ∨ (s.boot.busy = true ∧ s.boot.cmd = 9)) →
       exec (.regReq m) s = .next (refused .busy))) ∧
   (∀ m, m.bundle < 8 → (bunAt s (2176 + m.bundle)).state ≠ 2 → ∃ t, exec (.regReq m) s = .next t ∧ t.echoQ = s.echoQ ∧
     recordsMade t = (recordsMade s + 1) % 2 ^ 32) ∧
   (∀ m rest policy, s.echoQ = m :: rest → m.op = 1 →
     (∀ x, hostWrite { s with echoQ := rest } m.addr m.data (s.boot.echo && m.hand == 1 && policy) m.requester = x →
       exec (.regAccess policy) s = .next (answered x.2 m x.1 (s.boot.echo && m.hand == 1 && policy) 0))) ∧
   (∀ m rest policy x, s.echoQ = m :: rest → m.op ≠ 1 → hostRead { s with echoQ := rest } m.addr = x →
     exec (.regAccess policy) s = .next (answered x.2.2 m x.1 (s.boot.echo && m.hand == 1 && policy) x.2.1)) ∧
   (∀ m rest policy, s.echoQ = m :: rest → reloading s = true →
     exec (.regAccess policy) s = .next (answered { s with echoQ := rest } m .busy (s.boot.echo && m.hand == 1 && policy) 0)) ∧
   (∀ m rest policy, s.echoQ = m :: rest → m.op = 0 → m.addr = 0x700 → s.boot.echo = true → s.half = none →
     reloading s = false →
     s.day.period < 2 ^ 32 →
     ∃ t, exec (.regAccess policy) s = .next t ∧ t.echoQ = rest ∧ t.answer = .done ∧
       t.answerData = BitVec.ofNat 32 s.day.period ∧ t.day = s.day ∧ t.cores = s.cores) ∧
   (∀ policy, s.echoQ = [] → exec (.regAccess policy) s = .next s)) ∧
  (∀ (s : State) (l n : Nat) (v : Word), s.boot.powered = true →
   (∀ r a x, regAt s a = r → isHandReg r = false → s.half = none → reloading s = false →
     (∀ st, accessCheck s r true false = st → st ≠ .done → hostWrite s a x false 0 = (st, s)) ∧
     (((∃ p k off, r = .core p k off ∧ off ≠ 0x130) ∨ r = .chip 0x70C ∨ r = .chip 0x710) →
       accessCheck s r true false = .done →
       hostWrite s a x false 0 =
         (if (regEffect s r x).1 = .done ∧ hwHit s r = true then (.busy, s) else regEffect s r x))) ∧
   (∀ i ok a w, (i, ok, a, w) ∈ registerRows s l n v →
     (ok = true → ∀ st u, hostWrite s a w.toNat false 0 = (st, u) → exec i s = .next { u with answer := st }) ∧
     (ok = false → exec i s = .next s)) ∧
   (∀ i act rq, (i, act) ∈ handRows l rq v →
     (fieldN v.toNat 0 4 = act → ∀ st u, hostWrite s (coreReg l 0x7E0) v.toNat true rq = (st, u) →
       exec i s = .next { u with answer := st }) ∧
     (fieldN v.toNat 0 4 ≠ act → exec i s = .next s)))

/-- COMMAND_ROW_FETCH (R344, R346): the next occupied row enters the queue's buffer as the Pool holds it, each
codeword corrected; its data is available its bank's read latency after its reserved slot (R215); one that reads
uncorrectable stops a queue that would decode it next. NOP (R350): at the head of a free queue it leaves the head in
the next cycle and changes nothing else; while a gate of R352 holds, it stays. After slot 15 the ring's head advances
by 1 (R347). -/
def Obligations.CommandRowsAndNops : Prop :=
  (∀ (s : State) (l q p count row : Nat), liveCore s l = some p → canFetch (coreAt s p) (cycleOf s l) q = true →
   fetchCount (coreAt s p) q = count → ringRow (ringAt (coreAt s p) q) count = row →
   ((∀ i, i < 66 → Store.get 0 (coreAt s p).upsets.pool (row * 66 + i) = 0) → Store.wf 0 (coreAt s p).upsets.pool = true →
     seenRow (coreAt s p) row = rowAt (coreAt s p) row ∧ rowBad (coreAt s p) row = false) ∧
   ((rowBad (coreAt s p) row = false ∨ (queueAt (coreAt s p) q).bufs ≠ []) →
     (∀ b, b ∈ (queueAt (coreAt s p) q).bufs → frowBad b = false) →
     ∃ t, exec (.commandRowFetch l q) s = .next t ∧
       (queueAt (coreAt t p) q).bufs = (queueAt (coreAt s p) q).bufs ++
         [{ count := count, row := seenRow (coreAt s p) row, bad := rowBad (coreAt s p) row,
            avail := reservedFrom (coreAt s p) (cycleOf s l) (bankOf row) + bankLatency (bankOf row) }] ∧
       (queueAt (coreAt t p) q).state = 1 ∧ (∀ n, ringAt (coreAt t p) n = ringAt (coreAt s p) n) ∧ MemoryKept s t p ∧
       OthersKept s t p) ∧
   (rowBad (coreAt s p) row = true → (queueAt (coreAt s p) q).bufs = [] →
     ∃ t, exec (.commandRowFetch l q) s = .next t ∧ (queueAt (coreAt t p) q).state = 2 ∧
       (queueAt (coreAt t p) q).bufs = [] ∧ (queueAt (coreAt t p) q).restart = true ∧
       { cycle := reservedFrom (coreAt s p) (cycleOf s l) (bankOf row) + bankLatency (bankOf row),
         act := .poolErr (correctedIn (rowErrs (coreAt s p) row)) 1 } ∈ (coreAt t p).late ∧ MemoryKept s t p ∧ OthersKept s t p)) ∧
  (∀ (s : State) (l q p : Nat), liveCore s l = some p → queueFree (coreAt s p) q = true →
   headBits (queueAt (coreAt s p) q) = some 0 →
   (gateHolds s l 0 = true → exec (.nop l q) s = .next s) ∧
   (gateHolds s l 0 = false → (queueAt (coreAt s p) q).nextSlot ≠ 15 →
     ∃ t, exec (.nop l q) s = .next t ∧ queueAt (coreAt t p) q = { queueAt (coreAt s p) q with
         head := none, ready := decodeCycle s l (queueAt (coreAt s p) q) + 1, resumed := none,
         nextSlot := (queueAt (coreAt s p) q).nextSlot + 1 } ∧
       (∀ r, r ≠ q → queueAt (coreAt t p) r = queueAt (coreAt s p) r) ∧ (coreAt t p).pool = (coreAt s p).pool ∧
       (coreAt t p).sync = (coreAt s p).sync ∧ (coreAt t p).flow = (coreAt s p).flow ∧ (coreAt t p).mv = (coreAt s p).mv ∧
       t.log = s.log ∧ OthersKept s t p) ∧
   (gateHolds s l 0 = false → (queueAt (coreAt s p) q).nextSlot = 15 →
     ∃ t, exec (.nop l q) s = .next t ∧ (queueAt (coreAt t p) q).nextSlot = 0 ∧
       (ringAt (coreAt t p) q).head = ((ringAt (coreAt s p) q).head + 1) % 2 ^ 32 ∧ MemoryKept s t p ∧ OthersKept s t p))

/-- The vector, move-out and move-in commands (R170, R267, R351): one that passes every check, and waits on no
abandoned ring (R245), stays decoded at its queue's head until its engine takes it, with the waits in force at its
decode; no row, flag, ring or other core changes. A command that a check of R351 fails is retired with that status
(R355): a record is written, the head moves past it, the failure is shown when none is held, and the queue stops
unless its on_fail is 1. One with a malformed slot fails with BAD_VALUE. A gate of R352, or a pending verdict (R205),
holds it instead; a conditional command that is skipped completes with DONE (R205). -/
def Obligations.DecodedCommandsWait : Prop :=
  (∀ (s : State) (l q p key : Nat) (i : Instr) (c : Cmd), WaitingRow l i q key → Decodes s l q p key c →
   NotAbandoned s l p c →
   ∃ t d, exec i s = .next t ∧ t.answer = .done ∧ (queueAt (coreAt t p) q).head = some d ∧ d.cmd = c ∧
     d.slot = headSlotNo (coreAt s p) q ∧ d.ctx = (queueAt (coreAt s p) q).ctx ∧
     d.since = decodeCycle s l (queueAt (coreAt s p) q) ∧ d.limit = 256 * (coreAt s p).mv.units ∧
     d.sbLimit = 256 * (coreAt s p).pool.sbUnits ∧ d.sbFrom = d.since ∧ d.idx = none ∧
     (queueAt (coreAt t p) q).nextSlot = (queueAt (coreAt s p) q).nextSlot ∧
     (∀ r, r ≠ q → queueAt (coreAt t p) r = queueAt (coreAt s p) r) ∧ (coreAt t p).pool = (coreAt s p).pool ∧
     (coreAt t p).sync = (coreAt s p).sync ∧ (coreAt t p).flow = (coreAt s p).flow ∧ t.log = s.log ∧ OthersKept s t p) ∧
  (∀ (s : State) (l q p key b : Nat) (i : Instr), DecodeRow l i q key b →
   liveCore s l = some p → queueFree (coreAt s p) q = true → headBits (queueAt (coreAt s p) q) = some b → slotKey q b = key →
   (coreAt s p).sync.due = [] → (coreAt s p).upsets.sync = [] →
   let last := (queueAt (coreAt s p) q).nextSlot = 15
   (∀ st, (slotBad q b = true ∧ st = .badValue) ∨ (slotBad q b = false ∧ decodeSlot s p l q key b = .fail st) →
     ∃ t, exec i s = .next t ∧ t.answer = st ∧ (queueAt (coreAt t p) q).head = none ∧
       ((queueAt (coreAt s p) q).onFail = false → (queueAt (coreAt t p) q).state = 2) ∧
       ((queueAt (coreAt s p) q).failValid = false → (queueAt (coreAt t p) q).failValid = true ∧
         (queueAt (coreAt t p) q).failStatus = st.code ∧
         (queueAt (coreAt t p) q).failSlot = headSlotNo (coreAt s p) q) ∧
       (∃ r, r ∈ t.log.fresh ∧ r.cls = 4 ∧ r.status = st.code ∧ r.core = l) ∧
       (¬last → (queueAt (coreAt t p) q).nextSlot = (queueAt (coreAt s p) q).nextSlot + 1 ∧
         ((queueAt (coreAt t p) q).state = if (queueAt (coreAt s p) q).onFail then 1 else 2) ∧
         recordsMade t = (recordsMade s + 1) % 2 ^ 32 ∧ (coreAt t p).pool = (coreAt s p).pool ∧
         (coreAt t p).sync = (coreAt s p).sync) ∧
       (last → (queueAt (coreAt t p) q).nextSlot = 0 ∧
         (ringAt (coreAt t p) q).head = ((ringAt (coreAt s p) q).head + 1) % 2 ^ 32) ∧
       (coreAt t p).flow = (coreAt s p).flow ∧ MemoryKept s t p ∧ OthersKept s t p) ∧
   (slotBad q b = false → (decodeSlot s p l q key b = .hold ∨ decodeSlot s p l q key b = .verdictGate) → exec i s = .next s) ∧
   (∀ en f, slotBad q b = false → decodeSlot s p l q key b = .noop en f →
     ∃ t, exec i s = .next t ∧ t.answer = .done ∧ (queueAt (coreAt t p) q).head = none ∧
       (queueAt (coreAt t p) q).nextSlot = (if (queueAt (coreAt s p) q).nextSlot = 15 then 0
         else (queueAt (coreAt s p) q).nextSlot + 1) ∧ MemoryKept s t p ∧ OthersKept s t p))

/-- VEC_START (R171, R172, R174): the instruction decoded at the head of the vector queue whose rows are ready, none
of its accesses failing, gives the rows and the scalar that its op makes of the rows it reads; CSCLR's clear of
nar_seen comes about in its first cycle (R190). It ends with DONE, frees the head, and changes no other Pool row, no
tile row and no other core. -/
def Obligations.VectorInstructionResult : Prop :=
  ∀ (s : State) (l p e : Nat) (d : Decoded) (i : VecIns), liveCore s l = some p → inBreak s l = false →
  Current (coreAt s p) (cycleOf s l) →
  (queueAt (coreAt s p) 1).head = some d → d.cmd = .vec i → e = nextPhase (max (cycleOf s l) d.since) 0 4 →
  cmdVerdict s p l e d = .go → vecIdle (coreAt s p) d.ctx e i = true →
  Clear (coreAt s p) ((vecFores i e).1 ++ (vecFores i e).2.1 ++ (vecFores i e).2.2.1 ++ (vecFores i e).2.2.2) →
  let read (first n : Nat) : List Row := (rowsFrom first n).map (rowAt (coreAt s p))
  let out := vecResult i (read i.aRow (vecARows i.op i.bRow i.n)) (read i.bRow (vecBRows i.op i.n i.bsrc))
    (read i.dRow (if opHasMask i.op then i.n + 1 else 0)) (scalarsOf (ctxAt (coreAt s p) d.ctx))
  ∃ t, exec (.vecStart l []) s = .next t ∧ t.answer = .done ∧ (queueAt (coreAt t p) 1).head = none ∧
    (∀ n o, n < vecDRows i.op i.bRow i.n → out.rows[n]? = some o → rowAt (coreAt t p) (i.dRow + n) = o.row) ∧
    (∀ r, (r < i.dRow ∨ i.dRow + vecDRows i.op i.bRow i.n ≤ r) → rowAt (coreAt t p) r = rowAt (coreAt s p) r) ∧
    (∀ r v n, out.scalar = some (r, v, n) → Store.get Scalar.zero (ctxAt (coreAt t p) d.ctx).sc r = v) ∧
    (out.scalar = none → ∀ r, Store.get Scalar.zero (ctxAt (coreAt t p) d.ctx).sc r =
      Store.get Scalar.zero (ctxAt (coreAt s p) d.ctx).sc r) ∧
    (coreAt t p).vec.op = i.op ∧ (coreAt t p).vec.runEnd = some (max (e + vecEnd i) ((coreAt s p).vec.runEnd.getD 0)) ∧
    (i.op = 0x39 → { cycle := e, act := .clearNar } ∈ (coreAt t p).late) ∧
    (coreAt t p).sync.flags = (coreAt s p).sync.flags ∧ (∀ u, trowAt (coreAt t p) u = trowAt (coreAt s p) u) ∧
    OthersKept s t p

/-- PASS (R78, R91, R112): a pass that passes its checks and waits on no abandoned ring stays decoded at the head of
the matrix queue with the activity level's target at 16; a gang pass also joins its Gallery's rendezvous, unless the
rendezvous it belongs to has ended or ends with it. No row, tile word, flag or other core changes. Endings of R112 as
a gang pass arrives: one whose rendezvous has ended fails as the others did; where duplicate execution goes on in the
Gallery, or commands differ, all 64 fail, those still to arrive too; where a member is in reset, those waiting fail.
One that fails a check of R78 reports its own status, and fails the others. -/
def Obligations.MatrixCommandsDecode : Prop :=
  (∀ (s : State) (l p : Nat) (x : PassCmd), Decodes s l 0 p 0x100 (.pass x) → NotAbandoned s l p (.pass x) →
   let g := galOf l
   (x.shape ≠ 0 → (galAt s g).owed.contains (l % 64) = false ∧ gangChecked s g (aNow s (g / 8)) = false ∧
     (∀ m, m ∈ arrivedMembers s g → GangAlike m.2.2.2 x) ∧ ∀ i, i < 64 → inReset s (memberOf g i) = false) →
   ∃ t d, exec (.pass l) s = .next t ∧ t.answer = .done ∧ (queueAt (coreAt t p) 0).head = some d ∧ d.cmd = .pass x ∧
     d.since = decodeCycle s l (queueAt (coreAt s p) 0) ∧ d.ctx = (queueAt (coreAt s p) 0).ctx ∧
     (coreAt t p).tile = { rampStart (coreAt s p).tile d.since with counted := max (coreAt s p).tile.counted d.since } ∧
     (coreAt t p).tile.rampTgt = true ∧ (coreAt t p).pool = (coreAt s p).pool ∧ (coreAt t p).flow = (coreAt s p).flow ∧
     (coreAt t p).sync = (coreAt s p).sync ∧ (coreAt t p).outp = (coreAt s p).outp ∧ OthersKept s t p ∧
     (galAt t g).owed = (galAt s g).owed ∧
     (galAt t g).rendezvous = (galAt s g).rendezvous ++ (if x.shape = 0 then [] else [(l % 64, d.since)]) ∧
     (x.shape ≠ 0 → (galAt s g).rendezvous = [] → (galAt t g).rvLimit = 256 * (galAt s g).gangUnits)) ∧
  ((∀ (s : State) (l p : Nat) (x : PassCmd), Decodes s l 0 p 0x100 (.pass x) → NotAbandoned s l p (.pass x) → x.shape ≠ 0 →
     let g := galOf l
     let late := (List.range 64).filter fun i => !((galAt s g).rendezvous.any fun a => a.1 == i) && i != l % 64
     let ends := gangChecked s g (aNow s (g / 8)) = true ∨ ∃ m, m ∈ arrivedMembers s g ∧ ¬GangAlike m.2.2.2 x
     ((galAt s g).owed.contains (l % 64) = true →
       ∃ t, exec (.pass l) s = .next t ∧ t.answer = .badState ∧ (queueAt (coreAt t p) 0).head = none ∧ MemoryKept s t p ∧
         (galAt t g).rendezvous = (galAt s g).rendezvous ∧ (galAt t g).owed = (galAt s g).owed.erase (l % 64) ∧ OthersKept s t p) ∧
     ((galAt s g).owed.contains (l % 64) = false → ends →
       ∃ t, exec (.pass l) s = .next t ∧ t.answer = .badState ∧ (queueAt (coreAt t p) 0).head = none ∧ RendezvousEnded s t g ∧
         (galAt t g).owed = (galAt s g).owed ++ late) ∧
     ((galAt s g).owed.contains (l % 64) = false → ¬ends → (∃ i, i < 64 ∧ inReset s (memberOf g i) = true) →
       ∃ t, exec (.pass l) s = .next t ∧ t.answer = .badState ∧ (queueAt (coreAt t p) 0).head = none ∧ RendezvousEnded s t g ∧
         (galAt t g).owed = (galAt s g).owed)) ∧
   (∀ (s : State) (l p b : Nat) (st : Status), liveCore s l = some p → queueFree (coreAt s p) 0 = true →
     headBits (queueAt (coreAt s p) 0) = some b → slotKey 0 b = 0x100 → fieldN (slotWord b 1) 28 2 ≠ 0 →
     (coreAt s p).sync.due = [] → (coreAt s p).upsets.sync = [] →
     (slotBad 0 b = true ∧ st = .badValue) ∨ (slotBad 0 b = false ∧ decodeSlot s p l 0 0x100 b = .fail st) →
     let g := galOf l
     let late := (List.range 64).filter fun i => !((galAt s g).rendezvous.any fun a => a.1 == i)
     ∃ t, exec (.pass l) s = .next t ∧ t.answer = st ∧ (queueAt (coreAt t p) 0).head = none ∧
       ((galAt s g).owed.contains (l % 64) = true → (galAt t g).rendezvous = (galAt s g).rendezvous ∧
         (galAt t g).owed = (galAt s g).owed.erase (l % 64)) ∧
       ((galAt s g).owed.contains (l % 64) = false → RendezvousEnded s t g ∧
         (galAt t g).owed = ((galAt s g).owed ++ late).erase (l % 64))))

/-- PASS_ISSUE (R82 to R88, R132, R135, R136, R164): a single-tile pass whose conditions hold and none of whose reads
fails writes to its destination tile the pass sums of its panels, added to the old words with acc; a tile that is
POISONED as those are read stays so. Its status is POISONED where the tile is POISONED at its last word write. The
done flag falls due; no Pool row, other tile row or other core changes. PASS_ISSUE with a panel read that falls in its
bank's reserved slot (R84, R161 to R163): the pass issues all the same, its tile is written as NaR and POISONED with
cause 1 from the first such read's cycle on, one record of it is made in that cycle, and its status is POISONED. -/
def Obligations.PassResult : Prop :=
  (∀ (s : State) (l p e : Nat) (d : Decoded) (c : PassCmd), PassIssues s l p e d c → Clear (coreAt s p) (passFores c e) →
   let k := coreAt s p
   let last := passLast k d c e
   let x := descAt k c.dstTile
   let y (t : State) : Desc := descAt (coreAt t p) c.dstTile
   let sums := (passA k c).map fun a => (passB k d.ctx c).map fun b => passSum (signed8 (finalMarks x).exp.toNat) [(a, b)]
   let poisoned := c.acc && (shownMarks x (last - 31)).poisoned
   let rows := if poisoned then List.replicate 32 (List.replicate 32 A64.nar)
     else if c.acc then List.zipWith (fun o n => List.zipWith A64.add o n) ((tileRowsOf k c.dstTile).map tileWords) sums else sums
   ∃ t, exec (.passIssue l [] none) s = .next t ∧
     t.answer = (if (shownMarks (y t) (last + 1)).poisoned then .poisoned else .done) ∧ (queueAt (coreAt t p) 0).head = none ∧
     (∀ (u : Nat) r, rows[u]? = some r → trowAt (coreAt t p) (32 * c.dstTile + u) = mkTileRow r) ∧
     (∀ u, (u < 32 * c.dstTile ∨ 32 * c.dstTile + 32 ≤ u) → trowAt (coreAt t p) u = trowAt k u) ∧
     (FieldsStand x (cycleOf s l) → (finalMarks (y t)).poisoned = poisoned ∧ (finalMarks (y t)).exp = (finalMarks x).exp ∧
       t.answer = (if poisoned then .poisoned else .done)) ∧
     { cycle := last, act := .passEnd d.track c.dstTile } ∈ (coreAt t p).late ∧
     (∀ r, rowAt (coreAt t p) r = rowAt k r) ∧ (coreAt t p).sync.flags = k.sync.flags ∧
     (c.doneEn = true → ∃ z, z ∈ (coreAt t p).sync.due ∧ z.flag = c.doneFlag ∧ z.clear = false ∧ z.cycle = last + 1) ∧
     (coreAt t p).tile.owner = (if c.flow then d.ctx + 1 else 0) ∧
     (galAt t (galOf l)).lim.used = (galAt (rollGal s (galOf l) e) (galOf l)).lim.used + 1 ∧ OthersKept s t p) ∧
  (∀ (s : State) (l p e : Nat) (d : Decoded) (c : PassCmd) (f : Fore), PassIssues s l p e d c → Clear (coreAt s p) [] →
   f ∈ passFores c e → f.cycle % 32 = reservedPhase (bankOf f.row) →
   (∀ h, h ∈ passFores c e → h.cycle % 32 = reservedPhase (bankOf h.row) → f.cycle ≤ h.cycle) →
   let k := coreAt s p
   let x := descAt k c.dstTile
   let body := [(4, d.slot), (1, c.dstTile), (1, 1)]
   ∃ t, exec (.passIssue l [] none) s = .next t ∧ (queueAt (coreAt t p) 0).head = none ∧
     (f.cycle, DescEv.poison 1 d.track) ∈ (descAt (coreAt t p) c.dstTile).evs ∧
     (FieldsStand x (cycleOf s l) → t.answer = .poisoned ∧ (finalMarks (descAt (coreAt t p) c.dstTile)).poisoned = true ∧
       (finalMarks (descAt (coreAt t p) c.dstTile)).cause = 1) ∧
     (∀ u, u < 32 → trowAt (coreAt t p) (32 * c.dstTile + u) = mkTileRow (List.replicate 32 A64.nar)) ∧
     (∀ u, (u < 32 * c.dstTile ∨ 32 * c.dstTile + 32 ≤ u) → trowAt (coreAt t p) u = trowAt k u) ∧
     { cycle := f.cycle, act := .record 2 .conflict body } ∈ (coreAt t p).late ∧
     (∀ r, rowAt (coreAt t p) r = rowAt k r) ∧ OthersKept s t p)

/-- GANG_ISSUE (R112, R119, R120, R122, R124): with 64 members decoded alike, ready and admitted, the gang issues: the
rendezvous is empty, the gang stands in flight and enters 10 cycles later, every member's head is free; where the
limiter has no room, it waits. A rendezvous that meets an ending of R112 fails with the Gallery marked. GANG_TIMEOUT
ends one that has expired, and no other. The checks of a pass (R93, R97 to R100): outside check mode, and in checksum
mode over panels with NaR, none is made. Duplicate execution finds a cell in use that adds a difference, from its
row's write on. The checksums of a sound array agree; one faulty cell, in use or spare, fails the column, the row or
the corner it stands in, columns being named first. Rests on log 50. PASS_ISSUE of a pass whose check finds a
difference (R99, R100, R161 to R164): a record and mismatch follow in its cycle, the tile is POISONED with its cause
from then on, and the pass reports POISONED; after a checksum mismatch every word is NaR, while duplicate execution
leaves the words that were written before. One that finds none changes nothing. ACTIVITY_RAMP_STEP (R91, R92): at the
end of every third cycle the activity level moves one step toward its target, which is 0 from the last k step on with
no pass decoded at the head; nothing else of the core changes. SB_TIMEOUT (R234, R245): a decoded command, or the
output path's pending one, that the scoreboard has kept waiting longer than its limit is retired with TIMEOUT and a
record; one that waits on an abandoned ring ends ABANDONED; a gang pass takes those at its rendezvous with it (log
65). -/
def Obligations.GangAndRampEvents : Prop :=
  (∀ (s : State) (g : Nat), g < 32 →
   let now := aNow s (g / 8)
   let ends := gangChecked s g now = true ∨ (gangDiffers (arrivedMembers s g)).isSome = true ∨
     ∃ i, i < 64 ∧ inReset s (memberOf g i) = true
   (∀ ms e, gangMembers s g = some ms → ¬ends → e = nextPhase (max now (ms.foldl (fun t m => max t m.2.2.1.since) 0)) 0 32 →
     gangReady s g e ms = true →
     (∀ m, m ∈ ms → MayIssue s (memberOf g m.1) m.2.1 ∧ cmdVerdict s m.2.1 (memberOf g m.1) now m.2.2.1 ≠ .abandoned) →
     (limAdmitsTurn (galAt (rollGal s g e) g).lim e 0 64 (limOffers (rollGal s g e) g e) = true →
       ∃ t, exec (.gangIssue g [] []) s = .next t ∧ (galAt t g).rendezvous = [] ∧
         (galAt t g).lim.used = (galAt (rollGal s g e) g).lim.used + 64 ∧
         (∃ r, r ∈ (galAt t g).gangs ∧ r.members = ms.map (·.1)) ∧
         (∃ m, m ∈ ms ∧ (e + 10, m.2.2.2.shape) ∈ (galAt t g).entering) ∧
         (∀ m, m ∈ ms → (queueAt (coreAt t m.2.1) 0).head = none ∧ (coreAt t m.2.1).tile.everEntered = true) ∧
         ((∀ m, m ∈ ms → (coreAt s m.2.1).pool.plan = []) →
           ∀ q, (∀ m, m ∈ ms → m.2.1 ≠ q) → coreAt t q = coreAt s q)) ∧
     (limAdmitsTurn (galAt (rollGal s g e) g).lim e 0 64 (limOffers (rollGal s g e) g e) = false →
       ∃ t, exec (.gangIssue g [] []) s = .next t ∧ (galAt t g).lim.demand = true ∧
         (galAt t g).rendezvous = (galAt s g).rendezvous ∧
         (∀ m, m ∈ ms → (queueAt (coreAt t m.2.1) 0).head = some (freshWait (coreAt s m.2.1) now m.2.2.1) ∧
           MemoryKept s t m.2.1) ∧
         (∀ q, (∀ m, m ∈ ms → m.2.1 ≠ q) → coreAt t q = coreAt s q))) ∧
   ((galAt s g).rendezvous ≠ [] → ends → ∃ t, exec (.gangIssue g [] []) s = .next t ∧ RendezvousEnded s t g) ∧
   ((galAt s g).rendezvous.length < 64 →
     ((∃ a, a ∈ (galAt s g).rendezvous ∧ a.2 + (galAt s g).rvLimit ≤ now) →
       ∃ t, exec (.gangTimeout g) s = .next t ∧ RendezvousEnded s t g ∧ (galAt t g).owed = (galAt s g).owed) ∧
     ((∀ a, a ∈ (galAt s g).rendezvous → now < a.2 + (galAt s g).rvLimit) → exec (.gangTimeout g) s = .next s))) ∧
  ((∀ (k : Core) (l last : Nat) (a b : List Block) (f : CellFault),
     (k.tile.checkMode = false → checkFault k l a b (some f) last = none) ∧
     (k.tile.checkMode = true → isRepaired k = true →
       (∀ i j, i < 32 → j < 32 → f.row = physCell k.repair.1 i → f.col = physCell k.repair.2 j → f.delta ≠ 0 →
         checkFault k l a b (some f) last = some { cause := 5, cycle := last - 31 + i, more := [(2, partnerOf l)] }) ∧
       ((f.delta = 0 ∨ f.row = k.repair.1 ∨ f.col = k.repair.2) → checkFault k l a b (some f) last = none)) ∧
     (k.tile.checkMode = true → isRepaired k = false → (panelHasNar a = true ∨ panelHasNar b = true) →
       checkFault k l a b (some f) last = none) ∧
     (k.tile.checkMode = true → isRepaired k = false → panelHasNar a = false → panelHasNar b = false → a.length = 32 →
       b.length = 32 →
       checkFault k l a b (some f) last =
         (checksumIndex a b fun i j => if i = f.row ∧ j = f.col then f.delta else 0).map fun x =>
           { cause := 4, cycle := last - 32, more := [(1, x.1), (1, x.2)] })) ∧
   (∀ (fmt : Nat) (a0 a1 b0 b1 : Row),
     let a := panelLanes fmt a0 a1
     let b := panelLanes fmt b0 b1
     let cell (i j : Nat) (n : Int) : Nat → Nat → Int := fun x y => if x = i ∧ y = j then n else 0
     checksumIndex a b (fun _ _ => 0) = none ∧
     ∀ (i j : Nat) (n : Int), i < 32 → j < 32 → n ≠ 0 →
       checksumIndex a b (cell i j n) = some (0, j) ∧ checksumIndex a b (cell 32 j n) = some (0, j) ∧
       checksumIndex a b (cell i 32 n) = some (1, i) ∧ checksumIndex a b (cell 32 32 n) = some (2, 0))) ∧
  (∀ (s : State) (l p e : Nat) (d : Decoded) (c : PassCmd) (f : CellFault), PassIssues s l p e d c →
   Clear (coreAt s p) (passFores c e) →
   let k := coreAt s p
   let last := passLast k d c e
   let found := checkFault k l (passA k c) (passB k d.ctx c) (some f) last
   (found = none → exec (.passIssue l [] (some f)) s = exec (.passIssue l [] none) s) ∧
   (∀ x, found = some x →
     ∃ t u, exec (.passIssue l [] (some f)) s = .next t ∧ exec (.passIssue l [] none) s = .next u ∧
       (queueAt (coreAt t p) 0).head = none ∧
       { cycle := x.cycle, act := .mismatch d.track ([(4, d.slot), (1, c.dstTile), (1, x.cause)] ++ x.more) } ∈ (coreAt t p).late ∧
       (FieldsStand (descAt k c.dstTile) (cycleOf s l) → t.answer = .poisoned ∧
         (finalMarks (descAt (coreAt t p) c.dstTile)).poisoned = true ∧
         ((c.acc && (shownMarks (descAt k c.dstTile) (last - 31)).poisoned) = false →
           (finalMarks (descAt (coreAt t p) c.dstTile)).cause = x.cause)) ∧
       (x.cause = 4 → ∀ n, n < 32 → trowAt (coreAt t p) (32 * c.dstTile + n) = mkTileRow (List.replicate 32 A64.nar)) ∧
       (x.cause = 5 → (∀ n, n ≠ c.dstTile → descAt (coreAt t p) n = descAt (coreAt u p) n) ∧
         (c.acc = false → ∀ n, trowAt (coreAt t p) n = trowAt (coreAt u p) n)) ∧
       (∀ n, (n < 32 * c.dstTile ∨ 32 * c.dstTile + 32 ≤ n) → trowAt (coreAt t p) n = trowAt k n) ∧
       (∀ r, rowAt (coreAt t p) r = rowAt k r) ∧ (coreAt t p).sync.flags = k.sync.flags ∧ OthersKept s t p)) ∧
  (∀ (s : State) (l p : Nat), liveCore s l = some p →
   let c := cycleOf s l
   let k := coreAt s p
   let u := if (headPass k).isSome then k.tile else rampIdle k.tile c
   let seen := max k.tile.counted c
   ((u.rampAt + 3 ≤ c → ∃ t, exec (.activityRampStep l) s = .next t ∧ OthersKept s t p ∧
       coreAt t p = { k with tile := { u with
         level := if u.rampTgt then min 16 (u.level + 1) else u.level - 1, rampAt := u.rampAt + 3, counted := seen } }) ∧
    (c < u.rampAt + 3 → ∃ t, exec (.activityRampStep l) s = .next t ∧ OthersKept s t p ∧
       coreAt t p = { k with tile := { u with counted := seen } })) ∧
   (∀ q d, q < 4 → (queueAt k q).head = some d → d.sbFrom + d.sbLimit < c →
     let gang := ∃ x, d.cmd = .pass x ∧ x.shape ≠ 0
     (∀ row write, cmdVerdict s p l c d = .wait row write →
       ∃ t r, exec (.sbTimeout l q) s = .next t ∧ t.answer = .timeout ∧ (queueAt (coreAt t p) q).head = none ∧
         (coreAt t p).pool.sbTimeoutSeen = true ∧ MemoryKept s t p ∧
         r ∈ t.log.fresh ∧ r.cls = 1 ∧ r.status = Status.timeout.code ∧ r.core = l ∧
         (¬gang → OthersKept s t p) ∧ (gang → (galAt t (galOf l)).rendezvous = [] ∧ (galAt t (galOf l)).gangFailed = true)) ∧
     (cmdVerdict s p l c d = .abandoned →
       ∃ t, exec (.sbTimeout l q) s = .next t ∧ t.answer = .abandoned ∧ (queueAt (coreAt t p) q).head = none ∧
         MemoryKept s t p ∧ (¬gang → OthersKept s t p)) ∧
     (cmdVerdict s p l c d = .go → exec (.sbTimeout l q) s = .next s)) ∧
   (∀ d, k.outp.pend = some d → d.sbFrom + d.sbLimit < c →
     (∀ row write, cmdVerdict s p l c d = .wait row write →
       ∃ t r, exec (.sbTimeout l 4) s = .next t ∧ t.answer = .timeout ∧ (coreAt t p).outp.pend = none ∧
         (descAt (coreAt t p) (outTile d.cmd)).pendHeld = false ∧ (coreAt t p).pool.sbTimeoutSeen = true ∧ MemoryKept s t p ∧
         r ∈ t.log.fresh ∧ r.cls = 1 ∧ r.status = Status.timeout.code ∧ r.core = l ∧ OthersKept s t p) ∧
     (cmdVerdict s p l c d = .abandoned →
       ∃ t, exec (.sbTimeout l 4) s = .next t ∧ t.answer = .abandoned ∧ (coreAt t p).outp.pend = none ∧ MemoryKept s t p ∧
         OthersKept s t p)) ∧
   (∀ q d, (if q = 4 then k.outp.pend else (queueAt k q).head) = some d → c ≤ d.sbFrom + d.sbLimit →
     exec (.sbTimeout l q) s = .next s))

/-- DRAIN, DESC_SET, RESCALE and ZERO (R131, R139, R142, R153): a command that passes its checks and waits on no
abandoned ring enters the output path's pending slot if that is empty, leaves the head and holds its tile; else it
waits decoded at the head, and enters when offered again with the slot empty. OUTPUT_PATH_START of a descriptor
command (R132, R154, R155, R160): SET writes the exponent and, with clear, the marks of a tile whose words stay;
RESCALE writes each word at the new exponent, one of a POISONED tile as NaR with status POISONED; ZERO writes zero
words and clears POISONED. No Pool row, other tile (but for the end of its hold, which a RESCALE may move, R129) or
other core changes. OUTPUT_PATH_START of a drain (R143 to R151, R160): none of its accesses failing, its result rows
are the converted, biased and activated words of its tile, and with top-k the row of R149; a POISONED tile reads as
NaR and gives status POISONED. The tile stays as it is; no other Pool row and no other core changes. -/
def Obligations.OutputPathResult : Prop :=
  (∀ (s : State) (l p : Nat),
   let k := coreAt s p
   let x := queueAt k 0
   let enters (t : State) (d : Decoded) (n : Nat) : Prop :=
     (coreAt t p).outp.pend = some d ∧ d.sbFrom = n + 1 ∧ (queueAt (coreAt t p) 0).head = none ∧
     (queueAt (coreAt t p) 0).nextSlot = (if x.nextSlot = 15 then 0 else x.nextSlot + 1) ∧
     (x.nextSlot = 15 → (ringAt (coreAt t p) 0).head = ((ringAt k 0).head + 1) % 2 ^ 32) ∧
     descAt (coreAt t p) (outTile d.cmd) = { heldDesc k n (outTile d.cmd) with pendHeld := true } ∧
     (∀ i, i ≠ outTile d.cmd → descAt (coreAt t p) i = descAt k i) ∧
     MemoryKept s t p ∧ (coreAt t p).sync.flags = k.sync.flags ∧ OthersKept s t p
   (∀ key i c, (i, key) ∈ outputRows l → Decodes s l 0 p key c → NotAbandoned s l p c →
     (k.outp.pend = none → ∃ t d, exec i s = .next t ∧ t.answer = .done ∧ d.cmd = c ∧ enters t d (decodeCycle s l x)) ∧
     (k.outp.pend.isSome = true →
       ∃ t d, exec i s = .next t ∧ (coreAt t p).outp.pend = k.outp.pend ∧
         (queueAt (coreAt t p) 0).head = some d ∧ d.cmd = c ∧ (coreAt t p).pool = k.pool ∧
         (coreAt t p).flow = k.flow ∧ OthersKept s t p)) ∧
   (∀ d i, liveCore s l = some p → x.head = some d →
     ((i = .drain l ∧ ∃ c, d.cmd = .drain c) ∨ ∃ c, d.cmd = .desc c ∧ (i, 0x300 + c.op) ∈ outputRows l) →
     (k.outp.pend = none → ∃ t, exec i s = .next t ∧
       enters t (freshWait k (max (cycleOf s l) d.since) d) (max (cycleOf s l) d.since)) ∧
     (k.outp.pend.isSome = true → exec i s = .next s))) ∧
  (∀ (s : State) (l p e : Nat) (d : Decoded) (c : DescCmd), MayIssue s l p → (coreAt s p).outp.pend = some d →
   d.cmd = .desc c → e = nextPhase (max (cycleOf s l) (d.since + 1)) 0 32 → tileFree (coreAt s p) e c.tile = true →
   outIdle (coreAt s p) e = true → (coreAt s p).upsets.fs = [] →
   let k := coreAt s p
   let x := descAt k c.tile
   let m := finalMarks x
   let y (t : State) : Desc := descAt (coreAt t p) c.tile
   let z (t : State) : Marks := finalMarks (y t)
   let kept (t : State) : Prop := (coreAt t p).outp.pend = none ∧ (y t).pendHeld = false ∧
     (FieldsStand x (cycleOf s l) → (z t).exp = BitVec.ofInt 8 c.exp) ∧
     (∀ u, (u < 32 * c.tile ∨ 32 * c.tile + 32 ≤ u) → trowAt (coreAt t p) u = trowAt k u) ∧
     (∀ n, n ≠ c.tile → descAt (coreAt t p) n = { descAt k n with heldEnd := (descAt (coreAt t p) n).heldEnd }) ∧
     (coreAt t p).pool = k.pool ∧ (coreAt t p).sync.flags = k.sync.flags ∧ OthersKept s t p
   let bad := (shownMarks x (e + 9)).poisoned
   (c.op = 0 → ∃ t, exec (.outputPathStart l []) s = .next t ∧ t.answer = .done ∧ kept t ∧
     (∀ u, trowAt (coreAt t p) u = trowAt k u) ∧
     (FieldsStand x (cycleOf s l) → (z t).inf = (m.inf && !c.clear) ∧ (z t).nar = ((m.nar && !c.clear) || m.poisoned) ∧
       (z t).poisoned = m.poisoned ∧ (z t).cause = m.cause)) ∧
   (c.op = 1 → ∃ t, exec (.outputPathStart l []) s = .next t ∧ t.answer = (if bad then .poisoned else .done) ∧ kept t ∧
     (∀ u, u < 32 → trowAt (coreAt t p) (32 * c.tile + u) = mkTileRow (if bad then List.replicate 32 A64.nar
       else (tileWords (trowAt k (32 * c.tile + u))).map (rescaleA64 (signed8 m.exp.toNat) c.exp))) ∧
     (FieldsStand x (cycleOf s l) → (z t).poisoned = m.poisoned)) ∧
   (c.op = 2 → ∃ t, exec (.outputPathStart l []) s = .next t ∧ t.answer = .done ∧ kept t ∧
     (∀ u, u < 32 → trowAt (coreAt t p) (32 * c.tile + u) = 0) ∧
     (FieldsStand x (cycleOf s l) → (z t).poisoned = false ∧ (z t).cause = 0 ∧ (z t).inf = false ∧ (z t).nar = false))) ∧
  (∀ (s : State) (l p e : Nat) (d : Decoded) (c : DrainCmd), MayIssue s l p → (coreAt s p).outp.pend = some d →
   d.cmd = .drain c → (c.topk = 0 ∨ c.topkRow < c.dstRow ∨ c.dstRow + ofmtRows c.ofmt ≤ c.topkRow) →
   e = nextPhase (max (cycleOf s l) (d.since + 1)) 0 32 →
   cmdVerdict s p l e d = .go → tileFree (coreAt s p) e c.tile = true → outIdle (coreAt s p) e = true →
   let k := coreAt s p
   let bad := (shownMarks (descAt k c.tile) (e + 9)).poisoned
   let sexp := signed8 (finalMarks (descAt k c.tile)).exp.toNat
   let w := c.wexp.getD sexp
   let words := if bad then List.replicate 32 (List.replicate 32 A64.nar) else (tileRowsOf k c.tile).map tileWords
   let outs := drainOuts c w (drainStages c sexp w (if c.scEn then some (rowAt k c.scRow) else none)
     (if c.biasEn then some (rowAt k c.biasRow) else none) words)
   let reads : List Fore := (if c.scEn then [{ row := c.scRow, cycle := e, write := false }] else []) ++
     (if c.biasEn then [{ row := c.biasRow, cycle := e + 1, write := false }] else [])
   Clear k (reads ++ outs.map fun o => { row := o.at_, cycle := e + o.cycle, write := true }) →
   ∃ t, exec (.outputPathStart l []) s = .next t ∧ t.answer = (if bad then .poisoned else .done) ∧
     (coreAt t p).outp.pend = none ∧ (∀ o, o ∈ outs → rowAt (coreAt t p) o.at_ = o.row) ∧
     (∀ r, (∀ o, o ∈ outs → o.at_ ≠ r) → rowAt (coreAt t p) r = rowAt k r) ∧
     (∀ u, trowAt (coreAt t p) u = trowAt k u) ∧
     finalMarks (descAt (coreAt t p) c.tile) = finalMarks (descAt k c.tile) ∧
     (coreAt t p).sync.flags = k.sync.flags ∧ OthersKept s t p)

/-- The code of stored words and flits (R500, R501): a codeword reads clean; one with one bit inverted, data or check,
is corrected to its data; one with two bits inverted is uncorrectable. SCRUB_POOL and its write-back (R224, R225,
R505, R506): in a reserved slot that no other access takes, codewords a read corrects are counted and the row waits
for write-back, which stores it as corrected; an uncorrectable row is counted and recorded. With no such slot next, or
no row waiting, nothing happens. SCRUB_FLOWSTONE and its write-back (R503 to R506) and SCRUB_SYNC (R505, R506): errors
found in two tile rows, or in a word of sync state, are counted, each uncorrectable one recorded and left; corrected
words of a tile row wait for a free cycle of the fill port and are written as corrected; a corrected sync word is
written back at once. -/
def Obligations.ScrubRows : Prop :=
  (∀ w i j, w < 2 ^ 64 → i < 72 → j < 72 →
   eccGrade (codeword w) = 0 ∧ eccData (codeword w) = w ∧
   eccGrade (codeword w ^^^ 2 ^ i) = 1 ∧ eccData (codeword w ^^^ 2 ^ i) = w ∧
   (i ≠ j → eccGrade (codeword w ^^^ 2 ^ i ^^^ 2 ^ j) = 2)) ∧
  (∀ (s : State) (p r : Nat), scrubbed s p = true → r < 512 →
   let k := coreAt s p
   let now := physCycle s p
   let b := bankOf r
   let e := nextPhase (max now (Store.get 0 k.pool.given b)) (reservedPhase b) 32
   let free := bankOff k b e = false ∧ (slotCycle e = 15 ∨ (fetchWaits k now b = false ∧ inbWaits k now b = false))
   (¬free → exec (.scrubPool p r) s = .next s ∧ exec (.scrubPoolWriteback p r) s = .next s) ∧
   (free →
     ∃ t, exec (.scrubPool p r) s = .next t ∧ (coreAt t p).pool.given = Store.set 0 k.pool.given b (e + 1) ∧
       (coreAt t p).ecc.poolCorr = min 0xFFFF (k.ecc.poolCorr + correctedIn (rowErrs k r)) ∧
       (coreAt t p).upsets = k.upsets ∧ MemoryKept s t p ∧ OthersKept s t p ∧
       (rowBad k r = false → (coreAt t p).ecc.poolUnc = k.ecc.poolUnc ∧ t.log = s.log ∧
         (coreAt t p).pool.wb = (if correctedIn (rowErrs k r) = 0 then k.pool.wb else setInsert k.pool.wb r)) ∧
       (rowBad k r = true → (coreAt t p).ecc.poolUnc = min 0xFF (k.ecc.poolUnc + 1) ∧ (coreAt t p).pool.uncorrSeen = true ∧
         (coreAt t p).pool.wb = k.pool.wb ∧ recordsMade t = (recordsMade s + 1) % 2 ^ 32)) ∧
   (free → k.pool.wb.contains r = true →
     ∃ t, exec (.scrubPoolWriteback p r) s = .next t ∧ rowErrs (coreAt t p) r = [] ∧
       rowAt (coreAt t p) r = seenRow k r ∧ (∀ i, i ≠ r → rowAt (coreAt t p) i = rowAt k i ∧
         rowErrs (coreAt t p) i = rowErrs k i) ∧ (coreAt t p).pool.wb = setErase k.pool.wb r ∧
       (∀ u, trowAt (coreAt t p) u = trowAt k u) ∧ t.log = s.log ∧ OthersKept s t p) ∧
   (k.pool.wb.contains r = false → exec (.scrubPoolWriteback p r) s = .next s)) ∧
  (∀ (s : State) (p : Nat), scrubbed s p = true →
   let k := coreAt s p
   (∀ u, u < 255 →
     let hits := k.upsets.fs.filter fun x => x.1 / 32 == u || x.1 / 32 == u + 1
     let bad := (hits.filter fun x => eccGrade x.2 == 2).length
     ∃ t, exec (.scrubFlowstone p u) s = .next t ∧ (coreAt t p).ecc.fsCorr = min 0xFFFF (k.ecc.fsCorr + correctedIn hits) ∧
       (coreAt t p).ecc.fsUnc = min 0xFF (k.ecc.fsUnc + bad) ∧ recordsMade t = (recordsMade s + bad) % 2 ^ 32 ∧
       (∀ v, v ∈ (coreAt t p).flow.wb ↔ v ∈ k.flow.wb ∨ ∃ x, x ∈ hits ∧ x.1 / 32 = v ∧ eccGrade x.2 = 1) ∧
       (coreAt t p).upsets = k.upsets ∧ MemoryKept s t p ∧ OthersKept s t p) ∧
   (∀ u, (k.flow.wb.contains u = false ∨ fillIdle k (physCycle s p) = false) → exec (.scrubFlowstoneWriteback p u) s = .next s) ∧
   (∀ u, k.flow.wb.contains u = true → fillIdle k (physCycle s p) = true →
     ∃ t, exec (.scrubFlowstoneWriteback p u) s = .next t ∧
       (∀ x, x ∈ (coreAt t p).upsets.fs ↔ x ∈ k.upsets.fs ∧ ¬ (x.1 / 32 = u ∧ eccGrade x.2 = 1)) ∧
       ((∀ x, x ∈ k.upsets.fs → x.1 / 32 = u → eccGrade x.2 = 1) → trowAt (coreAt t p) u = seenTrow k u) ∧
       (∀ v, v ≠ u → trowAt (coreAt t p) v = trowAt k v) ∧ (∀ r, rowAt (coreAt t p) r = rowAt k r) ∧
       (coreAt t p).flow.wb = setErase k.flow.wb u ∧ OthersKept s t p) ∧
   (∀ w, eccGrade (Store.get 0 k.upsets.sync w) = 0 → exec (.scrubSync p w) s = .next s) ∧
   (∀ w, eccGrade (Store.get 0 k.upsets.sync w) = 1 →
     ∃ t, exec (.scrubSync p w) s = .next t ∧ (coreAt t p).ecc.syncCorr = min 0xFF (k.ecc.syncCorr + 1) ∧
       (coreAt t p).upsets.sync = Store.set 0 k.upsets.sync w 0 ∧ (coreAt t p).sync = k.sync ∧ t.log = s.log ∧
       MemoryKept s t p ∧ OthersKept s t p) ∧
   (∀ w, eccGrade (Store.get 0 k.upsets.sync w) = 2 →
     ∃ t, exec (.scrubSync p w) s = .next t ∧ (coreAt t p).ecc.syncUnc = min 0xFF (k.ecc.syncUnc + 1) ∧
       (coreAt t p).upsets = k.upsets ∧ (coreAt t p).sync = k.sync ∧ recordsMade t = (recordsMade s + 1) % 2 ^ 32 ∧
       MemoryKept s t p ∧ OthersKept s t p))

/-- SCRUB_CONFIG (R488, R503): of a frame-held word and its shadow copy, an uncorrectable one takes the other's bytes;
two sound ones that differ are settled by the frame's check, the shadow's first; where none decides, the frame stands
faulted. Every such case is counted and recorded, once. Words that agree, and a frame already faulted, are left;
before APPLY nothing is scrubbed. -/
def Obligations.ConfigScrubRows : Prop :=
  ∀ (s : State) (cell j : Nat) (e : FrameEntry),
  let x := Store.get 0 s.cfg.cellUpsets cell
  let y := Store.get 0 s.cfg.shadowUpsets cell
  let o := 8 * cell - e.off
  let noted (t : State) : Prop := t.cfg.fixes = min 0xFFFF (s.cfg.fixes + 1) ∧ recordsMade t = (recordsMade s + 1) % 2 ^ 32
  let liveWins (t : State) (a n : Nat) : Prop := t.cfg.memb = s.cfg.memb ∧ t.boot = s.boot ∧
    ∀ i, a ≤ i → i < a + n → stByte t.cfg.shadow (e.off + i) = liveByte s e i
  let shadowWins (t : State) : Prop := t.cfg.shadow = s.cfg.shadow ∧
    ∀ i, o ≤ i → i < o + 8 → liveByte t e i = stByte s.cfg.shadow (e.off + i)
  let fault (t : State) : Prop := t.cfg.faultedSeen = true ∧ t.cfg.faultFrame = j ∧ j ∈ t.cfg.faulted ∧
    t.cfg.shadow = s.cfg.shadow ∧ t.cfg.memb = s.cfg.memb ∧ t.boot = s.boot
  (s.boot.stage < 2 → exec (.scrubConfig cell) s = .next s) ∧
  (2 ≤ s.boot.stage →
    findIdx (fun (z : FrameEntry) => decide (z.off ≤ 8 * cell) && decide (8 * cell < z.off + 4096)) (bsTable s.cfg.shadow) =
      some (j, e) →
    ((isFrameHeld e = false ∨ j ∈ s.cfg.faulted) → exec (.scrubConfig cell) s = .next s) ∧
    (isFrameHeld e = true → j ∉ s.cfg.faulted →
      (eccGrade x = 2 → eccGrade y = 2 → ∃ t, exec (.scrubConfig cell) s = .next t ∧ fault t ∧ noted t) ∧
      (eccGrade x = 2 → eccGrade y ≠ 2 → ∃ t, exec (.scrubConfig cell) s = .next t ∧ shadowWins t ∧ noted t) ∧
      (eccGrade x ≠ 2 → eccGrade y = 2 → ∃ t, exec (.scrubConfig cell) s = .next t ∧ liveWins t o 8 ∧ noted t) ∧
      (eccGrade x ≠ 2 → eccGrade y ≠ 2 → eccData x = 0 → eccData y = 0 →
        ((∀ i, i < 8 → liveByte s e (o + i) = stByte s.cfg.shadow (e.off + o + i)) →
          ∃ t, exec (.scrubConfig cell) s = .next t ∧ t.cfg.fixes = s.cfg.fixes ∧ t.cfg.shadow = s.cfg.shadow ∧
            t.cfg.memb = s.cfg.memb ∧ t.boot = s.boot ∧ t.log = s.log) ∧
        ((∃ i, i < 8 ∧ liveByte s e (o + i) ≠ stByte s.cfg.shadow (e.off + o + i)) →
          (frameCheck (frameBytes s.cfg.shadow e.off) = e.check →
            ∃ t, exec (.scrubConfig cell) s = .next t ∧ shadowWins t ∧ noted t) ∧
          (frameCheck (frameBytes s.cfg.shadow e.off) ≠ e.check → frameCheck (liveFrame s e) = e.check →
            ∃ t, exec (.scrubConfig cell) s = .next t ∧ liveWins t 0 4096 ∧ noted t) ∧
          (frameCheck (frameBytes s.cfg.shadow e.off) ≠ e.check → frameCheck (liveFrame s e) ≠ e.check →
            ∃ t, exec (.scrubConfig cell) s = .next t ∧ fault t ∧ noted t)))))

/-- TAIL_ADD and HEAD_ADD (R239, R240, R243): a doorbell write is checked in the order of R239, and the first failure
is answered and changes nothing. One that passes advances the ring's pointer by its count; a tail sets the ring's
flag, a head grants credits or has them withheld. No Pool row changes. -/
def Obligations.DoorbellRows : Prop :=
  ∀ (s : State) (port : Port) (pkt : Packet) (l p : Nat), Arrives s port pkt l p → Quiet (coreAt s p) →
  respFull (coreAt s p) = false → pkt.ptype = .sig → pkt.classT = false → ¬(addrSpace pkt.addr.toNat = 2 ∧ doorPage pkt.addr.toNat = 1) →
  let k := coreAt s p
  let a := pkt.addr.toNat
  let count := pkt.word.toNat
  let i := if isHeadDoor a then Instr.headAdd port pkt else Instr.tailAdd port pkt
  let refused (st : Status) : Prop := ∃ t, exec i s = .next t ∧ t.answer = st ∧ (coreAt t p).pool = k.pool ∧
    (coreAt t p).sync = k.sync ∧ MemoryKept s t p ∧ OthersKept s t p
  ((addrSpace a ≠ 2 ∨ offsetHigh a = true ∨ doorbell a = none ∨ count = 0 ∨ 512 < count) → refused .badValue) ∧
  (∀ n head r, addrSpace a = 2 → offsetHigh a = false → doorbell a = some (n, head) → 1 ≤ count → count ≤ 512 →
    r = ringAt k n →
    let right := if head then 4 ≤ n ∧ senderOf pkt = ownSender s l
      else isProducer s l r.kind r.die r.core (senderOf pkt) = true
    (r.enable = false → refused .badState) ∧
    (r.enable = true → ¬right → refused .noAccess) ∧
    (r.enable = true → right → r.abandoned = true → refused .abandoned) ∧
    (r.enable = true → right → r.abandoned = false →
      (head = false → ringOcc r + count ≤ r.size → ∃ t, exec i s = .next t ∧ t.answer = .done ∧
        ringAt (coreAt t p) n = { r with tail := (r.tail + count) % 2 ^ 32 } ∧
        (r.flagEn = true → r.flag ∈ (coreAt t p).sync.flags) ∧ (r.flagEn = false → (coreAt t p).sync = k.sync) ∧
        MemoryKept s t p ∧ OthersKept s t p) ∧
      (head = false → r.size < ringOcc r + count → refused .overrun) ∧
      (head = true → count ≤ ringOcc r → ∃ t, exec i s = .next t ∧ t.answer = .done ∧
        ringAt (coreAt t p) n = { r with
          head := (r.head + count) % 2 ^ 32,
          outst := if r.kind ≠ 0 ∧ regionOff k r.base r.size = false then r.outst + count else r.outst,
          withheld := if r.kind ≠ 0 ∧ regionOff k r.base r.size = true then r.withheld + count else r.withheld } ∧
        (coreAt t p).sync = k.sync ∧ MemoryKept s t p ∧ OthersKept s t p) ∧
      (head = true → ringOcc r < count → refused .overrun)))

/-- WR and CLASS_T_WRITE arriving (R36, R244, R274, R280, R284): a credited row enters the inbound buffer and takes
one credit of its ring or window; one that the checks of R244 refuse is answered UNCREDITED, with a record, one that
those of R284 refuse FENCED, and one at a bad address BAD_VALUE; a poisoned row is answered POISONED. No Pool row
changes until the row commits. Packets that are not served (R21, R36, R244, R274, R281 to R284, R393, R411): a WR or
SIG for an unsettled id is bounced whole, one for a core in reset is answered ABSORBED, one for an id without a core
MAPPED_OUT; a read request is answered NO_ACCESS, or BAD_VALUE at a bad address, at a core in reset too; a class-T
packet that is no row write is answered FENCED. One whose port carries no traffic, whose header flit is lost or that
is not in turn does not arrive. No row changes. INBOUND_COMMIT (R53, R129, R134, R159, R224, R229, R232, R268, R272,
R284, R285): the oldest inbound row of a powered bank, no read of its row pending and no command-row read waiting for
the bank, is written whole to its Pool row, as corrected; one from elsewhere is answered DONE, a window's counts as
arrived. One whose codewords are uncorrectable is not written and is answered POISONED. Bank 16 stands for the fill
port: the oldest tile-row pair that its tile takes is written, each row of 32 valid words. -/
def Obligations.InboundRows : Prop :=
  (∀ (s : State) (port : Port) (pkt : Packet) (l p : Nat), Arrives s port pkt l p → (coreAt s p).upsets.sync = [] →
   pkt.ptype = .wr →
   let k := coreAt s p
   let a := pkt.addr.toNat
   let row := addrByte a / 512
   let poolRow := addrSpace a = 0 ∧ poolSpanOk a 0 = true
   let tileRow := addrSpace a = 1 ∧ offsetHigh a = false ∧ a % 256 = 0 ∧ addrByte a < 65536
   let poison := (received port pkt).poison
   let kept (t : State) : Prop := (coreAt t p).mv.inb = k.mv.inb ∧ MemoryKept s t p ∧ OthersKept s t p
   let entered (t : State) (ring : Nat) : Prop := MemoryKept s t p ∧ OthersKept s t p ∧
     ∃ x, (coreAt t p).mv.inb = k.mv.inb ++ [x] ∧ x.row = row ∧
       x.fs = false ∧ x.data = pkt.data ∧ x.own = false ∧ x.ring = ring ∧ x.entered = cycleOf s l ∧ x.pkt = pkt
   let refused (t : State) : Prop := kept t ∧ t.answer = .uncredited ∧ (coreAt t p).pool.uncreditedSeen = true ∧
     (coreAt t p).pool.rings = k.pool.rings ∧ recordsMade t = (recordsMade s + 1) % 2 ^ 32
   let fenced (t : State) : Prop := kept t ∧ t.answer = .fenced ∧ (coreAt t p).mv.fencedSeen = true ∧
     (coreAt t p).mv.wins = k.mv.wins ∧ recordsMade t = (recordsMade s + 1) % 2 ^ 32
   (pkt.classT = false →
     (tileRow → ∃ t, exec (.wr port pkt) s = .next t ∧ refused t) ∧
     (¬poolRow → ¬tileRow → ∃ t, exec (.wr port pkt) s = .next t ∧ kept t ∧ t.answer = .badValue ∧ t.log = s.log) ∧
     (poolRow → ringOfRow k row = none → ∃ t, exec (.wr port pkt) s = .next t ∧ refused t) ∧
     (∀ n r, poolRow → ringOfRow k row = some (n, r) →
       let passes := r.abandoned = false ∧ r.kind ≠ 0 ∧ isProducer s l r.kind r.die r.core (senderOf pkt) = true ∧
         r.outst ≠ 0 ∧ rowFree r row = true
       (¬passes → ∃ t, exec (.wr port pkt) s = .next t ∧ refused t) ∧
       (passes → foreignFull k = false →
         ∃ t, exec (.wr port pkt) s = .next t ∧ ringAt (coreAt t p) n = { r with outst := r.outst - 1 } ∧
           (poison = false → entered t n) ∧
           (poison = true → kept t ∧ t.answer = .poisoned ∧ (coreAt t p).mv.poisonedSeen = true)) ∧
       (passes → foreignFull k = true → port = .vein → exec (.wr port pkt) s = .next s))) ∧
   (pkt.classT = true →
     ((¬poolRow ∨ agentWin k row pkt.agent = none) → ∃ t, exec (.classTWrite port pkt) s = .next t ∧ fenced t) ∧
     (∀ n x, poolRow → agentWin k row pkt.agent = some (n, x) →
       (x.outst = 0 → ∃ t, exec (.classTWrite port pkt) s = .next t ∧ fenced t) ∧
       (x.outst ≠ 0 → foreignFull k = false →
         ∃ t, exec (.classTWrite port pkt) s = .next t ∧ winAt (coreAt t p) n = { x with outst := x.outst - 1 } ∧
           (poison = false → entered t (16 + n)) ∧
           (poison = true → kept t ∧ t.answer = .poisoned ∧ (coreAt t p).mv.poisonedSeen = true))))) ∧
  (∀ (s : State) (port : Port) (pkt : Packet) (l : Nat), packetCore s pkt = some l →
   let rows := arrivalRows port pkt ++ [(.classTWrite port pkt, pkt.classT), (.rd port pkt, pkt.ptype == .rd && !pkt.classT)]
   (∀ i, (i, false) ∈ rows → exec i s = .next s) ∧
   (∀ i ok, (i, ok) ∈ rows → ¬NextIn s port pkt l → exec i s = .next s) ∧
   (∀ i, (i, true) ∈ rows → NextIn s port pkt l → physOf s l = none →
     ∃ t, exec i s = .next t ∧ (pkt.ptype = .wr ∨ pkt.ptype = .sig ∨ pkt.ptype = .rd → t.answer = .mappedOut) ∧
       ∀ q, MemoryKept s t q) ∧
   (∀ p, NextIn s port pkt l → physOf s l = some p → (port = .vein ∨ ∃ errs, port = .sump p errs) →
     let inj (t : State) : List InjPkt := (coreAt t p).mv.inj ++ (coreAt t p).mv.injS
     (∀ i, (i, true) ∈ rows → isUnsettled s l = true → (pkt.ptype = .wr ∨ pkt.ptype = .sig) →
       ∃ t x, exec i s = .next t ∧ x ∈ inj t ∧ x.pkt = bounceOf s l pkt ∧ MemoryKept s t p ∧
         (coreAt t p).mv.inb = (coreAt s p).mv.inb ∧ OthersKept s t p) ∧
     (∀ i, (i, true) ∈ arrivalRows port pkt → isUnsettled s l = false → inReset s l = true →
       (pkt.ptype = .sig → respFull (coreAt s p) = false) →
       ∃ t x, exec i s = .next t ∧ t.answer = .absorbed ∧ x ∈ inj t ∧ x.pkt = ackOf s l (received port pkt) .absorbed ∧
         (coreAt t p).pool = (coreAt s p).pool ∧ (coreAt t p).sync = (coreAt s p).sync ∧ MemoryKept s t p ∧
         (coreAt t p).mv.inb = (coreAt s p).mv.inb ∧ OthersKept s t p) ∧
     (pkt.ptype = .rd → pkt.classT = false →
       ∃ t, exec (.rd port pkt) s = .next t ∧ t.answer = (if rdAddrOk pkt.addr.toNat then .noAccess else .badValue) ∧
         (coreAt t p).pool = (coreAt s p).pool ∧ MemoryKept s t p ∧ OthersKept s t p) ∧
     (pkt.classT = true → pkt.ptype ≠ .wr → (pkt.ptype = .sig → isUnsettled s l = false) →
       ∃ t, exec (.classTWrite port pkt) s = .next t ∧ t.answer = .fenced ∧ (coreAt t p).mv.fencedSeen = true ∧
         MemoryKept s t p ∧ OthersKept s t p))) ∧
  (∀ (s : State) (l p b : Nat), liveCore s l = some p → b < 17 →
   let k := coreAt s p
   let now := cycleOf s l
   let kept (t : State) : Prop := (∀ r, rowAt (coreAt t p) r = rowAt k r) ∧ OthersKept s t p
   (b < 16 → oldestInb k b = none → exec (.inboundCommit l b) s = .next s) ∧
   (∀ x, b < 16 → oldestInb k b = some x →
     let free := bankOff k b (reservedFrom k (max now (x.entered + 1)) b) = false ∧ fetchWaits k now b = false ∧
       ∀ m, m ∈ k.pool.marks → m.row = x.row → m.write = false →
         markSeen (reservedFrom k (max now (x.entered + 1)) b) m = false
     (¬free → exec (.inboundCommit l b) s = .next s) ∧
     (free → badIn x.errs = false →
       ∃ t, exec (.inboundCommit l b) s = .next t ∧ rowAt (coreAt t p) x.row = fixRow x.data x.errs ∧
         (∀ r, r ≠ x.row → rowAt (coreAt t p) r = rowAt k r) ∧ (∀ u, trowAt (coreAt t p) u = trowAt k u) ∧
         OthersKept s t p ∧
         (x.own = false → t.answer = .done ∧ (coreAt t p).mv.inb = k.mv.inb.erase x) ∧
         (x.own = false → (x.ring < 16 ∨ 24 ≤ x.ring) → (coreAt t p).sync = k.sync) ∧
         (x.own = false → 16 ≤ x.ring → x.ring < 24 → Quiet k →
           let w := winAt k (x.ring - 16)
           (winAt (coreAt t p) (x.ring - 16)).arrived = (w.arrived + 1) % 2 ^ 32 ∧
           (w.flagEn = true → ((w.arrived + 1) % 2 ^ 32) % w.thresh = 0 → w.flag ∈ (coreAt t p).sync.flags))) ∧
     (free → badIn x.errs = true → x.own = false →
       ∃ t, exec (.inboundCommit l b) s = .next t ∧ t.answer = .poisoned ∧ (coreAt t p).mv.poisonedSeen = true ∧
         (coreAt t p).mv.inb = k.mv.inb.erase x ∧ recordsMade t = (recordsMade s + 1) % 2 ^ 32 ∧ kept t ∧
         ∀ u, trowAt (coreAt t p) u = trowAt k u)) ∧
   (∀ x, b = 16 → oldestTrow k now = some x → badIn x.errs = false →
     let half (n : Nat) : Nat := fieldN (fixRow x.data x.errs).data.toNat (2048 * n) 2048
     ∃ t, exec (.inboundCommit l b) s = .next t ∧ kept t ∧
       (∀ n, n < 2 → trowAt (coreAt t p) (x.row + n) = (if rowWordsOk (half n) 32 then storeWords (half n) else trowAt k (x.row + n))) ∧
       (∀ u, u ≠ x.row → u ≠ x.row + 1 → trowAt (coreAt t p) u = trowAt k u)))

/-- POOL_BANK_POWER_DOWN (R221, R247, R249) and POOL_BANK_READY (R249), in a core held in reset too: a requested bank
that nothing can still reach goes off at its reserved slot and reads as zeros, and no other does; one that powers up
accepts accesses 256 cycles after the write, and withheld credits are then granted. Rows of other banks stay. -/
def Obligations.BankPowerEvents : Prop :=
  ∀ (s : State) (l p b : Nat), physOf s l = some p → gateOn s p = true → (cavAt s (cavOf l)).running = true → b < 16 →
  let k := coreAt s p
  let c := nextPhase (cycleOf s l) (reservedPhase b) 32
  let unreached :=
    (∀ n, n < 16 → (ringAt k n).enable = true → (ringAt k n).outst = 0 ∨
      overlapsBank (ringAt k n).base (ringAt k n).size b = false) ∧
    (∀ w, w < 8 → (winAt k w).opened = true → (winAt k w).outst = 0 ∨
      overlapsBank (winAt k w).base (winAt k w).size b = false) ∧
    (∀ m, m ∈ k.pool.marks → bankOf m.row = b → markSeen c m = false) ∧
    (∀ x, x ∈ k.mv.inb → x.fs = true ∨ bankOf x.row ≠ b) ∧ (∀ r, r ∈ k.pool.wb → bankOf r ≠ b)
  (b ∈ k.pool.offReq → b ∉ k.pool.off → unreached →
    ∃ t, exec (.poolBankPowerDown l b) s = .next t ∧ bankOff (coreAt t p) b c = true ∧
      (∀ n, n < c → bankOff (coreAt t p) b n = false) ∧ (∀ r, bankOf r = b → rowAt (coreAt t p) r = Row.zero) ∧
      (∀ r, bankOf r ≠ b → rowAt (coreAt t p) r = rowAt k r) ∧ OthersKept s t p) ∧
  ((b ∉ k.pool.offReq ∨ b ∈ k.pool.off ∨ ¬unreached) → exec (.poolBankPowerDown l b) s = .next s) ∧
  (∀ u, k.pool.ups.find? (fun x => x.1 == b) = some u →
    (cycleOf s l < u.2 → exec (.poolBankReady l b) s = .next s) ∧
    (u.2 ≤ cycleOf s l → ∃ t, exec (.poolBankReady l b) s = .next t ∧ (∀ n, bankOff (coreAt t p) b n = false) ∧
      (∀ n, n < 16 → 0 < (ringAt k n).withheld → (ringAt k n).kind ≠ 0 → (ringAt k n).abandoned = false →
        regionOff (coreAt t p) (ringAt k n).base (ringAt k n).size = false →
        (ringAt (coreAt t p) n).outst = (ringAt k n).outst + (ringAt k n).withheld ∧ (ringAt (coreAt t p) n).withheld = 0) ∧
      MemoryKept s t p ∧ OthersKept s t p)) ∧
  (k.pool.ups.find? (fun x => x.1 == b) = none → exec (.poolBankReady l b) s = .next s)

/-- MOVE_PRELUDE (R245, R263, R269): a decoded gather or scatter whose index row is produced and reads soundly takes
its entries from it; an entry out of range retires the command with BAD_VALUE. While the index row is not produced it
waits; if that is for good, its ring being abandoned, it ends ABANDONED. No row changes. MOVE_ISSUE_TIMEOUT (R269,
R271): a decoded move command that has not issued within its limit is retired with TIMEOUT, and a record names the
condition that holds it; one within it stays. -/
def Obligations.PreludeAndIssueTimeout : Prop :=
  (∀ (s : State) (l p q e : Nat) (d : Decoded) (m : MoveCmd), MayIssue s l p → q < 4 →
   (queueAt (coreAt s p) q).head = some d → d.cmd = .move m → (m.gather = true ∨ m.scatter = true) → d.idx = none →
   e = nextPhase (max (cycleOf s l) d.since) 3 4 →
   (produced (coreAt s p) e m.idxRow = true → Clear (coreAt s p) [{ row := m.idxRow, cycle := e, write := false }] →
     (∀ es, preludeEntries s l m (rowAt (coreAt s p) m.idxRow) = some es →
       ∃ t, exec (.movePrelude l q []) s = .next t ∧ (queueAt (coreAt t p) q).head = some { d with idx := some es } ∧
         MemoryKept s t p ∧ OthersKept s t p ∧ t.log = s.log) ∧
     (preludeEntries s l m (rowAt (coreAt s p) m.idxRow) = none →
       ∃ t, exec (.movePrelude l q []) s = .next t ∧ t.answer = .badValue ∧ (queueAt (coreAt t p) q).head = none ∧
         MemoryKept s t p ∧ OthersKept s t p)) ∧
   (produced (coreAt s p) e m.idxRow = false → readAbandoned (coreAt s p) m.idxRow = true →
     ∃ t, exec (.movePrelude l q []) s = .next t ∧ t.answer = .abandoned ∧ (queueAt (coreAt t p) q).head = none ∧
       MemoryKept s t p ∧ OthersKept s t p) ∧
   (produced (coreAt s p) e m.idxRow = false → readAbandoned (coreAt s p) m.idxRow = false →
     exec (.movePrelude l q []) s = .next s)) ∧
  (∀ (s : State) (l p q : Nat) (d : Decoded), liveCore s l = some p → (q = 2 ∨ q = 3) →
   (queueAt (coreAt s p) q).head = some d →
   (cycleOf s l ≤ d.since + d.limit → exec (.moveIssueTimeout l q) s = .next s) ∧
   (d.since + d.limit < cycleOf s l → ∃ t r, exec (.moveIssueTimeout l q) s = .next t ∧ t.answer = .timeout ∧
     (queueAt (coreAt t p) q).head = none ∧ (coreAt t p).mv.timeoutSeen = true ∧ r ∈ t.log.fresh ∧ r.cls = 6 ∧
     r.status = Status.timeout.code ∧ r.core = l ∧ r.body = [(4, d.slot), (1, blockOf s p l q (cycleOf s l) d)] ∧
     MemoryKept s t p ∧ OthersKept s t p))

/-- MOVE_ISSUE and DEEP_READ_ISSUE (R245, R269 to R272, R285, R385, R386): within its limit an issued command leaves
the head with a run of its rows under the next tag; a GRANT instead grants its window's credits, or has them withheld,
and ends DONE; one on an abandoned ring ends ABANDONED; a command the Deep cap alone keeps back stays and sets
cap_hit. What else holds back a command that the scoreboard does not begins its wait of R234 anew (log 61). No Pool or
tile row changes, unless an access meets one planned earlier (R227). MOVE's issue (R258, R261, R262, R268, R270): with
no read failing, each destination row leaves with the row that its mode makes of the source rows: one of the core's
own, or in its Flowstone, into the inbound buffer, any other as a WR under the command's tag, or with DEST_DOWN where
it cannot be sent. The SIG of a SIGNAL (R265, R272) leaves one cycle after its issue, and waits for its response from
then on. -/
def Obligations.MoveCommandsIssue : Prop :=
  (∀ (s : State) (l p e : Nat) (d : Decoded), MayIssue s l p → (coreAt s p).upsets.sync = [] →
   let k := coreAt s p
   let kept (t : State) : Prop := MemoryKept s t p ∧ OthersKept s t p
   let tagged (t : State) : Prop := (coreAt t p).mv.nextTag = (k.mv.nextTag % 256 + 1) % 256
   ((queueAt k 3).head = some d → ((∃ m, d.cmd = .move m) ∨ (∃ v a, d.cmd = .signal v a) ∨ ∃ w n, d.cmd = .grant w n) →
     e = nextPhase (max (cycleOf s l) d.since) 3 4 →
     (cmdVerdict s p l e d = .abandoned → ∃ t, exec (.moveIssue l []) s = .next t ∧ t.answer = .abandoned ∧
       (queueAt (coreAt t p) 3).head = none ∧ kept t) ∧
     (cmdVerdict s p l e d ≠ .abandoned → d.since + d.limit < e → exec (.moveIssue l []) s = .next s) ∧
     (cmdVerdict s p l e d ≠ .abandoned → e ≤ d.since + d.limit →
       (issueBlock s p l e d = none → (∀ w n, d.cmd ≠ .grant w n) →
         ∃ t, exec (.moveIssue l []) s = .next t ∧ (queueAt (coreAt t p) 3).head = none ∧ tagged t ∧
           (k.pool.plan = [] → kept t)) ∧
       (∀ w n, issueBlock s p l e d = none → d.cmd = .grant w n → 0 < n →
         let x := winAt k w
         let held := regionOff k x.base x.size
         ∃ t, exec (.moveIssue l []) s = .next t ∧ t.answer = .done ∧ (queueAt (coreAt t p) 3).head = none ∧ kept t ∧
           winAt (coreAt t p) w = { x with outst := if held then x.outst else x.outst + n,
                                           withheld := if held then x.withheld + n else x.withheld }) ∧
       (issueBlock s p l e d = some 8 → exec (.moveIssue l []) s = .next (noteFree (updCore s p fun k =>
         setAllot k 3 { allotAt k 3 with capHit := true }) p l 3 d)) ∧
       (∀ n, issueBlock s p l e d = some n → n ≠ 8 →
         exec (.moveIssue l []) s = .next (if cmdVerdict s p l e d = .go then noteFree s p l 3 d else s)))) ∧
   (∀ m, (queueAt k 2).head = some d → d.cmd = .move m → e = max (cycleOf s l) d.since →
     let src (q : Nat) : Nat := if m.gather then (d.idx.getD []).getD q 0 else m.src + 512 * q
     (cmdVerdict s p l e d = .abandoned → ∃ t, exec (.deepReadIssue l) s = .next t ∧ t.answer = .abandoned ∧
       (queueAt (coreAt t p) 2).head = none ∧ kept t) ∧
     (∀ row w, cmdVerdict s p l e d = .wait row w → exec (.deepReadIssue l) s = .next s) ∧
     (cmdVerdict s p l e d = .go → d.since + d.limit < e → exec (.deepReadIssue l) s = .next s) ∧
     (cmdVerdict s p l e d = .go → e ≤ d.since + d.limit →
       (deepBlock s p l e d m = none →
         ∃ t, exec (.deepReadIssue l) s = .next t ∧ (queueAt (coreAt t p) 2).head = none ∧ tagged t ∧ kept t ∧
           (allotAt (coreAt t p) 2).issued = (allotAt k 2).issued + capCharge s p (m.n + 1) ∧
           (∀ q, q ≤ m.n → rowUnsent s p (src q) = false → goesDown s (src q) = true → src q < 2 ^ 64 →
             ∃ x, x ∈ (coreAt t p).mv.inj ++ (coreAt t p).mv.injS ∧ x.pkt.ptype = .deepRd ∧ x.pkt.addr.toNat = src q ∧
               x.pkt.tag = k.mv.nextTag % 256 ∧ x.pkt.row = q ∧ x.src = 2 ∧ x.ready = e + 1)) ∧
       (deepBlock s p l e d m = some 8 → exec (.deepReadIssue l) s = .next (noteFree (updCore s p fun k =>
         setAllot k 2 { allotAt k 2 with capHit := true }) p l 2 d)) ∧
       (∀ n, deepBlock s p l e d m = some n → n ≠ 8 → exec (.deepReadIssue l) s = .next (noteFree s p l 2 d))))) ∧
  ((∀ (s : State) (l p e : Nat) (d : Decoded) (m : MoveCmd), MayIssue s l p → (coreAt s p).upsets.sync = [] →
     (queueAt (coreAt s p) 3).head = some d → d.cmd = .move m → m.op = 1 → e = nextPhase (max (cycleOf s l) d.since) 3 4 →
     cmdVerdict s p l e d ≠ .abandoned → e ≤ d.since + d.limit → issueBlock s p l e d = none →
     Clear (coreAt s p) ((moveReads m d.idx).mapIdx fun i r => { row := r, cycle := e + 4 * i, write := false }) →
     let k := coreAt s p
     let tag := k.mv.nextTag % 256
     ∃ t, exec (.moveIssue l []) s = .next t ∧ (queueAt (coreAt t p) 3).head = none ∧ MemoryKept s t p ∧ OthersKept s t p ∧
       ∀ (q : Nat) o a, (moveRows m ((moveReads m d.idx).map (rowAt k)))[q]? = some o → (moveDsts m d.idx)[q]? = some a →
         q ≤ m.n → a < 2 ^ 64 →
         ((isOwnPool s l a = true ∨ addrSpace a = 1) → ∃ x, x ∈ (coreAt t p).mv.inb ∧ x.own = true ∧ x.q = 3 ∧ x.tag = tag ∧
           x.pkt.row = q ∧ x.data = o.row ∧ x.fs = (addrSpace a == 1) ∧
           x.row = (if addrSpace a = 1 then addrByte a / 256 else addrByte a / 512)) ∧
         (isOwnPool s l a = false → addrSpace a ≠ 1 → rowUnsent s p a = false →
           ∃ x, x ∈ (coreAt t p).mv.outb ∧ x.tag = tag ∧ x.row = q ∧ x.pkt.ptype = .wr ∧ x.pkt.addr.toNat = a ∧
             x.pkt.data = o.row ∧ (x.held = false → ∃ y, y ∈ (coreAt t p).mv.inj ++ (coreAt t p).mv.injS ∧ y.pkt = x.pkt ∧ y.src = 3))) ∧
   (∀ (s : State) (l p e value dst tag : Nat) (d : Decoded), MayIssue s l p →
     (queueAt (coreAt s p) 3).head = some d → d.cmd = .signal value dst → e = nextPhase (max (cycleOf s l) d.since) 3 4 →
     cmdVerdict s p l e d ≠ .abandoned → e ≤ d.since + d.limit → issueBlock s p l e d = none →
     tag = (coreAt s p).mv.nextTag % 256 → addrDie dst = s.boot.dieId → dst < 2 ^ 64 → addrSpace dst = 2 →
     (galAt s (galOf (addrCore dst))).tableMask = [] → (∀ r, r ∈ (coreAt s p).mv.runs → r.tag ≠ tag) →
     ∃ t x r, exec (.moveIssue l []) s = .next t ∧ x ∈ (coreAt t p).mv.inj ∧ x.pkt.ptype = .sig ∧ x.pkt.addr.toNat = dst ∧
       x.pkt.word = BitVec.ofNat 64 value ∧ x.pkt.tag = tag ∧ x.src = 3 ∧ x.ready = e + 1 ∧
       findRun (coreAt t p) tag 3 = some r ∧ r.rows = 1 ∧ r.slot = d.slot ∧ r.resp = [] ∧
       { cycle := e + 1, act := .rowSent 3 tag 0 } ∈ (coreAt t p).late ∧ MemoryKept s t p ∧ OthersKept s t p))

/-- ACK, DEEP_DATA and ROW_TIMEOUT (R266, R271, R272, R280): the final response of the last row of a run ends it with
the status of its lowest-numbered row that did not give DONE, an earlier one is kept with its run, and one that no row
waits for is recorded; a Deep row waits in the inbound buffer, a poisoned one gives POISONED; a row without a response
by its deadline gives TIMEOUT, and none does before. No Pool or tile row changes. -/
def Obligations.ResponseRows : Prop :=
  ∀ (s : State) (port : Port) (pkt : Packet) (l p : Nat),
  let k := coreAt s p
  let kept (t : State) : Prop := MemoryKept s t p ∧ OthersKept s t p
  let overran (r : MoveRun) : Bool := k.track.any fun t => t.id == r.track && t.overran
  (∀ st, Arrives s port pkt l p → pkt.ptype = .ack → pkt.classT = false → k.op.busy = false →
    findRun k pkt.tag 2 = none → statusOf (pkt.word.toNat % 256) = st →
    (findRun k pkt.tag 3 = none → ∃ t, exec (.ack port pkt) s = .next t ∧ kept t ∧
      recordsMade t = (recordsMade s + 1) % 2 ^ 32) ∧
    (∀ r, findRun k pkt.tag 3 = some r → pkt.row < r.rows → respOf r pkt.row = none →
      ((∀ i, i < r.rows → i ≠ pkt.row → respOf r i = some 0) → r.poisoned = false →
        ∃ t, exec (.ack port pkt) s = .next t ∧ t.answer = (if overran r = true ∧ st = .done then .overrun else st) ∧
          findRun (coreAt t p) pkt.tag 3 = none ∧ kept t) ∧
      (∀ i, i < r.rows → i ≠ pkt.row → respOf r i = none →
        ∃ t r', exec (.ack port pkt) s = .next t ∧ findRun (coreAt t p) pkt.tag 3 = some r' ∧ respOf r' pkt.row = some st.code ∧
          r'.rows = r.rows ∧ kept t))) ∧
  (∀ r, Arrives s port pkt l p → pkt.ptype = .deepData → pkt.classT = false → k.op.busy = false →
    findRun k pkt.tag 2 = some r → pkt.row < r.rows → respOf r pkt.row = none →
    (∀ e, e ∈ r.image → e.1 ≠ pkt.row) → (∀ x, x ∈ k.mv.inb → x.own = true → x.q = 2 → x.tag = pkt.tag → x.pkt.row ≠ pkt.row) →
    ((received port pkt).poison = false → pkt.word.toNat % 256 = 0 → r.whole = false →
      ∃ t x, exec (.deepData port pkt) s = .next t ∧ (coreAt t p).mv.inb = k.mv.inb ++ [x] ∧ x.fs = r.dstFs ∧
        x.row = (if r.dstFs then r.dst + 2 * pkt.row else r.dst + pkt.row) ∧ x.data = pkt.data ∧ x.own = true ∧ x.tag = pkt.tag ∧
        kept t) ∧
    ((received port pkt).poison = true → r.whole = false → (∃ i, i < r.rows ∧ i ≠ pkt.row ∧ respOf r i = none) →
      ∃ t r', exec (.deepData port pkt) s = .next t ∧ (coreAt t p).mv.inb = k.mv.inb ∧ (coreAt t p).mv.poisonedSeen = true ∧
        findRun (coreAt t p) pkt.tag 2 = some r' ∧ respOf r' pkt.row = some Status.poisoned.code ∧ kept t)) ∧
  (∀ tag row q r, liveCore s l = some p → Current k (cycleOf s l) → q = (if tag < 256 then 3 else 2) →
    findRun k (tag % 256) q = some r →
    (∀ dl, row < r.rows → Store.get 0 r.deadline row = dl + 1 → dl < cycleOf s l → respOf r row = none →
      dataWaits k r row = false → (∀ i, i < r.rows → i ≠ row → respOf r i = some 0) →
      ∃ t, exec (.rowTimeout l tag row) s = .next t ∧ t.answer = .timeout ∧ (coreAt t p).mv.timeoutSeen = true ∧
        findRun (coreAt t p) (tag % 256) q = none ∧ kept t) ∧
    ((cycleOf s l < Store.get 0 r.deadline row ∨ Store.get 0 r.deadline row = 0 ∨ (respOf r row).isSome = true ∨
      dataWaits k r row = true) → exec (.rowTimeout l tag row) s = .next s))

/-- CREDIT_GRANT, REVOKE and BOUNCE (R273, R283) and UNSETTLED_MASK_BROADCAST (R282): a grant adds its count to its
entry or makes one while 16 are not in use, else it is dropped with credit_full and a record; a revoke removes its
entry; a bounced row is recorded, and is sent again under the table's epoch, or held until the table allows that; a
broadcast brings the interfaces' table to the station's epoch and mask. -/
def Obligations.CreditAndBounceRows : Prop :=
  ∀ (s : State) (port : Port) (pkt : Packet) (l p : Nat),
  (Arrives s port pkt l p → pkt.classT = false → (coreAt s p).upsets.sync = [] →
    let k := coreAt s p
    let mine (x : Cred) : Bool := x.die == pkt.srcDie && x.core == pkt.srcCore && x.ring == pkt.ring
    let kept (t : State) : Prop := MemoryKept s t p ∧ OthersKept s t p
    (pkt.ptype = .grant → (∀ x, x ∈ k.mv.creds → mine x = false) →
      (k.mv.creds.length < 16 →
        ∃ t, exec (.creditGrant port pkt) s = .next t ∧ kept t ∧ (coreAt t p).mv.creds = k.mv.creds ++
          [{ die := pkt.srcDie, core := pkt.srcCore, ring := pkt.ring, base := pkt.base, size := pkt.size, count := pkt.count }]) ∧
      (16 ≤ k.mv.creds.length →
        ∃ t, exec (.creditGrant port pkt) s = .next t ∧ kept t ∧ (coreAt t p).mv.creds = k.mv.creds ∧
          (coreAt t p).mv.credFull = true ∧ recordsMade t = (recordsMade s + 1) % 2 ^ 32)) ∧
    (∀ i x, pkt.ptype = .grant → findIdx mine k.mv.creds = some (i, x) →
      ∃ t, exec (.creditGrant port pkt) s = .next t ∧ kept t ∧
        (coreAt t p).mv.creds = listPut k.mv.creds i { x with count := x.count + pkt.count }) ∧
    (pkt.ptype = .revoke → ∃ t, exec (.revoke port pkt) s = .next t ∧ kept t ∧
      ∀ x, x ∈ (coreAt t p).mv.creds ↔ x ∈ k.mv.creds ∧ mine x = false) ∧
    (pkt.ptype = .bounce → Current k (cycleOf s l) →
      let again (e : OutEntry) : Bool := destSettled s (packetDest e.pkt).1 (packetDest e.pkt).2 &&
        ((packetDest e.pkt).1 != s.boot.dieId || pkt.epoch != stampEpoch s (packetDest e.pkt).1 (packetDest e.pkt).2)
      ∃ t, exec (.bounce port pkt) s = .next t ∧ kept t ∧ (coreAt t p).mv.bouncedSeen = true ∧
        recordsMade t = (recordsMade s + 1) % 2 ^ 32 ∧
        (∀ e, e ∈ k.mv.outb → e.tag = pkt.tag → e.row = pkt.row →
          (again e = true → ∃ y, y ∈ (coreAt t p).mv.inj ++ (coreAt t p).mv.injS ∧ y.src = 3 ∧
            y.pkt = { e.pkt with epoch := stampEpoch s (packetDest e.pkt).1 (packetDest e.pkt).2 }) ∧
          (again e = false → ∃ x, x ∈ (coreAt t p).mv.outb ∧ x.tag = e.tag ∧ x.row = e.row ∧ x.pkt = e.pkt ∧ x.held = true)))) ∧
  (∀ g, ∃ t, exec (.unsettledMaskBroadcast g) s = .next t ∧ (galAt t g).tableEpoch = (galAt s g).epoch ∧
    (galAt t g).tableMask = (galAt s g).unsettled ∧ (galAt t g).unsettled = (galAt s g).unsettled ∧ ∀ i, MemoryKept s t i)

/-- INJECT_FLIT (R280, R283, R387, R409, R410, R506): of the packets that may leave an injection point the one R387
picks sends a flit; the last flit of a packet leaves the point, into the crossbar's buffer or down the bundle in its
flits. On the way to the crossbar corrected codewords are counted, a data flit that cannot be corrected marks its row,
and a lost header or sideband discards the packet, with a record. A bundle with nothing ready sends a LINK flit, a
crossbar port nothing; a MOVE's row lost in its buffer is not sent. The layouts of flits (R279, R407 to R409, R413): a
LINK flit reads as one, with its counts, and no header flit of a packet of R279 does; each wire of each UI carries one
bit of one codeword, which names its lane; an ident word that its complement follows is read back. -/
def Obligations.InjectionSendsOneFlit : Prop :=
  (∀ (s : State) (core side p : Nat) (err : FlitErr), injCore s core = some p → side ≤ 1 →
   (side = 0 → (cavAt s (p / 68 / 8)).running = true) → (side = 1 → (bunAt s p).state = 2) →
   let g := p / 68
   let room (x : InjPkt) : Bool := decide (x.ready ≤ aNow s (g / 8)) && (decide (0 < x.sent) ||
     (if side = 0 then bufferRoom s (32 + g) (p % 68) x.pkt else bundleRoom (bunAt s p) x.pkt))
   let pick := pickInj (coreAt s p) side (galAt s g).ageThresh
     ((injHeads s (injOf (coreAt s p) side)).filter fun x => room x.2)
   let lostRow (x : InjPkt) : Bool := badIn x.errs && x.src == 3 && x.pkt.ptype == .wr
   (pick = none → exec (.injectFlit core side err) s = .next (if side = 0 then s else
     { s with out := s.out ++ [.link p (linkFlit (linkStateCode s) (bunAt s p).freed)] })) ∧
   (∀ i x, pick = some (i, x) → lostRow x = true →
     ∃ t r, exec (.injectFlit core side err) s = .next t ∧ t.out = s.out ∧ t.net = s.net ∧ r ∈ t.log.fresh ∧ r.cls = 11 ∧
       (injOf (coreAt t p) side).length + 1 = (injOf (coreAt s p) side).length ∧ MemoryKept s t p ∧ OthersKept s t p) ∧
   (∀ i x, pick = some (i, x) → lostRow x = false →
     let y := fromBuffer x
     let lost := err.parity || ((x.sent == 0) && lostWord err.words)
     let drops := (side == 0) && lost && !x.bad
     let bad := x.bad || drops
     let pkt : Packet := { y.pkt with
       poison := y.pkt.poison || ((side == 0) && !drops && (x.sent != 0) && lostWord err.words) }
     ∃ t, exec (.injectFlit core side err) s = .next t ∧ MemoryKept s t p ∧ OthersKept s t p ∧
       (side = 0 → (galAt t g).veinCorr = (if fixedWords err.words = 0 then (galAt s g).veinCorr
           else min 0xFFFF ((galAt s g).veinCorr + fixedWords err.words)) ∧
         (galAt t g).veinDisc = (if drops then min 0xFF ((galAt s g).veinDisc + 1) else (galAt s g).veinDisc) ∧
         recordsMade t = (recordsMade s + b2n drops) % 2 ^ 32) ∧
       (side = 1 → (bunAt t p).sentFlits =
         listPut (bunAt s p).sentFlits x.ch (((bunAt s p).sentFlits.getD x.ch 0 + 1) % 2 ^ 16)) ∧
       (packetFlits x.pkt ≤ x.sent + 1 → (injOf (coreAt t p) side).length + 1 = (injOf (coreAt s p) side).length ∧
         (side = 0 → bad = true → t.net.pkts = s.net.pkts) ∧
         (side = 0 → bad = false → ∃ z, t.net.pkts = s.net.pkts ++ [z] ∧ z.pkt = pkt ∧ z.node = 32 + g ∧ z.input = p % 68 ∧
           z.sent = 0) ∧
         (side = 1 → t.out = s.out ++ [.packet p pkt (flitsOf pkt)])) ∧
       (x.sent + 1 < packetFlits x.pkt → t.net.pkts = s.net.pkts ∧ t.out = s.out ∧
         (injOf (coreAt t p) side).length = (injOf (coreAt s p) side).length ∧
         ∃ z, (injOf (coreAt t p) side)[i]? = some z ∧ z.pkt = pkt ∧ z.bad = bad ∧ z.sent = x.sent + 1))) ∧
  ((∀ st freed, isLink (linkFlit st freed) = true ∧ linkDie (linkFlit st freed) = none ∧
     (freed.length = 4 → (∀ n, n ∈ freed → n < 2 ^ 16) → linkCounts (linkFlit st freed) = freed)) ∧
   (∀ p : Packet, (∀ c, p.ptype ≠ .other c) → isLink (headerFlit p) = false ∧
     fieldN (headerFlit p).toNat 0 64 = p.addr.toNat ∧ fieldN (headerFlit p).toNat 100 4 = ptypeCode p.ptype ∧
     (flitsOf p).length = packetFlits p) ∧
   (∀ u l, u < 9 → l < 64 → (wireAt u l).1 < 8 ∧ (wireAt u l).2 < 72 ∧ (wireAt u l).2 / 8 = u ∧
     laneOf (wireAt u l).1 (wireAt u l).2 = l) ∧
   (∀ n j, n < 18 → j < 32 → (halfWire n j).1 < 9 ∧ (halfWire n j).2 < 64) ∧
   (∀ half pos dir, identRead (identSent (identWord half pos dir)) = some (identWord half pos dir)))

/-- ROUTER_ARBITRATE (R280, R389 to R392): the head that R389 picks at an output sends a flit there and the channel is
kept until its tail; a tail enters the next buffer on the packet's route, or the interface of the core it names.
Corrected codewords are counted where the flit arrives, a data flit that cannot be corrected marks its row, and a
packet whose header or sideband is lost goes no further, with one record. With no head ready nothing changes.
HEAD_BOOST (R392) and WATCHDOG_STALL (R398, R399, R419): a waiting head as old as the Gallery's threshold is boosted;
a head of a router, a crossbar or an injection point that has not moved for the watchdog's limit marks its input stuck
and is reported once, but not at a bundle that retrains. No packet moves. -/
def Obligations.NetworkEvents : Prop :=
  (∀ (s : State) (node output : Nat) (err : FlitErr),
   let pick := pickOut s node output
     ((nodeHeads s.net.pkts [] 0 node).filter fun x => routeOut s node x.2.pkt == output && eligible s node output x.2)
   let g := (flitEnd node output).1
   (pick = none → exec (.routerArbitrate node output err) s = .next s) ∧
   (∀ i x, pick = some (i, x) →
     let drops := (err.parity || ((x.sent == 0) && lostWord err.words)) && !x.bad
     let bad := x.bad || drops
     let pkt : Packet := { x.pkt with poison := x.pkt.poison || (!drops && (x.sent != 0) && lostWord err.words) }
     let counted (t : State) : Prop := recordsMade t = (recordsMade s + b2n drops) % 2 ^ 32 ∧
       (galAt t g).veinCorr = (if fixedWords err.words = 0 then (galAt s g).veinCorr
         else min 0xFFFF ((galAt s g).veinCorr + fixedWords err.words)) ∧
       (galAt t g).veinDisc = (if drops then min 0xFF ((galAt s g).veinDisc + 1) else (galAt s g).veinDisc)
     let unlocked (t : State) : Prop := ∀ k, k ∈ t.net.locks → ¬ (k.node = node ∧ k.output = output ∧ k.ch = x.ch)
     (x.sent + 1 < packetFlits x.pkt →
       ∃ t, exec (.routerArbitrate node output err) s = .next t ∧ counted t ∧ t.net.pkts.length = s.net.pkts.length ∧
         (∃ y, t.net.pkts[i]? = some y ∧ y.pkt = pkt ∧ y.bad = bad ∧ y.sent = x.sent + 1 ∧ y.age = 0 ∧ y.boosted = false) ∧
         (∃ k, k ∈ t.net.locks ∧ k.node = node ∧ k.output = output ∧ k.ch = x.ch ∧ k.input = x.input) ∧ t.cores = s.cores) ∧
     (packetFlits x.pkt ≤ x.sent + 1 → bad = true →
       ∃ t, exec (.routerArbitrate node output err) s = .next t ∧ counted t ∧ t.net.pkts.length + 1 = s.net.pkts.length ∧
         unlocked t ∧ t.cores = s.cores) ∧
     (∀ n j, packetFlits x.pkt ≤ x.sent + 1 → bad = false → nextHop node output = some (n, j) →
       ∃ t, exec (.routerArbitrate node output err) s = .next t ∧ counted t ∧ t.net.pkts.length = s.net.pkts.length ∧
         (∃ y, y ∈ t.net.pkts ∧ y.pkt = pkt ∧ y.node = n ∧ y.input = j ∧ y.sent = 0 ∧ y.bad = false) ∧ unlocked t ∧
         t.cores = s.cores) ∧
     (∀ p, packetFlits x.pkt ≤ x.sent + 1 → bad = false → nextHop node output = none →
       physOf s (packetDest x.pkt).2 = some p →
       ∃ t, exec (.routerArbitrate node output err) s = .next t ∧ counted t ∧ t.net.pkts.length + 1 = s.net.pkts.length ∧
         (coreAt t p).mv.delivered = (coreAt s p).mv.delivered ++ [pkt] ∧ unlocked t ∧ MemoryKept s t p ∧ OthersKept s t p))) ∧
  ((∀ (s : State) (node input ch i : Nat) (x : NetPkt), node < 64 → headAt s node input ch = some (i, x) →
     let g := galAt s (node % 32)
     let stuck (y : Gal) : List Nat := if node < 32 then y.stuckIn else y.xbarStuck
     (x.boosted = false → x.sent = 0 → g.ageThresh ≤ x.age →
       exec (.headBoost node input ch) s =
         .next { s with net := { s.net with pkts := listPut s.net.pkts i { x with boosted := true } } }) ∧
     ((x.boosted = true ∨ 0 < x.sent ∨ x.age < g.ageThresh) → exec (.headBoost node input ch) s = .next s) ∧
     (4 * input + ch ∉ stuck g → x.moved + 256 * g.wdogUnits ≤ fNow s (node % 32) →
       ∃ t r, exec (.watchdogStall node input ch) s = .next t ∧ (galAt t (node % 32)).wdogSeen = true ∧
         stuck (galAt t (node % 32)) = setInsert (stuck g) (4 * input + ch) ∧
         r ∈ t.log.fresh ∧ r.cls = 6 ∧ r.reported = true ∧
         recordsMade t = (recordsMade s + 1) % 2 ^ 32 ∧ t.net = s.net ∧ t.cores = s.cores) ∧
     ((4 * input + ch ∈ stuck g ∨ fNow s (node % 32) < x.moved + 256 * g.wdogUnits) →
       exec (.watchdogStall node input ch) s = .next s)) ∧
   (∀ (s : State) (core side ch p i input : Nat) (x : InjPkt), injCore s core = some p → side < 2 →
     findIdx (fun (y : InjPkt) => y.ch == ch) (injOf (coreAt s p) side) = some (i, x) →
     let k := coreAt s p
     let stalls := side * 4 + ch ∉ k.stuck ∧ ¬(side = 1 ∧ (bunAt s p).state = 3) ∧
       x.moved + 256 * (galAt s (p / 68)).wdogUnits ≤ fNow s (p / 68)
     (stalls → ∃ t r, exec (.watchdogStall (64 + 2 * core + side) input ch) s = .next t ∧
       coreAt t p = { k with wdogSeen := true, stuck := setInsert k.stuck (side * 4 + ch) } ∧
       r ∈ t.log.fresh ∧ r.cls = 6 ∧ r.reported = true ∧ recordsMade t = (recordsMade s + 1) % 2 ^ 32 ∧ OthersKept s t p) ∧
     (¬stalls → exec (.watchdogStall (64 + 2 * core + side) input ch) s = .next s)))

/-- SET, CLEAR, WAIT, COUNT and WAIT_CNT (R296, R299, R300, R312 to R315): a decoded sync command with no wait in
progress sets, clears or tests its flag, or adds to or tests its counter, in the order of R297 and R314, and leaves
the head, its done flag due in the next cycle; an update that fails a check changes no counter. A wait whose condition
does not hold sleeps under its timeout. No other flag, counter or ring changes. -/
def Obligations.FlagAndCounterCommands : Prop :=
  ∀ (s : State) (l q p c : Nat) (y : SyncCmd), Decodes s l q p (0x600 + y.sop) (.sync y) → Quiet (coreAt s p) →
  c = decodedAt s l q p (0x600 + y.sop) →
  let k := coreAt s p
  let kept (t : State) : Prop := MemoryKept s t p ∧ OthersKept s t p ∧ ∀ n, n ≠ q → ringAt (coreAt t p) n = ringAt k n
  let ends (t : State) (st : Status) : Prop := SyncEnds s t p q c y st true ∧ kept t
  let same (t : State) : Prop := (coreAt t p).sync.flags = k.sync.flags ∧ (coreAt t p).sync.counters = k.sync.counters
  let sleeps (t : State) : Prop := (∃ w, (queueAt (coreAt t p) q).sleep = some w ∧ w.cmd = y ∧
    w.deadline = c + startLimit (queueAt k q) y) ∧ (coreAt t p).sync = { k.sync with turns := (coreAt t p).sync.turns } ∧
    (queueAt (coreAt t p) q).nextSlot = (queueAt k q).nextSlot ∧ (∀ n, ringAt (coreAt t p) n = ringAt k n) ∧ kept t
  (y.sop = 1 → y.flag ∉ k.sync.flags →
    ∃ t, exec (.set l q) s = .next t ∧ ends t .done ∧ (coreAt t p).sync.flags = setInsert k.sync.flags y.flag ∧
      (coreAt t p).sync.counters = k.sync.counters) ∧
  (y.sop = 1 → y.flag ∈ k.sync.flags →
    ∃ t, exec (.set l q) s = .next t ∧ ends t (if k.sync.policy.contains y.flag then .overrun else .done) ∧ same t ∧
      (coreAt t p).sync.overrunSeen = true ∧
      (coreAt t p).sync.ovr = (if k.sync.ovr.valid then k.sync.ovr
        else { valid := true, flag := y.flag, setter := setterOf q, ctx := (queueAt k q).ctx }) ∧
      (k.sync.policy.contains y.flag = true → ∃ r, r ∈ t.log.fresh ∧ r.cls = 5 ∧ r.status = Status.overrun.code ∧ r.reported = true)) ∧
  (y.sop = 2 → ∃ t, exec (.clear l q) s = .next t ∧ ends t .done ∧
    (coreAt t p).sync.flags = setErase k.sync.flags y.flag ∧ (coreAt t p).sync.counters = k.sync.counters) ∧
  (y.sop = 3 → y.flag ∈ k.sync.flags → ∃ t, exec (.wait l q) s = .next t ∧ ends t .done ∧
    (coreAt t p).sync.flags = (if y.consume then setErase k.sync.flags y.flag else k.sync.flags) ∧
    (coreAt t p).sync.counters = k.sync.counters) ∧
  (y.sop = 3 → y.flag ∉ k.sync.flags → ∃ t, exec (.wait l q) s = .next t ∧ sleeps t) ∧
  (∀ x new, y.sop = 4 → x = cntAt k y.counter → new = (x.value.toNat : Int) + y.delta →
    let mine := isProducer s l x.kind x.die x.core (ownSender s l)
    let fails (st : Status) : Prop := ∃ t, exec (.count l q) s = .next t ∧ ends t st ∧ same t
    (mine = false → fails .noAccess) ∧
    (mine = true → x.mono = true → y.delta < 0 → fails .badState) ∧
    (mine = true → (x.mono = true → 0 ≤ y.delta) → passesBound k x new = true →
      ∃ t, exec (.count l q) s = .next t ∧ ends t .overrun ∧ same t ∧ (coreAt t p).sync.cntOverrunSeen = true ∧
        ∃ r, r ∈ t.log.fresh ∧ r.cls = 5 ∧ r.status = Status.overrun.code) ∧
    (mine = true → (x.mono = true → 0 ≤ y.delta) → passesBound k x new = false →
      ∃ t, exec (.count l q) s = .next t ∧ ends t .done ∧ (coreAt t p).sync.flags = k.sync.flags ∧
        cntAt (coreAt t p) y.counter = { x with value := BitVec.ofInt 64 new } ∧
        ∀ m, m ≠ y.counter → cntAt (coreAt t p) m = cntAt k m)) ∧
  (y.sop = 5 → cntHolds k y = true → ∃ t, exec (.waitCnt l q) s = .next t ∧ ends t .done ∧ same t) ∧
  (y.sop = 5 → cntHolds k y = false → ∃ t, exec (.waitCnt l q) s = .next t ∧ sleeps t)

/-- ARRIVE, WAIT_SLOT and FENCE (R308, R317, R318, R361): an arrival flips its context's parity at the slot and is
counted there once, and its queue waits for the release if it asks to; behind an unreleased arrival it sleeps. An
ARRIVE that had arrived before its context was parked, and a WAIT_SLOT, wait for the outcome of that arrival, or end
with the outcome already there. A fence with nothing outstanding ends at once, else it holds its queue. FENCE_COMPLETE
(R308) and WAIT_TIMEOUT (R302): a fence whose awaited commands are finished ends with the first status of theirs other
than DONE and sets its done flag, and waits while one is not; a sleeping wait whose timeout has passed ends with
TIMEOUT, recorded, and its queue stops unless its on_fail is 1; that of an ARRIVE that has arrived is its arrival's.
-/
def Obligations.SlotAndFenceCommands : Prop :=
  (∀ (s : State) (l q p c cx : Nat) (y : SyncCmd), Decodes s l q p (0x600 + y.sop) (.sync y) → Quiet (coreAt s p) →
   c = decodedAt s l q p (0x600 + y.sop) → cx = (queueAt (coreAt s p) q).ctx → Current (coreAt s p) c →
   let k := coreAt s p
   let z := queueAt k q
   let x := ctxAt k cx
   let kept (t : State) : Prop := MemoryKept s t p ∧ OthersKept s t p ∧ (coreAt t p).sync.flags = k.sync.flags ∧
     (coreAt t p).sync.counters = k.sync.counters
   let asleep (t : State) (arrived : Bool) (limit : Nat) : Prop := ∃ w, (queueAt (coreAt t p) q).sleep = some w ∧ w.cmd = y ∧
     w.arrived = arrived ∧ w.ctx = cx ∧ w.deadline = c + limit
   let ends (t : State) (st : Status) : Prop := SyncEnds s t p q c y st (decide (st = .done)) ∧
     (st ≠ .done → z.onFail = false → (queueAt (coreAt t p) q).state = 2)
   let here := ∃ a, a ∈ x.parts ∧ a.slot = y.slot ∧ a.out = false
   let outcome := outcomeStatus (Store.get 0 x.outcomes y.slot)
   (y.sop = 6 → (∀ r, z.resumed = some r → r.arrived = false) → (∀ a, a ∈ x.parts → a.slot ≠ y.slot) →
     ∃ t, exec (.arrive l q) s = .next t ∧ (if y.wait then asleep t true (256 * y.units) else ends t .done) ∧ kept t ∧
       (ctxAt (coreAt t p) cx).arrived = setInsert x.arrived y.slot ∧
       (ctxAt (coreAt t p) cx).parity = (if x.parity.contains y.slot then setErase x.parity y.slot else setInsert x.parity y.slot) ∧
       (ctxAt (coreAt t p) cx).vstate = (if y.verdict then 1 else x.vstate) ∧
       (ctxAt (coreAt t p) cx).parts = x.parts ++ [arrivalOf y (x.parity.contains y.slot) c] ∧
       slotArr (slotAt t y.slot) (b2n (x.parity.contains y.slot)) =
         slotArr (slotAt s y.slot) (b2n (x.parity.contains y.slot)) ++
           [(l * 4 + cx, if y.verdict ∧ x.stepNar ∧ y.orPl % 2 = 0 then y.orPl + 1 else y.orPl, y.andPl)] ∧
       (∀ n, n ≠ y.slot → slotAt t n = slotAt s n)) ∧
   (y.sop = 6 → (∀ r, z.resumed = some r → r.arrived = false) → (∃ a, a ∈ x.parts ∧ a.slot = y.slot) →
     ∃ t, exec (.arrive l q) s = .next t ∧ asleep t false (startLimit z y) ∧ t.slots = s.slots ∧ kept t) ∧
   (∀ i, (i = .arrive l q ∧ y.sop = 6 ∧ ∃ r, z.resumed = some r ∧ r.arrived = true) ∨ (i = .waitSlot l q ∧ y.sop = 7) →
     (here → ∃ t, exec i s = .next t ∧ asleep t true (startLimit z y) ∧ t.slots = s.slots ∧ kept t) ∧
     (¬here → ∃ t, exec i s = .next t ∧ ends t outcome ∧ t.slots = s.slots ∧ kept t)) ∧
   (y.sop = 15 → Current k (c + 1) → fenceIds k q cx c y.scope = [] →
     ∃ t, exec (.fence l q) s = .next t ∧ ends t .done ∧ kept t) ∧
   (y.sop = 15 → Current k (c + 1) → fenceIds k q cx c y.scope ≠ [] →
     ∃ t f, exec (.fence l q) s = .next t ∧ (queueAt (coreAt t p) q).fence = some f ∧
       f.ids = fenceIds k q cx c y.scope ∧ f.scope = y.scope ∧ kept t)) ∧
  (∀ (s : State) (l q p : Nat), liveCore s l = some p → (coreAt s p).sync.due = [] →
   let k := coreAt s p
   let z := queueAt k q
   let c := cycleOf s l
   let leaves (t : State) : Prop := (queueAt (coreAt t p) q).nextSlot = (if z.nextSlot = 15 then 0 else z.nextSlot + 1) ∧
     (ringAt (coreAt t p) q).head = (if z.nextSlot = 15 then ((ringAt k q).head + 1) % 2 ^ 32 else (ringAt k q).head) ∧
     MemoryKept s t p ∧ OthersKept s t p
   (∀ f, z.fence = some f → Current k (c + 1) → f.ids.all (fenceMet k c f.scope) = true →
     ∃ t, exec (.fenceComplete l q) s = .next t ∧ t.answer = fenceStatus k f.ids ∧ (queueAt (coreAt t p) q).fence = none ∧
       (coreAt t p).sync.due.map (fun d => (d.cycle, d.flag, d.clear)) = (if f.doneEn then [(c + 1, f.doneFlag, false)] else []) ∧
       leaves t) ∧
   (∀ f, z.fence = some f → Current k (c + 1) → f.ids.all (fenceMet k c f.scope) = false → exec (.fenceComplete l q) s = .next s) ∧
   (z.fence = none → Current k (c + 1) → exec (.fenceComplete l q) s = .next s) ∧
   (z.sleep = none → exec (.waitTimeout l q) s = .next s) ∧
   (∀ w, z.sleep = some w → c < w.deadline → exec (.waitTimeout l q) s = .next s) ∧
   (∀ w, z.sleep = some w → w.deadline ≤ c → w.cmd.sop = 6 → w.arrived = true →
     exec (.waitTimeout l q) s = exec (.arriveTimeout l w.ctx w.cmd.slot) s) ∧
   (∀ w, z.sleep = some w → w.deadline ≤ c → (w.cmd.sop = 6 → w.arrived = false) →
     ∃ t, exec (.waitTimeout l q) s = .next t ∧ t.answer = .timeout ∧ (queueAt (coreAt t p) q).sleep = none ∧
       (z.state = 1 → z.onFail = false → (queueAt (coreAt t p) q).state = 2) ∧
       (z.nextSlot ≠ 15 → (z.state = 1 → z.onFail = true) → (queueAt (coreAt t p) q).state = z.state) ∧
       (∃ r, r ∈ t.log.fresh ∧ r.cls = 5 ∧ r.status = Status.timeout.code) ∧
       (coreAt t p).sync = { k.sync with timeoutSeen := true } ∧ leaves t))

/-- CNT_ADD and CNT_MAX (R311 to R314): an update that arrives for a counter is checked in the order of R312 and
answered with the first check that fails, which changes no counter; one that passes gives the counter the exact sum,
or the larger of the two values. A MAX that keeps the value is answered DONE. It waits for a place among the answers.
-/
def Obligations.CounterPackets : Prop :=
  ∀ (s : State) (port : Port) (pkt : Packet) (l p : Nat) (i : Instr),
  Arrives s port pkt l p → pkt.ptype = .sig → pkt.classT = false → addrSpace pkt.addr.toNat = 2 → doorPage pkt.addr.toNat = 1 →
  i = (if (counterPort pkt.addr.toNat).any (fun x => x.2) then .cntMax port pkt else .cntAdd port pkt) →
  let k := coreAt s p
  let answered (t : State) (st : Status) : Prop := t.answer = st ∧ MemoryKept s t p ∧
    OthersKept s t p ∧
    ∃ x, x ∈ (coreAt t p).mv.inj ++ (coreAt t p).mv.injS ∧ x.pkt = ackOf s l (received port pkt) st
  let fails (st : Status) : Prop := ∃ t, exec i s = .next t ∧ answered t st ∧
    (coreAt t p).sync = { k.sync with turns := (coreAt t p).sync.turns }
  (respFull k = true → exec i s = .next s) ∧
  (respFull k = false → (offsetHigh pkt.addr.toNat = true ∨ counterPort pkt.addr.toNat = none) → fails .badValue) ∧
  (∀ n isMax x v, respFull k = false → Quiet k → offsetHigh pkt.addr.toNat = false →
    counterPort pkt.addr.toNat = some (n, isMax) → x = cntAt k n →
    v = (if isMax then ((fieldN pkt.word.toNat 0 60 : Nat) : Int) else untwos 60 pkt.word.toNat) →
    let mine := isProducer s l x.kind x.die x.core (senderOf pkt)
    let new := updateValue x isMax v
    let stays := isMax = true ∧ new = (x.value.toNat : Int)
    (x.enable = false → fails .badState) ∧
    (x.enable = true → mine = false → fails .noAccess) ∧
    (x.enable = true → mine = true → x.abandoned = true → fails .abandoned) ∧
    (x.enable = true → mine = true → x.abandoned = false → breaksMode x isMax v = true → fails .badState) ∧
    (x.enable = true → mine = true → x.abandoned = false → breaksMode x isMax v = false →
      (stays → fails .done) ∧
      (¬stays → passesBound k x new = true →
        ∃ t, exec i s = .next t ∧ answered t .overrun ∧ (coreAt t p).sync.counters = k.sync.counters ∧
          (coreAt t p).sync.flags = k.sync.flags ∧ (coreAt t p).sync.cntOverrunSeen = true ∧
          ∃ r, r ∈ t.log.fresh ∧ r.cls = 5 ∧ r.status = Status.overrun.code) ∧
      (¬stays → passesBound k x new = false →
        ∃ t, exec i s = .next t ∧ answered t .done ∧ cntAt (coreAt t p) n = { x with value := BitVec.ofInt 64 new } ∧
          (∀ m, m ≠ n → cntAt (coreAt t p) m = cntAt k m) ∧ (coreAt t p).sync.flags = k.sync.flags)))

/-- CHIMNEY_RELEASE and CHIMNEY_REL (R317, R320, R322, R420): a slot all of whose members have arrived with a parity
releases that episode with the OR and the AND of their payloads to every member core, or, off the die, sends its
arrival to the base once, down Cavern 0's pair while one of it is in UP; the release or break that comes back up that
pair it passes on. What comes up another bundle, or one not in UP, is only recorded. SLOT_BREAK (R322): a slot breaks
when a member id has no physical core, when one is unserved while the stage is READY, or off the die when neither
bundle of its pair is UP: its arrivals are dropped, every member core is told, one record is made, and an off-die
slot's break is sent to the base while its pair has a bundle UP. A disabled slot only drops its arrivals; with no
cause nothing changes. -/
def Obligations.SlotOutcomes : Prop :=
  (∀ (s : State) (n par bundle : Nat) (m : RelMsg), par ≤ 1 →
   let z := slotAt s n
   let told (t : State) (how orp : Nat) (andp : Bool) : Prop := ∀ i, i ∈ members s n →
     ∃ w, w ∈ t.news ∧ w.slot = n ∧ w.core = i.1 ∧ w.how = how ∧ (how = 1 → w.orp = orp ∧ w.andp = andp)
   let full := z.enable = true ∧ z.broken = false ∧ allArrived s n par = true
   let both := combine (slotArr z par)
   let up := (bunAt s 2176).state = 2 ∨ (bunAt s 2177).state = 2
   let sent := updSlot s n fun x => { x with sentUp := x.sentUp ++ [decide (par = 1)] }
   let heard := bundle < 2 ∧ (bunAt s (2176 + bundle)).state = 2
   let waits := z.enable = true ∧ z.broken = false ∧ z.offDie = true
   (¬full → exec (.chimneyRelease n par) s = .next s) ∧
   (full → z.offDie = false →
     ∃ t, exec (.chimneyRelease n par) s = .next t ∧ slotArr (slotAt t n) par = [] ∧
       slotArr (slotAt t n) (1 - par) = slotArr z (1 - par) ∧ (slotAt t n).orLast = both.1 ∧ (slotAt t n).andLast = both.2 ∧
       (slotAt t n).parity = decide (par = 0) ∧ told t 1 both.1 both.2 ∧ (∀ i, i ≠ n → slotAt t i = slotAt s i) ∧
       t.cores = s.cores ∧ t.out = s.out) ∧
   (full → z.offDie = true → z.sentUp.contains (decide (par = 1)) = true → exec (.chimneyRelease n par) s = .next s) ∧
   (full → z.offDie = true → z.sentUp.contains (decide (par = 1)) = false → ¬up → exec (.chimneyRelease n par) s = .next sent) ∧
   (full → z.offDie = true → z.sentUp.contains (decide (par = 1)) = false → up →
     exec (.chimneyRelease n par) s = .next { sent with
       out := s.out ++ [.message 5 [(1, s.msgSeq), (1, n), (1, 0), (1, both.1), (1, b2n both.2)]],
       msgSeq := (s.msgSeq + 1) % 256 }) ∧
   (¬heard → ∃ t, exec (.chimneyRel n m bundle) s = .next t ∧ t.slots = s.slots ∧ t.news = s.news ∧ t.cores = s.cores ∧
     recordsMade t = (recordsMade s + 1) % 2 ^ 32) ∧
   (heard → ¬waits → exec (.chimneyRel n m bundle) s = .next s) ∧
   (∀ orp andp, heard → waits → m = .release orp andp → z.sentUp.contains z.parity = false →
     exec (.chimneyRel n m bundle) s = .next s) ∧
   (∀ orp andp, heard → waits → m = .release orp andp → z.sentUp.contains z.parity = true →
     ∃ t, exec (.chimneyRel n m bundle) s = .next t ∧ told t 1 orp andp ∧ (slotAt t n).orLast = orp ∧ (slotAt t n).andLast = andp ∧
       (slotAt t n).parity = !z.parity ∧ (∀ i, i ≠ n → slotAt t i = slotAt s i) ∧ t.cores = s.cores ∧ t.out = s.out) ∧
   (∀ die, heard → waits → m = .broken die →
     ∃ t, exec (.chimneyRel n m bundle) s = .next t ∧ slotState (slotAt t n) = 2 ∧ (slotAt t n).arr0 = [] ∧ (slotAt t n).arr1 = [] ∧
       told t 2 0 false ∧ recordsMade t = (recordsMade s + 1) % 2 ^ 32 ∧ t.cores = s.cores ∧ t.out = s.out)) ∧
  (∀ (s : State) (n : Nat),
   let z := slotAt s n
   let lost := ∃ m, m ∈ members s n ∧ physOf s m.1 = none
   let unserved := (slotUnserved s n).isSome = true ∧ s.boot.released = true
   let down := z.offDie = true ∧ (bunAt s 2176).state ≠ 2 ∧ (bunAt s 2177).state ≠ 2
   let holds (cause : BreakCause) : Prop :=
     (cause = .lostCore ∧ lost) ∨ (cause = .unserved ∧ unserved) ∨ (cause = .mgmtDown ∧ down)
   let up := (bunAt s 2176).state = 2 ∨ (bunAt s 2177).state = 2
   (∀ cause, holds cause → z.enable = true → z.broken = false →
     ∃ t, exec (.slotBreak n cause) s = .next t ∧ slotState (slotAt t n) = 2 ∧ (slotAt t n).arr0 = [] ∧ (slotAt t n).arr1 = [] ∧
       (∀ m, m ≠ n → slotAt t m = slotAt s m) ∧
       (∀ m, m ∈ members s n → ∃ w, w ∈ t.news ∧ w.slot = n ∧ w.core = m.1 ∧ w.how = 2) ∧
       recordsMade t = (recordsMade s + 1) % 2 ^ 32 ∧ t.cores = s.cores ∧
       t.out = (if z.offDie = true ∧ up then s.out ++ [.message 5 [(1, s.msgSeq), (1, n), (1, 1)]] else s.out)) ∧
   (∀ cause, cause ≠ .disabled → ¬(holds cause ∧ z.enable = true ∧ z.broken = false) → exec (.slotBreak n cause) s = .next s) ∧
   exec (.slotBreak n .disabled) s = .next (if z.enable then s else updSlot s n fun x => { x with arr0 := [], arr1 := [] }))

/-- RELEASE_REACHES_CORE (R318, R322, R203, R321, R333, R339): an outcome that reaches a core ends each context's
arrival of its slot and parity, is kept in CORE_SYNC_REL and updates the verdict of a verdict arrival; a release of an
arrival that had timed out is only logged. A break ends the arrivals of both parities and is seen in the status, also
of a core in reset. RELEASE_REACHES_CORE (R301, R317, R318, R322) with one command of the core asleep on the slot: one
that waits for its context's arrival ends with DONE, six cycles before the next command of its queue may decode; an
ARRIVE behind that arrival arrives, and waits in its turn if it asks to. On a break either ends with BROKEN.
ARRIVE_TIMEOUT (R203, R321): an arrival whose timeout has passed is marked timed out with outcome 3, a verdict arrival
makes the verdict FAILED, the command asleep on it ends with TIMEOUT, and the arrival stays counted. One not yet due,
or frozen while its context's queue is parked (R362), stays. -/
def Obligations.OutcomeReachesCore : Prop :=
  (∀ (s : State) (l n : Nat),
   (s.news.find? (fun x => x.slot == n && x.core == l) = none → exec (.releaseReachesCore l n) s = .next s) ∧
   (∀ w, s.news.find? (fun x => x.slot == n && x.core == l) = some w →
     (physOf s l = none → exec (.releaseReachesCore l n) s = .next { s with news := s.news.erase w }) ∧
     (∀ p, physOf s l = some p → inReset s l = true →
       ∃ t, exec (.releaseReachesCore l n) s = .next t ∧ t.news = s.news.erase w ∧ OthersKept s t p ∧
         coreAt t p = (if w.how = 2 then { coreAt s p with sync := { (coreAt s p).sync with brokenSeen := true } } else coreAt s p)) ∧
     (∀ p, physOf s l = some p → inReset s l = false → (coreAt s p).sync.due = [] → Current (coreAt s p) (cycleOf s l) →
       (∀ q, (queueAt (coreAt s p) q).sleep = none) →
       ∃ t, exec (.releaseReachesCore l n) s = .next t ∧ t.news = s.news.erase w ∧ MemoryKept s t p ∧ OthersKept s t p ∧
         (coreAt t p).sync = { (coreAt s p).sync with brokenSeen := (coreAt s p).sync.brokenSeen || w.how == 2 } ∧
         ∀ cx, cx < 4 →
           let x := ctxAt (coreAt s p) cx
           let mine := x.parts.find? fun a => a.slot == n && (w.how == 2 || a.parity == w.parity)
           let ended (a : Part) := { x with parts := x.parts.erase a }
           (mine = none → ctxAt (coreAt t p) cx = x) ∧
           (∀ a, mine = some a → a.out = false →
             ctxAt (coreAt t p) cx =
               (let y := recordRel (ended a) n w.how w.orp w.andp
                if a.verdict then verdictUpdate y w.orp w.andp w.how else y)) ∧
           (∀ a, mine = some a → a.out = true →
             ctxAt (coreAt t p) cx = (if w.how = 1 then ended a else recordRel (ended a) n w.how w.orp w.andp) ∧
             (w.how = 1 → ∃ r, r ∈ t.log.fresh ∧ r.cls = 5 ∧ r.body = [(1, n), (1, cx)]))))) ∧
  (∀ (s : State) (l n p q : Nat) (w : SlotNews) (z : Sleep) (a : Part),
   s.news.find? (fun x => x.slot == n && x.core == l) = some w → physOf s l = some p → inReset s l = false →
   (coreAt s p).sync.due = [] → Current (coreAt s p) (cycleOf s l) → q < 4 → (queueAt (coreAt s p) q).sleep = some z →
   (∀ r, r ≠ q → (queueAt (coreAt s p) r).sleep = none) → (z.cmd.sop = 6 ∨ z.cmd.sop = 7) → z.cmd.slot = n → z.ctx < 4 →
   let k := coreAt s p
   let c := cycleOf s l
   let x := ctxAt k z.ctx
   x.parts.find? (fun b => b.slot == n && (w.how == 2 || b.parity == w.parity)) = some a → a.out = false →
   let ended (t : State) (st : Status) : Prop := t.answer = st ∧ (queueAt (coreAt t p) q).sleep = none ∧
     (queueAt (coreAt t p) q).nextSlot = (if (queueAt k q).nextSlot = 15 then 0 else (queueAt k q).nextSlot + 1) ∧
     ((queueAt k q).nextSlot ≠ 15 → (queueAt (coreAt t p) q).ready = c + 6) ∧
     (coreAt t p).sync.due.map (fun d => (d.cycle, d.flag, d.clear)) =
       (if st = .done ∧ z.cmd.doneEn = true then [(c + 5, z.cmd.doneFlag, false)] else [])
   (w.how = 2 → ∃ t, exec (.releaseReachesCore l n) s = .next t ∧ ended t .broken ∧ MemoryKept s t p ∧ OthersKept s t p) ∧
   (w.how ≠ 2 → z.cmd.sop = 7 ∨ z.arrived = true →
     ∃ t, exec (.releaseReachesCore l n) s = .next t ∧ ended t .done ∧ MemoryKept s t p ∧ OthersKept s t p) ∧
   (w.how ≠ 2 → z.cmd.sop = 6 → z.arrived = false → (∀ b, b ∈ x.parts.erase a → b.slot ≠ n) →
     ∃ t, exec (.releaseReachesCore l n) s = .next t ∧ MemoryKept s t p ∧ OthersKept s t p ∧
       (if z.cmd.wait then (queueAt (coreAt t p) q).sleep = some { z with arrived := true, deadline := c + 256 * z.cmd.units }
        else ended t .done) ∧
       (ctxAt (coreAt t p) z.ctx).parts = x.parts.erase a ++ [arrivalOf z.cmd (x.parity.contains n) c] ∧
       (slotArr (slotAt t n) (b2n (x.parity.contains n))).length = (slotArr (slotAt s n) (b2n (x.parity.contains n))).length + 1)) ∧
  (∀ (s : State) (l n p cx : Nat), liveCore s l = some p → (coreAt s p).sync.due = [] →
   let k := coreAt s p
   let x := ctxAt k cx
   let due := x.parts.find? fun a => a.slot == n && !a.out && !a.frozen && decide (a.deadline ≤ cycleOf s l)
   (due = none → exec (.arriveTimeout l cx n) s = .next s) ∧
   (∀ a, due = some a →
     ∃ t, exec (.arriveTimeout l cx n) s = .next t ∧ (coreAt t p).sync = { k.sync with timeoutSeen := true } ∧
       t.slots = s.slots ∧ MemoryKept s t p ∧ OthersKept s t p ∧
       (∀ y, y = recordRel { x with parts := x.parts.map fun b => if b = a then { b with out := true } else b } n 3 0 false →
         ctxAt (coreAt t p) cx = if a.verdict then { y with vstate := 6 } else y) ∧
       (∀ q w, q < 4 → sleepsOn k q n cx = some w → (w.cmd.sop = 7 ∨ w.arrived = true) →
         (queueAt (coreAt t p) q).sleep = none ∧ t.answer = .timeout ∧
         ((queueAt k q).state = 1 → (queueAt k q).onFail = false → (queueAt (coreAt t p) q).state = 2) ∧
         ∃ r, r ∈ t.log.fresh ∧ r.cls = 5 ∧ r.status = Status.timeout.code) ∧
       (∀ q w, sleepsOn k q n cx = some w → w.cmd.sop ≠ 7 → w.arrived = false →
         (queueAt (coreAt t p) q).sleep = (queueAt k q).sleep)))

/-- SEQUENCE_END, REFERENCE_LOST and REFERENCE_RELOCK (R436, R437, R440, R441): a sequence whose time has come puts
its point in force, and a higher target, or the held sequencer's, is taken up at once; a lost reference leaves every
Cavern coasting with its sequence abandoned, recorded once, afresh while relocking; a Cavern that relocks, the
reference present for 10 µs, stops coasting and moves to its target as a rise. DROOP_TRIP, DROOP_DETECTOR_CLEAR and
STRETCH_END (R448): a trip stretches a running Cavern's A-clock until 64 of its cycles after the last detector
cleared. TEMPERATURE_SAMPLE (R460) shows the temperature and keeps the Day's highest; a calibration (R33) changes no
architected state. -/
def Obligations.ClockAndDroopEvents : Prop :=
  (∀ (s : State) (c : Nat), c < 4 →
   let x := cavAt s c
   let others (t : State) : Prop := (∀ d, d ≠ c → cavAt t d = cavAt s d) ∧ t.cores = s.cores ∧ t.gals = s.gals ∧ t.log = s.log
   (∀ e, x.seqEnd = some e → e ≤ s.mNow →
     let goes := (x.opHold = true ∨ x.seqTo < x.opTarget) ∧ x.seqTo ≠ x.opTarget ∧ x.running = true ∧ x.coasting = false
     ∃ t, exec (.sequenceEnd c) s = .next t ∧ (cavAt t c).opNow = x.seqTo ∧ others t ∧
       (¬goes → cavAt t c = { x with opNow := x.seqTo, seqEnd := none }) ∧
       (goes → (cavAt t c).seqTo = x.opTarget ∧ ∃ e', (cavAt t c).seqEnd = some e' ∧ s.mNow < e')) ∧
   ((∀ e, x.seqEnd = some e → s.mNow < e) → exec (.sequenceEnd c) s = .next s) ∧
   (s.boot.powered = true →
     ∃ t, exec .referenceLost s = .next t ∧ (∀ d, d < 4 → (cavAt t d).refLost = true ∧ (cavAt t d).coasting = true ∧
       (cavAt t d).locked = false ∧ (cavAt t d).seqEnd = none ∧ (cavAt t d).rateTo = 4 ∧ (cavAt t d).refLostSeen = true ∧
       (cavAt t d).fifths = (cavAt s d).fifths) ∧ recordsMade t = (recordsMade s + 1) % 2 ^ 32 ∧ t.cores = s.cores) ∧
   (s.boot.powered = false → exec .referenceLost s = .next s) ∧
   (x.coasting = true → x.glideAt + 5000 ≤ s.mNow →
     ∃ t, exec (.referenceRelock c) s = .next t ∧ (cavAt t c).coasting = false ∧ (cavAt t c).refLost = false ∧
       (cavAt t c).locked = x.running ∧ (cavAt t c).seqTo = x.opTarget ∧ (cavAt t c).rateTo = opRate x.opTarget ∧
       (x.running = true → ∃ e, (cavAt t c).seqEnd = some e ∧ s.mNow < e) ∧ others t) ∧
   ((x.coasting = false ∨ s.mNow < x.glideAt + 5000) → exec (.referenceRelock c) s = .next s)) ∧
  (∀ (s : State) (g c : Nat),
   let x := cavAt s (g / 8)
   let last := x.stretched = true ∧ x.stretchFrom = none ∧ ∀ h, h ∈ galsOf (g / 8) → h ≠ g → (galAt s h).tripped = false
   (x.running = true →
     ∃ t, exec (.droopTrip g) s = .next t ∧ galAt t g = { galAt s g with tripped := true } ∧
       cavAt t (g / 8) = { x with stretched := true, stretchFrom := none } ∧ t.cores = s.cores) ∧
   (x.running = false → exec (.droopTrip g) s = .next s) ∧
   (last → ∃ t, exec (.droopDetectorClear g) s = .next t ∧ galAt t g = { galAt s g with tripped := false } ∧
     cavAt t (g / 8) = { x with stretchFrom := some (aNow s (g / 8)) } ∧ t.cores = s.cores) ∧
   (¬last → exec (.droopDetectorClear g) s = .next (updGal s g fun y => { y with tripped := false })) ∧
   ((cavAt s c).stretchFrom = none → exec (.stretchEnd c) s = .next s) ∧
   (∀ n, (cavAt s c).stretchFrom = some n →
     (n + 64 ≤ aNow s c → exec (.stretchEnd c) s =
       .next (updCav s c fun x => { x with stretched := false, stretchFrom := none })) ∧
     (aNow s c < n + 64 → exec (.stretchEnd c) s = .next s)) ∧
   (∀ v, exec (.temperatureSample g v) s = .next (updGal s g fun x => { x with
     temp := min 0xFF v, maxTemp := max x.maxTemp (min 0xFF v) })) ∧
   exec (.thermalCalibration g) s = .next s)

/-- ISSUE_WINDOW (R442): in a running Cavern, at the window after a window with demand the ceiling is the last ceiling
plus 32, after one without the admitted count plus 32, limited to the caps; the counts restart. RAIL_POWER and
POWER_WINDOW_TIMEOUT (R420, R445 to R447, R449): the window ends, its estimate and measurement are shown and the
activity counts, filler included, restart; while neither a core is critically hot nor the window disagrees, each
Gallery's cap follows the power rule and the thermal rule. At the critical temperature every cap is 0, until all are
10 degrees below it. The eighth disagreeing window, the third without a measurement and a critical temperature are
recorded. A message at a link not in UP is only recorded. -/
def Obligations.IssueAndPowerWindows : Prop :=
  (∀ (s : State) (g : Nat),
   ((cavAt s (g / 8)).running = false → exec (.issueWindow g) s = .next s) ∧ ((cavAt s (g / 8)).running = true →
   let x := (galAt s g).lim
   let w := aNow s (g / 8) / 256
   let rest (t : State) : Prop := t.cores = s.cores ∧ t.cavs = s.cavs ∧ (∀ h, h ≠ g → h ≠ 0 → galAt t h = galAt s h) ∧
     (t.pwr.slopeFalls ≠ s.pwr.slopeFalls → t.pwr.slopeFallSeen = true)
   (w = x.window + 1 → ∃ t, exec (.issueWindow g) s = .next t ∧ (galAt t g).lim = { x with
     ceiling := min (min x.hostCap x.ctlCap) (if x.demand then x.ceiling + 32 else x.used + 32), prev2Used := x.prevUsed,
     prevUsed := x.used, used := 0, demand := false, window := w } ∧ rest t) ∧
   (x.window + 1 < w → ∃ t, exec (.issueWindow g) s = .next t ∧ (galAt t g).lim = { x with
     ceiling := min (min x.hostCap x.ctlCap) 32, prev2Used := if w = x.window + 2 then x.used else 0, prevUsed := 0,
     used := 0, demand := false, window := w } ∧ rest t) ∧
   (w ≤ x.window → ∃ t, exec (.issueWindow g) s = .next t ∧ (galAt t g).lim = x ∧ rest t))) ∧
  (∀ (s s1 : State) (b c m e : Nat), c < 4 → s1 = bringCav s c → m ≤ 0xFFF →
   e = min 0xFFF (Config.powerEstimate (opShown (cavAt s1 c) s.mNow) (activityCounts (cavAt s1 c)) (hottest s1 c)) →
   let x := cavAt s c
   let heard := b < 8 ∧ (bunAt s (2176 + b)).state = 2
   let hot (d : Nat) : Prop := ∃ g, g ∈ galsOf c ∧ d ≤ (galAt s g).temp
   let agrees := 20 * ((e - m) + (m - e)) ≤ 3 * m
   let shown (t : State) : Prop := (cavAt t c).est = e ∧ (cavAt t c).activity = [] ∧ (cavAt t c).winStart = s.mNow ∧
     (cavAt t c).limit = x.limitNext ∧ t.cores = s1.cores
   let measured (t : State) : Prop := exec (.railPower c m b) s = .next t ∧ shown t ∧ (cavAt t c).meas = m ∧
     (cavAt t c).measValid = true ∧ (cavAt t c).missing = 0
   let caps (t : State) (f : Gal → Nat) : Prop := ∀ g, g ∈ galsOf c → (galAt t g).lim.ctlCap = f (galAt s g)
   let third : Prop := x.missing = 2
   let rule (y : Gal) : Nat := let n := powerCap y.lim.ctlCap e x.limitNext; if s.pwr.limitC ≤ y.temp then max 64 (n / 2) else n
   (heard → ¬hot s.fuse.critC → x.crit = false → x.mismatch = false → agrees →
     ∃ t, measured t ∧ (cavAt t c).mismatch = false ∧ (cavAt t c).crit = false ∧ caps t rule ∧ t.log = s.log) ∧
   (heard → ¬hot s.fuse.critC → x.crit = false → x.mismatch = false → ¬agrees → x.runAgree = false → 7 ≤ x.run →
     ∃ t, measured t ∧ (cavAt t c).mismatch = true ∧ t.pwr.mismatchSeen = true ∧
       recordsMade t = (recordsMade s + 1) % 2 ^ 32) ∧
   (heard → x.mismatch = true → agrees → x.runAgree = true → 7 ≤ x.run → ∃ t, measured t ∧ (cavAt t c).mismatch = false) ∧
   (heard → hot s.fuse.critC → x.crit = false → ∃ t, measured t ∧ (cavAt t c).crit = true ∧ t.pwr.critSeen = true ∧
     caps t (fun _ => 0) ∧ (x.mismatch = true ∨ agrees → recordsMade t = (recordsMade s + 1) % 2 ^ 32)) ∧
   (heard → hot (s.fuse.critC - 10) → x.crit = true → ∃ t, measured t ∧ (cavAt t c).crit = true ∧ caps t fun _ => 0) ∧
   (heard → ¬hot (s.fuse.critC - 10) → x.crit = true → ∃ t, measured t ∧ (cavAt t c).crit = false ∧ caps t fun _ => 64) ∧
   (¬heard → ∃ t, exec (.railPower c m b) s = .next t ∧ t.cavs = s.cavs ∧ t.gals = s.gals ∧ t.cores = s.cores ∧
     recordsMade t = (recordsMade s + 1) % 2 ^ 32) ∧
   (s.boot.powered = true → x.winStart + 5250 ≤ s.mNow →
     ∃ t, exec (.powerWindowTimeout c) s = .next t ∧ shown t ∧ (cavAt t c).measValid = false ∧ (cavAt t c).run = 0 ∧
       (cavAt t c).missing = x.missing + 1 ∧ (third → t.pwr.railMissingSeen = true ∧
         ∃ r, r ∈ t.log.fresh ∧ r.cls = 8 ∧ r.cav = c ∧ r.reported = true)) ∧
   ((s.boot.powered = false ∨ s.mNow < x.winStart + 5250) → exec (.powerWindowTimeout c) s = .next s))

/-- BUNDLE_TRAIN, LINK_AUTO_TRAIN and TRAINING_STEP_TIMEOUT (R412, R415, R427): training whose steps have ended leaves
the bundle UP with its links' widths when each link has a good half, else FAILED, which in service is recorded; until
they end it stays TRAINING; a step beyond its limit leaves it FAILED. Training needs a bundle DOWN or FAILED and out
of the loop test, whose core was not mapped out at test. RETRAIN, TRAINING_STEP_TIMEOUT and LANE_RECALIBRATE (R412,
R417, R419): a bundle in UP that the base or the register retrains keeps its clock lanes and its flit counts and comes
up at the widths now found; it stays RETRAINING until its steps end, and one of them late or a link without a good
half leaves it FAILED, recorded. The base's request needs spare_auto. Background recalibration visits the next of the
66 lanes. -/
def Obligations.BundleTraining : Prop :=
  (∀ (s : State) (b : Nat) (o : TrainObs) (v : Word) (up down : Link) (dev : Bool), s.boot.powered = true → b < 2184 →
   (up, down, dev) = trainLinks s b o false →
   let x := bunAt s b
   let ready := x.loop = false ∧ x.gateShort = false
   let late := stepLate s b o.up = true ∧ stepLate s b o.down = true
   let rest (t : State) : Prop := ∀ i, i ≠ b → bunAt t i = bunAt s i
   let failed (t : State) : Prop := (bunAt t b).state = 4 ∧ (bunAt t b).up = up ∧ (bunAt t b).down = down ∧
     (s.boot.released = true → b < 2176 → ∃ r, r ∈ t.log.fresh ∧ r.cls = 7 ∧ r.body = [(2, b)])
   let trained (t : State) : Prop := rest t ∧ if up.width = 0 ∨ down.width = 0 then failed t
     else (bunAt t b).state = 2 ∧ (bunAt t b).up = up ∧ (bunAt t b).down = down ∧ (bunAt t b).deviates = dev ∧
       (bunAt t b).sentFlits = [0, 0, 0, 0] ∧ (bunAt t b).freed = [0, 0, 0, 0]
   let began (t : State) : Prop := rest t ∧ (bunAt t b).state = 1 ∧ (bunAt t b).trainStart = s.mNow ∧ (bunAt t b).up = x.up ∧
     (bunAt t b).down = x.down
   let ends (t : State) : Prop := (stepsEnded o = true → trained t) ∧ (stepsEnded o = false → began t)
   (x.state = 1 → stepsEnded o = true → ∃ t, exec (.linkAutoTrain b o) s = .next t ∧ trained t) ∧
   (x.state = 1 → stepsEnded o = false → exec (.linkAutoTrain b o) s = .next s) ∧
   (x.state = 0 → x.auto = true → ready → ∃ t, exec (.linkAutoTrain b o) s = .next t ∧ ends t) ∧
   (x.state ≠ 1 → ¬(x.state = 0 ∧ x.auto = true ∧ ready) → exec (.linkAutoTrain b o) s = .next s) ∧
   (Serves s → Clean v 0xF → wbit v 0 = true → wbit v 1 = false →
     ((x.state = 0 ∨ x.state = 4) → x.loop = false → (2176 ≤ b ∨ x.gateShort = false) →
       ∃ t, exec (.bundleTrain b v o) s = .next t ∧ ends t ∧ (bunAt t b).auto = wbit v 2 ∧ (bunAt t b).spareAuto = wbit v 3 ∧
         (stepsEnded o = false ∨ (up.width ≠ 0 ∧ down.width ≠ 0) → t.answer = .done)) ∧
     (¬((x.state = 0 ∨ x.state = 4) ∧ x.loop = false) → exec (.bundleTrain b v o) s = .next { s with answer := .badState }) ∧
     ((x.state = 0 ∨ x.state = 4) → x.loop = false → b < 2176 → x.gateShort = true →
       exec (.bundleTrain b v o) s = .next { s with answer := .mappedOut })) ∧
   (x.state = 1 → stepsEnded o = false → late → ∃ t, exec (.trainingStepTimeout b o) s = .next t ∧ failed t ∧ rest t ∧
     (o.up.overran.isSome = true → (bunAt t b).up.width = 0) ∧ (o.down.overran.isSome = true → (bunAt t b).down.width = 0)) ∧
   ((stepsEnded o = true ∨ ¬late ∨ (x.state ≠ 1 ∧ x.state ≠ 3)) → exec (.trainingStepTimeout b o) s = .next s)) ∧
  (∀ (s : State) (b : Nat) (o : TrainObs) (v : Word) (up down : Link) (dev : Bool), s.boot.powered = true →
   b < 2184 → (up, down, dev) = trainLinks s b o true →
   let x := bunAt s b
   let rest (t : State) : Prop := ∀ i, i ≠ b → bunAt t i = bunAt s i
   let failed (t : State) : Prop := (bunAt t b).state = 4 ∧ (bunAt t b).downSeen = true ∧ (bunAt t b).up = up ∧ (bunAt t b).down = down ∧
     ∃ r, r ∈ t.log.fresh ∧ r.cls = 7 ∧ r.body = [(2, b)]
   let ends (t : State) : Prop := rest t ∧
     (stepsEnded o = false → (bunAt t b).state = 3) ∧
     (stepsEnded o = true → up.width ≠ 0 → down.width ≠ 0 → (bunAt t b).state = 2 ∧ (bunAt t b).up = up ∧ (bunAt t b).down = down ∧
       (bunAt t b).deviates = dev ∧ (bunAt t b).sentFlits = x.sentFlits ∧ (bunAt t b).freed = x.freed) ∧
     (stepsEnded o = true → (up.width = 0 ∨ down.width = 0) → failed t)
   ((x.state = 3 ∨ (x.state = 2 ∧ x.spareAuto = true)) → ∃ t, exec (.retrain b v true o) s = .next t ∧ ends t) ∧
   (x.state ≠ 3 → ¬(x.state = 2 ∧ x.spareAuto = true) → exec (.retrain b v true o) s = .next s) ∧
   (Serves s → Clean v 0xF → wbit v 0 = false → wbit v 1 = true →
     (x.state = 2 → (2176 ≤ b ∨ x.gateShort = false) → ∃ t, exec (.retrain b v false o) s = .next t ∧ ends t ∧
       (stepsEnded o = false ∨ (up.width ≠ 0 ∧ down.width ≠ 0) → t.answer = .done)) ∧
     (x.state ≠ 2 → exec (.retrain b v false o) s = .next { s with answer := .badState })) ∧
   (x.state = 3 → stepsEnded o = false → stepLate s b o.up = true → stepLate s b o.down = true → o.up.overran ≠ some 1 →
     o.down.overran ≠ some 1 → ∃ t, exec (.trainingStepTimeout b o) s = .next t ∧ failed t ∧ rest t) ∧
   (x.state = 2 → exec (.laneRecalibrate b) s = .next (updBun s b fun x => { x with recalLane := (x.recalLane + 1) % 66 })) ∧
   (x.state ≠ 2 → exec (.laneRecalibrate b) s = .next s))

/-- MARGINAL_LANE (R408, R418), LINK_FLIT (R409 to R411, R419, R424), LINK_DOWN (R423) and UNCORRECTABLE_HEADER_FLIT
(R411): a lane with more errors corrected in the Day than the margin is marked and recorded, and moves to a free spare
of its half if it may; a LINK flit's counts replace the last, a die it reports down loses its credits and its rings,
and a request to retrain starts that; a link-down takes the bundle DOWN with its event mark; so does the eighth header
in a row that cannot be read, each of which is recorded. Corrected codewords are counted. -/
def Obligations.BundleEvents : Prop :=
  ∀ (s : State) (b : Nat),
  let x := bunAt s b
  let up := x.state = 2
  let rest (t : State) : Prop := ∀ i, i ≠ b → bunAt t i = bunAt s i
  let counted (t : State) (errs : List (Nat × Nat)) : Prop := (bunAt t b).corr = (countErrs x errs).corr ∧
    (bunAt t b).uncorr = (countErrs x errs).uncorr ∧ (bunAt t b).laneErrs = (countErrs x errs).laneErrs
  let one (t : State) : Prop := ∃ r, r ∈ t.log.fresh ∧ r.cls = 7 ∧ r.body = [(2, b), (1, 0)]
  let loses (i : Instr) (errs : List (Nat × Nat)) : Prop :=
    (x.badHeaders < 7 → ∃ t, exec i s = .next t ∧ (bunAt t b).state = 2 ∧ (bunAt t b).badHeaders = x.badHeaders + 1 ∧
      counted t errs ∧ one t ∧ rest t ∧ t.cores = s.cores) ∧
    (7 ≤ x.badHeaders → ∃ t, exec i s = .next t ∧ (bunAt t b).state = 0 ∧ (bunAt t b).downSeen = true ∧ counted t errs ∧ one t ∧
      rest t)
  let unbound (t : State) (die : Nat) : Prop := ∀ l, bundleCore s b = some (b, l) →
    (∀ y, y ∈ (coreAt t b).mv.creds → y.die ≠ die) ∧
    ∀ n, n < 16 → (ringAt (coreAt s b) n).enable = true → (ringAt (coreAt s b) n).kind = 2 → (ringAt (coreAt s b) n).die = die →
      (ringAt (coreAt t b) n).abandoned = true
  (∀ i more, let count := Store.get 0 x.laneErrs i + more
    let home := laneHome x.up i
    let spare := if x.spareAuto then freeSpare x.up (home / 32) else none
    let due := up ∧ s.pwr.margin < count ∧ x.marginal.contains i = false
    (¬due → exec (.marginalLane b i more) s = .next s) ∧
    (due → ∃ t, exec (.marginalLane b i more) s = .next t ∧ (bunAt t b).marginalSeen = true ∧ (bunAt t b).state = 2 ∧
      (bunAt t b).marginal = x.marginal ++ [i] ∧ (bunAt t b).laneErrs = Store.set 0 x.laneErrs i count ∧
      (bunAt t b).corr = min 0xFFFF (x.corr + more) ∧ (spare = none → (bunAt t b).up = x.up) ∧
      (∀ q, spare = some q → lanePos (bunAt t b).up home = q ∧
        (bunAt t b).up.bad = setInsert x.up.bad (lanePos x.up home)) ∧
      (∃ r, r ∈ t.log.fresh ∧ r.cls = 7 ∧ r.body = [(2, b), (1, 0), (2, lanePos x.up home), (4, count)]) ∧ rest t ∧
      t.cores = s.cores)) ∧
  (∀ f errs retrain, (¬up ∨ isLink f = false → exec (.linkFlit b f errs retrain) s = .next s) ∧
    (up → isLink f = true → lostWord errs = true → loses (.linkFlit b f errs retrain) errs) ∧
    (up → isLink f = true → lostWord errs = false → ∃ t, exec (.linkFlit b f errs retrain) s = .next t ∧
      (bunAt t b).peerFreed = linkCounts f ∧ (bunAt t b).badHeaders = 0 ∧ counted t errs ∧ rest t ∧
      ((bunAt t b).state = if retrain && x.spareAuto then 3 else 2) ∧ (linkDie f = none → t.cores = s.cores) ∧
      ∀ die, linkDie f = some die → unbound t die)) ∧
  (∀ lost, (x.state = 2 ∨ x.state = 3 → ∃ t, exec (.linkDown b lost) s = .next t ∧ (bunAt t b).state = 0 ∧
      (bunAt t b).downSeen = true ∧ (bunAt t b).clkLost = (x.clkLost || lost) ∧ rest t ∧
      (∃ r, r ∈ t.log.fresh ∧ r.cls = 7 ∧ r.body = [(2, b)] ∧ r.reported = true) ∧
      ∀ l, bundleCore s b = some (b, l) → (∀ y, y ∈ (coreAt t b).mv.creds → y.die = s.boot.dieId) ∧
        ∀ n, n < 16 → (ringAt (coreAt s b) n).enable = true → (ringAt (coreAt s b) n).kind = 3 →
          (ringAt (coreAt t b) n).abandoned = true) ∧
    (x.state ≠ 2 → x.state ≠ 3 → exec (.linkDown b lost) s = .next s)) ∧
  (∀ errs, (up → lostWord errs = true → loses (.uncorrectableHeaderFlit b errs) errs) ∧
    (¬up ∨ lostWord errs = false → exec (.uncorrectableHeaderFlit b errs) s = .next s))

/-- LINK_STATE, TELEMETRY and UNKNOWN_MESSAGE (R420, R421), LOOP_ENABLE, LOOP_TEST_START and LOOP_TEST_COMPLETE (R518,
R528): messages go down a management bundle in UP with the sequence byte, an unknown one is recorded; the loop test of
a bundle not in use shows the bundle's positions that failed. The body of a TELEMETRY message is a free value. -/
def Obligations.MessagesAndLoopTest : Prop :=
  ∀ s : State,
  let sent (code : Nat) (body : List (Nat × Nat)) : State :=
    { s with out := s.out ++ [.message code ((1, s.msgSeq) :: body)], msgSeq := (s.msgSeq + 1) % 256 }
  exec .linkState s = .next (if mgmtUp s then sent 10 [(1, linkStateCode s)] else s) ∧
  (∀ m, (bunAt s (2176 + m)).state ≠ 2 → exec (.telemetry m) s = .next s) ∧
  (∀ m, m < 8 → (bunAt s (2176 + m)).state = 2 → exec (.telemetry m) s = .next { sent 8 [(62, Config.freeBits s.free)] with
    free := s.free + 1 }) ∧
  (∀ m code, ((bunAt s (2176 + m)).state ≠ 2 ∨ code ∉ [1, 3, 4, 6, 10]) →
    ∃ t, exec (.unknownMessage m code) s = .next t ∧ recordsMade t = (recordsMade s + 1) % 2 ^ 32 ∧ t.cores = s.cores ∧
      t.bundles = s.bundles) ∧
  (∀ m code, (bunAt s (2176 + m)).state = 2 → code ∈ [1, 3, 4, 6, 10] → exec (.unknownMessage m code) s = .next s) ∧
  (∀ b v, Serves s → b < 2184 → Clean v 0xFFFF03 → fieldN v.toNat 8 16 ≠ 0 → wbit v 0 = true → wbit v 1 = false →
    ((bunAt s b).loop = true ∨ (bunAt s b).state = 0 ∨ (bunAt s b).state = 4 →
      ∃ t, exec (.loopEnable b v) s = .next t ∧ t.answer = .done ∧
        bunAt t b = { bunAt s b with loop := true, loopLen := fieldN v.toNat 8 16, state := 0 } ∧
        (∀ i, i ≠ b → bunAt t i = bunAt s i) ∧ t.cores = s.cores) ∧
    ((bunAt s b).loop = false → (bunAt s b).state ≠ 0 → (bunAt s b).state ≠ 4 →
      exec (.loopEnable b v) s = .next { s with answer := .badState })) ∧
  (∀ b v o, Serves s → b < 2184 → Clean v 0xFFFF03 → fieldN v.toNat 8 16 ≠ 0 → wbit v 0 = true → wbit v 1 = true →
    let free := (bunAt s b).loopBusy = false ∧ ((bunAt s b).loop = true ∨ (bunAt s b).state = 0 ∨ (bunAt s b).state = 4)
    (free → ∃ t, exec (.loopTestStart b v o) s = .next t ∧ t.answer = .done ∧
      bunAt t b = { bunAt s b with loop := true, loopLen := fieldN v.toNat 8 16, state := 0, loopBusy := true,
                                   up := (trainLink o (bunAt s b).up 0 ([], []) none).1 } ∧ t.cores = s.cores) ∧
    (¬free → exec (.loopTestStart b v o) s = .next { s with answer := .badState })) ∧
  (∀ b bad, (bunAt s b).loopBusy = false → exec (.loopTestComplete b bad) s = .next s) ∧
  (∀ b bad, (bunAt s b).loopBusy = true → ∃ t, exec (.loopTestComplete b bad) s = .next t ∧ (bunAt t b).loopBusy = false ∧
    (∀ q, q ∈ (bunAt t b).up.bad ↔ q ∈ (bunAt s b).up.bad ∨ (q ∈ bad ∧ q < 68)) ∧
    (bunAt t b).up.width = linkWidth (bunAt t b).up.bad (bunAt s b).up.clkBad ∧
    ((bunAt t b).loopPass = true ↔ (bunAt t b).up.width = 2) ∧ t.cores = s.cores)

/-- IDCODE, SAMPLE/PRELOAD, EXTEST, WRAP_1500, GSEL and BYPASS (R521, R522): IDCODE puts 0x1204854B on TDO; the
intrusive instructions act only at stage ROM with tap_lock 0, and otherwise as BYPASS with a record. Nothing outside
the TAP changes. -/
def Obligations.TapInstructions : Prop :=
  ∀ s : State, s.boot.powered = true →
  let at_ (code tdo : Nat) : Tap := { s.tap with ir := code, tdo := tdo, wrapper := none }
  exec .idcode s = .next { s with tap := at_ 0x01 0x1204854B } ∧
  (∀ load up, exec (.samplePreload load up) s = .next { s with tap := { at_ 0x02 (wireBits up) with dwr := load } }) ∧
  (∀ g, exec (.gsel g) s = .next { s with tap := { at_ 0x11 0 with gsel := g % 32 } }) ∧
  (∀ code, exec (.bypass code) s = .next { s with tap := at_ (code % 256) 0 }) ∧
  (s.boot.stage = 0 → s.tap.tapLock = false →
    (∀ up, exec (.extest up) s = .next { s with tap := at_ 0x03 (wireBits up) }) ∧
    exec .wrap1500 s = .next { s with tap := { at_ 0x10 0 with wrapper := some s.tap.gsel } }) ∧
  ((s.boot.stage ≠ 0 ∨ s.tap.tapLock = true) → ∀ i, (i = .wrap1500 ∨ ∃ up, i = .extest up) →
    ∃ t, exec i s = .next t ∧ t.tap = at_ 0xFF 0 ∧ recordsMade t = (recordsMade s + 1) % 2 ^ 32 ∧ t.cores = s.cores ∧
      t.bundles = s.bundles ∧ t.boot = s.boot)
end

