-- ==== Sys2Proof/Laws/Store.lean ====
section
/-!
SUPPORT. The finite tables: what a read after a write gives, and that every operation keeps the canonical form.
-/

namespace Sys2Proof.Machine

variable {α : Type}

theorem Store.get_insert_same (d : α) (m : Store α) (i : Nat) (x : α) : Store.get d (Store.insert m i x) i = x := by
  induction m with
  | nil => simp [Store.insert, Store.get]
  | cons e t ih =>
    obtain ⟨k, v⟩ := e
    unfold Store.insert
    split
    · simp [Store.get]
    · split
      · next h => simp [Store.get, h]
      · next h => simp [Store.get, h, ih]

theorem Store.get_insert_other (d : α) (m : Store α) (i j : Nat) (x : α) (h : j ≠ i) :
    Store.get d (Store.insert m i x) j = Store.get d m j := by
  induction m with
  | nil => simp [Store.insert, Store.get, h]
  | cons e t ih =>
    obtain ⟨k, v⟩ := e
    unfold Store.insert
    split
    · simp [Store.get, h]
    · split
      · next hk => subst hk; simp [Store.get, h]
      · simp [Store.get, ih]

theorem Store.get_erase_same (d : α) (m : Store α) (i : Nat) : Store.get d (Store.erase m i) i = d := by
  induction m with
  | nil => rfl
  | cons e t ih =>
    obtain ⟨k, v⟩ := e
    unfold Store.erase
    split
    · exact ih
    · next h => simp [Store.get, h, ih]

theorem Store.get_erase_other (d : α) (m : Store α) (i j : Nat) (h : j ≠ i) :
    Store.get d (Store.erase m i) j = Store.get d m j := by
  induction m with
  | nil => rfl
  | cons e t ih =>
    obtain ⟨k, v⟩ := e
    unfold Store.erase
    split
    · next hk => subst hk; simp [Store.get, h, ih]
    · simp [Store.get, ih]

/-- What is read at the written key is what was written. -/
@[simp] theorem Store.get_set_same [DecidableEq α] (d : α) (m : Store α) (i : Nat) (x : α) :
    Store.get d (Store.set d m i x) i = x := by
  unfold Store.set
  split
  · next h => rw [h, Store.get_erase_same]
  · exact Store.get_insert_same d m i x

/-- A write leaves every other key as it was. -/
theorem Store.get_set_other [DecidableEq α] (d d' : α) (m : Store α) (i j : Nat) (x : α) (h : j ≠ i) :
    Store.get d (Store.set d' m i x) j = Store.get d m j := by
  unfold Store.set
  split
  · exact Store.get_erase_other d m i j h
  · exact Store.get_insert_other d m i j x h

/-- A read after a write, at any key. -/
theorem Store.get_set [DecidableEq α] (d : α) (m : Store α) (i j : Nat) (x : α) :
    Store.get d (Store.set d m i x) j = if j = i then x else Store.get d m j := by
  split
  · next h => subst h; exact Store.get_set_same d m j x
  · next h => exact Store.get_set_other d d m i j x h

theorem Store.wfFrom_mono [DecidableEq α] (d : α) (m : Store α) (a b : Nat) (h : b ≤ a)
    (w : Store.wfFrom d a m = true) : Store.wfFrom d b m = true := by
  cases m with
  | nil => rfl
  | cons e t =>
    obtain ⟨k, v⟩ := e
    simp only [Store.wfFrom, Bool.and_eq_true, decide_eq_true_eq] at w ⊢
    exact ⟨⟨Nat.le_trans h w.1.1, w.1.2⟩, w.2⟩

theorem Store.wfFrom_insert [DecidableEq α] (d : α) (m : Store α) (a i : Nat) (x : α) (hx : x ≠ d) (h : a ≤ i)
    (w : Store.wfFrom d a m = true) : Store.wfFrom d a (Store.insert m i x) = true := by
  induction m generalizing a with
  | nil => simp [Store.insert, Store.wfFrom, h, hx]
  | cons e t ih =>
    obtain ⟨k, v⟩ := e
    simp only [Store.wfFrom, Bool.and_eq_true, decide_eq_true_eq] at w
    unfold Store.insert
    split
    · next hk =>
      simp only [Store.wfFrom, Bool.and_eq_true, decide_eq_true_eq]
      exact ⟨⟨h, hx⟩, ⟨Nat.succ_le_of_lt hk, w.1.2⟩, w.2⟩
    · split
      · next hk => simp only [Store.wfFrom, Bool.and_eq_true, decide_eq_true_eq]; exact ⟨⟨w.1.1, hx⟩, w.2⟩
      · next h1 h2 =>
        simp only [Store.wfFrom, Bool.and_eq_true, decide_eq_true_eq]
        exact ⟨w.1, ih (k + 1) (by omega) w.2⟩

theorem Store.wfFrom_erase [DecidableEq α] (d : α) (m : Store α) (a i : Nat)
    (w : Store.wfFrom d a m = true) : Store.wfFrom d a (Store.erase m i) = true := by
  induction m generalizing a with
  | nil => rfl
  | cons e t ih =>
    obtain ⟨k, v⟩ := e
    simp only [Store.wfFrom, Bool.and_eq_true, decide_eq_true_eq] at w
    unfold Store.erase
    split
    · exact Store.wfFrom_mono d _ (k + 1) a (by omega) (ih (k + 1) w.2)
    · simp only [Store.wfFrom, Bool.and_eq_true, decide_eq_true_eq]
      exact ⟨w.1, ih (k + 1) w.2⟩

/-- A write keeps the canonical form. -/
theorem Store.wf_set [DecidableEq α] (d : α) (m : Store α) (i : Nat) (x : α) (w : Store.wf d m = true) :
    Store.wf d (Store.set d m i x) = true := by
  unfold Store.set
  split
  · exact Store.wfFrom_erase d m 0 i w
  · next h => exact Store.wfFrom_insert d m 0 i x h (Nat.zero_le i) w

/-- A table from which entries are dropped keeps the canonical form. -/
theorem Store.wf_filter [DecidableEq α] (d : α) (m : Store α) (a : Nat) (f : Nat × α → Bool)
    (w : Store.wfFrom d a m = true) : Store.wfFrom d a (m.filter f) = true := by
  induction m generalizing a with
  | nil => rfl
  | cons e t ih =>
    obtain ⟨k, v⟩ := e
    simp only [Store.wfFrom, Bool.and_eq_true, decide_eq_true_eq] at w
    rw [List.filter_cons]
    split
    · simp only [Store.wfFrom, Bool.and_eq_true, decide_eq_true_eq]
      exact ⟨w.1, ih (k + 1) w.2⟩
    · exact Store.wfFrom_mono d _ (k + 1) a (by omega) (ih (k + 1) w.2)

end Sys2Proof.Machine
end

