-- ==== Sys2Proof/Laws/State.lean ====
section
/-!
SUPPORT. What each named update of the state and of a core leaves as it was, field by field, and what is read after it.
-/

namespace Sys2Proof.Machine


@[simp] theorem setCore_pending (s : State) (p : Nat) (k : Core) : (setCore s p k).pending = s.pending := rfl
@[simp] theorem setCore_gals (s : State) (p : Nat) (k : Core) : (setCore s p k).gals = s.gals := rfl
@[simp] theorem setCore_cavs (s : State) (p : Nat) (k : Core) : (setCore s p k).cavs = s.cavs := rfl
@[simp] theorem setCore_bundles (s : State) (p : Nat) (k : Core) : (setCore s p k).bundles = s.bundles := rfl
@[simp] theorem setCore_slots (s : State) (p : Nat) (k : Core) : (setCore s p k).slots = s.slots := rfl
@[simp] theorem setCore_news (s : State) (p : Nat) (k : Core) : (setCore s p k).news = s.news := rfl
@[simp] theorem setCore_net (s : State) (p : Nat) (k : Core) : (setCore s p k).net = s.net := rfl
@[simp] theorem setCore_day (s : State) (p : Nat) (k : Core) : (setCore s p k).day = s.day := rfl
@[simp] theorem setCore_held (s : State) (p : Nat) (k : Core) : (setCore s p k).held = s.held := rfl
@[simp] theorem setCore_boot (s : State) (p : Nat) (k : Core) : (setCore s p k).boot = s.boot := rfl
@[simp] theorem setCore_cfg (s : State) (p : Nat) (k : Core) : (setCore s p k).cfg = s.cfg := rfl
@[simp] theorem setCore_resets (s : State) (p : Nat) (k : Core) : (setCore s p k).resets = s.resets := rfl
@[simp] theorem setCore_log (s : State) (p : Nat) (k : Core) : (setCore s p k).log = s.log := rfl
@[simp] theorem setCore_attest (s : State) (p : Nat) (k : Core) : (setCore s p k).attest = s.attest := rfl
@[simp] theorem setCore_tap (s : State) (p : Nat) (k : Core) : (setCore s p k).tap = s.tap := rfl
@[simp] theorem setCore_pwr (s : State) (p : Nat) (k : Core) : (setCore s p k).pwr = s.pwr := rfl
@[simp] theorem setCore_echoQ (s : State) (p : Nat) (k : Core) : (setCore s p k).echoQ = s.echoQ := rfl
@[simp] theorem setCore_half (s : State) (p : Nat) (k : Core) : (setCore s p k).half = s.half := rfl
@[simp] theorem setCore_capture (s : State) (p : Nat) (k : Core) : (setCore s p k).capture = s.capture := rfl
@[simp] theorem setCore_fuse (s : State) (p : Nat) (k : Core) : (setCore s p k).fuse = s.fuse := rfl
@[simp] theorem setCore_out (s : State) (p : Nat) (k : Core) : (setCore s p k).out = s.out := rfl
@[simp] theorem setCore_answer (s : State) (p : Nat) (k : Core) : (setCore s p k).answer = s.answer := rfl
@[simp] theorem setCore_answerData (s : State) (p : Nat) (k : Core) : (setCore s p k).answerData = s.answerData := rfl
@[simp] theorem setCore_mNow (s : State) (p : Nat) (k : Core) : (setCore s p k).mNow = s.mNow := rfl
@[simp] theorem setCore_msgSeq (s : State) (p : Nat) (k : Core) : (setCore s p k).msgSeq = s.msgSeq := rfl
@[simp] theorem setCore_free (s : State) (p : Nat) (k : Core) : (setCore s p k).free = s.free := rfl

@[simp] theorem updCore_pending (s : State) (p : Nat) (f : Core → Core) : (updCore s p f).pending = s.pending := rfl
@[simp] theorem updCore_gals (s : State) (p : Nat) (f : Core → Core) : (updCore s p f).gals = s.gals := rfl
@[simp] theorem updCore_cavs (s : State) (p : Nat) (f : Core → Core) : (updCore s p f).cavs = s.cavs := rfl
@[simp] theorem updCore_bundles (s : State) (p : Nat) (f : Core → Core) : (updCore s p f).bundles = s.bundles := rfl
@[simp] theorem updCore_slots (s : State) (p : Nat) (f : Core → Core) : (updCore s p f).slots = s.slots := rfl
@[simp] theorem updCore_news (s : State) (p : Nat) (f : Core → Core) : (updCore s p f).news = s.news := rfl
@[simp] theorem updCore_net (s : State) (p : Nat) (f : Core → Core) : (updCore s p f).net = s.net := rfl
@[simp] theorem updCore_day (s : State) (p : Nat) (f : Core → Core) : (updCore s p f).day = s.day := rfl
@[simp] theorem updCore_held (s : State) (p : Nat) (f : Core → Core) : (updCore s p f).held = s.held := rfl
@[simp] theorem updCore_boot (s : State) (p : Nat) (f : Core → Core) : (updCore s p f).boot = s.boot := rfl
@[simp] theorem updCore_cfg (s : State) (p : Nat) (f : Core → Core) : (updCore s p f).cfg = s.cfg := rfl
@[simp] theorem updCore_resets (s : State) (p : Nat) (f : Core → Core) : (updCore s p f).resets = s.resets := rfl
@[simp] theorem updCore_log (s : State) (p : Nat) (f : Core → Core) : (updCore s p f).log = s.log := rfl
@[simp] theorem updCore_attest (s : State) (p : Nat) (f : Core → Core) : (updCore s p f).attest = s.attest := rfl
@[simp] theorem updCore_tap (s : State) (p : Nat) (f : Core → Core) : (updCore s p f).tap = s.tap := rfl
@[simp] theorem updCore_pwr (s : State) (p : Nat) (f : Core → Core) : (updCore s p f).pwr = s.pwr := rfl
@[simp] theorem updCore_echoQ (s : State) (p : Nat) (f : Core → Core) : (updCore s p f).echoQ = s.echoQ := rfl
@[simp] theorem updCore_half (s : State) (p : Nat) (f : Core → Core) : (updCore s p f).half = s.half := rfl
@[simp] theorem updCore_capture (s : State) (p : Nat) (f : Core → Core) : (updCore s p f).capture = s.capture := rfl
@[simp] theorem updCore_fuse (s : State) (p : Nat) (f : Core → Core) : (updCore s p f).fuse = s.fuse := rfl
@[simp] theorem updCore_out (s : State) (p : Nat) (f : Core → Core) : (updCore s p f).out = s.out := rfl
@[simp] theorem updCore_answer (s : State) (p : Nat) (f : Core → Core) : (updCore s p f).answer = s.answer := rfl
@[simp] theorem updCore_answerData (s : State) (p : Nat) (f : Core → Core) : (updCore s p f).answerData = s.answerData := rfl
@[simp] theorem updCore_mNow (s : State) (p : Nat) (f : Core → Core) : (updCore s p f).mNow = s.mNow := rfl
@[simp] theorem updCore_msgSeq (s : State) (p : Nat) (f : Core → Core) : (updCore s p f).msgSeq = s.msgSeq := rfl
@[simp] theorem updCore_free (s : State) (p : Nat) (f : Core → Core) : (updCore s p f).free = s.free := rfl

@[simp] theorem updQueue_pending (s : State) (p q : Nat) (f : Queue → Queue) : (updQueue s p q f).pending = s.pending := rfl
@[simp] theorem updQueue_gals (s : State) (p q : Nat) (f : Queue → Queue) : (updQueue s p q f).gals = s.gals := rfl
@[simp] theorem updQueue_cavs (s : State) (p q : Nat) (f : Queue → Queue) : (updQueue s p q f).cavs = s.cavs := rfl
@[simp] theorem updQueue_bundles (s : State) (p q : Nat) (f : Queue → Queue) : (updQueue s p q f).bundles = s.bundles := rfl
@[simp] theorem updQueue_slots (s : State) (p q : Nat) (f : Queue → Queue) : (updQueue s p q f).slots = s.slots := rfl
@[simp] theorem updQueue_news (s : State) (p q : Nat) (f : Queue → Queue) : (updQueue s p q f).news = s.news := rfl
@[simp] theorem updQueue_net (s : State) (p q : Nat) (f : Queue → Queue) : (updQueue s p q f).net = s.net := rfl
@[simp] theorem updQueue_day (s : State) (p q : Nat) (f : Queue → Queue) : (updQueue s p q f).day = s.day := rfl
@[simp] theorem updQueue_held (s : State) (p q : Nat) (f : Queue → Queue) : (updQueue s p q f).held = s.held := rfl
@[simp] theorem updQueue_boot (s : State) (p q : Nat) (f : Queue → Queue) : (updQueue s p q f).boot = s.boot := rfl
@[simp] theorem updQueue_cfg (s : State) (p q : Nat) (f : Queue → Queue) : (updQueue s p q f).cfg = s.cfg := rfl
@[simp] theorem updQueue_resets (s : State) (p q : Nat) (f : Queue → Queue) : (updQueue s p q f).resets = s.resets := rfl
@[simp] theorem updQueue_log (s : State) (p q : Nat) (f : Queue → Queue) : (updQueue s p q f).log = s.log := rfl
@[simp] theorem updQueue_attest (s : State) (p q : Nat) (f : Queue → Queue) : (updQueue s p q f).attest = s.attest := rfl
@[simp] theorem updQueue_tap (s : State) (p q : Nat) (f : Queue → Queue) : (updQueue s p q f).tap = s.tap := rfl
@[simp] theorem updQueue_pwr (s : State) (p q : Nat) (f : Queue → Queue) : (updQueue s p q f).pwr = s.pwr := rfl
@[simp] theorem updQueue_echoQ (s : State) (p q : Nat) (f : Queue → Queue) : (updQueue s p q f).echoQ = s.echoQ := rfl
@[simp] theorem updQueue_half (s : State) (p q : Nat) (f : Queue → Queue) : (updQueue s p q f).half = s.half := rfl
@[simp] theorem updQueue_capture (s : State) (p q : Nat) (f : Queue → Queue) : (updQueue s p q f).capture = s.capture := rfl
@[simp] theorem updQueue_fuse (s : State) (p q : Nat) (f : Queue → Queue) : (updQueue s p q f).fuse = s.fuse := rfl
@[simp] theorem updQueue_out (s : State) (p q : Nat) (f : Queue → Queue) : (updQueue s p q f).out = s.out := rfl
@[simp] theorem updQueue_answer (s : State) (p q : Nat) (f : Queue → Queue) : (updQueue s p q f).answer = s.answer := rfl
@[simp] theorem updQueue_answerData (s : State) (p q : Nat) (f : Queue → Queue) : (updQueue s p q f).answerData = s.answerData := rfl
@[simp] theorem updQueue_mNow (s : State) (p q : Nat) (f : Queue → Queue) : (updQueue s p q f).mNow = s.mNow := rfl
@[simp] theorem updQueue_msgSeq (s : State) (p q : Nat) (f : Queue → Queue) : (updQueue s p q f).msgSeq = s.msgSeq := rfl
@[simp] theorem updQueue_free (s : State) (p q : Nat) (f : Queue → Queue) : (updQueue s p q f).free = s.free := rfl

@[simp] theorem updCtx_pending (s : State) (p c : Nat) (f : Ctx → Ctx) : (updCtx s p c f).pending = s.pending := rfl
@[simp] theorem updCtx_gals (s : State) (p c : Nat) (f : Ctx → Ctx) : (updCtx s p c f).gals = s.gals := rfl
@[simp] theorem updCtx_cavs (s : State) (p c : Nat) (f : Ctx → Ctx) : (updCtx s p c f).cavs = s.cavs := rfl
@[simp] theorem updCtx_bundles (s : State) (p c : Nat) (f : Ctx → Ctx) : (updCtx s p c f).bundles = s.bundles := rfl
@[simp] theorem updCtx_slots (s : State) (p c : Nat) (f : Ctx → Ctx) : (updCtx s p c f).slots = s.slots := rfl
@[simp] theorem updCtx_news (s : State) (p c : Nat) (f : Ctx → Ctx) : (updCtx s p c f).news = s.news := rfl
@[simp] theorem updCtx_net (s : State) (p c : Nat) (f : Ctx → Ctx) : (updCtx s p c f).net = s.net := rfl
@[simp] theorem updCtx_day (s : State) (p c : Nat) (f : Ctx → Ctx) : (updCtx s p c f).day = s.day := rfl
@[simp] theorem updCtx_held (s : State) (p c : Nat) (f : Ctx → Ctx) : (updCtx s p c f).held = s.held := rfl
@[simp] theorem updCtx_boot (s : State) (p c : Nat) (f : Ctx → Ctx) : (updCtx s p c f).boot = s.boot := rfl
@[simp] theorem updCtx_cfg (s : State) (p c : Nat) (f : Ctx → Ctx) : (updCtx s p c f).cfg = s.cfg := rfl
@[simp] theorem updCtx_resets (s : State) (p c : Nat) (f : Ctx → Ctx) : (updCtx s p c f).resets = s.resets := rfl
@[simp] theorem updCtx_log (s : State) (p c : Nat) (f : Ctx → Ctx) : (updCtx s p c f).log = s.log := rfl
@[simp] theorem updCtx_attest (s : State) (p c : Nat) (f : Ctx → Ctx) : (updCtx s p c f).attest = s.attest := rfl
@[simp] theorem updCtx_tap (s : State) (p c : Nat) (f : Ctx → Ctx) : (updCtx s p c f).tap = s.tap := rfl
@[simp] theorem updCtx_pwr (s : State) (p c : Nat) (f : Ctx → Ctx) : (updCtx s p c f).pwr = s.pwr := rfl
@[simp] theorem updCtx_echoQ (s : State) (p c : Nat) (f : Ctx → Ctx) : (updCtx s p c f).echoQ = s.echoQ := rfl
@[simp] theorem updCtx_half (s : State) (p c : Nat) (f : Ctx → Ctx) : (updCtx s p c f).half = s.half := rfl
@[simp] theorem updCtx_capture (s : State) (p c : Nat) (f : Ctx → Ctx) : (updCtx s p c f).capture = s.capture := rfl
@[simp] theorem updCtx_fuse (s : State) (p c : Nat) (f : Ctx → Ctx) : (updCtx s p c f).fuse = s.fuse := rfl
@[simp] theorem updCtx_out (s : State) (p c : Nat) (f : Ctx → Ctx) : (updCtx s p c f).out = s.out := rfl
@[simp] theorem updCtx_answer (s : State) (p c : Nat) (f : Ctx → Ctx) : (updCtx s p c f).answer = s.answer := rfl
@[simp] theorem updCtx_answerData (s : State) (p c : Nat) (f : Ctx → Ctx) : (updCtx s p c f).answerData = s.answerData := rfl
@[simp] theorem updCtx_mNow (s : State) (p c : Nat) (f : Ctx → Ctx) : (updCtx s p c f).mNow = s.mNow := rfl
@[simp] theorem updCtx_msgSeq (s : State) (p c : Nat) (f : Ctx → Ctx) : (updCtx s p c f).msgSeq = s.msgSeq := rfl
@[simp] theorem updCtx_free (s : State) (p c : Nat) (f : Ctx → Ctx) : (updCtx s p c f).free = s.free := rfl

@[simp] theorem updGal_pending (s : State) (g : Nat) (f : Gal → Gal) : (updGal s g f).pending = s.pending := rfl
@[simp] theorem updGal_cores (s : State) (g : Nat) (f : Gal → Gal) : (updGal s g f).cores = s.cores := rfl
@[simp] theorem updGal_cavs (s : State) (g : Nat) (f : Gal → Gal) : (updGal s g f).cavs = s.cavs := rfl
@[simp] theorem updGal_bundles (s : State) (g : Nat) (f : Gal → Gal) : (updGal s g f).bundles = s.bundles := rfl
@[simp] theorem updGal_slots (s : State) (g : Nat) (f : Gal → Gal) : (updGal s g f).slots = s.slots := rfl
@[simp] theorem updGal_news (s : State) (g : Nat) (f : Gal → Gal) : (updGal s g f).news = s.news := rfl
@[simp] theorem updGal_net (s : State) (g : Nat) (f : Gal → Gal) : (updGal s g f).net = s.net := rfl
@[simp] theorem updGal_day (s : State) (g : Nat) (f : Gal → Gal) : (updGal s g f).day = s.day := rfl
@[simp] theorem updGal_held (s : State) (g : Nat) (f : Gal → Gal) : (updGal s g f).held = s.held := rfl
@[simp] theorem updGal_boot (s : State) (g : Nat) (f : Gal → Gal) : (updGal s g f).boot = s.boot := rfl
@[simp] theorem updGal_cfg (s : State) (g : Nat) (f : Gal → Gal) : (updGal s g f).cfg = s.cfg := rfl
@[simp] theorem updGal_resets (s : State) (g : Nat) (f : Gal → Gal) : (updGal s g f).resets = s.resets := rfl
@[simp] theorem updGal_log (s : State) (g : Nat) (f : Gal → Gal) : (updGal s g f).log = s.log := rfl
@[simp] theorem updGal_attest (s : State) (g : Nat) (f : Gal → Gal) : (updGal s g f).attest = s.attest := rfl
@[simp] theorem updGal_tap (s : State) (g : Nat) (f : Gal → Gal) : (updGal s g f).tap = s.tap := rfl
@[simp] theorem updGal_pwr (s : State) (g : Nat) (f : Gal → Gal) : (updGal s g f).pwr = s.pwr := rfl
@[simp] theorem updGal_echoQ (s : State) (g : Nat) (f : Gal → Gal) : (updGal s g f).echoQ = s.echoQ := rfl
@[simp] theorem updGal_half (s : State) (g : Nat) (f : Gal → Gal) : (updGal s g f).half = s.half := rfl
@[simp] theorem updGal_capture (s : State) (g : Nat) (f : Gal → Gal) : (updGal s g f).capture = s.capture := rfl
@[simp] theorem updGal_fuse (s : State) (g : Nat) (f : Gal → Gal) : (updGal s g f).fuse = s.fuse := rfl
@[simp] theorem updGal_out (s : State) (g : Nat) (f : Gal → Gal) : (updGal s g f).out = s.out := rfl
@[simp] theorem updGal_answer (s : State) (g : Nat) (f : Gal → Gal) : (updGal s g f).answer = s.answer := rfl
@[simp] theorem updGal_answerData (s : State) (g : Nat) (f : Gal → Gal) : (updGal s g f).answerData = s.answerData := rfl
@[simp] theorem updGal_mNow (s : State) (g : Nat) (f : Gal → Gal) : (updGal s g f).mNow = s.mNow := rfl
@[simp] theorem updGal_msgSeq (s : State) (g : Nat) (f : Gal → Gal) : (updGal s g f).msgSeq = s.msgSeq := rfl
@[simp] theorem updGal_free (s : State) (g : Nat) (f : Gal → Gal) : (updGal s g f).free = s.free := rfl

@[simp] theorem updCav_pending (s : State) (c : Nat) (f : Cav → Cav) : (updCav s c f).pending = s.pending := rfl
@[simp] theorem updCav_cores (s : State) (c : Nat) (f : Cav → Cav) : (updCav s c f).cores = s.cores := rfl
@[simp] theorem updCav_gals (s : State) (c : Nat) (f : Cav → Cav) : (updCav s c f).gals = s.gals := rfl
@[simp] theorem updCav_bundles (s : State) (c : Nat) (f : Cav → Cav) : (updCav s c f).bundles = s.bundles := rfl
@[simp] theorem updCav_slots (s : State) (c : Nat) (f : Cav → Cav) : (updCav s c f).slots = s.slots := rfl
@[simp] theorem updCav_news (s : State) (c : Nat) (f : Cav → Cav) : (updCav s c f).news = s.news := rfl
@[simp] theorem updCav_net (s : State) (c : Nat) (f : Cav → Cav) : (updCav s c f).net = s.net := rfl
@[simp] theorem updCav_day (s : State) (c : Nat) (f : Cav → Cav) : (updCav s c f).day = s.day := rfl
@[simp] theorem updCav_held (s : State) (c : Nat) (f : Cav → Cav) : (updCav s c f).held = s.held := rfl
@[simp] theorem updCav_boot (s : State) (c : Nat) (f : Cav → Cav) : (updCav s c f).boot = s.boot := rfl
@[simp] theorem updCav_cfg (s : State) (c : Nat) (f : Cav → Cav) : (updCav s c f).cfg = s.cfg := rfl
@[simp] theorem updCav_resets (s : State) (c : Nat) (f : Cav → Cav) : (updCav s c f).resets = s.resets := rfl
@[simp] theorem updCav_log (s : State) (c : Nat) (f : Cav → Cav) : (updCav s c f).log = s.log := rfl
@[simp] theorem updCav_attest (s : State) (c : Nat) (f : Cav → Cav) : (updCav s c f).attest = s.attest := rfl
@[simp] theorem updCav_tap (s : State) (c : Nat) (f : Cav → Cav) : (updCav s c f).tap = s.tap := rfl
@[simp] theorem updCav_pwr (s : State) (c : Nat) (f : Cav → Cav) : (updCav s c f).pwr = s.pwr := rfl
@[simp] theorem updCav_echoQ (s : State) (c : Nat) (f : Cav → Cav) : (updCav s c f).echoQ = s.echoQ := rfl
@[simp] theorem updCav_half (s : State) (c : Nat) (f : Cav → Cav) : (updCav s c f).half = s.half := rfl
@[simp] theorem updCav_capture (s : State) (c : Nat) (f : Cav → Cav) : (updCav s c f).capture = s.capture := rfl
@[simp] theorem updCav_fuse (s : State) (c : Nat) (f : Cav → Cav) : (updCav s c f).fuse = s.fuse := rfl
@[simp] theorem updCav_out (s : State) (c : Nat) (f : Cav → Cav) : (updCav s c f).out = s.out := rfl
@[simp] theorem updCav_answer (s : State) (c : Nat) (f : Cav → Cav) : (updCav s c f).answer = s.answer := rfl
@[simp] theorem updCav_answerData (s : State) (c : Nat) (f : Cav → Cav) : (updCav s c f).answerData = s.answerData := rfl
@[simp] theorem updCav_mNow (s : State) (c : Nat) (f : Cav → Cav) : (updCav s c f).mNow = s.mNow := rfl
@[simp] theorem updCav_msgSeq (s : State) (c : Nat) (f : Cav → Cav) : (updCav s c f).msgSeq = s.msgSeq := rfl
@[simp] theorem updCav_free (s : State) (c : Nat) (f : Cav → Cav) : (updCav s c f).free = s.free := rfl

@[simp] theorem updBun_pending (s : State) (b : Nat) (f : Bundle → Bundle) : (updBun s b f).pending = s.pending := rfl
@[simp] theorem updBun_cores (s : State) (b : Nat) (f : Bundle → Bundle) : (updBun s b f).cores = s.cores := rfl
@[simp] theorem updBun_gals (s : State) (b : Nat) (f : Bundle → Bundle) : (updBun s b f).gals = s.gals := rfl
@[simp] theorem updBun_cavs (s : State) (b : Nat) (f : Bundle → Bundle) : (updBun s b f).cavs = s.cavs := rfl
@[simp] theorem updBun_slots (s : State) (b : Nat) (f : Bundle → Bundle) : (updBun s b f).slots = s.slots := rfl
@[simp] theorem updBun_news (s : State) (b : Nat) (f : Bundle → Bundle) : (updBun s b f).news = s.news := rfl
@[simp] theorem updBun_net (s : State) (b : Nat) (f : Bundle → Bundle) : (updBun s b f).net = s.net := rfl
@[simp] theorem updBun_day (s : State) (b : Nat) (f : Bundle → Bundle) : (updBun s b f).day = s.day := rfl
@[simp] theorem updBun_held (s : State) (b : Nat) (f : Bundle → Bundle) : (updBun s b f).held = s.held := rfl
@[simp] theorem updBun_boot (s : State) (b : Nat) (f : Bundle → Bundle) : (updBun s b f).boot = s.boot := rfl
@[simp] theorem updBun_cfg (s : State) (b : Nat) (f : Bundle → Bundle) : (updBun s b f).cfg = s.cfg := rfl
@[simp] theorem updBun_resets (s : State) (b : Nat) (f : Bundle → Bundle) : (updBun s b f).resets = s.resets := rfl
@[simp] theorem updBun_log (s : State) (b : Nat) (f : Bundle → Bundle) : (updBun s b f).log = s.log := rfl
@[simp] theorem updBun_attest (s : State) (b : Nat) (f : Bundle → Bundle) : (updBun s b f).attest = s.attest := rfl
@[simp] theorem updBun_tap (s : State) (b : Nat) (f : Bundle → Bundle) : (updBun s b f).tap = s.tap := rfl
@[simp] theorem updBun_pwr (s : State) (b : Nat) (f : Bundle → Bundle) : (updBun s b f).pwr = s.pwr := rfl
@[simp] theorem updBun_echoQ (s : State) (b : Nat) (f : Bundle → Bundle) : (updBun s b f).echoQ = s.echoQ := rfl
@[simp] theorem updBun_half (s : State) (b : Nat) (f : Bundle → Bundle) : (updBun s b f).half = s.half := rfl
@[simp] theorem updBun_capture (s : State) (b : Nat) (f : Bundle → Bundle) : (updBun s b f).capture = s.capture := rfl
@[simp] theorem updBun_fuse (s : State) (b : Nat) (f : Bundle → Bundle) : (updBun s b f).fuse = s.fuse := rfl
@[simp] theorem updBun_out (s : State) (b : Nat) (f : Bundle → Bundle) : (updBun s b f).out = s.out := rfl
@[simp] theorem updBun_answer (s : State) (b : Nat) (f : Bundle → Bundle) : (updBun s b f).answer = s.answer := rfl
@[simp] theorem updBun_answerData (s : State) (b : Nat) (f : Bundle → Bundle) : (updBun s b f).answerData = s.answerData := rfl
@[simp] theorem updBun_mNow (s : State) (b : Nat) (f : Bundle → Bundle) : (updBun s b f).mNow = s.mNow := rfl
@[simp] theorem updBun_msgSeq (s : State) (b : Nat) (f : Bundle → Bundle) : (updBun s b f).msgSeq = s.msgSeq := rfl
@[simp] theorem updBun_free (s : State) (b : Nat) (f : Bundle → Bundle) : (updBun s b f).free = s.free := rfl

@[simp] theorem updSlot_pending (s : State) (n : Nat) (f : Slot → Slot) : (updSlot s n f).pending = s.pending := rfl
@[simp] theorem updSlot_cores (s : State) (n : Nat) (f : Slot → Slot) : (updSlot s n f).cores = s.cores := rfl
@[simp] theorem updSlot_gals (s : State) (n : Nat) (f : Slot → Slot) : (updSlot s n f).gals = s.gals := rfl
@[simp] theorem updSlot_cavs (s : State) (n : Nat) (f : Slot → Slot) : (updSlot s n f).cavs = s.cavs := rfl
@[simp] theorem updSlot_bundles (s : State) (n : Nat) (f : Slot → Slot) : (updSlot s n f).bundles = s.bundles := rfl
@[simp] theorem updSlot_news (s : State) (n : Nat) (f : Slot → Slot) : (updSlot s n f).news = s.news := rfl
@[simp] theorem updSlot_net (s : State) (n : Nat) (f : Slot → Slot) : (updSlot s n f).net = s.net := rfl
@[simp] theorem updSlot_day (s : State) (n : Nat) (f : Slot → Slot) : (updSlot s n f).day = s.day := rfl
@[simp] theorem updSlot_held (s : State) (n : Nat) (f : Slot → Slot) : (updSlot s n f).held = s.held := rfl
@[simp] theorem updSlot_boot (s : State) (n : Nat) (f : Slot → Slot) : (updSlot s n f).boot = s.boot := rfl
@[simp] theorem updSlot_cfg (s : State) (n : Nat) (f : Slot → Slot) : (updSlot s n f).cfg = s.cfg := rfl
@[simp] theorem updSlot_resets (s : State) (n : Nat) (f : Slot → Slot) : (updSlot s n f).resets = s.resets := rfl
@[simp] theorem updSlot_log (s : State) (n : Nat) (f : Slot → Slot) : (updSlot s n f).log = s.log := rfl
@[simp] theorem updSlot_attest (s : State) (n : Nat) (f : Slot → Slot) : (updSlot s n f).attest = s.attest := rfl
@[simp] theorem updSlot_tap (s : State) (n : Nat) (f : Slot → Slot) : (updSlot s n f).tap = s.tap := rfl
@[simp] theorem updSlot_pwr (s : State) (n : Nat) (f : Slot → Slot) : (updSlot s n f).pwr = s.pwr := rfl
@[simp] theorem updSlot_echoQ (s : State) (n : Nat) (f : Slot → Slot) : (updSlot s n f).echoQ = s.echoQ := rfl
@[simp] theorem updSlot_half (s : State) (n : Nat) (f : Slot → Slot) : (updSlot s n f).half = s.half := rfl
@[simp] theorem updSlot_capture (s : State) (n : Nat) (f : Slot → Slot) : (updSlot s n f).capture = s.capture := rfl
@[simp] theorem updSlot_fuse (s : State) (n : Nat) (f : Slot → Slot) : (updSlot s n f).fuse = s.fuse := rfl
@[simp] theorem updSlot_out (s : State) (n : Nat) (f : Slot → Slot) : (updSlot s n f).out = s.out := rfl
@[simp] theorem updSlot_answer (s : State) (n : Nat) (f : Slot → Slot) : (updSlot s n f).answer = s.answer := rfl
@[simp] theorem updSlot_answerData (s : State) (n : Nat) (f : Slot → Slot) : (updSlot s n f).answerData = s.answerData := rfl
@[simp] theorem updSlot_mNow (s : State) (n : Nat) (f : Slot → Slot) : (updSlot s n f).mNow = s.mNow := rfl
@[simp] theorem updSlot_msgSeq (s : State) (n : Nat) (f : Slot → Slot) : (updSlot s n f).msgSeq = s.msgSeq := rfl
@[simp] theorem updSlot_free (s : State) (n : Nat) (f : Slot → Slot) : (updSlot s n f).free = s.free := rfl

@[simp] theorem report_pending (s : State) (st : Status) : (report s st).pending = s.pending := rfl
@[simp] theorem report_cores (s : State) (st : Status) : (report s st).cores = s.cores := rfl
@[simp] theorem report_gals (s : State) (st : Status) : (report s st).gals = s.gals := rfl
@[simp] theorem report_cavs (s : State) (st : Status) : (report s st).cavs = s.cavs := rfl
@[simp] theorem report_bundles (s : State) (st : Status) : (report s st).bundles = s.bundles := rfl
@[simp] theorem report_slots (s : State) (st : Status) : (report s st).slots = s.slots := rfl
@[simp] theorem report_news (s : State) (st : Status) : (report s st).news = s.news := rfl
@[simp] theorem report_net (s : State) (st : Status) : (report s st).net = s.net := rfl
@[simp] theorem report_day (s : State) (st : Status) : (report s st).day = s.day := rfl
@[simp] theorem report_held (s : State) (st : Status) : (report s st).held = s.held := rfl
@[simp] theorem report_boot (s : State) (st : Status) : (report s st).boot = s.boot := rfl
@[simp] theorem report_cfg (s : State) (st : Status) : (report s st).cfg = s.cfg := rfl
@[simp] theorem report_resets (s : State) (st : Status) : (report s st).resets = s.resets := rfl
@[simp] theorem report_log (s : State) (st : Status) : (report s st).log = s.log := rfl
@[simp] theorem report_attest (s : State) (st : Status) : (report s st).attest = s.attest := rfl
@[simp] theorem report_tap (s : State) (st : Status) : (report s st).tap = s.tap := rfl
@[simp] theorem report_pwr (s : State) (st : Status) : (report s st).pwr = s.pwr := rfl
@[simp] theorem report_echoQ (s : State) (st : Status) : (report s st).echoQ = s.echoQ := rfl
@[simp] theorem report_half (s : State) (st : Status) : (report s st).half = s.half := rfl
@[simp] theorem report_capture (s : State) (st : Status) : (report s st).capture = s.capture := rfl
@[simp] theorem report_fuse (s : State) (st : Status) : (report s st).fuse = s.fuse := rfl
@[simp] theorem report_out (s : State) (st : Status) : (report s st).out = s.out := rfl
@[simp] theorem report_answerData (s : State) (st : Status) : (report s st).answerData = s.answerData := rfl
@[simp] theorem report_mNow (s : State) (st : Status) : (report s st).mNow = s.mNow := rfl
@[simp] theorem report_msgSeq (s : State) (st : Status) : (report s st).msgSeq = s.msgSeq := rfl
@[simp] theorem report_free (s : State) (st : Status) : (report s st).free = s.free := rfl

@[simp] theorem sendMsg_pending (s : State) (code : Nat) (body : List (Nat × Nat)) : (sendMsg s code body).pending = s.pending := by unfold sendMsg; split <;> rfl
@[simp] theorem sendMsg_cores (s : State) (code : Nat) (body : List (Nat × Nat)) : (sendMsg s code body).cores = s.cores := by unfold sendMsg; split <;> rfl
@[simp] theorem sendMsg_gals (s : State) (code : Nat) (body : List (Nat × Nat)) : (sendMsg s code body).gals = s.gals := by unfold sendMsg; split <;> rfl
@[simp] theorem sendMsg_cavs (s : State) (code : Nat) (body : List (Nat × Nat)) : (sendMsg s code body).cavs = s.cavs := by unfold sendMsg; split <;> rfl
@[simp] theorem sendMsg_bundles (s : State) (code : Nat) (body : List (Nat × Nat)) : (sendMsg s code body).bundles = s.bundles := by unfold sendMsg; split <;> rfl
@[simp] theorem sendMsg_slots (s : State) (code : Nat) (body : List (Nat × Nat)) : (sendMsg s code body).slots = s.slots := by unfold sendMsg; split <;> rfl
@[simp] theorem sendMsg_news (s : State) (code : Nat) (body : List (Nat × Nat)) : (sendMsg s code body).news = s.news := by unfold sendMsg; split <;> rfl
@[simp] theorem sendMsg_net (s : State) (code : Nat) (body : List (Nat × Nat)) : (sendMsg s code body).net = s.net := by unfold sendMsg; split <;> rfl
@[simp] theorem sendMsg_day (s : State) (code : Nat) (body : List (Nat × Nat)) : (sendMsg s code body).day = s.day := by unfold sendMsg; split <;> rfl
@[simp] theorem sendMsg_held (s : State) (code : Nat) (body : List (Nat × Nat)) : (sendMsg s code body).held = s.held := by unfold sendMsg; split <;> rfl
@[simp] theorem sendMsg_boot (s : State) (code : Nat) (body : List (Nat × Nat)) : (sendMsg s code body).boot = s.boot := by unfold sendMsg; split <;> rfl
@[simp] theorem sendMsg_cfg (s : State) (code : Nat) (body : List (Nat × Nat)) : (sendMsg s code body).cfg = s.cfg := by unfold sendMsg; split <;> rfl
@[simp] theorem sendMsg_resets (s : State) (code : Nat) (body : List (Nat × Nat)) : (sendMsg s code body).resets = s.resets := by unfold sendMsg; split <;> rfl
@[simp] theorem sendMsg_log (s : State) (code : Nat) (body : List (Nat × Nat)) : (sendMsg s code body).log = s.log := by unfold sendMsg; split <;> rfl
@[simp] theorem sendMsg_attest (s : State) (code : Nat) (body : List (Nat × Nat)) : (sendMsg s code body).attest = s.attest := by unfold sendMsg; split <;> rfl
@[simp] theorem sendMsg_tap (s : State) (code : Nat) (body : List (Nat × Nat)) : (sendMsg s code body).tap = s.tap := by unfold sendMsg; split <;> rfl
@[simp] theorem sendMsg_pwr (s : State) (code : Nat) (body : List (Nat × Nat)) : (sendMsg s code body).pwr = s.pwr := by unfold sendMsg; split <;> rfl
@[simp] theorem sendMsg_echoQ (s : State) (code : Nat) (body : List (Nat × Nat)) : (sendMsg s code body).echoQ = s.echoQ := by unfold sendMsg; split <;> rfl
@[simp] theorem sendMsg_half (s : State) (code : Nat) (body : List (Nat × Nat)) : (sendMsg s code body).half = s.half := by unfold sendMsg; split <;> rfl
@[simp] theorem sendMsg_capture (s : State) (code : Nat) (body : List (Nat × Nat)) : (sendMsg s code body).capture = s.capture := by unfold sendMsg; split <;> rfl
@[simp] theorem sendMsg_fuse (s : State) (code : Nat) (body : List (Nat × Nat)) : (sendMsg s code body).fuse = s.fuse := by unfold sendMsg; split <;> rfl
@[simp] theorem sendMsg_answer (s : State) (code : Nat) (body : List (Nat × Nat)) : (sendMsg s code body).answer = s.answer := by unfold sendMsg; split <;> rfl
@[simp] theorem sendMsg_answerData (s : State) (code : Nat) (body : List (Nat × Nat)) : (sendMsg s code body).answerData = s.answerData := by unfold sendMsg; split <;> rfl
@[simp] theorem sendMsg_mNow (s : State) (code : Nat) (body : List (Nat × Nat)) : (sendMsg s code body).mNow = s.mNow := by unfold sendMsg; split <;> rfl
@[simp] theorem sendMsg_free (s : State) (code : Nat) (body : List (Nat × Nat)) : (sendMsg s code body).free = s.free := by unfold sendMsg; split <;> rfl

@[simp] theorem report_answer (s : State) (st : Status) : (report s st).answer = st := rfl

/-! What is read after an update. -/

@[simp] theorem galAt_setCore (s : State) (p : Nat) (k : Core) (i : Nat) : galAt (setCore s p k) i = galAt s i := rfl
@[simp] theorem cavAt_setCore (s : State) (p : Nat) (k : Core) (i : Nat) : cavAt (setCore s p k) i = cavAt s i := rfl
@[simp] theorem bunAt_setCore (s : State) (p : Nat) (k : Core) (i : Nat) : bunAt (setCore s p k) i = bunAt s i := rfl
@[simp] theorem slotAt_setCore (s : State) (p : Nat) (k : Core) (i : Nat) : slotAt (setCore s p k) i = slotAt s i := rfl
@[simp] theorem galAt_updCore (s : State) (p : Nat) (f : Core → Core) (i : Nat) : galAt (updCore s p f) i = galAt s i := rfl
@[simp] theorem cavAt_updCore (s : State) (p : Nat) (f : Core → Core) (i : Nat) : cavAt (updCore s p f) i = cavAt s i := rfl
@[simp] theorem bunAt_updCore (s : State) (p : Nat) (f : Core → Core) (i : Nat) : bunAt (updCore s p f) i = bunAt s i := rfl
@[simp] theorem slotAt_updCore (s : State) (p : Nat) (f : Core → Core) (i : Nat) : slotAt (updCore s p f) i = slotAt s i := rfl
@[simp] theorem galAt_updQueue (s : State) (p q : Nat) (f : Queue → Queue) (i : Nat) : galAt (updQueue s p q f) i = galAt s i := rfl
@[simp] theorem cavAt_updQueue (s : State) (p q : Nat) (f : Queue → Queue) (i : Nat) : cavAt (updQueue s p q f) i = cavAt s i := rfl
@[simp] theorem bunAt_updQueue (s : State) (p q : Nat) (f : Queue → Queue) (i : Nat) : bunAt (updQueue s p q f) i = bunAt s i := rfl
@[simp] theorem slotAt_updQueue (s : State) (p q : Nat) (f : Queue → Queue) (i : Nat) : slotAt (updQueue s p q f) i = slotAt s i := rfl
@[simp] theorem galAt_updCtx (s : State) (p c : Nat) (f : Ctx → Ctx) (i : Nat) : galAt (updCtx s p c f) i = galAt s i := rfl
@[simp] theorem cavAt_updCtx (s : State) (p c : Nat) (f : Ctx → Ctx) (i : Nat) : cavAt (updCtx s p c f) i = cavAt s i := rfl
@[simp] theorem bunAt_updCtx (s : State) (p c : Nat) (f : Ctx → Ctx) (i : Nat) : bunAt (updCtx s p c f) i = bunAt s i := rfl
@[simp] theorem slotAt_updCtx (s : State) (p c : Nat) (f : Ctx → Ctx) (i : Nat) : slotAt (updCtx s p c f) i = slotAt s i := rfl
@[simp] theorem coreAt_updGal (s : State) (g : Nat) (f : Gal → Gal) (i : Nat) : coreAt (updGal s g f) i = coreAt s i := rfl
@[simp] theorem cavAt_updGal (s : State) (g : Nat) (f : Gal → Gal) (i : Nat) : cavAt (updGal s g f) i = cavAt s i := rfl
@[simp] theorem bunAt_updGal (s : State) (g : Nat) (f : Gal → Gal) (i : Nat) : bunAt (updGal s g f) i = bunAt s i := rfl
@[simp] theorem slotAt_updGal (s : State) (g : Nat) (f : Gal → Gal) (i : Nat) : slotAt (updGal s g f) i = slotAt s i := rfl
@[simp] theorem coreAt_updCav (s : State) (c : Nat) (f : Cav → Cav) (i : Nat) : coreAt (updCav s c f) i = coreAt s i := rfl
@[simp] theorem galAt_updCav (s : State) (c : Nat) (f : Cav → Cav) (i : Nat) : galAt (updCav s c f) i = galAt s i := rfl
@[simp] theorem bunAt_updCav (s : State) (c : Nat) (f : Cav → Cav) (i : Nat) : bunAt (updCav s c f) i = bunAt s i := rfl
@[simp] theorem slotAt_updCav (s : State) (c : Nat) (f : Cav → Cav) (i : Nat) : slotAt (updCav s c f) i = slotAt s i := rfl
@[simp] theorem coreAt_updBun (s : State) (b : Nat) (f : Bundle → Bundle) (i : Nat) : coreAt (updBun s b f) i = coreAt s i := rfl
@[simp] theorem galAt_updBun (s : State) (b : Nat) (f : Bundle → Bundle) (i : Nat) : galAt (updBun s b f) i = galAt s i := rfl
@[simp] theorem cavAt_updBun (s : State) (b : Nat) (f : Bundle → Bundle) (i : Nat) : cavAt (updBun s b f) i = cavAt s i := rfl
@[simp] theorem slotAt_updBun (s : State) (b : Nat) (f : Bundle → Bundle) (i : Nat) : slotAt (updBun s b f) i = slotAt s i := rfl
@[simp] theorem coreAt_updSlot (s : State) (n : Nat) (f : Slot → Slot) (i : Nat) : coreAt (updSlot s n f) i = coreAt s i := rfl
@[simp] theorem galAt_updSlot (s : State) (n : Nat) (f : Slot → Slot) (i : Nat) : galAt (updSlot s n f) i = galAt s i := rfl
@[simp] theorem cavAt_updSlot (s : State) (n : Nat) (f : Slot → Slot) (i : Nat) : cavAt (updSlot s n f) i = cavAt s i := rfl
@[simp] theorem bunAt_updSlot (s : State) (n : Nat) (f : Slot → Slot) (i : Nat) : bunAt (updSlot s n f) i = bunAt s i := rfl
@[simp] theorem coreAt_report (s : State) (st : Status) (i : Nat) : coreAt (report s st) i = coreAt s i := rfl
@[simp] theorem galAt_report (s : State) (st : Status) (i : Nat) : galAt (report s st) i = galAt s i := rfl
@[simp] theorem cavAt_report (s : State) (st : Status) (i : Nat) : cavAt (report s st) i = cavAt s i := rfl
@[simp] theorem bunAt_report (s : State) (st : Status) (i : Nat) : bunAt (report s st) i = bunAt s i := rfl
@[simp] theorem slotAt_report (s : State) (st : Status) (i : Nat) : slotAt (report s st) i = slotAt s i := rfl
@[simp] theorem coreAt_sendMsg (s : State) (code : Nat) (body : List (Nat × Nat)) (i : Nat) : coreAt (sendMsg s code body) i = coreAt s i := by simp only [coreAt, sendMsg_cores]
@[simp] theorem galAt_sendMsg (s : State) (code : Nat) (body : List (Nat × Nat)) (i : Nat) : galAt (sendMsg s code body) i = galAt s i := by simp only [galAt, sendMsg_gals]
@[simp] theorem cavAt_sendMsg (s : State) (code : Nat) (body : List (Nat × Nat)) (i : Nat) : cavAt (sendMsg s code body) i = cavAt s i := by simp only [cavAt, sendMsg_cavs]
@[simp] theorem bunAt_sendMsg (s : State) (code : Nat) (body : List (Nat × Nat)) (i : Nat) : bunAt (sendMsg s code body) i = bunAt s i := by simp only [bunAt, sendMsg_bundles]
@[simp] theorem slotAt_sendMsg (s : State) (code : Nat) (body : List (Nat × Nat)) (i : Nat) : slotAt (sendMsg s code body) i = slotAt s i := by simp only [slotAt, sendMsg_slots]

/-- A core read after it is set. -/
@[simp] theorem coreAt_setCore_same (s : State) (p : Nat) (k : Core) : coreAt (setCore s p k) p = k := by
  simp [coreAt, setCore]

theorem coreAt_setCore (s : State) (p i : Nat) (k : Core) :
    coreAt (setCore s p k) i = if i = p then k else coreAt s i := by
  simp [coreAt, setCore, Store.get_set]

@[simp] theorem coreAt_updCore_same (s : State) (p : Nat) (f : Core → Core) : coreAt (updCore s p f) p = f (coreAt s p) := by
  simp [updCore]

theorem coreAt_updCore (s : State) (p i : Nat) (f : Core → Core) :
    coreAt (updCore s p f) i = if i = p then f (coreAt s p) else coreAt s i := by
  simp [updCore, coreAt_setCore]

@[simp] theorem coreAt_updQueue_same (s : State) (p q : Nat) (f : Queue → Queue) :
    coreAt (updQueue s p q f) p = setQueue (coreAt s p) q (f (queueAt (coreAt s p) q)) := by
  simp [updQueue]

@[simp] theorem coreAt_updCtx_same (s : State) (p c : Nat) (f : Ctx → Ctx) :
    coreAt (updCtx s p c f) p = setCtx (coreAt s p) c (f (ctxAt (coreAt s p) c)) := by
  simp [updCtx]

theorem coreAt_updQueue (s : State) (p q i : Nat) (f : Queue → Queue) :
    coreAt (updQueue s p q f) i = if i = p then setQueue (coreAt s p) q (f (queueAt (coreAt s p) q)) else coreAt s i := by
  simp [updQueue, coreAt_updCore]

theorem coreAt_updCtx (s : State) (p c i : Nat) (f : Ctx → Ctx) :
    coreAt (updCtx s p c f) i = if i = p then setCtx (coreAt s p) c (f (ctxAt (coreAt s p) c)) else coreAt s i := by
  simp [updCtx, coreAt_updCore]

@[simp] theorem galAt_updGal_same (s : State) (g : Nat) (f : Gal → Gal) : galAt (updGal s g f) g = f (galAt s g) := by
  simp [galAt, updGal]

theorem galAt_updGal (s : State) (g i : Nat) (f : Gal → Gal) :
    galAt (updGal s g f) i = if i = g then f (galAt s g) else galAt s i := by
  simp [galAt, updGal, Store.get_set]

@[simp] theorem cavAt_updCav_same (s : State) (c : Nat) (f : Cav → Cav) : cavAt (updCav s c f) c = f (cavAt s c) := by
  simp [cavAt, updCav]

theorem cavAt_updCav (s : State) (c i : Nat) (f : Cav → Cav) :
    cavAt (updCav s c f) i = if i = c then f (cavAt s c) else cavAt s i := by
  simp [cavAt, updCav, Store.get_set]

@[simp] theorem bunAt_updBun_same (s : State) (b : Nat) (f : Bundle → Bundle) : bunAt (updBun s b f) b = f (bunAt s b) := by
  simp [bunAt, updBun]

theorem bunAt_updBun (s : State) (b i : Nat) (f : Bundle → Bundle) :
    bunAt (updBun s b f) i = if i = b then f (bunAt s b) else bunAt s i := by
  unfold bunAt updBun
  split
  · next h => subst h; simp [bunAt]
  · next h => exact Store.get_set_other _ _ _ _ _ _ h

@[simp] theorem slotAt_updSlot_same (s : State) (n : Nat) (f : Slot → Slot) : slotAt (updSlot s n f) n = f (slotAt s n) := by
  simp [slotAt, updSlot]

theorem slotAt_updSlot (s : State) (n i : Nat) (f : Slot → Slot) :
    slotAt (updSlot s n f) i = if i = n then f (slotAt s n) else slotAt s i := by
  simp [slotAt, updSlot, Store.get_set]

/-! Parts of a core. -/

@[simp] theorem setRing_tile (k : Core) (n : Nat) (x : Ring) : (setRing k n x).tile = k.tile := rfl
@[simp] theorem setRing_flow (k : Core) (n : Nat) (x : Ring) : (setRing k n x).flow = k.flow := rfl
@[simp] theorem setRing_outp (k : Core) (n : Nat) (x : Ring) : (setRing k n x).outp = k.outp := rfl
@[simp] theorem setRing_vec (k : Core) (n : Nat) (x : Ring) : (setRing k n x).vec = k.vec := rfl
@[simp] theorem setRing_census (k : Core) (n : Nat) (x : Ring) : (setRing k n x).census = k.census := rfl
@[simp] theorem setRing_mv (k : Core) (n : Nat) (x : Ring) : (setRing k n x).mv = k.mv := rfl
@[simp] theorem setRing_allots (k : Core) (n : Nat) (x : Ring) : (setRing k n x).allots = k.allots := rfl
@[simp] theorem setRing_wdogSeen (k : Core) (n : Nat) (x : Ring) : (setRing k n x).wdogSeen = k.wdogSeen := rfl
@[simp] theorem setRing_stuck (k : Core) (n : Nat) (x : Ring) : (setRing k n x).stuck = k.stuck := rfl
@[simp] theorem setRing_sync (k : Core) (n : Nat) (x : Ring) : (setRing k n x).sync = k.sync := rfl
@[simp] theorem setRing_queues (k : Core) (n : Nat) (x : Ring) : (setRing k n x).queues = k.queues := rfl
@[simp] theorem setRing_ctxs (k : Core) (n : Nat) (x : Ring) : (setRing k n x).ctxs = k.ctxs := rfl
@[simp] theorem setRing_op (k : Core) (n : Nat) (x : Ring) : (setRing k n x).op = k.op := rfl
@[simp] theorem setRing_track (k : Core) (n : Nat) (x : Ring) : (setRing k n x).track = k.track := rfl
@[simp] theorem setRing_nextTrack (k : Core) (n : Nat) (x : Ring) : (setRing k n x).nextTrack = k.nextTrack := rfl
@[simp] theorem setRing_ecc (k : Core) (n : Nat) (x : Ring) : (setRing k n x).ecc = k.ecc := rfl
@[simp] theorem setRing_eccDay (k : Core) (n : Nat) (x : Ring) : (setRing k n x).eccDay = k.eccDay := rfl
@[simp] theorem setRing_upsets (k : Core) (n : Nat) (x : Ring) : (setRing k n x).upsets = k.upsets := rfl
@[simp] theorem setRing_late (k : Core) (n : Nat) (x : Ring) : (setRing k n x).late = k.late := rfl
@[simp] theorem setRing_hw (k : Core) (n : Nat) (x : Ring) : (setRing k n x).hw = k.hw := rfl
@[simp] theorem setRing_gateShort (k : Core) (n : Nat) (x : Ring) : (setRing k n x).gateShort = k.gateShort := rfl
@[simp] theorem setRing_repair (k : Core) (n : Nat) (x : Ring) : (setRing k n x).repair = k.repair := rfl
@[simp] theorem setRing_found (k : Core) (n : Nat) (x : Ring) : (setRing k n x).found = k.found := rfl
@[simp] theorem winAt_setRing (k : Core) (n : Nat) (x : Ring) (i : Nat) : winAt (setRing k n x) i = winAt k i := rfl
@[simp] theorem descAt_setRing (k : Core) (n : Nat) (x : Ring) (i : Nat) : descAt (setRing k n x) i = descAt k i := rfl
@[simp] theorem ctxAt_setRing (k : Core) (n : Nat) (x : Ring) (i : Nat) : ctxAt (setRing k n x) i = ctxAt k i := rfl
@[simp] theorem queueAt_setRing (k : Core) (n : Nat) (x : Ring) (i : Nat) : queueAt (setRing k n x) i = queueAt k i := rfl
@[simp] theorem cntAt_setRing (k : Core) (n : Nat) (x : Ring) (i : Nat) : cntAt (setRing k n x) i = cntAt k i := rfl
@[simp] theorem allotAt_setRing (k : Core) (n : Nat) (x : Ring) (i : Nat) : allotAt (setRing k n x) i = allotAt k i := rfl
@[simp] theorem rowAt_setRing (k : Core) (n : Nat) (x : Ring) (i : Nat) : rowAt (setRing k n x) i = rowAt k i := rfl
@[simp] theorem trowAt_setRing (k : Core) (n : Nat) (x : Ring) (i : Nat) : trowAt (setRing k n x) i = trowAt k i := rfl

@[simp] theorem ringAt_setRing_same (k : Core) (n : Nat) (x : Ring) : ringAt (setRing k n x) n = x := by
  simp [ringAt, setRing]

theorem ringAt_setRing (k : Core) (n i : Nat) (x : Ring) : ringAt (setRing k n x) i = if i = n then x else ringAt k i := by
  unfold ringAt setRing
  split
  · next h => subst h; simp
  · next h => exact Store.get_set_other _ _ _ _ _ _ h

@[simp] theorem setWin_tile (k : Core) (w : Nat) (x : Win) : (setWin k w x).tile = k.tile := rfl
@[simp] theorem setWin_flow (k : Core) (w : Nat) (x : Win) : (setWin k w x).flow = k.flow := rfl
@[simp] theorem setWin_outp (k : Core) (w : Nat) (x : Win) : (setWin k w x).outp = k.outp := rfl
@[simp] theorem setWin_vec (k : Core) (w : Nat) (x : Win) : (setWin k w x).vec = k.vec := rfl
@[simp] theorem setWin_census (k : Core) (w : Nat) (x : Win) : (setWin k w x).census = k.census := rfl
@[simp] theorem setWin_pool (k : Core) (w : Nat) (x : Win) : (setWin k w x).pool = k.pool := rfl
@[simp] theorem setWin_allots (k : Core) (w : Nat) (x : Win) : (setWin k w x).allots = k.allots := rfl
@[simp] theorem setWin_wdogSeen (k : Core) (w : Nat) (x : Win) : (setWin k w x).wdogSeen = k.wdogSeen := rfl
@[simp] theorem setWin_stuck (k : Core) (w : Nat) (x : Win) : (setWin k w x).stuck = k.stuck := rfl
@[simp] theorem setWin_sync (k : Core) (w : Nat) (x : Win) : (setWin k w x).sync = k.sync := rfl
@[simp] theorem setWin_queues (k : Core) (w : Nat) (x : Win) : (setWin k w x).queues = k.queues := rfl
@[simp] theorem setWin_ctxs (k : Core) (w : Nat) (x : Win) : (setWin k w x).ctxs = k.ctxs := rfl
@[simp] theorem setWin_op (k : Core) (w : Nat) (x : Win) : (setWin k w x).op = k.op := rfl
@[simp] theorem setWin_track (k : Core) (w : Nat) (x : Win) : (setWin k w x).track = k.track := rfl
@[simp] theorem setWin_nextTrack (k : Core) (w : Nat) (x : Win) : (setWin k w x).nextTrack = k.nextTrack := rfl
@[simp] theorem setWin_ecc (k : Core) (w : Nat) (x : Win) : (setWin k w x).ecc = k.ecc := rfl
@[simp] theorem setWin_eccDay (k : Core) (w : Nat) (x : Win) : (setWin k w x).eccDay = k.eccDay := rfl
@[simp] theorem setWin_upsets (k : Core) (w : Nat) (x : Win) : (setWin k w x).upsets = k.upsets := rfl
@[simp] theorem setWin_late (k : Core) (w : Nat) (x : Win) : (setWin k w x).late = k.late := rfl
@[simp] theorem setWin_hw (k : Core) (w : Nat) (x : Win) : (setWin k w x).hw = k.hw := rfl
@[simp] theorem setWin_gateShort (k : Core) (w : Nat) (x : Win) : (setWin k w x).gateShort = k.gateShort := rfl
@[simp] theorem setWin_repair (k : Core) (w : Nat) (x : Win) : (setWin k w x).repair = k.repair := rfl
@[simp] theorem setWin_found (k : Core) (w : Nat) (x : Win) : (setWin k w x).found = k.found := rfl
@[simp] theorem ringAt_setWin (k : Core) (w : Nat) (x : Win) (i : Nat) : ringAt (setWin k w x) i = ringAt k i := rfl
@[simp] theorem descAt_setWin (k : Core) (w : Nat) (x : Win) (i : Nat) : descAt (setWin k w x) i = descAt k i := rfl
@[simp] theorem ctxAt_setWin (k : Core) (w : Nat) (x : Win) (i : Nat) : ctxAt (setWin k w x) i = ctxAt k i := rfl
@[simp] theorem queueAt_setWin (k : Core) (w : Nat) (x : Win) (i : Nat) : queueAt (setWin k w x) i = queueAt k i := rfl
@[simp] theorem cntAt_setWin (k : Core) (w : Nat) (x : Win) (i : Nat) : cntAt (setWin k w x) i = cntAt k i := rfl
@[simp] theorem allotAt_setWin (k : Core) (w : Nat) (x : Win) (i : Nat) : allotAt (setWin k w x) i = allotAt k i := rfl
@[simp] theorem rowAt_setWin (k : Core) (w : Nat) (x : Win) (i : Nat) : rowAt (setWin k w x) i = rowAt k i := rfl
@[simp] theorem trowAt_setWin (k : Core) (w : Nat) (x : Win) (i : Nat) : trowAt (setWin k w x) i = trowAt k i := rfl

@[simp] theorem winAt_setWin_same (k : Core) (w : Nat) (x : Win) : winAt (setWin k w x) w = x := by
  simp [winAt, setWin]

theorem winAt_setWin (k : Core) (w i : Nat) (x : Win) : winAt (setWin k w x) i = if i = w then x else winAt k i := by
  simp [winAt, setWin, Store.get_set]

@[simp] theorem setDesc_tile (k : Core) (t : Nat) (x : Desc) : (setDesc k t x).tile = k.tile := rfl
@[simp] theorem setDesc_outp (k : Core) (t : Nat) (x : Desc) : (setDesc k t x).outp = k.outp := rfl
@[simp] theorem setDesc_vec (k : Core) (t : Nat) (x : Desc) : (setDesc k t x).vec = k.vec := rfl
@[simp] theorem setDesc_census (k : Core) (t : Nat) (x : Desc) : (setDesc k t x).census = k.census := rfl
@[simp] theorem setDesc_pool (k : Core) (t : Nat) (x : Desc) : (setDesc k t x).pool = k.pool := rfl
@[simp] theorem setDesc_mv (k : Core) (t : Nat) (x : Desc) : (setDesc k t x).mv = k.mv := rfl
@[simp] theorem setDesc_allots (k : Core) (t : Nat) (x : Desc) : (setDesc k t x).allots = k.allots := rfl
@[simp] theorem setDesc_wdogSeen (k : Core) (t : Nat) (x : Desc) : (setDesc k t x).wdogSeen = k.wdogSeen := rfl
@[simp] theorem setDesc_stuck (k : Core) (t : Nat) (x : Desc) : (setDesc k t x).stuck = k.stuck := rfl
@[simp] theorem setDesc_sync (k : Core) (t : Nat) (x : Desc) : (setDesc k t x).sync = k.sync := rfl
@[simp] theorem setDesc_queues (k : Core) (t : Nat) (x : Desc) : (setDesc k t x).queues = k.queues := rfl
@[simp] theorem setDesc_ctxs (k : Core) (t : Nat) (x : Desc) : (setDesc k t x).ctxs = k.ctxs := rfl
@[simp] theorem setDesc_op (k : Core) (t : Nat) (x : Desc) : (setDesc k t x).op = k.op := rfl
@[simp] theorem setDesc_track (k : Core) (t : Nat) (x : Desc) : (setDesc k t x).track = k.track := rfl
@[simp] theorem setDesc_nextTrack (k : Core) (t : Nat) (x : Desc) : (setDesc k t x).nextTrack = k.nextTrack := rfl
@[simp] theorem setDesc_ecc (k : Core) (t : Nat) (x : Desc) : (setDesc k t x).ecc = k.ecc := rfl
@[simp] theorem setDesc_eccDay (k : Core) (t : Nat) (x : Desc) : (setDesc k t x).eccDay = k.eccDay := rfl
@[simp] theorem setDesc_upsets (k : Core) (t : Nat) (x : Desc) : (setDesc k t x).upsets = k.upsets := rfl
@[simp] theorem setDesc_late (k : Core) (t : Nat) (x : Desc) : (setDesc k t x).late = k.late := rfl
@[simp] theorem setDesc_hw (k : Core) (t : Nat) (x : Desc) : (setDesc k t x).hw = k.hw := rfl
@[simp] theorem setDesc_gateShort (k : Core) (t : Nat) (x : Desc) : (setDesc k t x).gateShort = k.gateShort := rfl
@[simp] theorem setDesc_repair (k : Core) (t : Nat) (x : Desc) : (setDesc k t x).repair = k.repair := rfl
@[simp] theorem setDesc_found (k : Core) (t : Nat) (x : Desc) : (setDesc k t x).found = k.found := rfl
@[simp] theorem ringAt_setDesc (k : Core) (t : Nat) (x : Desc) (i : Nat) : ringAt (setDesc k t x) i = ringAt k i := rfl
@[simp] theorem winAt_setDesc (k : Core) (t : Nat) (x : Desc) (i : Nat) : winAt (setDesc k t x) i = winAt k i := rfl
@[simp] theorem ctxAt_setDesc (k : Core) (t : Nat) (x : Desc) (i : Nat) : ctxAt (setDesc k t x) i = ctxAt k i := rfl
@[simp] theorem queueAt_setDesc (k : Core) (t : Nat) (x : Desc) (i : Nat) : queueAt (setDesc k t x) i = queueAt k i := rfl
@[simp] theorem cntAt_setDesc (k : Core) (t : Nat) (x : Desc) (i : Nat) : cntAt (setDesc k t x) i = cntAt k i := rfl
@[simp] theorem allotAt_setDesc (k : Core) (t : Nat) (x : Desc) (i : Nat) : allotAt (setDesc k t x) i = allotAt k i := rfl
@[simp] theorem rowAt_setDesc (k : Core) (t : Nat) (x : Desc) (i : Nat) : rowAt (setDesc k t x) i = rowAt k i := rfl
@[simp] theorem trowAt_setDesc (k : Core) (t : Nat) (x : Desc) (i : Nat) : trowAt (setDesc k t x) i = trowAt k i := rfl

@[simp] theorem descAt_setDesc_same (k : Core) (t : Nat) (x : Desc) : descAt (setDesc k t x) t = x := by
  simp [descAt, setDesc]

theorem descAt_setDesc (k : Core) (t i : Nat) (x : Desc) : descAt (setDesc k t x) i = if i = t then x else descAt k i := by
  simp [descAt, setDesc, Store.get_set]

@[simp] theorem setCtx_tile (k : Core) (c : Nat) (x : Ctx) : (setCtx k c x).tile = k.tile := rfl
@[simp] theorem setCtx_flow (k : Core) (c : Nat) (x : Ctx) : (setCtx k c x).flow = k.flow := rfl
@[simp] theorem setCtx_outp (k : Core) (c : Nat) (x : Ctx) : (setCtx k c x).outp = k.outp := rfl
@[simp] theorem setCtx_vec (k : Core) (c : Nat) (x : Ctx) : (setCtx k c x).vec = k.vec := rfl
@[simp] theorem setCtx_census (k : Core) (c : Nat) (x : Ctx) : (setCtx k c x).census = k.census := rfl
@[simp] theorem setCtx_pool (k : Core) (c : Nat) (x : Ctx) : (setCtx k c x).pool = k.pool := rfl
@[simp] theorem setCtx_mv (k : Core) (c : Nat) (x : Ctx) : (setCtx k c x).mv = k.mv := rfl
@[simp] theorem setCtx_allots (k : Core) (c : Nat) (x : Ctx) : (setCtx k c x).allots = k.allots := rfl
@[simp] theorem setCtx_wdogSeen (k : Core) (c : Nat) (x : Ctx) : (setCtx k c x).wdogSeen = k.wdogSeen := rfl
@[simp] theorem setCtx_stuck (k : Core) (c : Nat) (x : Ctx) : (setCtx k c x).stuck = k.stuck := rfl
@[simp] theorem setCtx_sync (k : Core) (c : Nat) (x : Ctx) : (setCtx k c x).sync = k.sync := rfl
@[simp] theorem setCtx_queues (k : Core) (c : Nat) (x : Ctx) : (setCtx k c x).queues = k.queues := rfl
@[simp] theorem setCtx_op (k : Core) (c : Nat) (x : Ctx) : (setCtx k c x).op = k.op := rfl
@[simp] theorem setCtx_track (k : Core) (c : Nat) (x : Ctx) : (setCtx k c x).track = k.track := rfl
@[simp] theorem setCtx_nextTrack (k : Core) (c : Nat) (x : Ctx) : (setCtx k c x).nextTrack = k.nextTrack := rfl
@[simp] theorem setCtx_ecc (k : Core) (c : Nat) (x : Ctx) : (setCtx k c x).ecc = k.ecc := rfl
@[simp] theorem setCtx_eccDay (k : Core) (c : Nat) (x : Ctx) : (setCtx k c x).eccDay = k.eccDay := rfl
@[simp] theorem setCtx_upsets (k : Core) (c : Nat) (x : Ctx) : (setCtx k c x).upsets = k.upsets := rfl
@[simp] theorem setCtx_late (k : Core) (c : Nat) (x : Ctx) : (setCtx k c x).late = k.late := rfl
@[simp] theorem setCtx_hw (k : Core) (c : Nat) (x : Ctx) : (setCtx k c x).hw = k.hw := rfl
@[simp] theorem setCtx_gateShort (k : Core) (c : Nat) (x : Ctx) : (setCtx k c x).gateShort = k.gateShort := rfl
@[simp] theorem setCtx_repair (k : Core) (c : Nat) (x : Ctx) : (setCtx k c x).repair = k.repair := rfl
@[simp] theorem setCtx_found (k : Core) (c : Nat) (x : Ctx) : (setCtx k c x).found = k.found := rfl
@[simp] theorem ringAt_setCtx (k : Core) (c : Nat) (x : Ctx) (i : Nat) : ringAt (setCtx k c x) i = ringAt k i := rfl
@[simp] theorem winAt_setCtx (k : Core) (c : Nat) (x : Ctx) (i : Nat) : winAt (setCtx k c x) i = winAt k i := rfl
@[simp] theorem descAt_setCtx (k : Core) (c : Nat) (x : Ctx) (i : Nat) : descAt (setCtx k c x) i = descAt k i := rfl
@[simp] theorem queueAt_setCtx (k : Core) (c : Nat) (x : Ctx) (i : Nat) : queueAt (setCtx k c x) i = queueAt k i := rfl
@[simp] theorem cntAt_setCtx (k : Core) (c : Nat) (x : Ctx) (i : Nat) : cntAt (setCtx k c x) i = cntAt k i := rfl
@[simp] theorem allotAt_setCtx (k : Core) (c : Nat) (x : Ctx) (i : Nat) : allotAt (setCtx k c x) i = allotAt k i := rfl
@[simp] theorem rowAt_setCtx (k : Core) (c : Nat) (x : Ctx) (i : Nat) : rowAt (setCtx k c x) i = rowAt k i := rfl
@[simp] theorem trowAt_setCtx (k : Core) (c : Nat) (x : Ctx) (i : Nat) : trowAt (setCtx k c x) i = trowAt k i := rfl

@[simp] theorem ctxAt_setCtx_same (k : Core) (c : Nat) (x : Ctx) : ctxAt (setCtx k c x) c = x := by
  simp [ctxAt, setCtx]

theorem ctxAt_setCtx (k : Core) (c i : Nat) (x : Ctx) : ctxAt (setCtx k c x) i = if i = c then x else ctxAt k i := by
  simp [ctxAt, setCtx, Store.get_set]

@[simp] theorem setQueue_tile (k : Core) (q : Nat) (x : Queue) : (setQueue k q x).tile = k.tile := rfl
@[simp] theorem setQueue_flow (k : Core) (q : Nat) (x : Queue) : (setQueue k q x).flow = k.flow := rfl
@[simp] theorem setQueue_outp (k : Core) (q : Nat) (x : Queue) : (setQueue k q x).outp = k.outp := rfl
@[simp] theorem setQueue_vec (k : Core) (q : Nat) (x : Queue) : (setQueue k q x).vec = k.vec := rfl
@[simp] theorem setQueue_census (k : Core) (q : Nat) (x : Queue) : (setQueue k q x).census = k.census := rfl
@[simp] theorem setQueue_pool (k : Core) (q : Nat) (x : Queue) : (setQueue k q x).pool = k.pool := rfl
@[simp] theorem setQueue_mv (k : Core) (q : Nat) (x : Queue) : (setQueue k q x).mv = k.mv := rfl
@[simp] theorem setQueue_allots (k : Core) (q : Nat) (x : Queue) : (setQueue k q x).allots = k.allots := rfl
@[simp] theorem setQueue_wdogSeen (k : Core) (q : Nat) (x : Queue) : (setQueue k q x).wdogSeen = k.wdogSeen := rfl
@[simp] theorem setQueue_stuck (k : Core) (q : Nat) (x : Queue) : (setQueue k q x).stuck = k.stuck := rfl
@[simp] theorem setQueue_sync (k : Core) (q : Nat) (x : Queue) : (setQueue k q x).sync = k.sync := rfl
@[simp] theorem setQueue_ctxs (k : Core) (q : Nat) (x : Queue) : (setQueue k q x).ctxs = k.ctxs := rfl
@[simp] theorem setQueue_op (k : Core) (q : Nat) (x : Queue) : (setQueue k q x).op = k.op := rfl
@[simp] theorem setQueue_track (k : Core) (q : Nat) (x : Queue) : (setQueue k q x).track = k.track := rfl
@[simp] theorem setQueue_nextTrack (k : Core) (q : Nat) (x : Queue) : (setQueue k q x).nextTrack = k.nextTrack := rfl
@[simp] theorem setQueue_ecc (k : Core) (q : Nat) (x : Queue) : (setQueue k q x).ecc = k.ecc := rfl
@[simp] theorem setQueue_eccDay (k : Core) (q : Nat) (x : Queue) : (setQueue k q x).eccDay = k.eccDay := rfl
@[simp] theorem setQueue_upsets (k : Core) (q : Nat) (x : Queue) : (setQueue k q x).upsets = k.upsets := rfl
@[simp] theorem setQueue_late (k : Core) (q : Nat) (x : Queue) : (setQueue k q x).late = k.late := rfl
@[simp] theorem setQueue_hw (k : Core) (q : Nat) (x : Queue) : (setQueue k q x).hw = k.hw := rfl
@[simp] theorem setQueue_gateShort (k : Core) (q : Nat) (x : Queue) : (setQueue k q x).gateShort = k.gateShort := rfl
@[simp] theorem setQueue_repair (k : Core) (q : Nat) (x : Queue) : (setQueue k q x).repair = k.repair := rfl
@[simp] theorem setQueue_found (k : Core) (q : Nat) (x : Queue) : (setQueue k q x).found = k.found := rfl
@[simp] theorem ringAt_setQueue (k : Core) (q : Nat) (x : Queue) (i : Nat) : ringAt (setQueue k q x) i = ringAt k i := rfl
@[simp] theorem winAt_setQueue (k : Core) (q : Nat) (x : Queue) (i : Nat) : winAt (setQueue k q x) i = winAt k i := rfl
@[simp] theorem descAt_setQueue (k : Core) (q : Nat) (x : Queue) (i : Nat) : descAt (setQueue k q x) i = descAt k i := rfl
@[simp] theorem ctxAt_setQueue (k : Core) (q : Nat) (x : Queue) (i : Nat) : ctxAt (setQueue k q x) i = ctxAt k i := rfl
@[simp] theorem cntAt_setQueue (k : Core) (q : Nat) (x : Queue) (i : Nat) : cntAt (setQueue k q x) i = cntAt k i := rfl
@[simp] theorem allotAt_setQueue (k : Core) (q : Nat) (x : Queue) (i : Nat) : allotAt (setQueue k q x) i = allotAt k i := rfl
@[simp] theorem rowAt_setQueue (k : Core) (q : Nat) (x : Queue) (i : Nat) : rowAt (setQueue k q x) i = rowAt k i := rfl
@[simp] theorem trowAt_setQueue (k : Core) (q : Nat) (x : Queue) (i : Nat) : trowAt (setQueue k q x) i = trowAt k i := rfl

@[simp] theorem queueAt_setQueue_same (k : Core) (q : Nat) (x : Queue) : queueAt (setQueue k q x) q = x := by
  simp [queueAt, setQueue]

theorem queueAt_setQueue (k : Core) (q i : Nat) (x : Queue) : queueAt (setQueue k q x) i = if i = q then x else queueAt k i := by
  simp [queueAt, setQueue, Store.get_set]

@[simp] theorem setCnt_tile (k : Core) (n : Nat) (x : Counter) : (setCnt k n x).tile = k.tile := rfl
@[simp] theorem setCnt_flow (k : Core) (n : Nat) (x : Counter) : (setCnt k n x).flow = k.flow := rfl
@[simp] theorem setCnt_outp (k : Core) (n : Nat) (x : Counter) : (setCnt k n x).outp = k.outp := rfl
@[simp] theorem setCnt_vec (k : Core) (n : Nat) (x : Counter) : (setCnt k n x).vec = k.vec := rfl
@[simp] theorem setCnt_census (k : Core) (n : Nat) (x : Counter) : (setCnt k n x).census = k.census := rfl
@[simp] theorem setCnt_pool (k : Core) (n : Nat) (x : Counter) : (setCnt k n x).pool = k.pool := rfl
@[simp] theorem setCnt_mv (k : Core) (n : Nat) (x : Counter) : (setCnt k n x).mv = k.mv := rfl
@[simp] theorem setCnt_allots (k : Core) (n : Nat) (x : Counter) : (setCnt k n x).allots = k.allots := rfl
@[simp] theorem setCnt_wdogSeen (k : Core) (n : Nat) (x : Counter) : (setCnt k n x).wdogSeen = k.wdogSeen := rfl
@[simp] theorem setCnt_stuck (k : Core) (n : Nat) (x : Counter) : (setCnt k n x).stuck = k.stuck := rfl
@[simp] theorem setCnt_queues (k : Core) (n : Nat) (x : Counter) : (setCnt k n x).queues = k.queues := rfl
@[simp] theorem setCnt_ctxs (k : Core) (n : Nat) (x : Counter) : (setCnt k n x).ctxs = k.ctxs := rfl
@[simp] theorem setCnt_op (k : Core) (n : Nat) (x : Counter) : (setCnt k n x).op = k.op := rfl
@[simp] theorem setCnt_track (k : Core) (n : Nat) (x : Counter) : (setCnt k n x).track = k.track := rfl
@[simp] theorem setCnt_nextTrack (k : Core) (n : Nat) (x : Counter) : (setCnt k n x).nextTrack = k.nextTrack := rfl
@[simp] theorem setCnt_ecc (k : Core) (n : Nat) (x : Counter) : (setCnt k n x).ecc = k.ecc := rfl
@[simp] theorem setCnt_eccDay (k : Core) (n : Nat) (x : Counter) : (setCnt k n x).eccDay = k.eccDay := rfl
@[simp] theorem setCnt_upsets (k : Core) (n : Nat) (x : Counter) : (setCnt k n x).upsets = k.upsets := rfl
@[simp] theorem setCnt_late (k : Core) (n : Nat) (x : Counter) : (setCnt k n x).late = k.late := rfl
@[simp] theorem setCnt_hw (k : Core) (n : Nat) (x : Counter) : (setCnt k n x).hw = k.hw := rfl
@[simp] theorem setCnt_gateShort (k : Core) (n : Nat) (x : Counter) : (setCnt k n x).gateShort = k.gateShort := rfl
@[simp] theorem setCnt_repair (k : Core) (n : Nat) (x : Counter) : (setCnt k n x).repair = k.repair := rfl
@[simp] theorem setCnt_found (k : Core) (n : Nat) (x : Counter) : (setCnt k n x).found = k.found := rfl
@[simp] theorem ringAt_setCnt (k : Core) (n : Nat) (x : Counter) (i : Nat) : ringAt (setCnt k n x) i = ringAt k i := rfl
@[simp] theorem winAt_setCnt (k : Core) (n : Nat) (x : Counter) (i : Nat) : winAt (setCnt k n x) i = winAt k i := rfl
@[simp] theorem descAt_setCnt (k : Core) (n : Nat) (x : Counter) (i : Nat) : descAt (setCnt k n x) i = descAt k i := rfl
@[simp] theorem ctxAt_setCnt (k : Core) (n : Nat) (x : Counter) (i : Nat) : ctxAt (setCnt k n x) i = ctxAt k i := rfl
@[simp] theorem queueAt_setCnt (k : Core) (n : Nat) (x : Counter) (i : Nat) : queueAt (setCnt k n x) i = queueAt k i := rfl
@[simp] theorem allotAt_setCnt (k : Core) (n : Nat) (x : Counter) (i : Nat) : allotAt (setCnt k n x) i = allotAt k i := rfl
@[simp] theorem rowAt_setCnt (k : Core) (n : Nat) (x : Counter) (i : Nat) : rowAt (setCnt k n x) i = rowAt k i := rfl
@[simp] theorem trowAt_setCnt (k : Core) (n : Nat) (x : Counter) (i : Nat) : trowAt (setCnt k n x) i = trowAt k i := rfl

@[simp] theorem cntAt_setCnt_same (k : Core) (n : Nat) (x : Counter) : cntAt (setCnt k n x) n = x := by
  simp [cntAt, setCnt]

theorem cntAt_setCnt (k : Core) (n i : Nat) (x : Counter) : cntAt (setCnt k n x) i = if i = n then x else cntAt k i := by
  simp [cntAt, setCnt, Store.get_set]

@[simp] theorem setAllot_tile (k : Core) (q : Nat) (x : Allot) : (setAllot k q x).tile = k.tile := rfl
@[simp] theorem setAllot_flow (k : Core) (q : Nat) (x : Allot) : (setAllot k q x).flow = k.flow := rfl
@[simp] theorem setAllot_outp (k : Core) (q : Nat) (x : Allot) : (setAllot k q x).outp = k.outp := rfl
@[simp] theorem setAllot_vec (k : Core) (q : Nat) (x : Allot) : (setAllot k q x).vec = k.vec := rfl
@[simp] theorem setAllot_census (k : Core) (q : Nat) (x : Allot) : (setAllot k q x).census = k.census := rfl
@[simp] theorem setAllot_pool (k : Core) (q : Nat) (x : Allot) : (setAllot k q x).pool = k.pool := rfl
@[simp] theorem setAllot_mv (k : Core) (q : Nat) (x : Allot) : (setAllot k q x).mv = k.mv := rfl
@[simp] theorem setAllot_wdogSeen (k : Core) (q : Nat) (x : Allot) : (setAllot k q x).wdogSeen = k.wdogSeen := rfl
@[simp] theorem setAllot_stuck (k : Core) (q : Nat) (x : Allot) : (setAllot k q x).stuck = k.stuck := rfl
@[simp] theorem setAllot_sync (k : Core) (q : Nat) (x : Allot) : (setAllot k q x).sync = k.sync := rfl
@[simp] theorem setAllot_queues (k : Core) (q : Nat) (x : Allot) : (setAllot k q x).queues = k.queues := rfl
@[simp] theorem setAllot_ctxs (k : Core) (q : Nat) (x : Allot) : (setAllot k q x).ctxs = k.ctxs := rfl
@[simp] theorem setAllot_op (k : Core) (q : Nat) (x : Allot) : (setAllot k q x).op = k.op := rfl
@[simp] theorem setAllot_track (k : Core) (q : Nat) (x : Allot) : (setAllot k q x).track = k.track := rfl
@[simp] theorem setAllot_nextTrack (k : Core) (q : Nat) (x : Allot) : (setAllot k q x).nextTrack = k.nextTrack := rfl
@[simp] theorem setAllot_ecc (k : Core) (q : Nat) (x : Allot) : (setAllot k q x).ecc = k.ecc := rfl
@[simp] theorem setAllot_eccDay (k : Core) (q : Nat) (x : Allot) : (setAllot k q x).eccDay = k.eccDay := rfl
@[simp] theorem setAllot_upsets (k : Core) (q : Nat) (x : Allot) : (setAllot k q x).upsets = k.upsets := rfl
@[simp] theorem setAllot_late (k : Core) (q : Nat) (x : Allot) : (setAllot k q x).late = k.late := rfl
@[simp] theorem setAllot_hw (k : Core) (q : Nat) (x : Allot) : (setAllot k q x).hw = k.hw := rfl
@[simp] theorem setAllot_gateShort (k : Core) (q : Nat) (x : Allot) : (setAllot k q x).gateShort = k.gateShort := rfl
@[simp] theorem setAllot_repair (k : Core) (q : Nat) (x : Allot) : (setAllot k q x).repair = k.repair := rfl
@[simp] theorem setAllot_found (k : Core) (q : Nat) (x : Allot) : (setAllot k q x).found = k.found := rfl
@[simp] theorem ringAt_setAllot (k : Core) (q : Nat) (x : Allot) (i : Nat) : ringAt (setAllot k q x) i = ringAt k i := rfl
@[simp] theorem winAt_setAllot (k : Core) (q : Nat) (x : Allot) (i : Nat) : winAt (setAllot k q x) i = winAt k i := rfl
@[simp] theorem descAt_setAllot (k : Core) (q : Nat) (x : Allot) (i : Nat) : descAt (setAllot k q x) i = descAt k i := rfl
@[simp] theorem ctxAt_setAllot (k : Core) (q : Nat) (x : Allot) (i : Nat) : ctxAt (setAllot k q x) i = ctxAt k i := rfl
@[simp] theorem queueAt_setAllot (k : Core) (q : Nat) (x : Allot) (i : Nat) : queueAt (setAllot k q x) i = queueAt k i := rfl
@[simp] theorem cntAt_setAllot (k : Core) (q : Nat) (x : Allot) (i : Nat) : cntAt (setAllot k q x) i = cntAt k i := rfl
@[simp] theorem rowAt_setAllot (k : Core) (q : Nat) (x : Allot) (i : Nat) : rowAt (setAllot k q x) i = rowAt k i := rfl
@[simp] theorem trowAt_setAllot (k : Core) (q : Nat) (x : Allot) (i : Nat) : trowAt (setAllot k q x) i = trowAt k i := rfl

@[simp] theorem allotAt_setAllot_same (k : Core) (q : Nat) (x : Allot) : allotAt (setAllot k q x) q = x := by
  simp [allotAt, setAllot]

theorem allotAt_setAllot (k : Core) (q i : Nat) (x : Allot) : allotAt (setAllot k q x) i = if i = q then x else allotAt k i := by
  simp [allotAt, setAllot, Store.get_set]

@[simp] theorem setRow_tile (k : Core) (r : Nat) (x : Row) : (setRow k r x).tile = k.tile := rfl
@[simp] theorem setRow_flow (k : Core) (r : Nat) (x : Row) : (setRow k r x).flow = k.flow := rfl
@[simp] theorem setRow_outp (k : Core) (r : Nat) (x : Row) : (setRow k r x).outp = k.outp := rfl
@[simp] theorem setRow_vec (k : Core) (r : Nat) (x : Row) : (setRow k r x).vec = k.vec := rfl
@[simp] theorem setRow_census (k : Core) (r : Nat) (x : Row) : (setRow k r x).census = k.census := rfl
@[simp] theorem setRow_mv (k : Core) (r : Nat) (x : Row) : (setRow k r x).mv = k.mv := rfl
@[simp] theorem setRow_allots (k : Core) (r : Nat) (x : Row) : (setRow k r x).allots = k.allots := rfl
@[simp] theorem setRow_wdogSeen (k : Core) (r : Nat) (x : Row) : (setRow k r x).wdogSeen = k.wdogSeen := rfl
@[simp] theorem setRow_stuck (k : Core) (r : Nat) (x : Row) : (setRow k r x).stuck = k.stuck := rfl
@[simp] theorem setRow_sync (k : Core) (r : Nat) (x : Row) : (setRow k r x).sync = k.sync := rfl
@[simp] theorem setRow_queues (k : Core) (r : Nat) (x : Row) : (setRow k r x).queues = k.queues := rfl
@[simp] theorem setRow_ctxs (k : Core) (r : Nat) (x : Row) : (setRow k r x).ctxs = k.ctxs := rfl
@[simp] theorem setRow_op (k : Core) (r : Nat) (x : Row) : (setRow k r x).op = k.op := rfl
@[simp] theorem setRow_track (k : Core) (r : Nat) (x : Row) : (setRow k r x).track = k.track := rfl
@[simp] theorem setRow_nextTrack (k : Core) (r : Nat) (x : Row) : (setRow k r x).nextTrack = k.nextTrack := rfl
@[simp] theorem setRow_ecc (k : Core) (r : Nat) (x : Row) : (setRow k r x).ecc = k.ecc := rfl
@[simp] theorem setRow_eccDay (k : Core) (r : Nat) (x : Row) : (setRow k r x).eccDay = k.eccDay := rfl
@[simp] theorem setRow_upsets (k : Core) (r : Nat) (x : Row) : (setRow k r x).upsets = k.upsets := rfl
@[simp] theorem setRow_late (k : Core) (r : Nat) (x : Row) : (setRow k r x).late = k.late := rfl
@[simp] theorem setRow_hw (k : Core) (r : Nat) (x : Row) : (setRow k r x).hw = k.hw := rfl
@[simp] theorem setRow_gateShort (k : Core) (r : Nat) (x : Row) : (setRow k r x).gateShort = k.gateShort := rfl
@[simp] theorem setRow_repair (k : Core) (r : Nat) (x : Row) : (setRow k r x).repair = k.repair := rfl
@[simp] theorem setRow_found (k : Core) (r : Nat) (x : Row) : (setRow k r x).found = k.found := rfl
@[simp] theorem ringAt_setRow (k : Core) (r : Nat) (x : Row) (i : Nat) : ringAt (setRow k r x) i = ringAt k i := rfl
@[simp] theorem winAt_setRow (k : Core) (r : Nat) (x : Row) (i : Nat) : winAt (setRow k r x) i = winAt k i := rfl
@[simp] theorem descAt_setRow (k : Core) (r : Nat) (x : Row) (i : Nat) : descAt (setRow k r x) i = descAt k i := rfl
@[simp] theorem ctxAt_setRow (k : Core) (r : Nat) (x : Row) (i : Nat) : ctxAt (setRow k r x) i = ctxAt k i := rfl
@[simp] theorem queueAt_setRow (k : Core) (r : Nat) (x : Row) (i : Nat) : queueAt (setRow k r x) i = queueAt k i := rfl
@[simp] theorem cntAt_setRow (k : Core) (r : Nat) (x : Row) (i : Nat) : cntAt (setRow k r x) i = cntAt k i := rfl
@[simp] theorem allotAt_setRow (k : Core) (r : Nat) (x : Row) (i : Nat) : allotAt (setRow k r x) i = allotAt k i := rfl
@[simp] theorem trowAt_setRow (k : Core) (r : Nat) (x : Row) (i : Nat) : trowAt (setRow k r x) i = trowAt k i := rfl

@[simp] theorem rowAt_setRow_same (k : Core) (r : Nat) (x : Row) : rowAt (setRow k r x) r = x := by
  simp [rowAt, setRow]

theorem rowAt_setRow (k : Core) (r i : Nat) (x : Row) : rowAt (setRow k r x) i = if i = r then x else rowAt k i := by
  simp [rowAt, setRow, Store.get_set]

@[simp] theorem setTrow_tile (k : Core) (r : Nat) (x : TileRow) : (setTrow k r x).tile = k.tile := rfl
@[simp] theorem setTrow_outp (k : Core) (r : Nat) (x : TileRow) : (setTrow k r x).outp = k.outp := rfl
@[simp] theorem setTrow_vec (k : Core) (r : Nat) (x : TileRow) : (setTrow k r x).vec = k.vec := rfl
@[simp] theorem setTrow_census (k : Core) (r : Nat) (x : TileRow) : (setTrow k r x).census = k.census := rfl
@[simp] theorem setTrow_pool (k : Core) (r : Nat) (x : TileRow) : (setTrow k r x).pool = k.pool := rfl
@[simp] theorem setTrow_mv (k : Core) (r : Nat) (x : TileRow) : (setTrow k r x).mv = k.mv := rfl
@[simp] theorem setTrow_allots (k : Core) (r : Nat) (x : TileRow) : (setTrow k r x).allots = k.allots := rfl
@[simp] theorem setTrow_wdogSeen (k : Core) (r : Nat) (x : TileRow) : (setTrow k r x).wdogSeen = k.wdogSeen := rfl
@[simp] theorem setTrow_stuck (k : Core) (r : Nat) (x : TileRow) : (setTrow k r x).stuck = k.stuck := rfl
@[simp] theorem setTrow_sync (k : Core) (r : Nat) (x : TileRow) : (setTrow k r x).sync = k.sync := rfl
@[simp] theorem setTrow_queues (k : Core) (r : Nat) (x : TileRow) : (setTrow k r x).queues = k.queues := rfl
@[simp] theorem setTrow_ctxs (k : Core) (r : Nat) (x : TileRow) : (setTrow k r x).ctxs = k.ctxs := rfl
@[simp] theorem setTrow_op (k : Core) (r : Nat) (x : TileRow) : (setTrow k r x).op = k.op := rfl
@[simp] theorem setTrow_track (k : Core) (r : Nat) (x : TileRow) : (setTrow k r x).track = k.track := rfl
@[simp] theorem setTrow_nextTrack (k : Core) (r : Nat) (x : TileRow) : (setTrow k r x).nextTrack = k.nextTrack := rfl
@[simp] theorem setTrow_ecc (k : Core) (r : Nat) (x : TileRow) : (setTrow k r x).ecc = k.ecc := rfl
@[simp] theorem setTrow_eccDay (k : Core) (r : Nat) (x : TileRow) : (setTrow k r x).eccDay = k.eccDay := rfl
@[simp] theorem setTrow_upsets (k : Core) (r : Nat) (x : TileRow) : (setTrow k r x).upsets = k.upsets := rfl
@[simp] theorem setTrow_late (k : Core) (r : Nat) (x : TileRow) : (setTrow k r x).late = k.late := rfl
@[simp] theorem setTrow_hw (k : Core) (r : Nat) (x : TileRow) : (setTrow k r x).hw = k.hw := rfl
@[simp] theorem setTrow_gateShort (k : Core) (r : Nat) (x : TileRow) : (setTrow k r x).gateShort = k.gateShort := rfl
@[simp] theorem setTrow_repair (k : Core) (r : Nat) (x : TileRow) : (setTrow k r x).repair = k.repair := rfl
@[simp] theorem setTrow_found (k : Core) (r : Nat) (x : TileRow) : (setTrow k r x).found = k.found := rfl
@[simp] theorem ringAt_setTrow (k : Core) (r : Nat) (x : TileRow) (i : Nat) : ringAt (setTrow k r x) i = ringAt k i := rfl
@[simp] theorem winAt_setTrow (k : Core) (r : Nat) (x : TileRow) (i : Nat) : winAt (setTrow k r x) i = winAt k i := rfl
@[simp] theorem descAt_setTrow (k : Core) (r : Nat) (x : TileRow) (i : Nat) : descAt (setTrow k r x) i = descAt k i := rfl
@[simp] theorem ctxAt_setTrow (k : Core) (r : Nat) (x : TileRow) (i : Nat) : ctxAt (setTrow k r x) i = ctxAt k i := rfl
@[simp] theorem queueAt_setTrow (k : Core) (r : Nat) (x : TileRow) (i : Nat) : queueAt (setTrow k r x) i = queueAt k i := rfl
@[simp] theorem cntAt_setTrow (k : Core) (r : Nat) (x : TileRow) (i : Nat) : cntAt (setTrow k r x) i = cntAt k i := rfl
@[simp] theorem allotAt_setTrow (k : Core) (r : Nat) (x : TileRow) (i : Nat) : allotAt (setTrow k r x) i = allotAt k i := rfl
@[simp] theorem rowAt_setTrow (k : Core) (r : Nat) (x : TileRow) (i : Nat) : rowAt (setTrow k r x) i = rowAt k i := rfl

@[simp] theorem trowAt_setTrow_same (k : Core) (r : Nat) (x : TileRow) : trowAt (setTrow k r x) r = x := by
  simp [trowAt, setTrow]

theorem trowAt_setTrow (k : Core) (r i : Nat) (x : TileRow) : trowAt (setTrow k r x) i = if i = r then x else trowAt k i := by
  simp [trowAt, setTrow, Store.get_set]

@[simp] theorem setRing_pool_rows (k : Core) (n : Nat) (x : Ring) : (setRing k n x).pool.rows = k.pool.rows := rfl
@[simp] theorem setRow_pool_was (k : Core) (r : Nat) (x : Row) : (setRow k r x).pool.was = k.pool.was := rfl
@[simp] theorem setRing_pool_was (k : Core) (n : Nat) (x : Ring) : (setRing k n x).pool.was = k.pool.was := rfl
@[simp] theorem setRow_pool_marks (k : Core) (r : Nat) (x : Row) : (setRow k r x).pool.marks = k.pool.marks := rfl
@[simp] theorem setRing_pool_marks (k : Core) (n : Nat) (x : Ring) : (setRing k n x).pool.marks = k.pool.marks := rfl
@[simp] theorem setRow_pool_plan (k : Core) (r : Nat) (x : Row) : (setRow k r x).pool.plan = k.pool.plan := rfl
@[simp] theorem setRing_pool_plan (k : Core) (n : Nat) (x : Ring) : (setRing k n x).pool.plan = k.pool.plan := rfl
@[simp] theorem setRow_pool_given (k : Core) (r : Nat) (x : Row) : (setRow k r x).pool.given = k.pool.given := rfl
@[simp] theorem setRing_pool_given (k : Core) (n : Nat) (x : Ring) : (setRing k n x).pool.given = k.pool.given := rfl
@[simp] theorem setRow_pool_rings (k : Core) (r : Nat) (x : Row) : (setRow k r x).pool.rings = k.pool.rings := rfl
@[simp] theorem setRow_pool_offReq (k : Core) (r : Nat) (x : Row) : (setRow k r x).pool.offReq = k.pool.offReq := rfl
@[simp] theorem setRing_pool_offReq (k : Core) (n : Nat) (x : Ring) : (setRing k n x).pool.offReq = k.pool.offReq := rfl
@[simp] theorem setRow_pool_off (k : Core) (r : Nat) (x : Row) : (setRow k r x).pool.off = k.pool.off := rfl
@[simp] theorem setRing_pool_off (k : Core) (n : Nat) (x : Ring) : (setRing k n x).pool.off = k.pool.off := rfl
@[simp] theorem setRow_pool_downAt (k : Core) (r : Nat) (x : Row) : (setRow k r x).pool.downAt = k.pool.downAt := rfl
@[simp] theorem setRing_pool_downAt (k : Core) (n : Nat) (x : Ring) : (setRing k n x).pool.downAt = k.pool.downAt := rfl
@[simp] theorem setRow_pool_ups (k : Core) (r : Nat) (x : Row) : (setRow k r x).pool.ups = k.pool.ups := rfl
@[simp] theorem setRing_pool_ups (k : Core) (n : Nat) (x : Ring) : (setRing k n x).pool.ups = k.pool.ups := rfl
@[simp] theorem setRow_pool_wb (k : Core) (r : Nat) (x : Row) : (setRow k r x).pool.wb = k.pool.wb := rfl
@[simp] theorem setRing_pool_wb (k : Core) (n : Nat) (x : Ring) : (setRing k n x).pool.wb = k.pool.wb := rfl
@[simp] theorem setRow_pool_conflictSeen (k : Core) (r : Nat) (x : Row) : (setRow k r x).pool.conflictSeen = k.pool.conflictSeen := rfl
@[simp] theorem setRing_pool_conflictSeen (k : Core) (n : Nat) (x : Ring) : (setRing k n x).pool.conflictSeen = k.pool.conflictSeen := rfl
@[simp] theorem setRow_pool_reservedHit (k : Core) (r : Nat) (x : Row) : (setRow k r x).pool.reservedHit = k.pool.reservedHit := rfl
@[simp] theorem setRing_pool_reservedHit (k : Core) (n : Nat) (x : Ring) : (setRing k n x).pool.reservedHit = k.pool.reservedHit := rfl
@[simp] theorem setRow_pool_uncreditedSeen (k : Core) (r : Nat) (x : Row) : (setRow k r x).pool.uncreditedSeen = k.pool.uncreditedSeen := rfl
@[simp] theorem setRing_pool_uncreditedSeen (k : Core) (n : Nat) (x : Ring) : (setRing k n x).pool.uncreditedSeen = k.pool.uncreditedSeen := rfl
@[simp] theorem setRow_pool_sbTimeoutSeen (k : Core) (r : Nat) (x : Row) : (setRow k r x).pool.sbTimeoutSeen = k.pool.sbTimeoutSeen := rfl
@[simp] theorem setRing_pool_sbTimeoutSeen (k : Core) (n : Nat) (x : Ring) : (setRing k n x).pool.sbTimeoutSeen = k.pool.sbTimeoutSeen := rfl
@[simp] theorem setRow_pool_uncorrSeen (k : Core) (r : Nat) (x : Row) : (setRow k r x).pool.uncorrSeen = k.pool.uncorrSeen := rfl
@[simp] theorem setRing_pool_uncorrSeen (k : Core) (n : Nat) (x : Ring) : (setRing k n x).pool.uncorrSeen = k.pool.uncorrSeen := rfl
@[simp] theorem setRow_pool_abandonedSeen (k : Core) (r : Nat) (x : Row) : (setRow k r x).pool.abandonedSeen = k.pool.abandonedSeen := rfl
@[simp] theorem setRing_pool_abandonedSeen (k : Core) (n : Nat) (x : Ring) : (setRing k n x).pool.abandonedSeen = k.pool.abandonedSeen := rfl
@[simp] theorem setRow_pool_sbUnits (k : Core) (r : Nat) (x : Row) : (setRow k r x).pool.sbUnits = k.pool.sbUnits := rfl
@[simp] theorem setRing_pool_sbUnits (k : Core) (n : Nat) (x : Ring) : (setRing k n x).pool.sbUnits = k.pool.sbUnits := rfl
@[simp] theorem setCnt_sync_flags (k : Core) (n : Nat) (x : Counter) : (setCnt k n x).sync.flags = k.sync.flags := rfl
@[simp] theorem setCnt_sync_policy (k : Core) (n : Nat) (x : Counter) : (setCnt k n x).sync.policy = k.sync.policy := rfl
@[simp] theorem setCnt_sync_due (k : Core) (n : Nat) (x : Counter) : (setCnt k n x).sync.due = k.sync.due := rfl
@[simp] theorem setCnt_sync_turns (k : Core) (n : Nat) (x : Counter) : (setCnt k n x).sync.turns = k.sync.turns := rfl
@[simp] theorem setCnt_sync_ovr (k : Core) (n : Nat) (x : Counter) : (setCnt k n x).sync.ovr = k.sync.ovr := rfl
@[simp] theorem setCnt_sync_overrunSeen (k : Core) (n : Nat) (x : Counter) : (setCnt k n x).sync.overrunSeen = k.sync.overrunSeen := rfl
@[simp] theorem setCnt_sync_cntOverrunSeen (k : Core) (n : Nat) (x : Counter) : (setCnt k n x).sync.cntOverrunSeen = k.sync.cntOverrunSeen := rfl
@[simp] theorem setCnt_sync_timeoutSeen (k : Core) (n : Nat) (x : Counter) : (setCnt k n x).sync.timeoutSeen = k.sync.timeoutSeen := rfl
@[simp] theorem setCnt_sync_brokenSeen (k : Core) (n : Nat) (x : Counter) : (setCnt k n x).sync.brokenSeen = k.sync.brokenSeen := rfl
@[simp] theorem setCnt_sync_abandonedSeen (k : Core) (n : Nat) (x : Counter) : (setCnt k n x).sync.abandonedSeen = k.sync.abandonedSeen := rfl
@[simp] theorem setCnt_sync_handSeen (k : Core) (n : Nat) (x : Counter) : (setCnt k n x).sync.handSeen = k.sync.handSeen := rfl
@[simp] theorem setCnt_sync_selCounter (k : Core) (n : Nat) (x : Counter) : (setCnt k n x).sync.selCounter = k.sync.selCounter := rfl
@[simp] theorem setCnt_sync_selGroup (k : Core) (n : Nat) (x : Counter) : (setCnt k n x).sync.selGroup = k.sync.selGroup := rfl
@[simp] theorem setCnt_sync_handVal (k : Core) (n : Nat) (x : Counter) : (setCnt k n x).sync.handVal = k.sync.handVal := rfl
@[simp] theorem setCnt_sync_cntCapture (k : Core) (n : Nat) (x : Counter) : (setCnt k n x).sync.cntCapture = k.sync.cntCapture := rfl
@[simp] theorem setWin_mv_outb (k : Core) (w : Nat) (x : Win) : (setWin k w x).mv.outb = k.mv.outb := rfl
@[simp] theorem setWin_mv_inb (k : Core) (w : Nat) (x : Win) : (setWin k w x).mv.inb = k.mv.inb := rfl
@[simp] theorem setWin_mv_runs (k : Core) (w : Nat) (x : Win) : (setWin k w x).mv.runs = k.mv.runs := rfl
@[simp] theorem setWin_mv_creds (k : Core) (w : Nat) (x : Win) : (setWin k w x).mv.creds = k.mv.creds := rfl
@[simp] theorem setWin_mv_inj (k : Core) (w : Nat) (x : Win) : (setWin k w x).mv.inj = k.mv.inj := rfl
@[simp] theorem setWin_mv_injS (k : Core) (w : Nat) (x : Win) : (setWin k w x).mv.injS = k.mv.injS := rfl
@[simp] theorem setWin_mv_delivered (k : Core) (w : Nat) (x : Win) : (setWin k w x).mv.delivered = k.mv.delivered := rfl
@[simp] theorem setWin_mv_nextTag (k : Core) (w : Nat) (x : Win) : (setWin k w x).mv.nextTag = k.mv.nextTag := rfl
@[simp] theorem setWin_mv_lastRead (k : Core) (w : Nat) (x : Win) : (setWin k w x).mv.lastRead = k.mv.lastRead := rfl
@[simp] theorem setWin_mv_tileRd (k : Core) (w : Nat) (x : Win) : (setWin k w x).mv.tileRd = k.mv.tileRd := rfl
@[simp] theorem setWin_mv_rotV (k : Core) (w : Nat) (x : Win) : (setWin k w x).mv.rotV = k.mv.rotV := rfl
@[simp] theorem setWin_mv_rotS (k : Core) (w : Nat) (x : Win) : (setWin k w x).mv.rotS = k.mv.rotS := rfl
@[simp] theorem setWin_mv_turnV (k : Core) (w : Nat) (x : Win) : (setWin k w x).mv.turnV = k.mv.turnV := rfl
@[simp] theorem setWin_mv_turnS (k : Core) (w : Nat) (x : Win) : (setWin k w x).mv.turnS = k.mv.turnS := rfl
@[simp] theorem setWin_mv_timeoutSeen (k : Core) (w : Nat) (x : Win) : (setWin k w x).mv.timeoutSeen = k.mv.timeoutSeen := rfl
@[simp] theorem setWin_mv_bouncedSeen (k : Core) (w : Nat) (x : Win) : (setWin k w x).mv.bouncedSeen = k.mv.bouncedSeen := rfl
@[simp] theorem setWin_mv_poisonedSeen (k : Core) (w : Nat) (x : Win) : (setWin k w x).mv.poisonedSeen = k.mv.poisonedSeen := rfl
@[simp] theorem setWin_mv_credFull (k : Core) (w : Nat) (x : Win) : (setWin k w x).mv.credFull = k.mv.credFull := rfl
@[simp] theorem setWin_mv_fencedSeen (k : Core) (w : Nat) (x : Win) : (setWin k w x).mv.fencedSeen = k.mv.fencedSeen := rfl
@[simp] theorem setWin_mv_units (k : Core) (w : Nat) (x : Win) : (setWin k w x).mv.units = k.mv.units := rfl
@[simp] theorem setDesc_flow_rows (k : Core) (t : Nat) (x : Desc) : (setDesc k t x).flow.rows = k.flow.rows := rfl
@[simp] theorem setTrow_flow_desc (k : Core) (r : Nat) (x : TileRow) : (setTrow k r x).flow.desc = k.flow.desc := rfl
@[simp] theorem setDesc_flow_wb (k : Core) (t : Nat) (x : Desc) : (setDesc k t x).flow.wb = k.flow.wb := rfl
@[simp] theorem setTrow_flow_wb (k : Core) (r : Nat) (x : TileRow) : (setTrow k r x).flow.wb = k.flow.wb := rfl

/-- Every write of a Pool row keeps the canonical form of the Pool. -/
theorem setRow_wf (k : Core) (r : Nat) (x : Row) (w : Store.wf Row.zero k.pool.rows = true) :
    Store.wf Row.zero (setRow k r x).pool.rows = true := Store.wf_set _ _ _ _ w

/-- Zeroing a bank keeps the canonical form of the Pool. -/
theorem zeroBank_wf (k : Core) (b : Nat) (w : Store.wf Row.zero k.pool.rows = true) :
    Store.wf Row.zero (zeroBank k b).pool.rows = true := Store.wf_filter _ _ _ _ w

/-- Every write of a tile row keeps the canonical form of the Flowstone. -/
theorem setTrow_wf (k : Core) (r : Nat) (x : TileRow) (w : Store.wf 0 k.flow.rows = true) :
    Store.wf 0 (setTrow k r x).flow.rows = true := Store.wf_set _ _ _ _ w

/-- A core that nothing has touched has Pool and Flowstone in canonical form; reset lists no core. -/
theorem reset_core_wf (p : Nat) : Store.wf Row.zero (coreAt State.reset p).pool.rows = true := rfl

end Sys2Proof.Machine
end

