-- ==== Sys2Proof/Laws/Keeps.lean ====
section
/-!
SUPPORT. What no function of a command's meaning changes: the fuses, the queue of commands, the time and the power; that
it keeps the invariants of Safety and a set tap_lock. One lemma for each function, from the operations to the commands.
-/

namespace Sys2Proof.Machine

/-- From z to t: fuses, queue, time and power as they were, invariants kept, tap_lock not cleared. -/
structure Keeps (z t : State) : Prop where
  fuse : t.fuse = z.fuse
  pending : t.pending = z.pending
  mNow : t.mNow = z.mNow
  powered : t.boot.powered = z.boot.powered
  lock : z.tap.tapLock = true → t.tap.tapLock = true
  log : logWf z → logWf t
  tables : tablesWf z = true → tablesWf t = true

theorem Keeps.refl (z : State) : Keeps z z := ⟨rfl, rfl, rfl, rfl, id, id, id⟩

theorem Keeps.trans {a b c : State} (h : Keeps a b) (k : Keeps b c) : Keeps a c :=
  ⟨k.fuse.trans h.fuse, k.pending.trans h.pending, k.mNow.trans h.mNow, k.powered.trans h.powered,
   fun x => k.lock (h.lock x), fun x => k.log (h.log x), fun x => k.tables (h.tables x)⟩

/-- A state that differs in other fields only. -/
theorem Keeps.upd {z s t : State} (h : Keeps z s) (f : t.fuse = s.fuse) (p : t.pending = s.pending) (m : t.mNow = s.mNow)
    (b : t.boot.powered = s.boot.powered) (a : t.tap.tapLock = s.tap.tapLock) (l : (t.log.recs, t.log.fresh) = (s.log.recs, s.log.fresh))
    (w : (t.cores, t.gals, t.cavs, t.slots) = (s.cores, s.gals, s.cavs, s.slots)) : Keeps z t := by
  simp only [Prod.mk.injEq] at w l
  obtain ⟨w1, w2, w3, w4⟩ := w
  obtain ⟨l1, l2⟩ := l
  refine ⟨f.trans h.fuse, p.trans h.pending, m.trans h.mNow, b.trans h.powered, fun x => a.trans (h.lock x), fun x => ?_,
    fun x => ?_⟩
  · have := h.log x; simp only [logWf] at this ⊢; rw [l1, l2]; exact this
  · have := h.tables x; simp only [tablesWf] at this ⊢; rw [w1, w2, w3, w4]; exact this

theorem Keeps.of_pair {α : Type} {z t : State} {r : α × State} {a : α} (e : r = (a, t)) (h : Keeps z r.2) : Keeps z t := by
  subst e; exact h

theorem Keeps.of_triple {α β : Type} {z t : State} {r : α × β × State} {a : α} {b : β} (e : r = (a, b, t))
    (h : Keeps z r.2.2) : Keeps z t := by subst e; exact h

theorem Keeps.of_left {β : Type} {z t : State} {r : State × β} {b : β} (e : r = (t, b)) (h : Keeps z r.1) : Keeps z t := by
  subst e; exact h

theorem Keeps.foldl {α : Type} {z : State} {f : State → α → State} {l : List α} {s : State} (h : Keeps z s)
    (hf : ∀ s x, Keeps z s → Keeps z (f s x)) : Keeps z (l.foldl f s) := by
  induction l generalizing s with
  | nil => exact h
  | cons x t ih => exact ih (hf s x h)

theorem Keeps.foldl2 {α β : Type} {z : State} {f : β × State → α → β × State} {l : List α} {r : β × State}
    (h : Keeps z r.2) (hf : ∀ r x, Keeps z r.2 → Keeps z (f r x).2) : Keeps z (l.foldl f r).2 := by
  induction l generalizing r with
  | nil => exact h
  | cons x t ih => exact ih (hf r x h)

theorem Keeps.foldl1 {α β : Type} {z : State} {f : State × β → α → State × β} {l : List α} {r : State × β}
    (h : Keeps z r.1) (hf : ∀ r x, Keeps z r.1 → Keeps z (f r x).1) : Keeps z (l.foldl f r).1 := by
  induction l generalizing r with
  | nil => exact h
  | cons x t ih => exact ih (hf r x h)

theorem setCore_keeps {z : State} (s : State) (p : Nat) (k : Core) (h : Keeps z s) : Keeps z (setCore s p k) := by
  refine ⟨h.fuse, h.pending, h.mNow, h.powered, h.lock, h.log, fun x => ?_⟩
  have := h.tables x
  simp only [tablesWf, Bool.and_eq_true] at this ⊢
  exact ⟨⟨⟨Store.wf_set _ _ _ _ this.1.1.1, this.1.1.2⟩, this.1.2⟩, this.2⟩

theorem updCore_keeps {z : State} (s : State) (p : Nat) (f : Core → Core) (h : Keeps z s) : Keeps z (updCore s p f) :=
  setCore_keeps s p _ h

theorem updQueue_keeps {z : State} (s : State) (p q : Nat) (f : Queue → Queue) (h : Keeps z s) :
    Keeps z (updQueue s p q f) := updCore_keeps s p _ h

theorem updCtx_keeps {z : State} (s : State) (p c : Nat) (f : Ctx → Ctx) (h : Keeps z s) : Keeps z (updCtx s p c f) :=
  updCore_keeps s p _ h

theorem updGal_keeps {z : State} (s : State) (g : Nat) (f : Gal → Gal) (h : Keeps z s) : Keeps z (updGal s g f) := by
  refine ⟨h.fuse, h.pending, h.mNow, h.powered, h.lock, h.log, fun x => ?_⟩
  have := h.tables x
  simp only [tablesWf, Bool.and_eq_true] at this ⊢
  exact ⟨⟨⟨this.1.1.1, Store.wf_set _ _ _ _ this.1.1.2⟩, this.1.2⟩, this.2⟩

theorem updCav_keeps {z : State} (s : State) (c : Nat) (f : Cav → Cav) (h : Keeps z s) : Keeps z (updCav s c f) := by
  refine ⟨h.fuse, h.pending, h.mNow, h.powered, h.lock, h.log, fun x => ?_⟩
  have := h.tables x
  simp only [tablesWf, Bool.and_eq_true] at this ⊢
  exact ⟨⟨⟨this.1.1.1, this.1.1.2⟩, Store.wf_set _ _ _ _ this.1.2⟩, this.2⟩

theorem updSlot_keeps {z : State} (s : State) (n : Nat) (f : Slot → Slot) (h : Keeps z s) : Keeps z (updSlot s n f) := by
  refine ⟨h.fuse, h.pending, h.mNow, h.powered, h.lock, h.log, fun x => ?_⟩
  have := h.tables x
  simp only [tablesWf, Bool.and_eq_true] at this ⊢
  exact ⟨⟨⟨this.1.1.1, this.1.1.2⟩, this.1.2⟩, Store.wf_set _ _ _ _ this.2⟩

theorem updBun_keeps {z : State} (s : State) (b : Nat) (f : Bundle → Bundle) (h : Keeps z s) : Keeps z (updBun s b f) :=
  Keeps.upd h rfl rfl rfl rfl rfl rfl rfl

theorem report_keeps {z : State} (s : State) (st : Status) (h : Keeps z s) : Keeps z (report s st) :=
  Keeps.upd h rfl rfl rfl rfl rfl rfl rfl

theorem sendMsg_keeps {z : State} (s : State) (code : Nat) (body : List (Nat × Nat)) (h : Keeps z s) :
    Keeps z (sendMsg s code body) := by
  unfold sendMsg
  split
  · exact Keeps.upd h rfl rfl rfl rfl rfl rfl rfl
  · exact h

theorem drawFree_keeps {z : State} (s : State) (h : Keeps z s) : Keeps z (drawFree s).2 :=
  Keeps.upd h rfl rfl rfl rfl rfl rfl rfl

theorem logBefore_trans {x y r : LogRec} (h : logBefore r x = true) (k : logBefore y x = false) :
    logBefore y r = false := by
  simp only [logBefore, Bool.or_eq_true, Bool.and_eq_true, decide_eq_true_eq, beq_iff_eq, Bool.or_eq_false_iff,
    Bool.and_eq_false_iff, decide_eq_false_iff_not, beq_eq_false_iff_ne] at h k ⊢
  omega

theorem logBefore_asymm {x r : LogRec} (h : logBefore r x = true) : logBefore x r = false := by
  simp only [logBefore, Bool.or_eq_true, Bool.and_eq_true, decide_eq_true_eq, beq_iff_eq, Bool.or_eq_false_iff,
    Bool.and_eq_false_iff, decide_eq_false_iff_not, beq_eq_false_iff_ne] at h ⊢
  omega

theorem mem_insertLog {l : List LogRec} {r y : LogRec} : y ∈ insertLog l r ↔ y = r ∨ y ∈ l := by
  induction l with
  | nil => simp [insertLog]
  | cons x t ih =>
    unfold insertLog
    split
    · simp
    · simp only [List.mem_cons, ih]; tauto

/-- A record takes its place in the order of R510. -/
theorem insertLog_sorted (l : List LogRec) (r : LogRec) (h : l.Pairwise fun x r => logBefore r x = false) :
    (insertLog l r).Pairwise fun x r => logBefore r x = false := by
  induction l with
  | nil => simp [insertLog]
  | cons x t ih =>
    rw [List.pairwise_cons] at h
    unfold insertLog
    split
    · next hx =>
      rw [List.pairwise_cons]
      refine ⟨fun y hy => ?_, List.pairwise_cons.mpr h⟩
      rcases List.mem_cons.mp hy with e | e
      · subst e; exact logBefore_asymm hx
      · exact logBefore_trans hx (h.1 y e)
    · next hx =>
      rw [List.pairwise_cons]
      refine ⟨fun y hy => ?_, ih h.2⟩
      rcases mem_insertLog.mp hy with e | e
      · subst e; simpa using hx
      · exact h.1 y e

/-- A record is stored only while fewer than 4,096 are unread (R510). -/
theorem enterLog_keeps {z : State} (s : State) (r : LogRec) (h : Keeps z s) : Keeps z (enterLog s r) := by
  have h0 : ∀ t n l u, Keeps z { s with log := { s.log with
      recs := if s.log.recs.length < 4096 then s.log.recs ++ [t] else s.log.recs, tail := n, lost := l, upsets := u } } := by
    intro t n l u
    refine ⟨h.fuse, h.pending, h.mNow, h.powered, h.lock, fun x => ?_, h.tables⟩
    obtain ⟨w, v⟩ := h.log x
    refine ⟨?_, v⟩
    dsimp only
    split
    · rw [List.length_append]; simp only [List.length_cons, List.length_nil]; omega
    · exact w
  unfold enterLog
  dsimp only
  split
  · exact sendMsg_keeps _ _ _ (h0 _ _ _ _)
  · exact h0 _ _ _ _

theorem queueLog_keeps {z : State} (s : State) (r : LogRec) (h : Keeps z s) : Keeps z (queueLog s r) :=
  Keeps.upd h rfl rfl rfl rfl rfl (by unfold queueLog; dsimp only; split <;> rfl) rfl

theorem logRecordAt_keeps {z : State} (s : State) (cls status core gal cav cyc : Nat) (reported : Bool)
    (body : List (Nat × Nat)) (h : Keeps z s) : Keeps z (logRecordAt s cls status core gal cav cyc reported body) :=
  ⟨h.fuse, h.pending, h.mNow, h.powered, h.lock, fun x => ⟨(h.log x).1, insertLog_sorted _ _ (h.log x).2⟩, h.tables⟩

theorem logRecord_keeps {z : State} (s : State) (cls status core gal cav : Nat) (reported : Bool) (body : List (Nat × Nat))
    (h : Keeps z s) : Keeps z (logRecord s cls status core gal cav reported body) := logRecordAt_keeps _ _ _ _ _ _ _ _ _ h

theorem enterLogs_keeps {z : State} (rs : List LogRec) : ∀ s, Keeps z s → Keeps z (rs.foldl enterLog s) := by
  induction rs with
  | nil => exact fun _ h => h
  | cons r t ih => exact fun s h => ih _ (enterLog_keeps s r h)

/-- The records of an M-cycle enter the log as one enters (R510). -/
theorem enterFresh_keeps {z : State} (s : State) (h : Keeps z s) : Keeps z (enterFresh s) := by
  have h0 : Keeps z { s with log := { s.log with fresh := [] } } :=
    ⟨h.fuse, h.pending, h.mNow, h.powered, h.lock, fun x => ⟨(h.log x).1, List.Pairwise.nil⟩, h.tables⟩
  refine Keeps.foldl h0 fun s r hs => ?_
  split
  · exact queueLog_keeps _ _ hs
  · exact enterLog_keeps _ _ hs

theorem flushLog_keeps {z : State} (s : State) (h : Keeps z s) : Keeps z (flushLog s) := by
  have h0 : Keeps z { s with log := { s.log with waiting := [], missed := 0 } } := Keeps.upd h rfl rfl rfl rfl rfl rfl rfl
  unfold flushLog
  dsimp only
  split
  · exact Keeps.upd h0 rfl rfl rfl rfl rfl rfl rfl
  · exact Keeps.upd (enterLogs_keeps _ _ (enterLog_keeps _ _ h0)) rfl rfl rfl rfl rfl rfl rfl

theorem withLive_keeps {z : State} (s : State) (l : Nat) (f : Nat → State) (h : Keeps z s) (hf : ∀ p, Keeps z (f p)) :
    Keeps z (withLive s l f) := by
  unfold withLive
  split
  · exact h
  · exact hf _

theorem withPowered_keeps {z : State} (s : State) (l : Nat) (f : Nat → State) (h : Keeps z s) (hf : ∀ p, Keeps z (f p)) :
    Keeps z (withPowered s l f) := by
  unfold withPowered
  split
  · exact h
  · split
    · exact hf _
    · exact h

/-- The same of a state that may be absent. -/
def KeepsO (z : State) (o : Option State) : Prop := ∀ u, o = some u → Keeps z u

theorem KeepsO.some {z u : State} (h : Keeps z u) : KeepsO z (some u) := fun _ e => by cases e; exact h

theorem KeepsO.none {z : State} : KeepsO z none := fun _ e => by cases e

theorem KeepsO.of_eq {z u : State} {o : Option State} (e : o = Option.some u) (h : KeepsO z o) : Keeps z u := h u e

theorem KeepsO.map {z : State} {o : Option State} {f : State → State} (h : KeepsO z o) (hf : ∀ t, Keeps z t → Keeps z (f t)) :
    KeepsO z (o.map f) := by
  intro u e
  cases o with
  | none => cases e
  | some t => cases e; exact hf t (h t rfl)

/-- A state given by its fields that differs from another in fields that are free to change. -/
theorem Keeps.lit {z s : State} {bundles : Store Bundle} {news : List SlotNews} {net : Net} {day : Day}
    {held : List PendWrite} {boot : Boot} {cfg : Cfg} {resets : Resets} {log : Log} {attest : Attest} {tap : Tap} {pwr : Pwr}
    {echoQ : List RegReq} {half capture : Option HalfWord} {out : List Sent} {answer : Status} {data : Word} {msgSeq free : Nat}
    (h : Keeps z s) (b : boot.powered = s.boot.powered) (a : tap.tapLock = s.tap.tapLock)
    (l : (log.recs, log.fresh) = (s.log.recs, s.log.fresh)) :
    Keeps z { pending := s.pending, cores := s.cores, gals := s.gals, cavs := s.cavs, bundles := bundles, slots := s.slots,
              news := news, net := net, day := day, held := held, boot := boot, cfg := cfg, resets := resets, log := log,
              attest := attest, tap := tap, pwr := pwr, echoQ := echoQ, half := half, capture := capture, fuse := s.fuse,
              out := out, answer := answer, answerData := data, mNow := s.mNow, msgSeq := msgSeq, free := free } :=
  Keeps.upd h rfl rfl rfl b a l rfl

theorem Keeps.ite {z a b : State} {c : Prop} [Decidable c] (ha : Keeps z a) (hb : Keeps z b) :
    Keeps z (if c then a else b) := by split <;> assumption

theorem Keeps.ite2 {α : Type} {z : State} {a b : α × State} {c : Prop} [Decidable c] (ha : Keeps z a.2)
    (hb : Keeps z b.2) : Keeps z (if c then a else b).2 := by split <;> assumption

end Sys2Proof.Machine
end

