-- ==== Sys2Proof/Laws/KeepsOps.lean ====
section
/-!
SUPPORT. What Keeps says, for every function of the meanings that answers a state: one lemma each, in the order of the model.
-/

namespace Sys2Proof.Machine

theorem markHw_keeps {z : State} (s : State) (p off : Nat) (hz : Keeps z s) :
    Keeps z (markHw s p off) := by
  unfold markHw
  try dsimp only
  repeat' (first
    | with_reducible assumption | with_reducible apply updCore_keeps)

theorem logCoreAt_keeps {z : State} (s : State) (cls : Nat) (st : Status) (l c : Nat) (reported : Bool)
    (body : List (Nat × Nat)) (hz : Keeps z s) :
    Keeps z (logCoreAt s cls st l c reported body) := by
  unfold logCoreAt
  try dsimp only
  repeat' (first
    | with_reducible assumption | with_reducible apply logRecordAt_keeps)

theorem logCore_keeps {z : State} (s : State) (cls : Nat) (st : Status) (l : Nat) (reported : Bool)
    (body : List (Nat × Nat)) (hz : Keeps z s) :
    Keeps z (logCore s cls st l reported body) := by
  unfold logCore
  try dsimp only
  repeat' (first
    | with_reducible assumption | with_reducible apply logCoreAt_keeps)

theorem logChip_keeps {z : State} (s : State) (cls : Nat) (st : Status) (reported : Bool) (body : List (Nat × Nat))
    (hz : Keeps z s) :
    Keeps z (logChip s cls st reported body) := by
  unfold logChip
  try dsimp only
  repeat' (first
    | with_reducible assumption | with_reducible apply logRecord_keeps)

theorem onMsg_keeps {z : State} (s : State) (m code : Nat) (f : State → State) (hz : Keeps z s)
    (hf : ∀ t, Keeps z t → Keeps z (f t)) :
    Keeps z (onMsg s m code f) := by
  unfold onMsg
  try dsimp only
  repeat' (first
    | with_reducible assumption | apply hf | with_reducible apply logChip_keeps | intro _ | split)

theorem recordLate_keeps {z : State} (s : State) (p c : Nat) (a : LateAct) (hz : Keeps z s) :
    Keeps z (recordLate s p c a) := by
  unfold recordLate
  try dsimp only
  repeat' (first
    | with_reducible assumption | with_reducible apply logCoreAt_keeps | intro _ | split)

theorem catchUp_keeps {z : State} (s : State) (p c : Nat) (hz : Keeps z s) :
    Keeps z (catchUp s p c) := by
  unfold catchUp
  try dsimp only
  repeat' (first
    | with_reducible assumption | with_reducible apply recordLate_keeps | with_reducible apply updCore_keeps
    | with_reducible apply Keeps.foldl | (with_reducible refine Keeps.of_pair (by with_reducible assumption) ?_)
    | intro _ | split)

theorem happen_keeps {z : State} (s : State) (p l c : Nat) (a : LateAct) (hz : Keeps z s) :
    Keeps z (happen s p l c a) := by
  unfold happen
  try dsimp only
  repeat' (first
    | with_reducible assumption | with_reducible apply recordLate_keeps | with_reducible apply updCore_keeps
    | intro _ | split)

/-- An effect of a cycle that is not over waits for it. -/
theorem happen_coming (s : State) (p l c : Nat) (a : LateAct) (h : cycleOf s l ≤ c) :
    happen s p l c a = updCore s p fun k => addLate k c a := if_neg (Nat.not_lt.mpr h)

/-- An effect of a cycle that is over comes about at once, with its record. -/
theorem happen_past (s : State) (p l c : Nat) (a : LateAct) (h : c < cycleOf s l) :
    happen s p l c a = recordLate (updCore s p fun k => makeLate k c a) p c a := if_pos h

theorem withIssue_keeps {z : State} (s : State) (l : Nat) (f : State → Nat → State) (hz : Keeps z s)
    (hf : ∀ t p, Keeps z t → Keeps z (f t p)) :
    Keeps z (withIssue s l f) := by
  unfold withIssue
  try dsimp only
  repeat' (first
    | with_reducible assumption | apply hf | with_reducible apply withLive_keeps | with_reducible apply catchUp_keeps
    | intro _ | split)

theorem logGal_keeps {z : State} (s : State) (cls : Nat) (st : Status) (g : Nat) (reported : Bool)
    (body : List (Nat × Nat)) (hz : Keeps z s) :
    Keeps z (logGal s cls st g reported body) := by
  unfold logGal
  try dsimp only
  repeat' (first
    | with_reducible assumption | with_reducible apply logRecord_keeps)

theorem logCav_keeps {z : State} (s : State) (cls : Nat) (st : Status) (c : Nat) (reported : Bool)
    (body : List (Nat × Nat)) (hz : Keeps z s) :
    Keeps z (logCav s cls st c reported body) := by
  unfold logCav
  try dsimp only
  repeat' (first
    | with_reducible assumption | with_reducible apply logRecord_keeps)

theorem injectFrom_keeps {z : State} (s : State) (p src ready : Nat) (pkt : Packet) (hz : Keeps z s) :
    Keeps z (injectFrom s p src ready pkt) := by
  unfold injectFrom
  try dsimp only
  repeat' (first
    | with_reducible assumption | with_reducible apply updCore_keeps | intro _ | split)

theorem inject_keeps {z : State} (s : State) (p src : Nat) (pkt : Packet) (hz : Keeps z s) :
    Keeps z (inject s p src pkt) := by
  unfold inject
  try dsimp only
  repeat' (first
    | with_reducible assumption | with_reducible apply injectFrom_keeps)

theorem answerPkt_keeps {z : State} (s : State) (p l : Nat) (port : Port) (pkt : Packet) (st : Status)
    (hz : Keeps z s) :
    Keeps z (answerPkt s p l port pkt st) := by
  unfold answerPkt
  try dsimp only
  repeat' (first
    | with_reducible assumption | with_reducible apply inject_keeps | with_reducible apply updCore_keeps | intro _
    | split | (with_reducible refine Keeps.lit ?_ rfl rfl rfl))

theorem grantRing_keeps {z : State} (s : State) (p l n count : Nat) (hz : Keeps z s) :
    Keeps z (grantRing s p l n count) := by
  unfold grantRing
  try dsimp only
  repeat' (first
    | with_reducible assumption | with_reducible apply setCore_keeps | with_reducible apply inject_keeps | intro _
    | split)

theorem grantWin_keeps {z : State} (s : State) (p l w count : Nat) (hz : Keeps z s) :
    Keeps z (grantWin s p l w count) := by
  unfold grantWin
  try dsimp only
  repeat' (first
    | with_reducible assumption | with_reducible apply setCore_keeps | with_reducible apply inject_keeps | intro _
    | split)

theorem releaseWithheld_keeps {z : State} (s : State) (p l : Nat) (hz : Keeps z s) :
    Keeps z (releaseWithheld s p l) := by
  unfold releaseWithheld
  try dsimp only
  repeat' (first
    | with_reducible assumption | with_reducible apply grantRing_keeps | with_reducible apply setCore_keeps
    | with_reducible apply grantWin_keeps | with_reducible apply Keeps.foldl
    | (with_reducible refine Keeps.of_pair (by with_reducible assumption) ?_) | intro _ | split)

theorem disableRing_keeps {z : State} (s : State) (p l n : Nat) (hz : Keeps z s) :
    Keeps z (disableRing s p l n) := by
  unfold disableRing
  try dsimp only
  repeat' (first
    | with_reducible assumption | with_reducible apply setCore_keeps | with_reducible apply inject_keeps | intro _
    | split)

theorem closeWin_keeps {z : State} (s : State) (p l w : Nat) (hz : Keeps z s) :
    Keeps z (closeWin s p l w) := by
  unfold closeWin
  try dsimp only
  repeat' (first
    | with_reducible assumption | with_reducible apply setCore_keeps | with_reducible apply inject_keeps | intro _
    | split)

theorem doFore_keeps {z : State} (s : State) (p l engine slot : Nat) (meets : List Meet) (fs : List Fore)
    (hz : Keeps z s) :
    Keeps z (doFore s p l engine slot meets fs).2 := by
  unfold doFore
  try dsimp only
  repeat' (first
    | with_reducible assumption | with_reducible apply updCore_keeps | with_reducible apply Keeps.foldl
    | with_reducible apply Keeps.foldl2 | (with_reducible refine Keeps.of_pair (by with_reducible assumption) ?_)
    | intro _ | split)

theorem usePoolRow_keeps {z : State} (s : State) (p l row c : Nat) (ecc : Bool) (hz : Keeps z s) :
    Keeps z (usePoolRow s p l row c ecc) := by
  unfold usePoolRow
  try dsimp only
  repeat' (first
    | with_reducible assumption | with_reducible apply happen_keeps | intro _ | split)

theorem readRows_keeps {z : State} (s : State) (p l engine slot : Nat) (meets : List Meet) (fs : List Fore)
    (hz : Keeps z s) :
    Keeps z (readRows s p l engine slot meets fs).2 := by
  unfold readRows
  try dsimp only
  repeat' (first
    | with_reducible assumption | with_reducible apply doFore_keeps | with_reducible apply usePoolRow_keeps
    | with_reducible apply Keeps.foldl | with_reducible apply Keeps.foldl2
    | (with_reducible refine Keeps.of_pair (by with_reducible assumption) ?_) | intro _ | split)

theorem stopBadRow_keeps {z : State} (s : State) (p l q : Nat) (hz : Keeps z s) :
    Keeps z (stopBadRow s p l q) := by
  unfold stopBadRow
  try dsimp only
  repeat' (first
    | with_reducible assumption | with_reducible apply updQueue_keeps | with_reducible apply updCore_keeps
    | with_reducible apply logCore_keeps | intro _ | split)

theorem leaveHead_keeps {z : State} (s : State) (p l q ready : Nat) (hz : Keeps z s) :
    Keeps z (leaveHead s p l q ready) := by
  unfold leaveHead
  try dsimp only
  repeat' (first
    | with_reducible assumption | with_reducible apply markHw_keeps | with_reducible apply setCore_keeps
    | with_reducible apply stopBadRow_keeps | with_reducible apply grantRing_keeps | with_reducible apply Keeps.foldl
    | (with_reducible refine Keeps.of_pair (by with_reducible assumption) ?_) | intro _ | split)

theorem retire_keeps {z : State} (s : State) (p l q slot kind : Nat) (st : Status) (hz : Keeps z s) :
    Keeps z (retire s p l q slot kind st) := by
  unfold retire
  try dsimp only
  repeat' (first
    | with_reducible assumption | with_reducible apply logCore_keeps | with_reducible apply updQueue_keeps)

theorem retireHead_keeps {z : State} (s : State) (p l q kind c : Nat) (st : Status) (hz : Keeps z s) :
    Keeps z (retireHead s p l q kind c st) := by
  unfold retireHead
  try dsimp only
  repeat' (first
    | with_reducible assumption | with_reducible apply leaveHead_keeps | with_reducible apply retire_keeps)

theorem newTrack_keeps {z : State} (s : State) (p q ctx slot c : Nat) (hz : Keeps z s) :
    Keeps z (newTrack s p q ctx slot c).2 := by
  unfold newTrack
  try dsimp only
  repeat' (first
    | with_reducible assumption | with_reducible apply setCore_keeps)

theorem updTrack_keeps {z : State} (s : State) (p id : Nat) (f : Track → Track) (hz : Keeps z s) :
    Keeps z (updTrack s p id f) := by
  unfold updTrack
  try dsimp only
  repeat' (first
    | with_reducible assumption | with_reducible apply updCore_keeps)

theorem endTrack_keeps {z : State} (s : State) (p id e d : Nat) (st : Status) (hz : Keeps z s) :
    Keeps z (endTrack s p id e d st) := by
  unfold endTrack
  try dsimp only
  repeat' (first
    | with_reducible assumption | with_reducible apply updTrack_keeps)

theorem shiftTrack_keeps {z : State} (s : State) (p id old n : Nat) (hz : Keeps z s) :
    Keeps z (shiftTrack s p id old n) := by
  unfold shiftTrack
  try dsimp only
  repeat' (first
    | with_reducible assumption | with_reducible apply updCore_keeps)

theorem clearFlag_keeps {z : State} (s : State) (p f : Nat) (hz : Keeps z s) :
    Keeps z (clearFlag s p f) := by
  unfold clearFlag
  try dsimp only
  repeat' (first
    | with_reducible assumption | with_reducible apply updCore_keeps)

theorem addDue_keeps {z : State} (s : State) (p : Nat) (d : Due) (hz : Keeps z s) :
    Keeps z (addDue s p d) := by
  unfold addDue
  try dsimp only
  repeat' (first
    | with_reducible assumption | with_reducible apply updCore_keeps)

theorem dueDone_keeps {z : State} (s : State) (p c : Nat) (en : Bool) (flag setter ctx slot track : Nat)
    (hz : Keeps z s) :
    Keeps z (dueDone s p c en flag setter ctx slot track) := by
  unfold dueDone
  try dsimp only
  repeat' (first
    | with_reducible assumption | with_reducible apply addDue_keeps | intro _ | split)

theorem endSleep_keeps {z : State} (s : State) (p l q c : Nat) (st : Status) (woken : Bool) (hz : Keeps z s) :
    Keeps z (endSleep s p l q c st woken) := by
  unfold endSleep
  try dsimp only
  repeat' (first
    | with_reducible assumption | with_reducible apply updQueue_keeps | with_reducible apply endTrack_keeps
    | with_reducible apply report_keeps | with_reducible apply dueDone_keeps | with_reducible apply retire_keeps
    | with_reducible apply leaveHead_keeps | intro _ | split)

theorem wakePoisoned_keeps {z : State} (s : State) (p l c : Nat) (f : SyncCmd → Bool) (hz : Keeps z s) :
    Keeps z (wakePoisoned s p l c f) := by
  unfold wakePoisoned
  try dsimp only
  repeat' (first
    | with_reducible assumption | with_reducible apply endSleep_keeps | with_reducible apply Keeps.foldl
    | (with_reducible refine Keeps.of_pair (by with_reducible assumption) ?_) | intro _ | split)

theorem poisonWord_keeps {z : State} (s : State) (p l kind word : Nat) (hz : Keeps z s) :
    Keeps z (poisonWord s p l kind word) := by
  unfold poisonWord
  try dsimp only
  repeat' (first
    | with_reducible assumption | with_reducible apply updCore_keeps | with_reducible apply wakePoisoned_keeps
    | with_reducible apply updCtx_keeps | with_reducible apply markHw_keeps | with_reducible apply disableRing_keeps
    | with_reducible apply closeWin_keeps | intro _ | split)

theorem useWord_keeps {z : State} (s : State) (p l kind word : Nat) (hz : Keeps z s) :
    Keeps z (useWord s p l kind word).2 := by
  unfold useWord
  try dsimp only
  repeat' (first
    | with_reducible assumption | with_reducible apply updCore_keeps | with_reducible apply poisonWord_keeps
    | with_reducible apply logCore_keeps | intro _ | split)

theorem useWords_keeps {z : State} (s : State) (p l : Nat) (ws : List (Nat × Nat)) (hz : Keeps z s) :
    Keeps z (useWords s p l ws).2 := by
  unfold useWords
  try dsimp only
  repeat' (first
    | with_reducible assumption | with_reducible apply useWord_keeps | with_reducible apply Keeps.foldl
    | with_reducible apply Keeps.foldl2 | (with_reducible refine Keeps.of_pair (by with_reducible assumption) ?_)
    | intro _)

theorem wakeQueue_keeps {z : State} (s : State) (p l c q : Nat) (hz : Keeps z s) :
    Keeps z (wakeQueue s p l c q) := by
  unfold wakeQueue
  try dsimp only
  repeat' (first
    | with_reducible assumption | with_reducible apply addDue_keeps | with_reducible apply endSleep_keeps | intro _
    | split)

theorem wakeWaiters_keeps {z : State} (s : State) (p l c : Nat) (hz : Keeps z s) :
    Keeps z (wakeWaiters s p l c) := by
  unfold wakeWaiters
  try dsimp only
  repeat' (first
    | with_reducible assumption | with_reducible apply wakeQueue_keeps | with_reducible apply Keeps.foldl
    | (with_reducible refine Keeps.of_pair (by with_reducible assumption) ?_) | intro _)

theorem overrunFlag_keeps {z : State} (s : State) (p l flag setter ctx : Nat) (src : List (Nat × Nat))
    (hz : Keeps z s) :
    Keeps z (overrunFlag s p l flag setter ctx src).2 := by
  unfold overrunFlag
  try dsimp only
  repeat' (first
    | with_reducible assumption | with_reducible apply setCore_keeps | with_reducible apply logCore_keeps | intro _
    | split)

theorem setFlag_keeps {z : State} (s : State) (p l c flag setter ctx : Nat) (src : List (Nat × Nat))
    (hz : Keeps z s) :
    Keeps z (setFlag s p l c flag setter ctx src).2 := by
  unfold setFlag
  try dsimp only
  repeat' (first
    | with_reducible assumption | with_reducible apply useWord_keeps | with_reducible apply overrunFlag_keeps
    | with_reducible apply setCore_keeps | with_reducible apply wakeWaiters_keeps
    | (with_reducible refine Keeps.of_pair (by with_reducible assumption) ?_) | intro _ | split)

theorem makeDue_keeps {z : State} (s : State) (p l : Nat) (d : Due) (hz : Keeps z s) :
    Keeps z (makeDue s p l d) := by
  unfold makeDue
  try dsimp only
  repeat' (first
    | with_reducible assumption | with_reducible apply clearFlag_keeps | with_reducible apply setFlag_keeps
    | with_reducible apply report_keeps | with_reducible apply updTrack_keeps
    | (with_reducible refine Keeps.of_pair (by with_reducible assumption) ?_) | intro _ | split)

theorem fireDue_keeps {z : State} (s : State) (p l c n : Nat) (h : Keeps z s) : Keeps z (fireDue s p l c n) := by
  induction n generalizing s with
  | zero => exact h
  | succ n ih =>
    unfold fireDue
    split
    · exact h
    · exact ih _ (makeDue_keeps _ _ _ _ (updCore_keeps _ _ _ h))

theorem settleTo_keeps {z : State} (s : State) (p l n : Nat) (hz : Keeps z s) :
    Keeps z (settleTo s p l n) := by
  unfold settleTo
  try dsimp only
  repeat' (first
    | with_reducible assumption | with_reducible apply fireDue_keeps | intro _ | split)

theorem settleSync_keeps {z : State} (s : State) (p l c : Nat) (hz : Keeps z s) :
    Keeps z (settleSync s p l c) := by
  unfold settleSync
  try dsimp only
  repeat' (first
    | with_reducible assumption | with_reducible apply settleTo_keeps)

theorem noteEvent_keeps {z : State} (s : State) (p obj c rank : Nat) (hz : Keeps z s) :
    Keeps z (noteEvent s p obj c rank) := by
  unfold noteEvent
  try dsimp only
  repeat' (first
    | with_reducible assumption | with_reducible apply updCore_keeps)

theorem setInTurn_keeps {z : State} (s : State) (p l c flag setter : Nat) (src : List (Nat × Nat)) (hz : Keeps z s)
    :
    Keeps z (setInTurn s p l c flag setter src).2 := by
  unfold setInTurn
  try dsimp only
  repeat' (first
    | with_reducible assumption | with_reducible apply setFlag_keeps | with_reducible apply noteEvent_keeps)

theorem updateCounter_keeps {z : State} (s : State) (p l c n : Nat) (isMax : Bool) (v : Int) (who : Sender)
    (isCount : Bool) (src : List (Nat × Nat)) (hz : Keeps z s) :
    Keeps z (updateCounter s p l c n isMax v who isCount src).2 := by
  unfold updateCounter
  try dsimp only
  repeat' (first
    | with_reducible assumption | with_reducible apply setCore_keeps | with_reducible apply logCore_keeps
    | with_reducible apply markHw_keeps | with_reducible apply wakeWaiters_keeps | intro _ | split)

theorem wakeAbandoned_keeps {z : State} (s : State) (p l c : Nat) (hz : Keeps z s) :
    Keeps z (wakeAbandoned s p l c) := by
  unfold wakeAbandoned
  try dsimp only
  repeat' (first
    | with_reducible assumption | with_reducible apply endSleep_keeps | with_reducible apply Keeps.foldl
    | (with_reducible refine Keeps.of_pair (by with_reducible assumption) ?_) | intro _ | split)

theorem abandonRing_keeps {z : State} (s : State) (p l n : Nat) (hz : Keeps z s) :
    Keeps z (abandonRing s p l n) := by
  unfold abandonRing
  try dsimp only
  repeat' (first
    | with_reducible assumption | with_reducible apply setCore_keeps | with_reducible apply logCore_keeps
    | with_reducible apply updCore_keeps | with_reducible apply wakeAbandoned_keeps | intro _ | split)

theorem abandonCounter_keeps {z : State} (s : State) (p l n : Nat) (hz : Keeps z s) :
    Keeps z (abandonCounter s p l n) := by
  unfold abandonCounter
  try dsimp only
  repeat' (first
    | with_reducible assumption | with_reducible apply setCore_keeps | with_reducible apply wakeAbandoned_keeps
    | with_reducible apply logCore_keeps | intro _ | split)

theorem abandonWhere_keeps {z : State} (s : State) (p l : Nat) (f : Nat → Nat → Nat → Bool) (hz : Keeps z s) :
    Keeps z (abandonWhere s p l f) := by
  unfold abandonWhere
  try dsimp only
  repeat' (first
    | with_reducible assumption | with_reducible apply abandonRing_keeps | with_reducible apply abandonCounter_keeps
    | with_reducible apply Keeps.foldl | (with_reducible refine Keeps.of_pair (by with_reducible assumption) ?_)
    | intro _ | split)

theorem logTimeout_keeps {z : State} (s : State) (p l q : Nat) (w : Sleep) (hz : Keeps z s) :
    Keeps z (logTimeout s p l q w) := by
  unfold logTimeout
  try dsimp only
  repeat' (first
    | with_reducible assumption | with_reducible apply logCore_keeps)

theorem markVerdict_keeps {z : State} (s : State) (p cx : Nat) (old new : Ctx) (hz : Keeps z s) :
    Keeps z (markVerdict s p cx old new) := by
  unfold markVerdict
  try dsimp only
  repeat' (first
    | with_reducible assumption | with_reducible apply markHw_keeps | intro _ | split)

theorem arriveNow_keeps {z : State} (s : State) (p l c cx : Nat) (w : SyncCmd) (hz : Keeps z s) :
    Keeps z (arriveNow s p l c cx w) := by
  unfold arriveNow
  try dsimp only
  repeat' (first
    | with_reducible assumption | with_reducible apply updCore_keeps | with_reducible apply markVerdict_keeps
    | with_reducible apply updSlot_keeps | intro _ | split)

theorem outcomeCtx_keeps {z : State} (s : State) (p l cx : Nat) (n : SlotNews) (hz : Keeps z s) :
    Keeps z (outcomeCtx s p l cx n) := by
  unfold outcomeCtx
  try dsimp only
  repeat' (first
    | with_reducible assumption | with_reducible apply logCore_keeps | with_reducible apply updCore_keeps
    | with_reducible apply markVerdict_keeps | intro _ | split)

theorem outcomeQueue_keeps {z : State} (s : State) (p l c q cx : Nat) (n : SlotNews) (hit : Bool) (hz : Keeps z s) :
    Keeps z (outcomeQueue s p l c q cx n hit) := by
  unfold outcomeQueue
  try dsimp only
  repeat' (first
    | with_reducible assumption | with_reducible apply endSleep_keeps | with_reducible apply arriveNow_keeps
    | with_reducible apply updQueue_keeps | intro _ | split)

theorem outcomeReaches_keeps {z : State} (s : State) (p l c : Nat) (n : SlotNews) (hz : Keeps z s) :
    Keeps z (outcomeReaches s p l c n) := by
  unfold outcomeReaches
  try dsimp only
  repeat' (first
    | with_reducible assumption | with_reducible apply catchUp_keeps | with_reducible apply updCore_keeps
    | with_reducible apply outcomeCtx_keeps | with_reducible apply outcomeQueue_keeps
    | with_reducible apply Keeps.foldl | (with_reducible refine Keeps.of_pair (by with_reducible assumption) ?_)
    | intro _ | split)

theorem partTimeout_keeps {z : State} (s : State) (p l c cx slot : Nat) (hz : Keeps z s) :
    Keeps z (partTimeout s p l c cx slot) := by
  unfold partTimeout
  try dsimp only
  repeat' (first
    | with_reducible assumption | with_reducible apply markVerdict_keeps | with_reducible apply updCore_keeps
    | with_reducible apply endSleep_keeps | with_reducible apply logTimeout_keeps | with_reducible apply Keeps.foldl
    | (with_reducible refine Keeps.of_pair (by with_reducible assumption) ?_) | intro _ | split)

theorem sendNews_keeps {z : State} (s : State) (slot how orp : Nat) (andp parity : Bool) (hz : Keeps z s) :
    Keeps z (sendNews s slot how orp andp parity) := by
  unfold sendNews
  try dsimp only
  repeat' (first
    | with_reducible assumption | intro _ | (with_reducible refine Keeps.lit ?_ rfl rfl rfl))

theorem releaseSlot_keeps {z : State} (s : State) (slot parity orp : Nat) (andp : Bool) (hz : Keeps z s) :
    Keeps z (releaseSlot s slot parity orp andp) := by
  unfold releaseSlot
  try dsimp only
  repeat' (first
    | with_reducible assumption | with_reducible apply updSlot_keeps | with_reducible apply sendNews_keeps)

theorem sendArr_keeps {z : State} (s : State) (body : List (Nat × Nat)) (hz : Keeps z s) :
    Keeps z (sendArr s body) := by
  unfold sendArr
  try dsimp only
  repeat' (first
    | with_reducible assumption | with_reducible apply sendMsg_keeps | intro _ | split)

theorem breakSlot_keeps {z : State} (s : State) (slot : Nat) (who : Option Nat) (fromBase : Bool) (hz : Keeps z s) :
    Keeps z (breakSlot s slot who fromBase) := by
  unfold breakSlot
  try dsimp only
  repeat' (first
    | with_reducible assumption | with_reducible apply updSlot_keeps | with_reducible apply sendNews_keeps
    | with_reducible apply logChip_keeps | with_reducible apply logCore_keeps | with_reducible apply sendArr_keeps
    | intro _ | split)

theorem clearMembers_keeps {z : State} (s : State) (slot : Nat) (hz : Keeps z s) :
    Keeps z (clearMembers s slot) := by
  unfold clearMembers
  try dsimp only
  repeat' (first
    | with_reducible assumption | with_reducible apply updCtx_keeps | with_reducible apply Keeps.foldl
    | (with_reducible refine Keeps.of_pair (by with_reducible assumption) ?_) | intro _ | split)

theorem breakIfUnserved_keeps {z : State} (s : State) (slot : Nat) (hz : Keeps z s) :
    Keeps z (breakIfUnserved s slot) := by
  unfold breakIfUnserved
  try dsimp only
  repeat' (first
    | with_reducible assumption | with_reducible apply breakSlot_keeps | intro _ | split)

theorem applySlotWord_keeps {z : State} (s : State) (slot v : Nat) (hz : Keeps z s) :
    Keeps z (applySlotWord s slot v) := by
  unfold applySlotWord
  try dsimp only
  repeat' (first
    | with_reducible assumption | with_reducible apply breakSlot_keeps | with_reducible apply updSlot_keeps
    | with_reducible apply breakIfUnserved_keeps | with_reducible apply clearMembers_keeps | intro _ | split)

theorem breakSlotsOf_keeps {z : State} (s : State) (l : Nat) (hz : Keeps z s) :
    Keeps z (breakSlotsOf s l) := by
  unfold breakSlotsOf
  try dsimp only
  repeat' (first
    | with_reducible assumption | with_reducible apply breakSlot_keeps | with_reducible apply Keeps.foldl
    | (with_reducible refine Keeps.of_pair (by with_reducible assumption) ?_) | intro _ | split)

theorem startSequence_keeps {z : State} (s : State) (cav : Nat) (hz : Keeps z s) :
    Keeps z (startSequence s cav) := by
  unfold startSequence
  try dsimp only
  repeat' (first
    | with_reducible assumption | with_reducible apply updCav_keeps)

theorem startRise_keeps {z : State} (s : State) (cav : Nat) (hz : Keeps z s) :
    Keeps z (startRise s cav) := by
  unfold startRise
  try dsimp only
  repeat' (first
    | with_reducible assumption | with_reducible apply startSequence_keeps | intro _ | split)

theorem notePhase_keeps {z : State} (s : State) (l phase : Nat) (hz : Keeps z s) :
    Keeps z (notePhase s l phase) := by
  unfold notePhase
  try dsimp only
  repeat' (first
    | with_reducible assumption | with_reducible apply updCav_keeps | with_reducible apply startRise_keeps | intro _
    | split)

theorem onHeadFail_keeps {z : State} (s : State) (l q : Nat) (want : Nat → Bool) (fail : State → Nat → State)
    (go : State → Nat → Nat → Header → Cmd → State) (hz : Keeps z s) (hf : ∀ s b, Keeps z s → Keeps z (fail s b))
    (hg : ∀ s a b c d, Keeps z s → Keeps z (go s a b c d)) :
    Keeps z (onHeadFail s l q want fail go) := by
  unfold onHeadFail
  try dsimp only
  repeat' (first
    | with_reducible assumption | with_reducible apply hf | with_reducible apply hg | with_reducible apply withLive_keeps
    | with_reducible apply stopBadRow_keeps | with_reducible apply settleTo_keeps | with_reducible apply report_keeps
    | with_reducible apply retireHead_keeps | with_reducible apply useWords_keeps
    | with_reducible apply newTrack_keeps | with_reducible apply endTrack_keeps | with_reducible apply dueDone_keeps
    | with_reducible apply leaveHead_keeps | with_reducible apply notePhase_keeps
    | with_reducible apply noteEvent_keeps | with_reducible apply Keeps.foldl | with_reducible apply Keeps.foldl2
    | (with_reducible refine Keeps.of_pair (by with_reducible assumption) ?_) | intro _ | split)

theorem onHead_keeps {z : State} (s : State) (l q : Nat) (want : Nat → Bool)
    (go : State → Nat → Nat → Header → Cmd → State) (hz : Keeps z s)
    (hg : ∀ s a b c d, Keeps z s → Keeps z (go s a b c d)) :
    Keeps z (onHead s l q want go) := by
  unfold onHead
  try dsimp only
  repeat' (first
    | with_reducible assumption | apply hg | with_reducible apply onHeadFail_keeps | intro _)

theorem waitHead_keeps {z : State} (s : State) (p q c : Nat) (h : Header) (cmd : Cmd) (hz : Keeps z s) :
    Keeps z (waitHead s p q c h cmd) := by
  unfold waitHead
  try dsimp only
  repeat' (first
    | with_reducible assumption | with_reducible apply newTrack_keeps | with_reducible apply report_keeps
    | with_reducible apply updQueue_keeps)

theorem retireDecoded_keeps {z : State} (s : State) (p l q c : Nat) (d : Decoded) (kind : Nat) (st : Status)
    (hz : Keeps z s) :
    Keeps z (retireDecoded s p l q c d kind st) := by
  unfold retireDecoded
  try dsimp only
  repeat' (first
    | with_reducible assumption | with_reducible apply updCore_keeps | with_reducible apply endTrack_keeps
    | with_reducible apply report_keeps | with_reducible apply leaveHead_keeps | with_reducible apply retire_keeps)

theorem countAct_keeps {z : State} (s : State) (l kind n : Nat) (hz : Keeps z s) :
    Keeps z (countAct s l kind n) := by
  unfold countAct
  try dsimp only
  repeat' (first
    | with_reducible assumption | with_reducible apply updCav_keeps)

theorem countTag_keeps {z : State} (s : State) (p l c cx tag : Nat) (n : Counts) (track i : Nat) (hz : Keeps z s) :
    Keeps z (countTag s p l c cx tag n track i) := by
  unfold countTag
  try dsimp only
  repeat' (first
    | with_reducible assumption | with_reducible apply updCore_keeps | with_reducible apply useWords_keeps
    | (with_reducible refine Keeps.of_pair (by with_reducible assumption) ?_) | intro _ | split)

theorem countOpt_keeps {z : State} (s : State) (p l c cx : Nat) (tag : Option Nat) (n : Counts) (track i : Nat)
    (hz : Keeps z s) :
    Keeps z (countOpt s p l c cx tag n track i) := by
  unfold countOpt
  try dsimp only
  repeat' (first
    | with_reducible assumption | with_reducible apply countTag_keeps | intro _ | split)

theorem logTile_keeps {z : State} (s : State) (p l c slot t cause : Nat) (word : List (Nat × Nat)) (hz : Keeps z s) :
    Keeps z (logTile s p l c slot t cause word) := by
  unfold logTile
  try dsimp only
  repeat' (first
    | with_reducible assumption | with_reducible apply happen_keeps)

theorem countFsReads_keeps {z : State} (s : State) (p l first n : Nat) (cy : Nat → Nat) (hz : Keeps z s) :
    Keeps z (countFsReads s p l first n cy) := by
  unfold countFsReads
  try dsimp only
  repeat' (first
    | with_reducible assumption | with_reducible apply happen_keeps | with_reducible apply Keeps.foldl | intro _ | split)

theorem tileReadFault_keeps {z : State} (s : State) (p l slot id t first n : Nat) (cy : Nat → Nat) (hz : Keeps z s)
    :
    Keeps z (tileReadFault s p l slot id t first n cy).2 := by
  unfold tileReadFault
  try dsimp only
  repeat' (first
    | with_reducible assumption | with_reducible apply countFsReads_keeps | with_reducible apply updCore_keeps
    | with_reducible apply logTile_keeps | intro _ | split)

theorem noteFree_keeps {z : State} (s : State) (p l q : Nat) (d : Decoded) (hz : Keeps z s) :
    Keeps z (noteFree s p l q d) := by
  unfold noteFree
  try dsimp only
  repeat' (first
    | with_reducible assumption | with_reducible apply updQueue_keeps)

theorem noteDrain_keeps {z : State} (s : State) (p e : Nat) (hz : Keeps z s) :
    Keeps z (noteDrain s p e) := by
  unfold noteDrain
  try dsimp only
  repeat' (first
    | with_reducible assumption | with_reducible apply setCore_keeps | with_reducible apply shiftTrack_keeps
    | with_reducible apply Keeps.foldl | (with_reducible refine Keeps.of_pair (by with_reducible assumption) ?_)
    | intro _ | split)

theorem claimFill_keeps {z : State} (s : State) (p now first last : Nat) (hz : Keeps z s) :
    Keeps z (claimFill s p now first last) := by
  unfold claimFill
  try dsimp only
  repeat' (first
    | with_reducible assumption | with_reducible apply setCore_keeps | with_reducible apply shiftTrack_keeps | intro _
    | split)

theorem bringRamp_keeps {z : State} (s : State) (p l c : Nat) (hz : Keeps z s) :
    Keeps z (bringRamp s p l c) := by
  unfold bringRamp
  try dsimp only
  repeat' (first
    | with_reducible assumption | with_reducible apply countAct_keeps | with_reducible apply updCore_keeps)

theorem judgeSlope_keeps {z : State} (s : State) (hz : Keeps z s) :
    Keeps z (judgeSlope s) := by
  unfold judgeSlope
  try dsimp only
  repeat' (first
    | with_reducible assumption | with_reducible apply updGal_keeps | intro _ | split
    | (with_reducible refine Keeps.lit ?_ rfl rfl rfl))

theorem rollGal_keeps {z : State} (s : State) (g c : Nat) (hz : Keeps z s) :
    Keeps z (rollGal s g c) := by
  unfold rollGal
  try dsimp only
  repeat' (first
    | with_reducible assumption | with_reducible apply updGal_keeps | with_reducible apply judgeSlope_keeps)

theorem failRendezvous_keeps {z : State} (s : State) (g : Nat) (st : Status) (owe : Bool) (hz : Keeps z s) :
    Keeps z (failRendezvous s g st owe) := by
  unfold failRendezvous
  try dsimp only
  repeat' (first
    | with_reducible assumption | with_reducible apply updGal_keeps | with_reducible apply retireDecoded_keeps
    | with_reducible apply Keeps.foldl | (with_reducible refine Keeps.of_pair (by with_reducible assumption) ?_)
    | intro _ | split)

theorem endHead_keeps {z : State} (s : State) (p l q : Nat) (d : Decoded) (st : Status) (hz : Keeps z s) :
    Keeps z (endHead s p l q d st) := by
  unfold endHead
  try dsimp only
  repeat' (first
    | with_reducible assumption | with_reducible apply retireDecoded_keeps | with_reducible apply report_keeps
    | with_reducible apply failRendezvous_keeps | with_reducible apply updGal_keeps | intro _ | split)

theorem endPend_keeps {z : State} (s : State) (p l : Nat) (d : Decoded) (st : Status) (hz : Keeps z s) :
    Keeps z (endPend s p l d st) := by
  unfold endPend
  try dsimp only
  repeat' (first
    | with_reducible assumption | with_reducible apply updCore_keeps | with_reducible apply report_keeps
    | with_reducible apply endTrack_keeps | with_reducible apply retire_keeps)

theorem endAbandonedHead_keeps {z : State} (s : State) (p l q : Nat) (hz : Keeps z s) :
    Keeps z (endAbandonedHead s p l q) := by
  unfold endAbandonedHead
  try dsimp only
  repeat' (first
    | with_reducible assumption | with_reducible apply endHead_keeps | intro _ | split)

theorem endAbandonedPend_keeps {z : State} (s : State) (p l : Nat) (hz : Keeps z s) :
    Keeps z (endAbandonedPend s p l) := by
  unfold endAbandonedPend
  try dsimp only
  repeat' (first
    | with_reducible assumption | with_reducible apply endPend_keeps | intro _ | split)

theorem endAbandoned_keeps {z : State} (s : State) (p l : Nat) (hz : Keeps z s) :
    Keeps z (endAbandoned s p l) := by
  unfold endAbandoned
  try dsimp only
  repeat' (first
    | with_reducible assumption | with_reducible apply endAbandonedPend_keeps
    | with_reducible apply endAbandonedHead_keeps | with_reducible apply Keeps.foldl
    | (with_reducible refine Keeps.of_pair (by with_reducible assumption) ?_) | intro _)

theorem abandonAll_keeps {z : State} (s : State) (p l : Nat) (f : Nat → Nat → Nat → Bool) (hz : Keeps z s) :
    Keeps z (abandonAll s p l f) := by
  unfold abandonAll
  try dsimp only
  repeat' (first
    | with_reducible assumption | with_reducible apply endAbandoned_keeps | with_reducible apply abandonWhere_keeps)

theorem fromCrossbar_keeps {z : State} (s : State) (gal : Nat) (pkt : Packet) (hz : Keeps z s) :
    Keeps z (fromCrossbar s gal pkt) := by
  unfold fromCrossbar
  try dsimp only
  repeat' (first
    | with_reducible assumption | intro _ | (with_reducible refine Keeps.lit ?_ rfl rfl rfl))

theorem sendDown_keeps {z : State} (s : State) (p : Nat) (pkt : Packet) (hz : Keeps z s) :
    Keeps z (sendDown s p pkt) := by
  unfold sendDown
  try dsimp only
  repeat' (first
    | with_reducible assumption | with_reducible apply updCore_keeps)

theorem replyVia_keeps {z : State} (s : State) (p : Nat) (port : Port) (pkt : Packet) (hz : Keeps z s) :
    Keeps z (replyVia s p port pkt) := by
  unfold replyVia
  try dsimp only
  repeat' (first
    | with_reducible assumption | with_reducible apply inject_keeps | with_reducible apply sendDown_keeps | intro _
    | split)

theorem freeFlits_keeps {z : State} (s : State) (port : Port) (pkt : Packet) (hz : Keeps z s) :
    Keeps z (freeFlits s port pkt) := by
  unfold freeFlits
  try dsimp only
  repeat' (first
    | with_reducible assumption | with_reducible apply updBun_keeps | intro _ | split)

theorem deliverOpt_keeps {z : State} (s : State) (port : Port) (pkt : Packet) (f : State → Nat → Nat → Option State)
    (hz : Keeps z s) (hf : ∀ t a b, Keeps z t → KeepsO z (f t a b)) :
    Keeps z (deliverOpt s port pkt f) := by
  unfold deliverOpt
  try dsimp only
  repeat' (first
    | with_reducible assumption | (with_reducible refine KeepsO.of_eq (by with_reducible assumption) (hf _ _ _ ?_))
    | with_reducible apply freeFlits_keeps | with_reducible apply report_keeps
    | with_reducible apply fromCrossbar_keeps | with_reducible apply sendDown_keeps
    | with_reducible apply updCore_keeps | with_reducible apply replyVia_keeps | intro _ | split)

theorem deliver_keeps {z : State} (s : State) (port : Port) (pkt : Packet) (f : State → Nat → Nat → State)
    (hz : Keeps z s) (hf : ∀ t a b, Keeps z t → Keeps z (f t a b)) :
    Keeps z (deliver s port pkt f) := by
  unfold deliver
  try dsimp only
  repeat' (first
    | with_reducible assumption | apply hf | with_reducible apply deliverOpt_keeps | with_reducible apply KeepsO.some
    | exact KeepsO.none | intro _)

theorem deliverSig_keeps {z : State} (s : State) (port : Port) (pkt : Packet) (f : State → Nat → Nat → State)
    (hz : Keeps z s) (hf : ∀ t a b, Keeps z t → Keeps z (f t a b)) : Keeps z (deliverSig s port pkt f) := by
  refine deliverOpt_keeps s port pkt _ hz fun t l p ht => ?_
  split
  · exact KeepsO.none
  · exact KeepsO.some (hf _ _ _ ht)

theorem counterPacket_keeps {z : State} (s : State) (port : Port) (pkt : Packet) (hz : Keeps z s) :
    Keeps z (counterPacket s port pkt) := by
  unfold counterPacket
  try dsimp only
  repeat' (first
    | with_reducible assumption | with_reducible apply deliverSig_keeps | with_reducible apply answerPkt_keeps
    | with_reducible apply noteEvent_keeps | with_reducible apply settleSync_keeps
    | with_reducible apply useWords_keeps | with_reducible apply updateCounter_keeps
    | (with_reducible refine Keeps.of_pair (by with_reducible assumption) ?_) | intro _ | split)

theorem finishRun_keeps {z : State} (s : State) (p l tag q : Nat) (hz : Keeps z s) :
    Keeps z (finishRun s p l tag q) := by
  unfold finishRun
  try dsimp only
  repeat' (first
    | with_reducible assumption | with_reducible apply updCore_keeps | with_reducible apply updTrack_keeps
    | with_reducible apply report_keeps | with_reducible apply dueDone_keeps | intro _ | split)

theorem respond_keeps {z : State} (s : State) (p l tag q row : Nat) (st : Status) (hz : Keeps z s) :
    Keeps z (respond s p l tag q row st) := by
  unfold respond
  try dsimp only
  repeat' (first
    | with_reducible assumption | with_reducible apply logCore_keeps | with_reducible apply finishRun_keeps
    | with_reducible apply setCore_keeps | intro _ | split)

theorem useFill_keeps {z : State} (s : State) (p c n : Nat) (hz : Keeps z s) :
    Keeps z (useFill s p c n) := by
  unfold useFill
  try dsimp only
  repeat' (first
    | with_reducible assumption | with_reducible apply claimFill_keeps | with_reducible apply Keeps.foldl
    | (with_reducible refine Keeps.of_pair (by with_reducible assumption) ?_) | intro _)

theorem tryImage_keeps {z : State} (s : State) (p l tag q : Nat) (hz : Keeps z s) :
    Keeps z (tryImage s p l tag q) := by
  unfold tryImage
  try dsimp only
  repeat' (first
    | with_reducible assumption | with_reducible apply updCore_keeps | with_reducible apply respond_keeps
    | with_reducible apply useFill_keeps | with_reducible apply setCore_keeps | with_reducible apply Keeps.foldl
    | (with_reducible refine Keeps.of_pair (by with_reducible assumption) ?_) | intro _ | split)

theorem moveRow_keeps {z : State} (s : State) (l q key : Nat) (hz : Keeps z s) :
    Keeps z (moveRow s l q key) := by
  unfold moveRow
  try dsimp only
  repeat' (first
    | with_reducible assumption | with_reducible apply onHead_keeps | with_reducible apply endAbandonedHead_keeps
    | with_reducible apply waitHead_keeps | intro _)

theorem readIndex_keeps {z : State} (s : State) (core q : Nat) (meets : List Meet) (hz : Keeps z s) :
    Keeps z (readIndex s core q meets) := by
  unfold readIndex
  try dsimp only
  repeat' (first
    | with_reducible assumption | with_reducible apply withIssue_keeps | with_reducible apply endHead_keeps
    | with_reducible apply readRows_keeps | with_reducible apply retireDecoded_keeps
    | with_reducible apply updQueue_keeps | (with_reducible refine Keeps.of_pair (by with_reducible assumption) ?_)
    | intro _ | split)

theorem sendRow_keeps {z : State} (s : State) (p l tag q row ready : Nat) (pkt : Packet) (hz : Keeps z s) :
    Keeps z (sendRow s p l tag q row ready pkt) := by
  unfold sendRow
  try dsimp only
  repeat' (first
    | with_reducible assumption | with_reducible apply respond_keeps | with_reducible apply updCore_keeps
    | with_reducible apply injectFrom_keeps | intro _ | split)

theorem startRun_keeps {z : State} (s : State) (p q : Nat) (d : Decoded) (op rows released dst : Nat)
    (en at_ fs whole poisoned : Bool) (flag issued : Nat) (hz : Keeps z s) :
    Keeps z (startRun s p q d op rows released dst en at_ fs whole poisoned flag issued).2 := by
  unfold startRun
  try dsimp only
  repeat' (first
    | with_reducible assumption | with_reducible apply setCore_keeps | with_reducible apply updTrack_keeps
    | with_reducible apply dueDone_keeps | intro _ | split)

theorem loopRow_keeps {z : State} (s : State) (p l tag row ready a : Nat) (x : Row) (hz : Keeps z s) :
    Keeps z (loopRow s p l tag row ready a x) := by
  unfold loopRow
  try dsimp only
  repeat' (first
    | with_reducible assumption | with_reducible apply updCore_keeps)

theorem failRow_keeps {z : State} (s : State) (p l tag q c a : Nat) (st : Status) (hz : Keeps z s) :
    Keeps z (failRow s p l tag q c a st) := by
  unfold failRow
  try dsimp only
  repeat' (first
    | with_reducible assumption | with_reducible apply updCore_keeps | with_reducible apply respond_keeps)

theorem sendRows_keeps {z : State} (s : State) (p l tag : Nat) (rows : List (Nat × Nat × Row × Option Status))
    (whole : Bool) (hz : Keeps z s) :
    Keeps z (sendRows s p l tag rows whole) := by
  unfold sendRows
  try dsimp only
  repeat' (first
    | with_reducible assumption | with_reducible apply failRow_keeps | with_reducible apply loopRow_keeps
    | with_reducible apply sendRow_keeps | with_reducible apply Keeps.foldl
    | (with_reducible refine Keeps.of_pair (by with_reducible assumption) ?_) | intro _ | split)

theorem takeCredits_keeps {z : State} (s : State) (p l : Nat) (ds : List Nat) (hz : Keeps z s) :
    Keeps z (takeCredits s p l ds) := by
  unfold takeCredits
  try dsimp only
  repeat' (first
    | with_reducible assumption | with_reducible apply useWords_keeps | with_reducible apply updCore_keeps)

theorem noteDeep_keeps {z : State} (s : State) (p q n : Nat) (hz : Keeps z s) :
    Keeps z (noteDeep s p q n) := by
  unfold noteDeep
  try dsimp only
  repeat' (first
    | with_reducible assumption | with_reducible apply updCore_keeps)

theorem issueMove_keeps {z : State} (s : State) (p l e : Nat) (d : Decoded) (m : MoveCmd) (meets : List Meet)
    (hz : Keeps z s) :
    Keeps z (issueMove s p l e d m meets) := by
  unfold issueMove
  try dsimp only
  repeat' (first
    | with_reducible assumption | with_reducible apply noteDeep_keeps | with_reducible apply takeCredits_keeps
    | with_reducible apply readRows_keeps | with_reducible apply updCore_keeps | with_reducible apply startRun_keeps
    | with_reducible apply countOpt_keeps | with_reducible apply leaveHead_keeps | with_reducible apply countAct_keeps
    | with_reducible apply sendRows_keeps | with_reducible apply Keeps.foldl | with_reducible apply Keeps.foldl2
    | (with_reducible refine Keeps.of_pair (by with_reducible assumption) ?_) | intro _ | split)

theorem readTileRows_keeps {z : State} (s : State) (p l slot id t first count : Nat) (whole : Bool) (cy : Nat → Nat)
    (hz : Keeps z s) :
    Keeps z (readTileRows s p l slot id t first count whole cy).2.2 := by
  unfold readTileRows
  try dsimp only
  repeat' (first
    | with_reducible assumption | with_reducible apply tileReadFault_keeps)

theorem issueTileOut_keeps {z : State} (s : State) (p l e : Nat) (d : Decoded) (m : MoveCmd) (hz : Keeps z s) :
    Keeps z (issueTileOut s p l e d m) := by
  unfold issueTileOut
  try dsimp only
  repeat' (first
    | with_reducible assumption | with_reducible apply noteDeep_keeps | with_reducible apply takeCredits_keeps
    | with_reducible apply readTileRows_keeps | with_reducible apply updCore_keeps
    | with_reducible apply startRun_keeps | with_reducible apply leaveHead_keeps | with_reducible apply countAct_keeps
    | with_reducible apply sendRows_keeps)

theorem issueSignal_keeps {z : State} (s : State) (p l e : Nat) (d : Decoded) (value dst : Nat) (hz : Keeps z s) :
    Keeps z (issueSignal s p l e d value dst) := by
  unfold issueSignal
  try dsimp only
  repeat' (first
    | with_reducible assumption | with_reducible apply startRun_keeps | with_reducible apply sendRow_keeps
    | with_reducible apply leaveHead_keeps)

theorem issueGrant_keeps {z : State} (s : State) (p l e : Nat) (d : Decoded) (w count : Nat) (hz : Keeps z s) :
    Keeps z (issueGrant s p l e d w count) := by
  unfold issueGrant
  try dsimp only
  repeat' (first
    | with_reducible assumption | with_reducible apply grantWin_keeps | with_reducible apply report_keeps
    | with_reducible apply endTrack_keeps | with_reducible apply leaveHead_keeps)

theorem issueOut_keeps {z : State} (s : State) (core : Nat) (meets : List Meet) (hz : Keeps z s) :
    Keeps z (issueOut s core meets) := by
  unfold issueOut
  try dsimp only
  repeat' (first
    | with_reducible assumption | with_reducible apply withIssue_keeps | with_reducible apply endHead_keeps
    | with_reducible apply noteFree_keeps | with_reducible apply updCore_keeps
    | with_reducible apply issueTileOut_keeps | with_reducible apply issueMove_keeps
    | with_reducible apply issueSignal_keeps | with_reducible apply issueGrant_keeps | intro _ | split)

theorem issueDeepRead_keeps {z : State} (s : State) (p l e : Nat) (d : Decoded) (m : MoveCmd) (hz : Keeps z s) :
    Keeps z (issueDeepRead s p l e d m) := by
  unfold issueDeepRead
  try dsimp only
  repeat' (first
    | with_reducible assumption | with_reducible apply startRun_keeps | with_reducible apply noteDeep_keeps
    | with_reducible apply updCore_keeps | with_reducible apply leaveHead_keeps | with_reducible apply sendRow_keeps
    | with_reducible apply Keeps.foldl | with_reducible apply Keeps.foldl2
    | (with_reducible refine Keeps.of_pair (by with_reducible assumption) ?_) | intro _ | split)

theorem restoreRow_keeps {z : State} (s : State) (p l : Nat) (pkt : Packet) (i : Nat) (st : Status) (hz : Keeps z s)
    :
    Keeps z (restoreRow s p l pkt i st) := by
  unfold restoreRow
  try dsimp only
  repeat' (first
    | with_reducible assumption | with_reducible apply setCore_keeps | intro _ | split)

theorem resendHeld_keeps {z : State} (s : State) (p : Nat) (hz : Keeps z s) :
    Keeps z (resendHeld s p) := by
  unfold resendHeld
  try dsimp only
  repeat' (first
    | with_reducible assumption | with_reducible apply updCore_keeps | with_reducible apply inject_keeps
    | with_reducible apply Keeps.foldl | (with_reducible refine Keeps.of_pair (by with_reducible assumption) ?_)
    | intro _ | split)

theorem enterNode_keeps {z : State} (s : State) (node input : Nat) (pkt : Packet) (hz : Keeps z s) :
    Keeps z (enterNode s node input pkt) := by
  unfold enterNode
  try dsimp only
  repeat' (first
    | with_reducible assumption | intro _ | (with_reducible refine Keeps.lit ?_ rfl rfl rfl))

theorem ageHeads_keeps {z : State} (s : State) (p side n : Nat) (hz : Keeps z s) :
    Keeps z (ageHeads s p side n) := by
  unfold ageHeads
  try dsimp only
  repeat' (first
    | with_reducible assumption | with_reducible apply setCore_keeps | intro _ | split)

theorem veinFlit_keeps {z : State} (s : State) (gal port : Nat) (header bad : Bool) (err : FlitErr) (hz : Keeps z s)
    :
    Keeps z (veinFlit s gal port header bad err).1 := by
  unfold veinFlit
  try dsimp only
  repeat' (first
    | with_reducible assumption | with_reducible apply updGal_keeps | with_reducible apply logGal_keeps
    | (with_reducible refine Keeps.of_left (by with_reducible assumption) ?_) | intro _ | split)

theorem leaveInj_keeps {z : State} (s : State) (p side : Nat) (x : InjPkt) (hz : Keeps z s) :
    Keeps z (leaveInj s p side x) := by
  unfold leaveInj
  try dsimp only
  repeat' (first
    | with_reducible assumption | with_reducible apply enterNode_keeps | intro _ | split
    | (with_reducible refine Keeps.lit ?_ rfl rfl rfl))

theorem loseOutbound_keeps {z : State} (s : State) (p side i : Nat) (x : InjPkt) (hz : Keeps z s) :
    Keeps z (loseOutbound s p side i x) := by
  unfold loseOutbound
  try dsimp only
  repeat' (first
    | with_reducible assumption | with_reducible apply updCore_keeps | with_reducible apply failRow_keeps
    | with_reducible apply logCore_keeps)

theorem sendInj_keeps {z : State} (s : State) (p side i : Nat) (x : InjPkt) (err : FlitErr) (hz : Keeps z s) :
    Keeps z (sendInj s p side i x err) := by
  unfold sendInj
  try dsimp only
  repeat' (first
    | with_reducible assumption | with_reducible apply veinFlit_keeps | with_reducible apply updBun_keeps
    | with_reducible apply leaveInj_keeps | with_reducible apply setCore_keeps
    | (with_reducible refine Keeps.of_left (by with_reducible assumption) ?_) | intro _ | split)

theorem leaveNode_keeps {z : State} (s : State) (node output : Nat) (pkt : Packet) (hz : Keeps z s) :
    Keeps z (leaveNode s node output pkt) := by
  unfold leaveNode
  try dsimp only
  repeat' (first
    | with_reducible assumption | with_reducible apply enterNode_keeps | with_reducible apply updCore_keeps
    | with_reducible apply fromCrossbar_keeps | intro _ | split)

theorem clearStuck_keeps {z : State} (s : State) (node input ch : Nat) (hz : Keeps z s) :
    Keeps z (clearStuck s node input ch) := by
  unfold clearStuck
  try dsimp only
  repeat' (first
    | with_reducible assumption | with_reducible apply updGal_keeps)

theorem grantFlit_keeps {z : State} (s : State) (node output i : Nat) (x : NetPkt) (err : FlitErr) (hz : Keeps z s)
    :
    Keeps z (grantFlit s node output i x err) := by
  unfold grantFlit
  try dsimp only
  repeat' (first
    | with_reducible assumption | with_reducible apply veinFlit_keeps | with_reducible apply updGal_keeps
    | with_reducible apply clearStuck_keeps | with_reducible apply leaveNode_keeps
    | (with_reducible refine Keeps.of_left (by with_reducible assumption) ?_) | intro _ | split
    | (with_reducible refine Keeps.lit ?_ rfl rfl rfl))

theorem stallInj_keeps {z : State} (s : State) (core side ch : Nat) (hz : Keeps z s) :
    Keeps z (stallInj s core side ch) := by
  unfold stallInj
  try dsimp only
  repeat' (first
    | with_reducible assumption | with_reducible apply setCore_keeps | with_reducible apply logCore_keeps
    | with_reducible apply logGal_keeps | intro _ | split)

theorem stallNode_keeps {z : State} (s : State) (node input ch : Nat) (hz : Keeps z s) :
    Keeps z (stallNode s node input ch) := by
  unfold stallNode
  try dsimp only
  repeat' (first
    | with_reducible assumption | with_reducible apply updGal_keeps | with_reducible apply logGal_keeps | intro _
    | split)

theorem writeShareStatus_keeps {z : State} (s : State) (p v : Nat) (hz : Keeps z s) :
    Keeps z (writeShareStatus s p v).2 := by
  unfold writeShareStatus
  try dsimp only
  repeat' (first
    | with_reducible assumption | with_reducible apply updCore_keeps)

theorem applyAllot_keeps {z : State} (s : State) (p q r v : Nat) (hz : Keeps z s) :
    Keeps z (applyAllot s p q r v) := by
  unfold applyAllot
  try dsimp only
  repeat' (first
    | with_reducible assumption | with_reducible apply updCore_keeps)

theorem judgeGang_keeps {z : State} (s : State) (g : Nat) (hz : Keeps z s) :
    Keeps z (judgeGang s g) := by
  unfold judgeGang
  try dsimp only
  repeat' (first
    | with_reducible assumption | with_reducible apply failRendezvous_keeps | with_reducible apply logGal_keeps
    | intro _ | split)

theorem arriveGang_keeps {z : State} (s : State) (p l c : Nat) (hz : Keeps z s) :
    Keeps z (arriveGang s p l c) := by
  unfold arriveGang
  try dsimp only
  repeat' (first
    | with_reducible assumption | with_reducible apply updGal_keeps | with_reducible apply retireDecoded_keeps
    | with_reducible apply judgeGang_keeps | intro _ | split)

theorem refuseGang_keeps {z : State} (s : State) (l : Nat) (hz : Keeps z s) :
    Keeps z (refuseGang s l) := by
  unfold refuseGang
  try dsimp only
  repeat' (first
    | with_reducible assumption | with_reducible apply updGal_keeps | with_reducible apply failRendezvous_keeps
    | with_reducible apply report_keeps | intro _ | split)

theorem readPanel_keeps {z : State} (s : State) (p l slot : Nat) (meets : List Meet) (row e track : Nat) (use : Use)
    (hz : Keeps z s) :
    Keeps z (readPanel s p l slot meets row e track use).2.2 := by
  unfold readPanel
  try dsimp only
  repeat' (first
    | with_reducible assumption | with_reducible apply readRows_keeps | with_reducible apply updCore_keeps
    | with_reducible apply countAct_keeps)

theorem storePass_keeps {z : State} (s : State) (p l : Nat) (d : Decoded) (c : PassCmd) (sums : List (List A64))
    (fault : Option PassFault) (last : Nat) (hz : Keeps z s) :
    Keeps z (storePass s p l d c sums fault last).2 := by
  unfold storePass
  try dsimp only
  repeat' (first
    | with_reducible assumption | with_reducible apply updCore_keeps | with_reducible apply tileReadFault_keeps
    | with_reducible apply countAct_keeps | (with_reducible refine Keeps.of_pair (by with_reducible assumption) ?_)
    | intro _ | split)

theorem notePass_keeps {z : State} (s : State) (p l : Nat) (d : Decoded) (c : PassCmd)
    (e stepEnd lastWrite done : Nat) (loads : Bool) (st : Status) (hz : Keeps z s) :
    Keeps z (notePass s p l d c e stepEnd lastWrite done loads st) := by
  unfold notePass
  try dsimp only
  repeat' (first
    | with_reducible assumption | with_reducible apply claimFill_keeps | with_reducible apply bringRamp_keeps
    | with_reducible apply updCore_keeps | with_reducible apply endTrack_keeps | with_reducible apply dueDone_keeps
    | with_reducible apply report_keeps | with_reducible apply leaveHead_keeps | intro _ | split)

theorem noteUnchecked_keeps {z : State} (s : State) (p : Nat) (a b : List Block) (hz : Keeps z s) :
    Keeps z (noteUnchecked s p a b) := by
  unfold noteUnchecked
  try dsimp only
  repeat' (first
    | with_reducible assumption | with_reducible apply updCore_keeps)

theorem noteMismatch_keeps {z : State} (s : State) (p : Nat) (d : Decoded) (t : Nat) (f : Option PassFault)
    (hz : Keeps z s) :
    Keeps z (noteMismatch s p d t f) := by
  unfold noteMismatch
  try dsimp only
  repeat' (first
    | with_reducible assumption | with_reducible apply updCore_keeps | intro _ | split)

theorem logPanel_keeps {z : State} (s : State) (p l slot t : Nat) (f : Option PassFault) (hz : Keeps z s) :
    Keeps z (logPanel s p l slot t f) := by
  unfold logPanel
  try dsimp only
  repeat' (first
    | with_reducible assumption | with_reducible apply logTile_keeps | intro _ | split)

theorem issueTile_keeps {z : State} (s : State) (p l e : Nat) (d : Decoded) (c : PassCmd) (meets : List Meet)
    (fault : Option CellFault) (hz : Keeps z s) :
    Keeps z (issueTile s p l e d c meets fault) := by
  unfold issueTile
  try dsimp only
  repeat' (first
    | with_reducible assumption | with_reducible apply readPanel_keeps | with_reducible apply updCore_keeps
    | with_reducible apply noteUnchecked_keeps | with_reducible apply noteMismatch_keeps
    | with_reducible apply logPanel_keeps | with_reducible apply storePass_keeps | with_reducible apply notePass_keeps
    | (with_reducible refine Keeps.of_pair (by with_reducible assumption) ?_)
    | (with_reducible refine Keeps.of_triple (by with_reducible assumption) ?_) | intro _ | split)

theorem issuePass_keeps {z : State} (s : State) (core : Nat) (meets : List Meet) (fault : Option CellFault)
    (hz : Keeps z s) :
    Keeps z (issuePass s core meets fault) := by
  unfold issuePass
  try dsimp only
  repeat' (first
    | with_reducible assumption | with_reducible apply withIssue_keeps | with_reducible apply endHead_keeps
    | with_reducible apply noteFree_keeps | with_reducible apply rollGal_keeps | with_reducible apply updGal_keeps
    | with_reducible apply issueTile_keeps | intro _ | split)

theorem readGang_keeps {z : State} (s : State) (g e stall done : Nat) (ms : List (Nat × Nat × Decoded × PassCmd))
    (isB : Bool) (meets : List (Nat × List Meet)) (hz : Keeps z s) :
    Keeps z (readGang s g e stall done ms isB meets).2 := by
  unfold readGang
  try dsimp only
  repeat' (first
    | with_reducible assumption | with_reducible apply readPanel_keeps | with_reducible apply Keeps.foldl
    | with_reducible apply Keeps.foldl2 | (with_reducible refine Keeps.of_pair (by with_reducible assumption) ?_)
    | (with_reducible refine Keeps.of_triple (by with_reducible assumption) ?_) | intro _ | split)

theorem issueGang_keeps {z : State} (s : State) (g e : Nat) (ms : List (Nat × Nat × Decoded × PassCmd))
    (meets : List (Nat × List Meet)) (faults : List (Nat × CellFault)) (hz : Keeps z s) :
    Keeps z (issueGang s g e ms meets faults) := by
  unfold issueGang
  try dsimp only
  repeat' (first
    | with_reducible assumption | with_reducible apply readGang_keeps | with_reducible apply updCore_keeps
    | with_reducible apply noteUnchecked_keeps | with_reducible apply noteMismatch_keeps
    | with_reducible apply storePass_keeps | with_reducible apply logPanel_keeps | with_reducible apply notePass_keeps
    | with_reducible apply updGal_keeps | with_reducible apply Keeps.foldl | with_reducible apply Keeps.foldl2
    | (with_reducible refine Keeps.of_pair (by with_reducible assumption) ?_) | intro _ | split)

theorem issueRendezvous_keeps {z : State} (s : State) (gal : Nat) (meets : List (Nat × List Meet))
    (faults : List (Nat × CellFault)) (hz : Keeps z s) :
    Keeps z (issueRendezvous s gal meets faults) := by
  unfold issueRendezvous
  try dsimp only
  repeat' (first
    | with_reducible assumption | with_reducible apply judgeGang_keeps | with_reducible apply catchUp_keeps
    | with_reducible apply endHead_keeps | with_reducible apply noteFree_keeps | with_reducible apply rollGal_keeps
    | with_reducible apply updGal_keeps | with_reducible apply issueGang_keeps | with_reducible apply Keeps.foldl
    | (with_reducible refine Keeps.of_pair (by with_reducible assumption) ?_) | intro _ | split)

theorem writeTileCtrl_keeps {z : State} (s : State) (p l v : Nat) (hz : Keeps z s) :
    Keeps z (writeTileCtrl s p l v).2 := by
  unfold writeTileCtrl
  try dsimp only
  repeat' (first
    | with_reducible assumption | with_reducible apply updCore_keeps | intro _ | split)

theorem enterOut_keeps {z : State} (s : State) (p l : Nat) (hz : Keeps z s) :
    Keeps z (enterOut s p l) := by
  unfold enterOut
  try dsimp only
  repeat' (first
    | with_reducible assumption | with_reducible apply leaveHead_keeps | with_reducible apply setCore_keeps | intro _
    | split)

theorem outRow_keeps {z : State} (s : State) (l key : Nat) (f : Cmd → Bool) (hz : Keeps z s) :
    Keeps z (outRow s l key f) := by
  unfold outRow
  try dsimp only
  repeat' (first
    | with_reducible assumption | with_reducible apply withLive_keeps | with_reducible apply enterOut_keeps
    | with_reducible apply onHead_keeps | with_reducible apply endAbandonedHead_keeps
    | with_reducible apply waitHead_keeps | intro _ | split)

theorem logOutRead_keeps {z : State} (s : State) (p l c slot row cause : Nat) (hz : Keeps z s) :
    Keeps z (logOutRead s p l c slot row cause) := by
  unfold logOutRead
  try dsimp only
  repeat' (first
    | with_reducible assumption | with_reducible apply happen_keeps)

theorem startOut_keeps {z : State} (s : State) (p : Nat) (d : Decoded) (tile e ends held fill : Nat) (en : Bool)
    (flag setter : Nat) (st : Status) (hz : Keeps z s) :
    Keeps z (startOut s p d tile e ends held fill en flag setter st) := by
  unfold startOut
  try dsimp only
  repeat' (first
    | with_reducible assumption | with_reducible apply updCore_keeps | with_reducible apply endTrack_keeps
    | with_reducible apply report_keeps | with_reducible apply dueDone_keeps)

theorem readFactor_keeps {z : State} (s : State) (p l slot : Nat) (meets : List Meet) (en : Bool)
    (row e ends track : Nat) (use : Use) (hz : Keeps z s) :
    Keeps z (readFactor s p l slot meets en row e ends track use).2.2 := by
  unfold readFactor
  try dsimp only
  repeat' (first
    | with_reducible assumption | with_reducible apply readRows_keeps | with_reducible apply updCore_keeps
    | with_reducible apply logOutRead_keeps | (with_reducible refine Keeps.of_pair (by with_reducible assumption) ?_)
    | intro _ | split)

theorem runDrain_keeps {z : State} (s : State) (p l e : Nat) (d : Decoded) (c : DrainCmd) (meets : List Meet)
    (hz : Keeps z s) :
    Keeps z (runDrain s p l e d c meets) := by
  unfold runDrain
  try dsimp only
  repeat' (first
    | with_reducible assumption | with_reducible apply readFactor_keeps | with_reducible apply tileReadFault_keeps
    | with_reducible apply doFore_keeps | with_reducible apply updCore_keeps | with_reducible apply countOpt_keeps
    | with_reducible apply countAct_keeps | with_reducible apply startOut_keeps | with_reducible apply noteDrain_keeps
    | with_reducible apply Keeps.foldl | with_reducible apply Keeps.foldl2
    | (with_reducible refine Keeps.of_pair (by with_reducible assumption) ?_)
    | (with_reducible refine Keeps.of_triple (by with_reducible assumption) ?_) | intro _ | split)

theorem runDesc_keeps {z : State} (s : State) (p l e : Nat) (d : Decoded) (c : DescCmd) (hz : Keeps z s) :
    Keeps z (runDesc s p l e d c) := by
  unfold runDesc
  try dsimp only
  repeat' (first
    | with_reducible assumption | with_reducible apply startOut_keeps | with_reducible apply updCore_keeps
    | with_reducible apply tileReadFault_keeps | with_reducible apply countAct_keeps
    | with_reducible apply noteDrain_keeps | (with_reducible refine Keeps.of_pair (by with_reducible assumption) ?_)
    | intro _ | split)

theorem startPending_keeps {z : State} (s : State) (core : Nat) (meets : List Meet) (hz : Keeps z s) :
    Keeps z (startPending s core meets) := by
  unfold startPending
  try dsimp only
  repeat' (first
    | with_reducible assumption | with_reducible apply withIssue_keeps | with_reducible apply endPend_keeps
    | with_reducible apply updCore_keeps | with_reducible apply runDrain_keeps | with_reducible apply runDesc_keeps
    | intro _ | split)

theorem vecRow_keeps {z : State} (s : State) (l op : Nat) (hz : Keeps z s) :
    Keeps z (vecRow s l op) := by
  unfold vecRow
  try dsimp only
  repeat' (first
    | with_reducible assumption | with_reducible apply onHead_keeps | with_reducible apply endAbandonedHead_keeps
    | with_reducible apply waitHead_keeps | intro _)

theorem deliverRows_keeps {z : State} (s : State) (fmt : Nat) (rs : List (Row × Option Nat)) (hz : Keeps z s) :
    Keeps z (deliverRows s fmt rs).2 := by
  unfold deliverRows
  try dsimp only
  repeat' (first
    | with_reducible assumption | with_reducible apply drawFree_keeps | with_reducible apply Keeps.foldl
    | with_reducible apply Keeps.foldl2 | (with_reducible refine Keeps.of_pair (by with_reducible assumption) ?_)
    | intro _ | split)

theorem logVec_keeps {z : State} (s : State) (p l c slot row cause : Nat) (hz : Keeps z s) :
    Keeps z (logVec s p l c slot row cause) := by
  unfold logVec
  try dsimp only
  repeat' (first
    | with_reducible assumption | with_reducible apply happen_keeps)

theorem logVecs_keeps {z : State} (s : State) (p l slot : Nat) (fs : List Fore) (cs : List (Option Nat))
    (hz : Keeps z s) :
    Keeps z (logVecs s p l slot fs cs) := by
  unfold logVecs
  try dsimp only
  repeat' (first
    | with_reducible assumption | with_reducible apply logVec_keeps | with_reducible apply Keeps.foldl
    | (with_reducible refine Keeps.of_pair (by with_reducible assumption) ?_) | intro _ | split)

theorem writeVecRows_keeps {z : State} (s : State) (p l cx : Nat) (tag : Option Nat) (fs : List Fore)
    (rows : List OutRow) (cs : List (Option Nat)) (hz : Keeps z s) :
    Keeps z (writeVecRows s p l cx tag fs rows cs) := by
  unfold writeVecRows
  try dsimp only
  repeat' (first
    | with_reducible assumption | with_reducible apply countOpt_keeps | with_reducible apply updCore_keeps
    | with_reducible apply Keeps.foldl | (with_reducible refine Keeps.of_pair (by with_reducible assumption) ?_)
    | intro _ | split)

theorem countRows_keeps {z : State} (s : State) (p l e cx : Nat) (tag : Option Nat) (fmt : Nat) (rows : List Row)
    (track : Nat) (hz : Keeps z s) :
    Keeps z (countRows s p l e cx tag fmt rows track) := by
  unfold countRows
  try dsimp only
  repeat' (first
    | with_reducible assumption | with_reducible apply countOpt_keeps | with_reducible apply Keeps.foldl
    | (with_reducible refine Keeps.of_pair (by with_reducible assumption) ?_) | intro _)

theorem runVec_keeps {z : State} (s : State) (p l e : Nat) (d : Decoded) (i : VecIns) (meets : List Meet)
    (hz : Keeps z s) :
    Keeps z (runVec s p l e d i meets) := by
  unfold runVec
  try dsimp only
  repeat' (first
    | with_reducible assumption | with_reducible apply readRows_keeps | with_reducible apply logVecs_keeps
    | with_reducible apply deliverRows_keeps | with_reducible apply doFore_keeps | with_reducible apply updCore_keeps
    | with_reducible apply writeVecRows_keeps | with_reducible apply updCtx_keeps
    | with_reducible apply countOpt_keeps | with_reducible apply countRows_keeps | with_reducible apply countAct_keeps
    | with_reducible apply endTrack_keeps | with_reducible apply dueDone_keeps | with_reducible apply report_keeps
    | with_reducible apply leaveHead_keeps | with_reducible apply Keeps.foldl | with_reducible apply Keeps.foldl2
    | (with_reducible refine Keeps.of_pair (by with_reducible assumption) ?_) | intro _ | split)

theorem startVec_keeps {z : State} (s : State) (core : Nat) (meets : List Meet) (hz : Keeps z s) :
    Keeps z (startVec s core meets) := by
  unfold startVec
  try dsimp only
  repeat' (first
    | with_reducible assumption | with_reducible apply withIssue_keeps | with_reducible apply endHead_keeps
    | with_reducible apply runVec_keeps | with_reducible apply noteFree_keeps | intro _ | split)

theorem poisonPass_keeps {z : State} (s : State) (p l slot tile c track : Nat) (hz : Keeps z s) :
    Keeps z (poisonPass s p l slot tile c track) := by
  unfold poisonPass
  try dsimp only
  repeat' (first
    | with_reducible assumption | with_reducible apply updCore_keeps | with_reducible apply logTile_keeps | intro _
    | split)

theorem narWeights_keeps {z : State} (s : State) (p : Nat) (load : Option (Nat × Nat)) (hz : Keeps z s) :
    Keeps z (narWeights s p load) := by
  unfold narWeights
  try dsimp only
  repeat' (first
    | with_reducible assumption | with_reducible apply updCore_keeps | intro _ | split)

theorem rewriteRows_keeps {z : State} (s : State) (p l cx : Nat) (tag : Option Nat) (track : Nat)
    (rows : List (Nat × Nat × Nat × Row × Counts)) (hz : Keeps z s) :
    Keeps z (rewriteRows s p l cx tag track rows) := by
  unfold rewriteRows
  try dsimp only
  repeat' (first
    | with_reducible assumption | with_reducible apply updCore_keeps | with_reducible apply countOpt_keeps
    | with_reducible apply Keeps.foldl | (with_reducible refine Keeps.of_pair (by with_reducible assumption) ?_)
    | intro _ | split)

theorem mendFactor_keeps {z : State} (s : State) (p l : Nat) (a : Access) (c : DrainCmd) (w : Int) (cx : Nat)
    (tag : Option Nat) (hz : Keeps z s) :
    Keeps z (mendFactor s p l a c w cx tag) := by
  unfold mendFactor
  try dsimp only
  repeat' (first
    | with_reducible assumption | with_reducible apply rewriteRows_keeps | with_reducible apply updCore_keeps
    | with_reducible apply logOutRead_keeps | intro _ | split)

theorem mendOutRow_keeps {z : State} (s : State) (p : Nat) (a : Access) (hz : Keeps z s) :
    Keeps z (mendOutRow s p a) := by
  unfold mendOutRow
  try dsimp only
  repeat' (first
    | with_reducible assumption | with_reducible apply updCore_keeps | intro _ | split)

theorem mendVecRead_keeps {z : State} (s : State) (p l : Nat) (a : Access) (i : Nat) (hz : Keeps z s) :
    Keeps z (mendVecRead s p l a i) := by
  unfold mendVecRead
  try dsimp only
  repeat' (first
    | with_reducible assumption | with_reducible apply drawFree_keeps | with_reducible apply updCore_keeps
    | with_reducible apply rewriteRows_keeps | with_reducible apply updCtx_keeps | with_reducible apply countOpt_keeps
    | with_reducible apply countRows_keeps | with_reducible apply logVec_keeps
    | (with_reducible refine Keeps.of_pair (by with_reducible assumption) ?_) | intro _ | split)

theorem mendVecRow_keeps {z : State} (s : State) (p l : Nat) (a : Access) (hz : Keeps z s) :
    Keeps z (mendVecRow s p l a) := by
  unfold mendVecRow
  try dsimp only
  repeat' (first
    | with_reducible assumption | with_reducible apply updCore_keeps | with_reducible apply logVec_keeps | intro _
    | split)

theorem unsendRow_keeps {z : State} (s : State) (p l track c q : Nat) (hz : Keeps z s) :
    Keeps z (unsendRow s p l track c q) := by
  unfold unsendRow
  try dsimp only
  repeat' (first
    | with_reducible assumption | with_reducible apply respond_keeps | with_reducible apply setCore_keeps | intro _
    | split)

theorem mendIndex_keeps {z : State} (s : State) (p l : Nat) (a : Access) (q : Nat) (hz : Keeps z s) :
    Keeps z (mendIndex s p l a q) := by
  unfold mendIndex
  try dsimp only
  repeat' (first
    | with_reducible assumption | with_reducible apply retireDecoded_keeps | intro _ | split)

theorem mendOne_keeps {z : State} (s : State) (p l : Nat) (a : Access) (hz : Keeps z s) :
    Keeps z (mendOne s p l a) := by
  unfold mendOne
  try dsimp only
  repeat' (first
    | with_reducible assumption | with_reducible apply poisonPass_keeps | with_reducible apply narWeights_keeps
    | with_reducible apply mendFactor_keeps | with_reducible apply mendOutRow_keeps
    | with_reducible apply mendVecRead_keeps | with_reducible apply mendVecRow_keeps
    | with_reducible apply unsendRow_keeps | with_reducible apply mendIndex_keeps | with_reducible apply Keeps.foldl
    | (with_reducible refine Keeps.of_pair (by with_reducible assumption) ?_) | intro _ | split)

theorem mendMeets_keeps {z : State} (old s : State) (p l : Nat) (hz : Keeps z s) :
    Keeps z (mendMeets old s p l) := by
  unfold mendMeets
  try dsimp only
  repeat' (first
    | with_reducible assumption | with_reducible apply mendOne_keeps | with_reducible apply updCore_keeps
    | with_reducible apply Keeps.foldl | (with_reducible refine Keeps.of_pair (by with_reducible assumption) ?_)
    | intro _ | split)

theorem mendCore_keeps {z : State} (old s : State) (l : Nat) (hz : Keeps z s) :
    Keeps z (mendCore old s l) := by
  unfold mendCore
  try dsimp only
  repeat' (first
    | with_reducible assumption | with_reducible apply mendMeets_keeps | intro _ | split)

theorem tailAdd_keeps {z : State} (s : State) (p l c n count : Nat) (hz : Keeps z s) :
    Keeps z (tailAdd s p l c n count).2 := by
  unfold tailAdd
  try dsimp only
  repeat' (first
    | with_reducible assumption | with_reducible apply markHw_keeps | with_reducible apply setCore_keeps
    | with_reducible apply setInTurn_keeps | (with_reducible refine Keeps.of_pair (by with_reducible assumption) ?_)
    | intro _ | split)

theorem headAdd_keeps {z : State} (s : State) (p l n count : Nat) (hz : Keeps z s) :
    Keeps z (headAdd s p l n count).2 := by
  unfold headAdd
  try dsimp only
  repeat' (first
    | with_reducible assumption | with_reducible apply markHw_keeps | with_reducible apply setCore_keeps
    | with_reducible apply grantRing_keeps | intro _ | split)

theorem doorPacket_keeps {z : State} (s : State) (port : Port) (pkt : Packet) (hz : Keeps z s) :
    Keeps z (doorPacket s port pkt) := by
  unfold doorPacket
  try dsimp only
  repeat' (first
    | with_reducible assumption | with_reducible apply deliverSig_keeps | with_reducible apply answerPkt_keeps
    | with_reducible apply useWords_keeps | with_reducible apply settleSync_keeps | with_reducible apply headAdd_keeps
    | with_reducible apply tailAdd_keeps | (with_reducible refine Keeps.of_pair (by with_reducible assumption) ?_)
    | intro _ | split)

theorem refuseRow_keeps {z : State} (s : State) (p l row : Nat) (port : Port) (pkt : Packet) (hz : Keeps z s) :
    Keeps z (refuseRow s p l row port pkt) := by
  unfold refuseRow
  try dsimp only
  repeat' (first
    | with_reducible assumption | with_reducible apply updCore_keeps | with_reducible apply logCore_keeps
    | with_reducible apply answerPkt_keeps)

theorem enterRow_keeps {z : State} (s : State) (p l row ring : Nat) (port : Port) (pkt : Packet) (hz : Keeps z s) :
    Keeps z (enterRow s p l row ring port pkt) := by
  unfold enterRow
  try dsimp only
  repeat' (first
    | with_reducible assumption | with_reducible apply answerPkt_keeps | with_reducible apply updCore_keeps | intro _
    | split)

theorem makeRoom_keeps {z : State} (s : State) (p c : Nat) (port : Port) (hz : Keeps z s) :
    KeepsO z (makeRoom s p c port) := by
  unfold makeRoom
  dsimp only
  split
  · exact KeepsO.some hz
  split
  · exact KeepsO.none
  split
  · exact KeepsO.none
  · exact KeepsO.some (setCore_keeps _ _ _ hz)

theorem countArrived_keeps {z : State} (s : State) (p l c w : Nat) (hz : Keeps z s) :
    Keeps z (countArrived s p l c w) := by
  unfold countArrived
  try dsimp only
  repeat' (first
    | with_reducible assumption | with_reducible apply setCore_keeps | with_reducible apply setInTurn_keeps
    | (with_reducible refine Keeps.of_pair (by with_reducible assumption) ?_) | intro _ | split)

theorem loseInbound_keeps {z : State} (s : State) (p l : Nat) (e : InEntry) (hz : Keeps z s) :
    Keeps z (loseInbound s p l e) := by
  unfold loseInbound
  try dsimp only
  repeat' (first
    | with_reducible assumption | with_reducible apply updCore_keeps | with_reducible apply logCore_keeps
    | with_reducible apply respond_keeps | with_reducible apply answerPkt_keeps | intro _ | split)

theorem enableRing_keeps {z : State} (s : State) (p l n : Nat) (r : Ring) (hz : Keeps z s) :
    Keeps z (enableRing s p l n r) := by
  unfold enableRing
  try dsimp only
  repeat' (first
    | with_reducible assumption | with_reducible apply updCore_keeps | with_reducible apply grantRing_keeps)

theorem writeRingCfg_keeps {z : State} (s : State) (p l n v : Nat) (hz : Keeps z s) :
    Keeps z (writeRingCfg s p l n v).2 := by
  unfold writeRingCfg
  try dsimp only
  repeat' (first
    | with_reducible assumption | with_reducible apply disableRing_keeps | with_reducible apply enableRing_keeps
    | with_reducible apply setCore_keeps | intro _ | split)

theorem writeRingProd_keeps {z : State} (s : State) (p n v : Nat) (hz : Keeps z s) :
    Keeps z (writeRingProd s p n v).2 := by
  unfold writeRingProd
  try dsimp only
  repeat' (first
    | with_reducible assumption | with_reducible apply updCore_keeps | intro _ | split)

theorem writeRingPtr_keeps {z : State} (s : State) (p n v : Nat) (isTail : Bool) (hz : Keeps z s) :
    Keeps z (writeRingPtr s p n v isTail).2 := by
  unfold writeRingPtr
  try dsimp only
  repeat' (first
    | with_reducible assumption | with_reducible apply updCore_keeps | intro _ | split)

theorem writeWinCfg_keeps {z : State} (s : State) (p l w v : Nat) (hz : Keeps z s) :
    Keeps z (writeWinCfg s p l w v).2 := by
  unfold writeWinCfg
  try dsimp only
  repeat' (first
    | with_reducible assumption | with_reducible apply closeWin_keeps | with_reducible apply setCore_keeps
    | with_reducible apply grantWin_keeps | intro _ | split)

theorem writeWinSrc_keeps {z : State} (s : State) (p w v : Nat) (hz : Keeps z s) :
    Keeps z (writeWinSrc s p w v).2 := by
  unfold writeWinSrc
  try dsimp only
  repeat' (first
    | with_reducible assumption | with_reducible apply updCore_keeps | intro _ | split)

theorem writePoolPwr_keeps {z : State} (s : State) (p l v : Nat) (hz : Keeps z s) :
    Keeps z (writePoolPwr s p l v).2 := by
  unfold writePoolPwr
  try dsimp only
  repeat' (first
    | with_reducible assumption | with_reducible apply releaseWithheld_keeps | with_reducible apply setCore_keeps
    | with_reducible apply Keeps.foldl | with_reducible apply Keeps.foldl2
    | (with_reducible refine Keeps.of_pair (by with_reducible assumption) ?_) | intro _ | split)

theorem writeGradScale_keeps {z : State} (s : State) (p c v : Nat) (hz : Keeps z s) :
    Keeps z (writeGradScale s p c v).2 := by
  unfold writeGradScale
  try dsimp only
  repeat' (first
    | with_reducible assumption | with_reducible apply updCtx_keeps | intro _ | split)

theorem writeVerdict_keeps {z : State} (s : State) (p c v : Nat) (hz : Keeps z s) :
    Keeps z (writeVerdict s p c v).2 := by
  unfold writeVerdict
  try dsimp only
  repeat' (first
    | with_reducible assumption | with_reducible apply updCtx_keeps | intro _ | split)

theorem writeVerdictState_keeps {z : State} (s : State) (p c v : Nat) (hz : Keeps z s) :
    Keeps z (writeVerdictState s p c v).2 := by
  unfold writeVerdictState
  try dsimp only
  repeat' (first
    | with_reducible assumption | with_reducible apply updCtx_keeps | intro _ | split)

theorem writeCtxState_keeps {z : State} (s : State) (p c v : Nat) (hz : Keeps z s) :
    Keeps z (writeCtxState s p c v).2 := by
  unfold writeCtxState
  try dsimp only
  repeat' (first
    | with_reducible assumption | with_reducible apply updCtx_keeps | intro _ | split)

theorem writeCtxPool_keeps {z : State} (s : State) (p c r v : Nat) (hz : Keeps z s) :
    Keeps z (writeCtxPool s p c r v).2 := by
  unfold writeCtxPool
  try dsimp only
  repeat' (first
    | with_reducible assumption | with_reducible apply updCtx_keeps | intro _ | split)

theorem noteCtxOp_keeps {z : State} (s : State) (p : Nat) (st : Status) (hz : Keeps z s) :
    Keeps z (noteCtxOp s p st) := by
  unfold noteCtxOp
  try dsimp only
  repeat' (first
    | with_reducible assumption | with_reducible apply updCore_keeps)

theorem startCtxOp_keeps {z : State} (s : State) (p l v : Nat) (hz : Keeps z s) :
    Keeps z (startCtxOp s p l v) := by
  unfold startCtxOp
  try dsimp only
  repeat' (first
    | with_reducible assumption | with_reducible apply updCore_keeps)

theorem ctxCreate_keeps {z : State} (s : State) (p c : Nat) (hz : Keeps z s) :
    Keeps z (ctxCreate s p c).2 := by
  unfold ctxCreate
  try dsimp only
  repeat' (first
    | with_reducible assumption | with_reducible apply setCore_keeps | with_reducible apply Keeps.foldl
    | with_reducible apply Keeps.foldl2 | (with_reducible refine Keeps.of_pair (by with_reducible assumption) ?_)
    | intro _ | split)

theorem markQueue_keeps {z : State} (s : State) (p q : Nat) (hz : Keeps z s) :
    Keeps z (markQueue s p q) := by
  unfold markQueue
  try dsimp only
  repeat' (first
    | with_reducible assumption | with_reducible apply markHw_keeps | with_reducible apply Keeps.foldl
    | (with_reducible refine Keeps.of_pair (by with_reducible assumption) ?_) | intro _)

theorem bindQueue_keeps {z : State} (s : State) (p l c q : Nat) (hz : Keeps z s) :
    Keeps z (bindQueue s p l c q).2 := by
  unfold bindQueue
  try dsimp only
  repeat' (first
    | with_reducible assumption | with_reducible apply markQueue_keeps | with_reducible apply updCtx_keeps
    | with_reducible apply updQueue_keeps | with_reducible apply enableRing_keeps | intro _ | split)

theorem ctxBind_keeps {z : State} (s : State) (p l c : Nat) (qs : List Nat) (hz : Keeps z s) :
    Keeps z (ctxBind s p l c qs).2 := by
  unfold ctxBind
  try dsimp only
  repeat' (first
    | with_reducible assumption | with_reducible apply bindQueue_keeps | with_reducible apply Keeps.foldl
    | with_reducible apply Keeps.foldl2 | (with_reducible refine Keeps.of_pair (by with_reducible assumption) ?_)
    | intro _ | split)

theorem parkQueue_keeps {z : State} (s : State) (p l q : Nat) (hz : Keeps z s) :
    Keeps z (parkQueue s p l q) := by
  unfold parkQueue
  try dsimp only
  repeat' (first
    | with_reducible assumption | with_reducible apply setCore_keeps)

theorem ctxUnbind_keeps {z : State} (s : State) (p l v : Nat) (hz : Keeps z s) :
    Keeps z (ctxUnbind s p l v).2 := by
  unfold ctxUnbind
  try dsimp only
  repeat' (first
    | with_reducible assumption | with_reducible apply startCtxOp_keeps | with_reducible apply parkQueue_keeps
    | with_reducible apply Keeps.foldl | with_reducible apply Keeps.foldl2
    | (with_reducible refine Keeps.of_pair (by with_reducible assumption) ?_) | intro _)

theorem ctxDestroy_keeps {z : State} (s : State) (p c : Nat) (hz : Keeps z s) :
    Keeps z (ctxDestroy s p c).2 := by
  unfold ctxDestroy
  try dsimp only
  repeat' (first
    | with_reducible assumption | with_reducible apply setCore_keeps)

theorem settleCore_keeps {z : State} (s : State) (l : Nat) (hz : Keeps z s) :
    Keeps z (settleCore s l) := by
  unfold settleCore
  try dsimp only
  repeat' (first
    | with_reducible assumption | with_reducible apply updGal_keeps)

theorem sendImage_keeps {z : State} (s : State) (p ready : Nat) (pkt : Packet) (hz : Keeps z s) :
    Keeps z (sendImage s p ready pkt) := by
  unfold sendImage
  try dsimp only
  repeat' (first
    | with_reducible assumption | with_reducible apply updCore_keeps)

theorem sendImageRow_keeps {z : State} (s : State) (p l i ready : Nat) (t : PType) (x : Row) (hz : Keeps z s) :
    Keeps z (sendImageRow s p l i ready t x) := by
  unfold sendImageRow
  try dsimp only
  repeat' (first
    | with_reducible assumption | with_reducible apply setCore_keeps | with_reducible apply sendImage_keeps | intro _
    | split)

theorem readImageTiles_keeps {z : State} (s : State) (p l : Nat) (ts : List Nat) (hz : Keeps z s) :
    Keeps z (readImageTiles s p l ts).2 := by
  unfold readImageTiles
  try dsimp only
  repeat' (first
    | with_reducible assumption | with_reducible apply readTileRows_keeps | with_reducible apply setCore_keeps
    | with_reducible apply Keeps.foldl | with_reducible apply Keeps.foldl2
    | (with_reducible refine Keeps.of_pair (by with_reducible assumption) ?_)
    | (with_reducible refine Keeps.of_triple (by with_reducible assumption) ?_) | intro _)

theorem readImageRest_keeps {z : State} (s : State) (p l c : Nat) (hz : Keeps z s) :
    Keeps z (readImageRest s p l c).2.2 := by
  unfold readImageRest
  try dsimp only
  repeat' (first
    | with_reducible assumption | with_reducible apply readImageTiles_keeps | with_reducible apply readRows_keeps)

theorem saveSend_keeps {z : State} (s : State) (p l : Nat) (hz : Keeps z s) :
    Keeps z (saveSend s p l) := by
  unfold saveSend
  try dsimp only
  repeat' (first
    | with_reducible assumption | with_reducible apply catchUp_keeps | with_reducible apply readImageRest_keeps
    | with_reducible apply mendMeets_keeps | with_reducible apply updCore_keeps
    | with_reducible apply sendImageRow_keeps | with_reducible apply Keeps.foldl | with_reducible apply Keeps.foldl2
    | (with_reducible refine Keeps.of_pair (by with_reducible assumption) ?_)
    | (with_reducible refine Keeps.of_triple (by with_reducible assumption) ?_) | intro _ | split)

theorem ctxSave_keeps {z : State} (s : State) (p l v : Nat) (hz : Keeps z s) :
    Keeps z (ctxSave s p l v).2 := by
  unfold ctxSave
  try dsimp only
  repeat' (first
    | with_reducible assumption | with_reducible apply saveSend_keeps | with_reducible apply startCtxOp_keeps
    | intro _ | split)

theorem ctxRestore_keeps {z : State} (s : State) (p l v : Nat) (hz : Keeps z s) :
    Keeps z (ctxRestore s p l v).2 := by
  unfold ctxRestore
  try dsimp only
  repeat' (first
    | with_reducible assumption | with_reducible apply startCtxOp_keeps | with_reducible apply updCore_keeps
    | with_reducible apply sendImageRow_keeps | with_reducible apply Keeps.foldl | with_reducible apply Keeps.foldl2
    | (with_reducible refine Keeps.of_pair (by with_reducible assumption) ?_) | intro _ | split)

theorem writeCtxOp_keeps {z : State} (s : State) (p l v : Nat) (hz : Keeps z s) :
    Keeps z (writeCtxOp s p l v).2 := by
  unfold writeCtxOp
  try dsimp only
  repeat' (first
    | with_reducible assumption | with_reducible apply noteCtxOp_keeps | with_reducible apply ctxCreate_keeps
    | with_reducible apply ctxBind_keeps | with_reducible apply ctxUnbind_keeps | with_reducible apply ctxSave_keeps
    | with_reducible apply ctxRestore_keeps | with_reducible apply ctxDestroy_keeps
    | with_reducible apply settleCore_keeps | (with_reducible refine Keeps.of_pair (by with_reducible assumption) ?_)
    | intro _ | split)

theorem parkNow_keeps {z : State} (s : State) (p l c q : Nat) (hz : Keeps z s) :
    Keeps z (parkNow s p l c q) := by
  unfold parkNow
  try dsimp only
  repeat' (first
    | with_reducible assumption | with_reducible apply setCore_keeps | with_reducible apply updCtx_keeps
    | with_reducible apply disableRing_keeps | with_reducible apply markHw_keeps | with_reducible apply updQueue_keeps
    | with_reducible apply updCore_keeps)

theorem idleTarget_keeps {z : State} (s : State) (cav : Nat) (hz : Keeps z s) :
    Keeps z (idleTarget s cav) := by
  unfold idleTarget
  try dsimp only
  repeat' (first
    | with_reducible assumption | with_reducible apply updCav_keeps | with_reducible apply startRise_keeps)

theorem dawnTarget_keeps {z : State} (s : State) (cav : Nat) (hz : Keeps z s) :
    Keeps z (dawnTarget s cav) := by
  unfold dawnTarget
  try dsimp only
  repeat' (first
    | with_reducible assumption | with_reducible apply updCav_keeps | with_reducible apply startSequence_keeps)

theorem notePower_keeps {z : State} (s : State) (mismatch missing hot crit : Bool) (hz : Keeps z s) :
    Keeps z (notePower s mismatch missing hot crit) := by
  unfold notePower
  try dsimp only
  repeat' (first
    | with_reducible assumption | intro _ | (with_reducible refine Keeps.lit ?_ rfl rfl rfl))

theorem bringCav_keeps {z : State} (s : State) (cav : Nat) (hz : Keeps z s) :
    Keeps z (bringCav s cav) := by
  unfold bringCav
  try dsimp only
  repeat' (first
    | with_reducible assumption | with_reducible apply bringRamp_keeps | with_reducible apply Keeps.foldl
    | (with_reducible refine Keeps.of_pair (by with_reducible assumption) ?_) | intro _ | split)

theorem endWindow_keeps {z : State} (s : State) (cav : Nat) (m : Option Nat) (hz : Keeps z s) :
    Keeps z (endWindow s cav m) := by
  unfold endWindow
  extract_lets s0 c0 e c entered c' p wasCrit crit hot s1 s2 s3 s4 s5 s6
  have h0 : Keeps z s0 := bringCav_keeps _ _ hz
  have h1 : Keeps z s1 := updCav_keeps _ _ _ h0
  have h2 : Keeps z s2 := by
    show Keeps z (if c'.running = true then _ else s1)
    split
    · exact Keeps.foldl h1 fun t g h => rollGal_keeps _ _ _ h
    · exact h1
  have h3 : Keeps z s3 := by
    show Keeps z (List.foldl _ s2 _)
    exact Keeps.foldl h2 fun t g h => updGal_keeps _ _ _ h
  have h4 : Keeps z s4 := notePower_keeps _ _ _ _ _ h3
  have h5 : Keeps z s5 := by
    show Keeps z (if entered = true then _ else s4)
    split
    · exact logCav_keeps _ _ _ _ _ _ h4
    · exact h4
  have h6 : Keeps z s6 := by
    show Keeps z (if c'.missing = 3 then _ else s5)
    split
    · exact logCav_keeps _ _ _ _ _ _ h5
    · exact h5
  split
  · exact logCav_keeps _ _ _ _ _ _ h6
  · exact h6

theorem tickCav_keeps {z : State} (s : State) (cav : Nat) (hz : Keeps z s) :
    Keeps z (tickCav s cav) := by
  unfold tickCav
  try dsimp only
  repeat' (first
    | with_reducible assumption | with_reducible apply updCav_keeps | with_reducible apply updGal_keeps
    | with_reducible apply Keeps.foldl | (with_reducible refine Keeps.of_pair (by with_reducible assumption) ?_)
    | intro _ | split)

theorem tickLate_keeps {z : State} (s : State) (hz : Keeps z s) : Keeps z (tickLate s) :=
  Keeps.foldl hz fun _ _ h => catchUp_keeps _ _ _ h

theorem tickSync_keeps {z : State} (s : State) (hz : Keeps z s) :
    Keeps z (tickSync s) := by
  unfold tickSync
  try dsimp only
  repeat' (first
    | with_reducible assumption | with_reducible apply settleSync_keeps
    | with_reducible apply Keeps.foldl | (with_reducible refine Keeps.of_pair (by with_reducible assumption) ?_)
    | intro _ | split)

theorem tickAges_keeps {z : State} (before s : State) (hz : Keeps z s) : Keeps z (tickAges before s) := by
  refine Keeps.foldl hz fun s p h => ?_
  dsimp only
  split
  · exact h
  · exact ageHeads_keeps _ _ _ _ (ageHeads_keeps _ _ _ _ h)

theorem writeIssue_keeps {z : State} (s : State) (g v : Nat) (hz : Keeps z s) :
    Keeps z (writeIssue s g v).2 := by
  unfold writeIssue
  try dsimp only
  repeat' (first
    | with_reducible assumption | with_reducible apply updGal_keeps | with_reducible apply rollGal_keeps | intro _
    | split)

theorem applyOpLim_keeps {z : State} (s : State) (cav v : Nat) (hz : Keeps z s) :
    Keeps z (applyOpLim s cav v) := by
  unfold applyOpLim
  try dsimp only
  repeat' (first
    | with_reducible assumption | with_reducible apply updCav_keeps | with_reducible apply idleTarget_keeps | intro _
    | split)

theorem applyPhaseOp_keeps {z : State} (s : State) (half v : Nat) (hz : Keeps z s) :
    Keeps z (applyPhaseOp s half v) := by
  unfold applyPhaseOp
  try dsimp only
  repeat' (first
    | with_reducible assumption | with_reducible apply idleTarget_keeps | with_reducible apply Keeps.foldl
    | (with_reducible refine Keeps.of_pair (by with_reducible assumption) ?_) | intro _ | split
    | (with_reducible refine Keeps.lit ?_ rfl rfl rfl))

theorem resetChecker_keeps {z : State} (s : State) (l : Nat) (hz : Keeps z s) :
    Keeps z (resetChecker s l) := by
  unfold resetChecker
  try dsimp only
  repeat' (first
    | with_reducible assumption | with_reducible apply updCore_keeps | intro _ | split)

theorem absorbInbound_keeps {z : State} (s : State) (p l : Nat) (e : InEntry) (hz : Keeps z s) :
    Keeps z (absorbInbound s p l e) := by
  unfold absorbInbound
  try dsimp only
  repeat' (first
    | with_reducible assumption | with_reducible apply updCore_keeps | with_reducible apply answerPkt_keeps | intro _
    | split)

theorem resetCore_keeps {z : State} (s : State) (l : Nat) (hz : Keeps z s) :
    Keeps z (resetCore s l) := by
  unfold resetCore
  try dsimp only
  repeat' (first
    | with_reducible assumption | with_reducible apply resetChecker_keeps | with_reducible apply catchUp_keeps
    | with_reducible apply logCore_keeps | with_reducible apply absorbInbound_keeps
    | with_reducible apply setCore_keeps | with_reducible apply disableRing_keeps | with_reducible apply Keeps.foldl
    | (with_reducible refine Keeps.of_pair (by with_reducible assumption) ?_) | intro _ | split
    | (with_reducible refine Keeps.lit ?_ rfl rfl rfl))

theorem resetRendezvous_keeps {z : State} (s : State) (g : Nat) (hit : Nat → Bool) (hz : Keeps z s) :
    Keeps z (resetRendezvous s g hit) := by
  unfold resetRendezvous
  try dsimp only
  repeat' (first
    | with_reducible assumption | with_reducible apply updGal_keeps | with_reducible apply failRendezvous_keeps
    | intro _ | split)

theorem poisonWriter_keeps {z : State} (s : State) (g i tile slot id : Nat) (hz : Keeps z s) :
    Keeps z (poisonWriter s g i tile slot id) := by
  unfold poisonWriter
  try dsimp only
  repeat' (first
    | with_reducible assumption | with_reducible apply updCore_keeps | with_reducible apply logCore_keeps | intro _
    | split)

theorem resetGangs_keeps {z : State} (s : State) (g : Nat) (hit : Nat → Bool) (hz : Keeps z s) :
    Keeps z (resetGangs s g hit) := by
  unfold resetGangs
  try dsimp only
  repeat' (first
    | with_reducible assumption | with_reducible apply updGal_keeps | with_reducible apply poisonWriter_keeps
    | with_reducible apply logCore_keeps | with_reducible apply Keeps.foldl
    | (with_reducible refine Keeps.of_pair (by with_reducible assumption) ?_) | intro _ | split)

theorem abandonReset_keeps {z : State} (s : State) (hit : Nat → Bool) (hz : Keeps z s) :
    Keeps z (abandonReset s hit) := by
  unfold abandonReset
  try dsimp only
  repeat' (first
    | with_reducible assumption | with_reducible apply abandonAll_keeps | with_reducible apply Keeps.foldl
    | (with_reducible refine Keeps.of_pair (by with_reducible assumption) ?_) | intro _ | split)

theorem restartGal_keeps {z : State} (s : State) (g : Nat) (hz : Keeps z s) :
    Keeps z (restartGal s g) := by
  unfold restartGal
  try dsimp only
  repeat' (first
    | with_reducible assumption | with_reducible apply updGal_keeps)

theorem resetCells_keeps {z : State} (s : State) (hz : Keeps z s) : Keeps z (resetCells s) := by
  unfold resetCells
  extract_lets s1 s2 s3 s4
  have h1 : Keeps z s1 := Keeps.foldl hz fun s p h => updCore_keeps s p _ h
  have h2 : Keeps z s2 := Keeps.foldl h1 fun s g h => updGal_keeps s g _ h
  have h3 : Keeps z s3 := Keeps.foldl h2 fun s b h => updBun_keeps s b _ h
  have h4 : Keeps z s4 := Keeps.foldl h3 fun s c h => updCav_keeps s c _ h
  refine ⟨h4.fuse, h4.pending, h4.mNow, h4.powered, h4.lock, h4.log, fun x => ?_⟩
  have := h4.tables x
  simp only [tablesWf, Bool.and_eq_true] at this ⊢
  exact ⟨⟨⟨this.1.1.1, this.1.1.2⟩, this.1.2⟩, rfl⟩

theorem dieReset_keeps {z : State} (s : State) (hz : Keeps z s) :
    Keeps z (dieReset s) := by
  unfold dieReset
  try dsimp only
  repeat' (first
    | with_reducible assumption | with_reducible apply breakSlot_keeps | with_reducible apply updCore_keeps
    | with_reducible apply updGal_keeps | with_reducible apply startSequence_keeps | with_reducible apply updCav_keeps
    | with_reducible apply resetCells_keeps | with_reducible apply Keeps.foldl
    | (with_reducible refine Keeps.of_pair (by with_reducible assumption) ?_) | intro _
    | (with_reducible refine Keeps.lit ?_ rfl rfl rfl))

theorem logReset_keeps {z : State} (s : State) (d : Nat × Nat) (hz : Keeps z s) :
    Keeps z (logReset s d) := by
  unfold logReset
  try dsimp only
  repeat' (first
    | with_reducible assumption | with_reducible apply logCore_keeps | with_reducible apply logGal_keeps
    | with_reducible apply logCav_keeps | with_reducible apply logChip_keeps | intro _ | split)

theorem resetDomain_keeps {z : State} (s : State) (d : Nat × Nat) (hz : Keeps z s) :
    Keeps z (resetDomain s d) := by
  unfold resetDomain
  try dsimp only
  repeat' (first
    | with_reducible assumption | with_reducible apply resetCore_keeps | with_reducible apply resetGangs_keeps
    | with_reducible apply resetRendezvous_keeps | with_reducible apply logReset_keeps
    | with_reducible apply dieReset_keeps | with_reducible apply breakSlotsOf_keeps
    | with_reducible apply abandonReset_keeps | with_reducible apply restartGal_keeps
    | with_reducible apply updCav_keeps | with_reducible apply Keeps.foldl
    | (with_reducible refine Keeps.of_pair (by with_reducible assumption) ?_) | intro _ | split)

theorem assertReset_keeps {z : State} (s : State) (d : Nat × Nat) (hz : Keeps z s) :
    Keeps z (assertReset s d) := by
  unfold assertReset
  try dsimp only
  repeat' (first
    | with_reducible assumption | intro _ | (with_reducible refine Keeps.lit ?_ rfl rfl rfl))

theorem writeReset_keeps {z : State} (s : State) (v : Nat) (hz : Keeps z s) :
    Keeps z (writeReset s v).2 := by
  unfold writeReset
  try dsimp only
  repeat' (first
    | with_reducible assumption | with_reducible apply assertReset_keeps | intro _ | split
    | (with_reducible refine Keeps.lit ?_ rfl rfl rfl))

theorem writePeerDown_keeps {z : State} (s : State) (v : Nat) (hz : Keeps z s) :
    Keeps z (writePeerDown s v).2 := by
  unfold writePeerDown
  try dsimp only
  repeat' (first
    | with_reducible assumption | with_reducible apply updCore_keeps | with_reducible apply abandonAll_keeps
    | with_reducible apply Keeps.foldl | with_reducible apply Keeps.foldl2
    | (with_reducible refine Keeps.of_pair (by with_reducible assumption) ?_) | intro _ | split)

theorem logPhys_keeps {z : State} (s : State) (cls : Nat) (st : Status) (p : Nat) (body : List (Nat × Nat))
    (hz : Keeps z s) :
    Keeps z (logPhys s cls st p body) := by
  unfold logPhys
  try dsimp only
  repeat' (first
    | with_reducible assumption | with_reducible apply logCore_keeps | with_reducible apply logGal_keeps | intro _
    | split)

theorem scrubTrow_keeps {z : State} (s : State) (p u : Nat) (hz : Keeps z s) :
    Keeps z (scrubTrow s p u) := by
  unfold scrubTrow
  try dsimp only
  repeat' (first
    | with_reducible assumption | with_reducible apply updCore_keeps | with_reducible apply logPhys_keeps
    | with_reducible apply Keeps.foldl | (with_reducible refine Keeps.of_pair (by with_reducible assumption) ?_)
    | intro _)

theorem writeLive_keeps {z : State} (s : State) (e : FrameEntry) (from_ n : Nat) (hz : Keeps z s) :
    Keeps z (writeLive s e from_ n) := by
  unfold writeLive
  try dsimp only
  repeat' (first
    | with_reducible assumption | with_reducible apply Keeps.foldl
    | (with_reducible refine Keeps.of_pair (by with_reducible assumption) ?_) | intro _ | split
    | (with_reducible refine Keeps.lit ?_ rfl rfl rfl))

theorem writeShadow_keeps {z : State} (s : State) (e : FrameEntry) (from_ n : Nat) (hz : Keeps z s) :
    Keeps z (writeShadow s e from_ n) := by
  unfold writeShadow
  try dsimp only
  repeat' (first
    | with_reducible assumption | with_reducible apply Keeps.foldl
    | (with_reducible refine Keeps.of_pair (by with_reducible assumption) ?_) | intro _
    | (with_reducible refine Keeps.lit ?_ rfl rfl rfl))

theorem noteScrub_keeps {z : State} (s : State) (hz : Keeps z s) :
    Keeps z (noteScrub s) := by
  unfold noteScrub
  try dsimp only
  repeat' (first
    | with_reducible assumption | with_reducible apply logChip_keeps | intro _
    | (with_reducible refine Keeps.lit ?_ rfl rfl rfl))

theorem writeLogHead_keeps {z : State} (s : State) (v : Nat) (hz : Keeps z s) : Keeps z (writeLogHead s v).2 := by
  unfold writeLogHead
  extract_lets ahead
  clear_value ahead
  split
  · exact hz
  · exact ⟨hz.fuse, hz.pending, hz.mNow, hz.powered, hz.lock,
      fun x => ⟨Nat.le_trans (List.length_filter_le _ _) (hz.log x).1, (hz.log x).2⟩, hz.tables⟩

theorem writeLogStatus_keeps {z : State} (s : State) (v : Nat) (hz : Keeps z s) :
    Keeps z (writeLogStatus s v).2 := by
  unfold writeLogStatus
  try dsimp only
  repeat' (first
    | with_reducible assumption | intro _ | split | (with_reducible refine Keeps.lit ?_ rfl rfl rfl))

theorem loseRecord_keeps {z : State} (s : State) (off : Nat) (hz : Keeps z s) : Keeps z (loseRecord s off) := by
  unfold loseRecord
  dsimp only
  split
  · exact hz
  · refine logChip_keeps _ _ _ _ _ ?_
    exact ⟨hz.fuse, hz.pending, hz.mNow, hz.powered, hz.lock,
      fun x => ⟨Nat.le_trans (List.length_filter_le _ _) (hz.log x).1, (hz.log x).2⟩, hz.tables⟩

theorem loseEcho_keeps {z : State} (s : State) (word : Nat) (hz : Keeps z s) :
    Keeps z (loseEcho s word) := by
  unfold loseEcho
  try dsimp only
  repeat' (first
    | with_reducible assumption | with_reducible apply logChip_keeps | intro _ | split
    | (with_reducible refine Keeps.lit ?_ rfl rfl rfl))

theorem writeAttest_keeps {z : State} (s : State) (v : Nat) (hz : Keeps z s) :
    Keeps z (writeAttest s v).2 := by
  unfold writeAttest
  try dsimp only
  repeat' (first
    | with_reducible assumption | intro _ | split | (with_reducible refine Keeps.lit ?_ rfl rfl rfl))

theorem writeBist_keeps {z : State} (s : State) (g v : Nat) (hz : Keeps z s) :
    Keeps z (writeBist s g v).2 := by
  unfold writeBist
  try dsimp only
  repeat' (first
    | with_reducible assumption | with_reducible apply updGal_keeps | intro _ | split)

theorem writeTest_keeps {z : State} (s : State) (v : Nat) (hz : Keeps z s) : Keeps z (writeTest s v).2 := by
  unfold writeTest
  dsimp only
  split
  · exact hz
  · next h =>
    refine ⟨hz.fuse, hz.pending, hz.mNow, hz.powered, fun x => ?_, hz.log, hz.tables⟩
    have := hz.lock x
    show bitN v 1 = true
    simp only [this, Bool.and_true, Bool.or_eq_true, not_or] at h
    cases hb : bitN v 1
    · simp [hb] at h
    · rfl

theorem tapLoad_keeps {z : State} (s : State) (code tdo : Nat) (hz : Keeps z s) :
    Keeps z (tapLoad s code tdo) := by
  unfold tapLoad
  try dsimp only
  repeat' (first
    | with_reducible assumption | intro _ | split | (with_reducible refine Keeps.lit ?_ rfl rfl rfl))

theorem intrusive_keeps {z : State} (s : State) (f : State → State) (hz : Keeps z s)
    (hf : ∀ t, Keeps z t → Keeps z (f t)) :
    Keeps z (intrusive s f) := by
  unfold intrusive
  try dsimp only
  repeat' (first
    | with_reducible assumption | apply hf | with_reducible apply logChip_keeps | with_reducible apply tapLoad_keeps
    | intro _ | split)

theorem failDown_keeps {z : State} (s : State) (p l : Nat) (hz : Keeps z s) :
    Keeps z (failDown s p l) := by
  unfold failDown
  try dsimp only
  repeat' (first
    | with_reducible assumption | with_reducible apply respond_keeps | with_reducible apply updCore_keeps
    | with_reducible apply tryImage_keeps | with_reducible apply Keeps.foldl
    | (with_reducible refine Keeps.of_pair (by with_reducible assumption) ?_) | intro _ | split)

theorem coreAfterDown_keeps {z : State} (s : State) (b : Nat) (hz : Keeps z s) :
    Keeps z (coreAfterDown s b) := by
  unfold coreAfterDown
  try dsimp only
  repeat' (first
    | with_reducible assumption | with_reducible apply updCore_keeps | with_reducible apply failDown_keeps
    | with_reducible apply abandonAll_keeps | intro _ | split)

theorem breakOffDie_keeps {z : State} (s : State) (hz : Keeps z s) :
    Keeps z (breakOffDie s) := by
  unfold breakOffDie
  try dsimp only
  repeat' (first
    | with_reducible assumption | with_reducible apply breakSlot_keeps | with_reducible apply Keeps.foldl
    | (with_reducible refine Keeps.of_pair (by with_reducible assumption) ?_) | intro _ | split)

theorem failCore_keeps {z : State} (s : State) (b : Nat) (hz : Keeps z s) :
    Keeps z (failCore s b) := by
  unfold failCore
  try dsimp only
  repeat' (first
    | with_reducible assumption | with_reducible apply resetDomain_keeps | intro _ | split)

theorem logBundle_keeps {z : State} (s : State) (b : Nat) (reported : Bool) (body : List (Nat × Nat))
    (hz : Keeps z s) :
    Keeps z (logBundle s b reported body) := by
  unfold logBundle
  try dsimp only
  repeat' (first
    | with_reducible assumption | with_reducible apply logCore_keeps | with_reducible apply logGal_keeps
    | with_reducible apply logChip_keeps | intro _ | split)

theorem goDown_keeps {z : State} (s : State) (b st : Nat) (clkLost : Bool) (hz : Keeps z s) :
    Keeps z (goDown s b st clkLost) := by
  unfold goDown
  try dsimp only
  repeat' (first
    | with_reducible assumption | with_reducible apply updBun_keeps | with_reducible apply logBundle_keeps
    | with_reducible apply coreAfterDown_keeps | with_reducible apply breakOffDie_keeps
    | with_reducible apply failCore_keeps | intro _ | split)

theorem enterUp_keeps {z : State} (s : State) (b : Nat) (up down : Link) (deviates fresh : Bool) (hz : Keeps z s) :
    Keeps z (enterUp s b up down deviates fresh) := by
  unfold enterUp
  try dsimp only
  repeat' (first
    | with_reducible assumption | with_reducible apply updBun_keeps | with_reducible apply updCore_keeps | intro _
    | split)

theorem finishTrain_keeps {z : State} (s : State) (b : Nat) (o : TrainObs) (late : Bool) (hz : Keeps z s) :
    Keeps z (finishTrain s b o late) := by
  unfold finishTrain
  try dsimp only
  repeat' (first
    | with_reducible assumption | with_reducible apply updBun_keeps | with_reducible apply failCore_keeps
    | with_reducible apply logBundle_keeps | with_reducible apply enterUp_keeps | intro _ | split)

theorem startTrain_keeps {z : State} (s : State) (b : Nat) (hz : Keeps z s) :
    Keeps z (startTrain s b) := by
  unfold startTrain
  try dsimp only
  repeat' (first
    | with_reducible assumption | with_reducible apply updBun_keeps)

theorem startRetrain_keeps {z : State} (s : State) (b : Nat) (hz : Keeps z s) :
    Keeps z (startRetrain s b) := by
  unfold startRetrain
  try dsimp only
  repeat' (first
    | with_reducible assumption | with_reducible apply updBun_keeps | with_reducible apply breakOffDie_keeps | intro _
    | split)

theorem finishRetrain_keeps {z : State} (s : State) (b : Nat) (o : TrainObs) (late : Bool) (hz : Keeps z s) :
    Keeps z (finishRetrain s b o late) := by
  unfold finishRetrain
  try dsimp only
  repeat' (first
    | with_reducible assumption | with_reducible apply goDown_keeps | with_reducible apply updBun_keeps
    | with_reducible apply enterUp_keeps | intro _ | split)

theorem writeSumpCtrl_keeps {z : State} (s : State) (b v : Nat) (hz : Keeps z s) :
    Keeps z (writeSumpCtrl s b v).2 := by
  unfold writeSumpCtrl
  try dsimp only
  repeat' (first
    | with_reducible assumption | with_reducible apply updBun_keeps | with_reducible apply startTrain_keeps
    | with_reducible apply startRetrain_keeps | intro _ | split)

theorem writeSumpStatus_keeps {z : State} (s : State) (b v : Nat) (hz : Keeps z s) :
    Keeps z (writeSumpStatus s b v).2 := by
  unfold writeSumpStatus
  try dsimp only
  repeat' (first
    | with_reducible assumption | with_reducible apply updBun_keeps)

theorem writeLoop_keeps {z : State} (s : State) (b v : Nat) (hz : Keeps z s) :
    Keeps z (writeLoop s b v).2 := by
  unfold writeLoop
  try dsimp only
  repeat' (first
    | with_reducible assumption | with_reducible apply updBun_keeps | intro _ | split)

theorem loseHeader_keeps {z : State} (s : State) (b : Nat) (errs : List (Nat × Nat)) (hz : Keeps z s) :
    Keeps z (loseHeader s b errs) := by
  unfold loseHeader
  try dsimp only
  repeat' (first
    | with_reducible assumption | with_reducible apply updBun_keeps | with_reducible apply logBundle_keeps
    | with_reducible apply goDown_keeps | intro _ | split)

theorem loseDie_keeps {z : State} (s : State) (b die : Nat) (hz : Keeps z s) :
    Keeps z (loseDie s b die) := by
  unfold loseDie
  try dsimp only
  repeat' (first
    | with_reducible assumption | with_reducible apply updCore_keeps | with_reducible apply abandonAll_keeps | intro _
    | split)

theorem writeQstat_keeps {z : State} (s : State) (p l q v : Nat) (hz : Keeps z s) :
    Keeps z (writeQstat s p l q v).2 := by
  unfold writeQstat
  try dsimp only
  repeat' (first
    | with_reducible assumption | with_reducible apply updQueue_keeps | with_reducible apply stopBadRow_keeps
    | intro _ | split)

theorem writeQfailst_keeps {z : State} (s : State) (p q v : Nat) (hz : Keeps z s) :
    Keeps z (writeQfailst s p q v).2 := by
  unfold writeQfailst
  try dsimp only
  repeat' (first
    | with_reducible assumption | with_reducible apply updQueue_keeps | intro _ | split)

theorem regRead_keeps {z : State} (s : State) (r : Reg) (hz : Keeps z s) :
    Keeps z (regRead s r).2 := by
  unfold regRead
  try dsimp only
  repeat' (first
    | with_reducible assumption | with_reducible apply loseRecord_keeps | with_reducible apply loseEcho_keeps
    | with_reducible apply updCav_keeps | with_reducible apply updGal_keeps | with_reducible apply drawFree_keeps
    | with_reducible apply updCore_keeps | (with_reducible refine Keeps.of_pair (by with_reducible assumption) ?_)
    | intro _ | split | (with_reducible refine Keeps.lit ?_ rfl rfl rfl))

theorem applyHeld_keeps {z : State} (s : State) (key v : Nat) (hz : Keeps z s) :
    Keeps z (applyHeld s key v) := by
  unfold applyHeld
  try dsimp only
  repeat' (first
    | with_reducible assumption | with_reducible apply applyPhaseOp_keeps | with_reducible apply applySlotWord_keeps
    | with_reducible apply applyOpLim_keeps | with_reducible apply updGal_keeps
    | with_reducible apply applyAllot_keeps | intro _ | split | (with_reducible refine Keeps.lit ?_ rfl rfl rfl))

theorem takeHeld_keeps {z : State} (s : State) (hz : Keeps z s) :
    Keeps z (takeHeld s) := by
  unfold takeHeld
  try dsimp only
  repeat' (first
    | with_reducible assumption | with_reducible apply applyHeld_keeps | with_reducible apply Keeps.foldl
    | (with_reducible refine Keeps.of_pair (by with_reducible assumption) ?_) | intro _
    | (with_reducible refine Keeps.lit ?_ rfl rfl rfl))

theorem writeDayCtrl_keeps {z : State} (s : State) (v : Nat) (hz : Keeps z s) :
    Keeps z (writeDayCtrl s v).2 := by
  unfold writeDayCtrl
  try dsimp only
  repeat' (first
    | with_reducible assumption | with_reducible apply takeHeld_keeps | intro _ | split
    | (with_reducible refine Keeps.lit ?_ rfl rfl rfl))

theorem writeCnt_keeps {z : State} (s : State) (p l off v : Nat) (hz : Keeps z s) :
    Keeps z (writeCnt s p l off v).2 := by
  unfold writeCnt
  try dsimp only
  repeat' (first
    | with_reducible assumption | with_reducible apply setCore_keeps | intro _ | split)

theorem writeCntHi_keeps {z : State} (s : State) (p l off v : Nat) (hz : Keeps z s) :
    Keeps z (writeCntHi s p l off v).2 := by
  unfold writeCntHi
  try dsimp only
  repeat' (first
    | with_reducible assumption | with_reducible apply wakeWaiters_keeps | with_reducible apply setCore_keeps
    | intro _ | split | (with_reducible refine Keeps.lit ?_ rfl rfl rfl))

theorem writeDayHi_keeps {z : State} (s : State) (v : Nat) (hz : Keeps z s) :
    Keeps z (writeDayHi s v).2 := by
  unfold writeDayHi
  try dsimp only
  repeat' (first
    | with_reducible assumption | intro _ | split | (with_reducible refine Keeps.lit ?_ rfl rfl rfl))

theorem writeCapacity_keeps {z : State} (s : State) (c v : Nat) (hz : Keeps z s) :
    Keeps z (writeCapacity s c v).2 := by
  unfold writeCapacity
  try dsimp only
  repeat' (first
    | with_reducible assumption | with_reducible apply updCav_keeps | intro _ | split)

theorem writeAperture_keeps {z : State} (s : State) (off v : Nat) (hz : Keeps z s) :
    Keeps z (writeAperture s off v).2 := by
  unfold writeAperture
  try dsimp only
  repeat' (first
    | with_reducible assumption | intro _ | split | (with_reducible refine Keeps.lit ?_ rfl rfl rfl))

theorem writeBundle_keeps {z : State} (s : State) (b off v : Nat) (hz : Keeps z s) :
    Keeps z (writeBundle s b off v).2 := by
  unfold writeBundle
  try dsimp only
  repeat' (first
    | with_reducible assumption | with_reducible apply writeSumpCtrl_keeps
    | with_reducible apply writeSumpStatus_keeps | with_reducible apply writeLoop_keeps
    | (with_reducible refine Keeps.of_pair (by with_reducible assumption) ?_) | intro _ | split)

theorem writeChip_keeps {z : State} (s : State) (off v : Nat) (hz : Keeps z s) :
    Keeps z (writeChip s off v).2 := by
  unfold writeChip
  try dsimp only
  repeat' (first
    | with_reducible assumption | with_reducible apply Keeps.ite2 | with_reducible apply Keeps.ite
    | with_reducible apply writeReset_keeps | with_reducible apply writePeerDown_keeps
    | with_reducible apply writeLogHead_keeps | with_reducible apply writeLogStatus_keeps
    | with_reducible apply writeAttest_keeps | with_reducible apply writeTest_keeps
    | with_reducible apply writeDayCtrl_keeps | with_reducible apply writeDayHi_keeps
    | with_reducible apply writeBundle_keeps | with_reducible apply writeAperture_keeps
    | (with_reducible refine Keeps.of_pair (by with_reducible assumption) ?_) | intro _ | split
    | (with_reducible refine Keeps.lit ?_ rfl rfl rfl))

theorem writeCav_keeps {z : State} (s : State) (c off v : Nat) (hz : Keeps z s) :
    Keeps z (writeCav s c off v).2 := by
  unfold writeCav
  try dsimp only
  repeat' (first
    | with_reducible assumption | with_reducible apply updCav_keeps | with_reducible apply writeCapacity_keeps
    | with_reducible apply writeBundle_keeps | (with_reducible refine Keeps.of_pair (by with_reducible assumption) ?_)
    | intro _ | split)

theorem writeGal_keeps {z : State} (s : State) (g off v : Nat) (hz : Keeps z s) :
    Keeps z (writeGal s g off v).2 := by
  unfold writeGal
  try dsimp only
  repeat' (first
    | with_reducible assumption | with_reducible apply updGal_keeps | with_reducible apply writeIssue_keeps
    | with_reducible apply writeBist_keeps | (with_reducible refine Keeps.of_pair (by with_reducible assumption) ?_)
    | intro _ | split)

theorem writeUnits_keeps {z : State} (s : State) (p v : Nat) (f : Core → Core) (hz : Keeps z s) :
    Keeps z (writeUnits s p v f).2 := by
  unfold writeUnits
  try dsimp only
  repeat' (first
    | with_reducible assumption | with_reducible apply updCore_keeps | intro _ | split)

theorem writeXlat_keeps {z : State} (s : State) (p off v : Nat) (hz : Keeps z s) :
    Keeps z (writeXlat s p off v).2 := by
  unfold writeXlat
  try dsimp only
  repeat' (first
    | with_reducible assumption | with_reducible apply updCtx_keeps | intro _ | split)

theorem writeSync_keeps {z : State} (s : State) (p l off v : Nat) (hz : Keeps z s) :
    Keeps z (writeSync s p l off v).2 := by
  unfold writeSync
  try dsimp only
  repeat' (first
    | with_reducible assumption | with_reducible apply updCore_keeps | with_reducible apply writeCnt_keeps
    | with_reducible apply writeCntHi_keeps | with_reducible apply writeXlat_keeps | with_reducible apply Keeps.foldl
    | with_reducible apply Keeps.foldl2 | (with_reducible refine Keeps.of_pair (by with_reducible assumption) ?_)
    | intro _ | split | (with_reducible refine Keeps.lit ?_ rfl rfl rfl))

theorem writeCore_keeps {z : State} (s : State) (p l off v : Nat) (hz : Keeps z s) :
    Keeps z (writeCore s p l off v).2 := by
  unfold writeCore
  try dsimp only
  repeat' (first
    | with_reducible assumption | with_reducible apply Keeps.ite2 | with_reducible apply Keeps.ite
    | with_reducible apply catchUp_keeps | with_reducible apply writeQstat_keeps
    | with_reducible apply writeQfailst_keeps | with_reducible apply writeCtxOp_keeps
    | with_reducible apply updCore_keeps | with_reducible apply writeUnits_keeps
    | with_reducible apply writeCtxState_keeps | with_reducible apply writeCtxPool_keeps
    | with_reducible apply writeTileCtrl_keeps | with_reducible apply writeGradScale_keeps
    | with_reducible apply writeVerdict_keeps | with_reducible apply writeVerdictState_keeps
    | with_reducible apply writePoolPwr_keeps | with_reducible apply writeRingCfg_keeps
    | with_reducible apply writeRingProd_keeps | with_reducible apply writeRingPtr_keeps
    | with_reducible apply writeShareStatus_keeps | with_reducible apply writeWinCfg_keeps
    | with_reducible apply writeWinSrc_keeps | with_reducible apply writeSync_keeps)

theorem rejectBusy_keeps {z : State} (s : State) (r : Reg) (x : Status × State) (hz : Keeps z s) (hx : Keeps z x.2) :
    Keeps z (rejectBusy s r x).2 := by
  unfold rejectBusy
  split
  · exact hz
  · exact hx

theorem regEffect_keeps {z : State} (s : State) (r : Reg) (v : Nat) (hz : Keeps z s) :
    Keeps z (regEffect s r v).2 := by
  unfold regEffect
  try dsimp only
  repeat' (first
    | with_reducible assumption | with_reducible apply applyHeld_keeps | with_reducible apply writeChip_keeps
    | with_reducible apply writeCav_keeps | with_reducible apply writeGal_keeps | with_reducible apply writeCore_keeps
    | (with_reducible refine Keeps.of_pair (by with_reducible assumption) ?_) | intro _ | split
    | (with_reducible refine Keeps.lit ?_ rfl rfl rfl))

theorem regWrite_keeps {z : State} (s : State) (r : Reg) (v : Nat) (hz : Keeps z s) :
    Keeps z (regWrite s r v).2 := by
  unfold regWrite
  try dsimp only
  repeat' (first
    | with_reducible assumption | with_reducible apply rejectBusy_keeps | with_reducible apply regEffect_keeps)

theorem readDefects_keeps {z : State} (s : State) (hz : Keeps z s) :
    Keeps z (readDefects s) := by
  unfold readDefects
  try dsimp only
  repeat' (first
    | with_reducible assumption | with_reducible apply updCore_keeps | with_reducible apply logChip_keeps
    | with_reducible apply Keeps.foldl | (with_reducible refine Keeps.of_pair (by with_reducible assumption) ?_)
    | intro _ | split | (with_reducible refine Keeps.lit ?_ rfl rfl rfl))

theorem deriveKey_keeps {z : State} (s : State) (hz : Keeps z s) :
    Keeps z (deriveKey s) := by
  unfold deriveKey
  try dsimp only
  repeat' (first
    | with_reducible assumption | with_reducible apply logChip_keeps | intro _ | split
    | (with_reducible refine Keeps.lit ?_ rfl rfl rfl))

theorem startEcho_keeps {z : State} (s : State) (hz : Keeps z s) :
    Keeps z (startEcho s).2 := by
  unfold startEcho
  try dsimp only
  repeat' (first
    | with_reducible assumption | with_reducible apply loseEcho_keeps | with_reducible apply Keeps.foldl
    | with_reducible apply Keeps.foldl2 | (with_reducible refine Keeps.of_pair (by with_reducible assumption) ?_)
    | intro _ | split | (with_reducible refine Keeps.lit ?_ rfl rfl rfl))

theorem noteFailure_keeps {z : State} (s : State) (st : Status) (frame record : Nat) (hz : Keeps z s) :
    Keeps z (noteFailure s st frame record) := by
  unfold noteFailure
  try dsimp only
  repeat' (first
    | with_reducible assumption | intro _ | (with_reducible refine Keeps.lit ?_ rfl rfl rfl))

theorem verifyCmd_keeps {z : State} (s : State) (hz : Keeps z s) :
    Keeps z (verifyCmd s).2 := by
  unfold verifyCmd
  try dsimp only
  repeat' (first
    | with_reducible assumption | with_reducible apply noteFailure_keeps | intro _ | split
    | (with_reducible refine Keeps.lit ?_ rfl rfl rfl))

theorem dropHalf_keeps {z : State} (s : State) (r : Reg) (write : Bool) (hz : Keeps z s) :
    Keeps z (dropHalf s r write) := by
  unfold dropHalf
  try dsimp only
  repeat' (first
    | with_reducible assumption | intro _ | split | (with_reducible refine Keeps.lit ?_ rfl rfl rfl))

theorem regWriteNow_keeps {z : State} (s : State) (r : Reg) (v : Nat) (hz : Keeps z s) :
    Keeps z (regWriteNow s r v).2 := by
  unfold regWriteNow
  try dsimp only
  repeat' (first
    | with_reducible assumption | with_reducible apply applyHeld_keeps | with_reducible apply regEffect_keeps
    | (with_reducible refine Keeps.of_pair (by with_reducible assumption) ?_) | intro _ | split)

theorem writeRecord_keeps {z : State} (now : Bool) (s : State) (a v : Nat) (hz : Keeps z s) :
    Keeps z (writeRecord now s a v).2 := by
  unfold writeRecord
  try dsimp only
  repeat' (first
    | with_reducible assumption | with_reducible apply dropHalf_keeps | with_reducible apply updGal_keeps
    | with_reducible apply regWriteNow_keeps | with_reducible apply regEffect_keeps
    | (with_reducible refine Keeps.of_pair (by with_reducible assumption) ?_) | intro _ | split)

theorem applyRecords_keeps {z : State} (now : Bool) (st : Store Nat) (e : FrameEntry) (s : State) (hz : Keeps z s) :
    Keeps z (applyRecords now st e s).2 := by
  unfold applyRecords
  try dsimp only
  repeat' (first
    | with_reducible assumption | with_reducible apply writeRecord_keeps | with_reducible apply Keeps.foldl
    | with_reducible apply Keeps.foldl2 | (with_reducible refine Keeps.of_pair (by with_reducible assumption) ?_)
    | intro _ | split)

theorem applyFrame_keeps {z : State} (st : Store Nat) (e : FrameEntry) (s : State) (hz : Keeps z s) :
    Keeps z (applyFrame st e s).2 := by
  unfold applyFrame
  try dsimp only
  repeat' (first
    | with_reducible assumption | with_reducible apply applyRecords_keeps | with_reducible apply updGal_keeps
    | (with_reducible refine Keeps.of_pair (by with_reducible assumption) ?_) | intro _ | split
    | (with_reducible refine Keeps.lit ?_ rfl rfl rfl))

theorem applyFrames_keeps {z : State} (st : Store Nat) (s : State) (hz : Keeps z s) :
    Keeps z (applyFrames st s).2 := by
  unfold applyFrames
  try dsimp only
  repeat' (first
    | with_reducible assumption | with_reducible apply applyFrame_keeps | with_reducible apply Keeps.foldl
    | with_reducible apply Keeps.foldl2 | (with_reducible refine Keeps.of_pair (by with_reducible assumption) ?_)
    | intro _ | split)

theorem failApply_keeps {z : State} (s : State) (st : Status) (frame record : Nat) (hz : Keeps z s) :
    Keeps z (failApply s st frame record) := by
  unfold failApply
  try dsimp only
  repeat' (first
    | with_reducible assumption | with_reducible apply noteFailure_keeps | with_reducible apply resetCells_keeps
    | intro _ | (with_reducible refine Keeps.lit ?_ rfl rfl rfl))

theorem applyCmd_keeps {z : State} (s : State) (hz : Keeps z s) :
    Keeps z (applyCmd s).2 := by
  unfold applyCmd
  try dsimp only
  repeat' (first
    | with_reducible assumption | with_reducible apply applyFrames_keeps | with_reducible apply failApply_keeps
    | (with_reducible refine Keeps.of_pair (by with_reducible assumption) ?_) | intro _ | split
    | (with_reducible refine Keeps.lit ?_ rfl rfl rfl))

theorem clockCmd_keeps {z : State} (s : State) (hz : Keeps z s) :
    Keeps z (clockCmd s).2 := by
  unfold clockCmd
  try dsimp only
  repeat' (first
    | with_reducible assumption | with_reducible apply idleTarget_keeps | with_reducible apply updCav_keeps
    | with_reducible apply Keeps.foldl | with_reducible apply Keeps.foldl2
    | (with_reducible refine Keeps.of_pair (by with_reducible assumption) ?_) | intro _ | split
    | (with_reducible refine Keeps.lit ?_ rfl rfl rfl))

theorem latchShort_keeps {z : State} (s : State) (p : Nat) (hz : Keeps z s) :
    Keeps z (latchShort s p) := by
  unfold latchShort
  try dsimp only
  repeat' (first
    | with_reducible assumption | with_reducible apply updBun_keeps | with_reducible apply updCore_keeps
    | with_reducible apply logCore_keeps | with_reducible apply logGal_keeps | intro _ | split)

theorem powerCmd_keeps {z : State} (shorted : List Nat) (s : State) (hz : Keeps z s) :
    Keeps z (powerCmd shorted s).2 := by
  unfold powerCmd
  try dsimp only
  repeat' (first
    | with_reducible assumption | with_reducible apply updCore_keeps | with_reducible apply latchShort_keeps
    | with_reducible apply Keeps.foldl | with_reducible apply Keeps.foldl2
    | (with_reducible refine Keeps.of_pair (by with_reducible assumption) ?_) | intro _
    | (with_reducible refine Keeps.lit ?_ rfl rfl rfl))

theorem trainOne_keeps {z : State} (obs : List (Nat × TrainObs)) (s : State) (b : Nat) (hz : Keeps z s) :
    Keeps z (trainOne obs s b) := by
  unfold trainOne
  try dsimp only
  repeat' (first
    | with_reducible assumption | with_reducible apply finishTrain_keeps | with_reducible apply startTrain_keeps
    | intro _ | split)

theorem setStage_keeps {z : State} (s : State) (n : Nat) (hz : Keeps z s) :
    Keeps z (setStage s n) := by
  unfold setStage
  try dsimp only
  repeat' (first
    | with_reducible assumption | intro _ | (with_reducible refine Keeps.lit ?_ rfl rfl rfl))

theorem trainCmd_keeps {z : State} (obs : List (Nat × TrainObs)) (s : State) (hz : Keeps z s) :
    Keeps z (trainCmd obs s).2 := by
  refine setStage_keeps _ _ ?_
  exact Keeps.foldl hz fun s b h => trainOne_keeps obs s b h

theorem topologyCmd_keeps {z : State} (bad : List (Nat × Nat)) (s : State) (hz : Keeps z s) :
    Keeps z (topologyCmd bad s).2 := by
  unfold topologyCmd
  try dsimp only
  repeat' (first
    | with_reducible assumption | intro _ | split | (with_reducible refine Keeps.lit ?_ rfl rfl rfl))

theorem readyCmd_keeps {z : State} (s : State) (hz : Keeps z s) :
    Keeps z (readyCmd s).2 := by
  unfold readyCmd
  try dsimp only
  repeat' (first
    | with_reducible assumption | with_reducible apply updGal_keeps | with_reducible apply breakIfUnserved_keeps
    | with_reducible apply Keeps.foldl | with_reducible apply Keeps.foldl2
    | (with_reducible refine Keeps.of_pair (by with_reducible assumption) ?_) | intro _
    | (with_reducible refine Keeps.lit ?_ rfl rfl rfl))

theorem clearCmd_keeps {z : State} (s : State) (hz : Keeps z s) :
    Keeps z (clearCmd s).2 := by
  unfold clearCmd
  try dsimp only
  repeat' (first
    | with_reducible assumption | intro _ | (with_reducible refine Keeps.lit ?_ rfl rfl rfl))

theorem noteBoot_keeps {z : State} (s : State) (st : Status) (hz : Keeps z s) :
    Keeps z (noteBoot s st) := by
  unfold noteBoot
  try dsimp only
  repeat' (first
    | with_reducible assumption | intro _ | (with_reducible refine Keeps.lit ?_ rfl rfl rfl))

theorem writeBoot_keeps {z : State} (s : State) (v : Nat) (hz : Keeps z s) :
    Keeps z (writeBoot s v).2 := by
  unfold writeBoot
  try dsimp only
  repeat' (first
    | with_reducible assumption | with_reducible apply noteBoot_keeps | intro _ | split
    | (with_reducible refine Keeps.lit ?_ rfl rfl rfl))

theorem runBoot_keeps {z : State} (cmd : Nat) (f : State → Status × State) (s : State) (hz : Keeps z s)
    (hf : ∀ t, Keeps z t → Keeps z (f t).2) :
    Keeps z (runBoot cmd f s) := by
  unfold runBoot
  try dsimp only
  repeat' (first
    | with_reducible assumption | apply hf | with_reducible apply noteBoot_keeps | with_reducible apply flushLog_keeps
    | with_reducible apply dropHalf_keeps | with_reducible apply report_keeps | intro _ | split
    | (with_reducible refine Keeps.lit ?_ rfl rfl rfl))

theorem writeReload_keeps {z : State} (s : State) (v : Nat) (hz : Keeps z s) :
    Keeps z (writeReload s v).2 := by
  unfold writeReload
  try dsimp only
  repeat' (first
    | with_reducible assumption | with_reducible apply noteFailure_keeps | intro _ | split
    | (with_reducible refine Keeps.lit ?_ rfl rfl rfl))

theorem closeDataRings_keeps {z : State} (s : State) (l : Nat) (hz : Keeps z s) :
    Keeps z (closeDataRings s l) := by
  unfold closeDataRings
  try dsimp only
  repeat' (first
    | with_reducible assumption | with_reducible apply disableRing_keeps | with_reducible apply closeWin_keeps
    | with_reducible apply Keeps.foldl | (with_reducible refine Keeps.of_pair (by with_reducible assumption) ?_)
    | intro _ | split)

theorem fixShapes_keeps {z : State} (late : List Nat) (s : State) (g : Nat) (hz : Keeps z s) :
    Keeps z (fixShapes late s g) := by
  unfold fixShapes
  try dsimp only
  repeat' (first
    | with_reducible assumption | with_reducible apply updGal_keeps | intro _ | split)

theorem loseId_keeps {z : State} (s : State) (l : Nat) (hz : Keeps z s) :
    Keeps z (loseId s l) := by
  unfold loseId
  try dsimp only
  repeat' (first
    | with_reducible assumption | with_reducible apply breakSlotsOf_keeps | with_reducible apply logCore_keeps
    | intro _ | (with_reducible refine Keeps.lit ?_ rfl rfl rfl))

theorem remapRow_keeps {z : State} (s : State) (x : RowChange) (hz : Keeps z s) :
    Keeps z (remapRow s x) := by
  unfold remapRow
  try dsimp only
  repeat' (first
    | with_reducible assumption | with_reducible apply closeDataRings_keeps | with_reducible apply updGal_keeps
    | with_reducible apply updCore_keeps | with_reducible apply loseId_keeps | with_reducible apply Keeps.foldl
    | (with_reducible refine Keeps.of_pair (by with_reducible assumption) ?_) | intro _ | split
    | (with_reducible refine Keeps.lit ?_ rfl rfl rfl))

theorem advanceEpoch_keeps {z : State} (s : State) (g : Nat) (hz : Keeps z s) :
    Keeps z (advanceEpoch s g) := by
  unfold advanceEpoch
  try dsimp only
  repeat' (first
    | with_reducible assumption | with_reducible apply updGal_keeps | intro _ | split
    | (with_reducible refine Keeps.lit ?_ rfl rfl rfl))

theorem goOffline_keeps {z : State} (s : State) (c : Nat) (hz : Keeps z s) :
    Keeps z (goOffline s c) := by
  unfold goOffline
  try dsimp only
  repeat' (first
    | with_reducible assumption | with_reducible apply breakSlotsOf_keeps | with_reducible apply updCav_keeps
    | with_reducible apply Keeps.foldl)

theorem goOnline_keeps {z : State} (s : State) (c : Nat) (hz : Keeps z s) :
    Keeps z (goOnline s c) := by
  unfold goOnline
  try dsimp only
  repeat' (first
    | with_reducible assumption | with_reducible apply updCav_keeps | with_reducible apply updCore_keeps
    | with_reducible apply settleCore_keeps | with_reducible apply Keeps.foldl
    | (with_reducible refine Keeps.of_pair (by with_reducible assumption) ?_) | intro _)

theorem duskCapacity_keeps {z : State} (sw : State × DuskWork) (c : Nat) (hz : Keeps z sw.1) :
    Keeps z (duskCapacity sw c).1 := by
  unfold duskCapacity
  try dsimp only
  repeat' (first
    | with_reducible assumption | with_reducible apply logCore_keeps | with_reducible apply updCav_keeps
    | with_reducible apply remapRow_keeps | with_reducible apply goOffline_keeps | with_reducible apply goOnline_keeps
    | (with_reducible refine Keeps.of_left (by with_reducible assumption) ?_) | intro _ | split)

theorem duskFailed_keeps {z : State} (s : State) (hz : Keeps z s) :
    Keeps z (duskFailed s) := by
  unfold duskFailed
  try dsimp only
  repeat' (first
    | with_reducible assumption | with_reducible apply loseId_keeps | with_reducible apply Keeps.foldl
    | (with_reducible refine Keeps.of_pair (by with_reducible assumption) ?_) | intro _ | split)

theorem duskRepair_keeps {z : State} (late : List Nat) (sw : State × DuskWork) (hz : Keeps z sw.1) :
    Keeps z (duskRepair late sw).1 := by
  unfold duskRepair
  try dsimp only
  repeat' (first
    | with_reducible assumption | with_reducible apply updCore_keeps | with_reducible apply Keeps.foldl
    | with_reducible apply Keeps.foldl1 | (with_reducible refine Keeps.of_pair (by with_reducible assumption) ?_)
    | (with_reducible refine Keeps.of_left (by with_reducible assumption) ?_) | intro _ | split)

theorem reloadRecords_keeps {z : State} (st : Store Nat) (s : State) (x : Nat × FrameEntry) (hz : Keeps z s) :
    Keeps z (reloadRecords st s x) := by
  unfold reloadRecords
  try dsimp only
  repeat' (first
    | with_reducible assumption | with_reducible apply writeRecord_keeps | with_reducible apply logChip_keeps
    | with_reducible apply Keeps.foldl | with_reducible apply Keeps.foldl2
    | (with_reducible refine Keeps.of_pair (by with_reducible assumption) ?_) | intro _ | split
    | (with_reducible refine Keeps.lit ?_ rfl rfl rfl))

theorem duskReload_keeps {z : State} (late : List Nat) (sw : State × DuskWork) (hz : Keeps z sw.1) :
    Keeps z (duskReload late sw).1 := by
  unfold duskReload
  try dsimp only
  repeat' (first
    | with_reducible assumption | with_reducible apply logCore_keeps | with_reducible apply reloadRecords_keeps
    | with_reducible apply remapRow_keeps | with_reducible apply Keeps.foldl | with_reducible apply Keeps.foldl1
    | (with_reducible refine Keeps.of_pair (by with_reducible assumption) ?_)
    | (with_reducible refine Keeps.of_left (by with_reducible assumption) ?_) | intro _ | split
    | (with_reducible refine Keeps.lit ?_ rfl rfl rfl))

theorem useCensus_keeps {z : State} (s : State) (p : Nat) (hz : Keeps z s) :
    Keeps z (useCensus s p) := by
  unfold useCensus
  try dsimp only
  repeat' (first
    | with_reducible assumption | with_reducible apply useWords_keeps)

theorem latchCore_keeps {z : State} (s : State) (p : Nat) (hz : Keeps z s) :
    Keeps z (latchCore s p) := by
  unfold latchCore
  try dsimp only
  repeat' (first
    | with_reducible assumption | with_reducible apply updCore_keeps | with_reducible apply catchUp_keeps
    | with_reducible apply useCensus_keeps)

theorem duskLatch_keeps {z : State} (s : State) (hz : Keeps z s) :
    Keeps z (duskLatch s) := by
  unfold duskLatch
  try dsimp only
  repeat' (first
    | with_reducible assumption | with_reducible apply latchCore_keeps | with_reducible apply updGal_keeps
    | with_reducible apply updBun_keeps | with_reducible apply updCav_keeps | with_reducible apply Keeps.foldl
    | (with_reducible refine Keeps.of_pair (by with_reducible assumption) ?_) | intro _
    | (with_reducible refine Keeps.lit ?_ rfl rfl rfl))

theorem duskHeld_keeps {z : State} (late : List Nat) (memb : Store Nat) (sw : State × DuskWork) (hz : Keeps z sw.1)
    :
    Keeps z (duskHeld late memb sw).1 := by
  unfold duskHeld
  try dsimp only
  repeat' (first
    | with_reducible assumption | with_reducible apply applyHeld_keeps | with_reducible apply Keeps.foldl
    | with_reducible apply Keeps.foldl1 | (with_reducible refine Keeps.of_pair (by with_reducible assumption) ?_)
    | (with_reducible refine Keeps.of_left (by with_reducible assumption) ?_) | intro _ | split
    | (with_reducible refine Keeps.lit ?_ rfl rfl rfl))

theorem dawn_keeps {z : State} (s : State) (hz : Keeps z s) :
    Keeps z (dawn s) := by
  unfold dawn
  try dsimp only
  repeat' (first
    | with_reducible assumption | with_reducible apply updCore_keeps | with_reducible apply dawnTarget_keeps
    | with_reducible apply Keeps.foldl | (with_reducible refine Keeps.of_pair (by with_reducible assumption) ?_)
    | intro _ | (with_reducible refine Keeps.lit ?_ rfl rfl rfl))

theorem noteLate_keeps {z : State} (s : State) (late : List Nat) (hz : Keeps z s) :
    Keeps z (noteLate s late) := by
  unfold noteLate
  try dsimp only
  repeat' (first
    | with_reducible assumption | with_reducible apply logCore_keeps | with_reducible apply Keeps.foldl
    | (with_reducible refine Keeps.of_pair (by with_reducible assumption) ?_) | intro _ | split
    | (with_reducible refine Keeps.lit ?_ rfl rfl rfl))

theorem dusk_keeps {z : State} (s : State) (hz : Keeps z s) :
    Keeps z (dusk s) := by
  unfold dusk
  try dsimp only
  repeat' (first
    | with_reducible assumption | with_reducible apply duskLatch_keeps | with_reducible apply noteLate_keeps
    | with_reducible apply duskReload_keeps | with_reducible apply duskHeld_keeps
    | with_reducible apply duskRepair_keeps | with_reducible apply duskCapacity_keeps
    | with_reducible apply advanceEpoch_keeps | with_reducible apply duskFailed_keeps
    | with_reducible apply fixShapes_keeps | with_reducible apply dawn_keeps | with_reducible apply Keeps.foldl
    | with_reducible apply Keeps.foldl1 | (with_reducible refine Keeps.of_pair (by with_reducible assumption) ?_)
    | (with_reducible refine Keeps.of_left (by with_reducible assumption) ?_) | intro _ | split
    | (with_reducible refine Keeps.lit ?_ rfl rfl rfl))

theorem noteMarkLost_keeps {z : State} (s : State) (hz : Keeps z s) :
    Keeps z (noteMarkLost s) := by
  unfold noteMarkLost
  try dsimp only
  repeat' (first
    | with_reducible assumption | with_reducible apply logChip_keeps | intro _
    | (with_reducible refine Keeps.lit ?_ rfl rfl rfl))

theorem firstDawn_keeps {z : State} (s : State) (hz : Keeps z s) :
    Keeps z (firstDawn s) := by
  unfold firstDawn
  try dsimp only
  repeat' (first
    | with_reducible assumption | with_reducible apply dawn_keeps)

theorem handAct_keeps {z : State} (s : State) (p l act idx : Nat) (hz : Keeps z s) :
    Keeps z (handAct s p l act idx).2 := by
  unfold handAct
  try dsimp only
  repeat' (first
    | with_reducible assumption | with_reducible apply setInTurn_keeps | with_reducible apply clearFlag_keeps
    | with_reducible apply useWord_keeps | with_reducible apply noteEvent_keeps | with_reducible apply updCore_keeps
    | with_reducible apply wakeWaiters_keeps | with_reducible apply headAdd_keeps | with_reducible apply tailAdd_keeps
    | (with_reducible refine Keeps.of_pair (by with_reducible assumption) ?_) | intro _ | split)

theorem logHand_keeps {z : State} (s : State) (l v before after requester : Nat) (st : Status) (hz : Keeps z s) :
    Keeps z (logHand s l v before after requester st) := by
  unfold logHand
  try dsimp only
  repeat' (first
    | with_reducible assumption | with_reducible apply logCore_keeps)

theorem noteHand_keeps {z : State} (s : State) (p : Nat) (hz : Keeps z s) :
    Keeps z (noteHand s p) := by
  unfold noteHand
  try dsimp only
  repeat' (first
    | with_reducible assumption | with_reducible apply updCore_keeps)

theorem writeHand_keeps {z : State} (s : State) (r : Reg) (v requester : Nat) (st : Status) (hz : Keeps z s) :
    Keeps z (writeHand s r v requester st).2 := by
  unfold writeHand
  try dsimp only
  repeat' (first
    | with_reducible assumption | with_reducible apply settleSync_keeps | with_reducible apply handAct_keeps
    | with_reducible apply noteHand_keeps | with_reducible apply logHand_keeps
    | (with_reducible refine Keeps.of_pair (by with_reducible assumption) ?_) | intro _ | split)

theorem noteStatus_keeps {z : State} (s : State) (r : Reg) (v : Nat) (st : Status) (hz : Keeps z s) :
    Keeps z (noteStatus s r v st) := by
  unfold noteStatus
  try dsimp only
  repeat' (first
    | with_reducible assumption | with_reducible apply noteBoot_keeps | with_reducible apply updCav_keeps
    | with_reducible apply updGal_keeps | with_reducible apply noteCtxOp_keeps | intro _ | split
    | (with_reducible refine Keeps.lit ?_ rfl rfl rfl))

theorem writeAccepted_keeps {z : State} (s : State) (r : Reg) (v : Nat) (hz : Keeps z s) :
    Keeps z (writeAccepted s r v).2 := by
  unfold writeAccepted
  try dsimp only
  repeat' (first
    | with_reducible assumption | with_reducible apply noteStatus_keeps | with_reducible apply writeBoot_keeps
    | with_reducible apply writeReload_keeps | with_reducible apply regWrite_keeps
    | (with_reducible refine Keeps.of_pair (by with_reducible assumption) ?_) | intro _ | split)

theorem hostWrite_keeps {z : State} (s : State) (a v : Nat) (hand : Bool) (requester : Nat) (hz : Keeps z s) :
    Keeps z (hostWrite s a v hand requester).2 := by
  unfold hostWrite
  try dsimp only
  repeat' (first
    | with_reducible assumption | with_reducible apply dropHalf_keeps | with_reducible apply writeHand_keeps
    | with_reducible apply writeAccepted_keeps
    | (with_reducible refine Keeps.of_pair (by with_reducible assumption) ?_) | intro _ | split)

theorem hostRead_keeps {z : State} (s : State) (a : Nat) (hz : Keeps z s) :
    Keeps z (hostRead s a).2.2 := by
  unfold hostRead
  try dsimp only
  repeat' (first
    | with_reducible assumption | with_reducible apply dropHalf_keeps | with_reducible apply regRead_keeps
    | (with_reducible refine Keeps.of_pair (by with_reducible assumption) ?_) | intro _ | split)

theorem respondReg_keeps {z : State} (s : State) (m : RegReq) (st : Status) (hand : Bool) (data : Nat)
    (hz : Keeps z s) :
    Keeps z (respondReg s m st hand data) := by
  unfold respondReg
  try dsimp only
  repeat' (first
    | with_reducible assumption | intro _ | split | (with_reducible refine Keeps.lit ?_ rfl rfl rfl))

theorem regRow_keeps {z : State} (s : State) (ok : Bool) (a : Nat) (v : Word) (hz : Keeps z s) :
    Keeps z (regRow s ok a v) := by
  unfold regRow
  try dsimp only
  repeat' (first
    | with_reducible assumption | with_reducible apply hostWrite_keeps | with_reducible apply report_keeps
    | (with_reducible refine Keeps.of_pair (by with_reducible assumption) ?_) | intro _ | split)

theorem handRow_keeps {z : State} (s : State) (act core requester : Nat) (v : Word) (hz : Keeps z s) :
    Keeps z (handRow s act core requester v) := by
  unfold handRow
  try dsimp only
  repeat' (first
    | with_reducible assumption | with_reducible apply hostWrite_keeps | with_reducible apply report_keeps
    | (with_reducible refine Keeps.of_pair (by with_reducible assumption) ?_) | intro _ | split)

theorem ctxRow_keeps {z : State} (s : State) (op core : Nat) (v : Word) (hz : Keeps z s) :
    Keeps z (ctxRow s op core v) := by
  unfold ctxRow
  try dsimp only
  repeat' (first
    | with_reducible assumption | with_reducible apply regRow_keeps)

theorem capRow_keeps {z : State} (s : State) (op cav : Nat) (v : Word) (hz : Keeps z s) :
    Keeps z (capRow s op cav v) := by
  unfold capRow
  try dsimp only
  repeat' (first
    | with_reducible assumption | with_reducible apply regRow_keeps)

theorem finishSync_keeps {z : State} (s : State) (p l q c : Nat) (y : SyncCmd) (st : Status) (hz : Keeps z s) :
    Keeps z (finishSync s p l q c y st) := by
  unfold finishSync
  try dsimp only
  repeat' (first
    | with_reducible assumption | with_reducible apply newTrack_keeps | with_reducible apply endTrack_keeps
    | with_reducible apply dueDone_keeps | with_reducible apply report_keeps | with_reducible apply leaveHead_keeps)

theorem sleepHead_keeps {z : State} (s : State) (p q c : Nat) (y : SyncCmd) (arrived : Bool) (deadline : Nat)
    (hz : Keeps z s) :
    Keeps z (sleepHead s p q c y arrived deadline) := by
  unfold sleepHead
  try dsimp only
  repeat' (first
    | with_reducible assumption | with_reducible apply newTrack_keeps | with_reducible apply updQueue_keeps)

theorem slotOutcome_keeps {z : State} (s : State) (p l q c : Nat) (y : SyncCmd) (hz : Keeps z s) :
    Keeps z (slotOutcome s p l q c y) := by
  unfold slotOutcome
  try dsimp only
  repeat' (first
    | with_reducible assumption | with_reducible apply finishSync_keeps | with_reducible apply report_keeps
    | with_reducible apply retireHead_keeps | intro _ | split)

theorem doSet_keeps {z : State} (s : State) (p l q c : Nat) (y : SyncCmd) (hz : Keeps z s) :
    Keeps z (doSet s p l q c y) := by
  unfold doSet
  try dsimp only
  repeat' (first
    | with_reducible assumption | with_reducible apply setFlag_keeps | with_reducible apply finishSync_keeps)

theorem doClear_keeps {z : State} (s : State) (p l q c : Nat) (y : SyncCmd) (hz : Keeps z s) :
    Keeps z (doClear s p l q c y) := by
  unfold doClear
  try dsimp only
  repeat' (first
    | with_reducible assumption | with_reducible apply finishSync_keeps | with_reducible apply settleSync_keeps
    | with_reducible apply clearFlag_keeps)

theorem doWait_keeps {z : State} (s : State) (p l q c : Nat) (y : SyncCmd) (hz : Keeps z s) :
    Keeps z (doWait s p l q c y) := by
  unfold doWait
  try dsimp only
  repeat' (first
    | with_reducible assumption | with_reducible apply finishSync_keeps | with_reducible apply clearFlag_keeps
    | with_reducible apply sleepHead_keeps | intro _ | split)

theorem doCount_keeps {z : State} (s : State) (p l q c : Nat) (y : SyncCmd) (hz : Keeps z s) :
    Keeps z (doCount s p l q c y) := by
  unfold doCount
  try dsimp only
  repeat' (first
    | with_reducible assumption | with_reducible apply updateCounter_keeps | with_reducible apply finishSync_keeps)

theorem doWaitCnt_keeps {z : State} (s : State) (p l q c : Nat) (y : SyncCmd) (hz : Keeps z s) :
    Keeps z (doWaitCnt s p l q c y) := by
  unfold doWaitCnt
  try dsimp only
  repeat' (first
    | with_reducible assumption | with_reducible apply finishSync_keeps | with_reducible apply sleepHead_keeps
    | intro _ | split)

theorem doArrive_keeps {z : State} (s : State) (p l q c : Nat) (y : SyncCmd) (hz : Keeps z s) :
    Keeps z (doArrive s p l q c y) := by
  unfold doArrive
  try dsimp only
  repeat' (first
    | with_reducible assumption | with_reducible apply catchUp_keeps | with_reducible apply updCtx_keeps
    | with_reducible apply sleepHead_keeps | with_reducible apply slotOutcome_keeps
    | with_reducible apply arriveNow_keeps | with_reducible apply finishSync_keeps | intro _ | split)

theorem doWaitSlot_keeps {z : State} (s : State) (p l q c : Nat) (y : SyncCmd) (hz : Keeps z s) :
    Keeps z (doWaitSlot s p l q c y) := by
  unfold doWaitSlot
  try dsimp only
  repeat' (first
    | with_reducible assumption | with_reducible apply sleepHead_keeps | with_reducible apply slotOutcome_keeps
    | intro _ | split)

theorem doFence_keeps {z : State} (s : State) (p l q c : Nat) (y : SyncCmd) (hz : Keeps z s) :
    Keeps z (doFence s p l q c y) := by
  unfold doFence
  try dsimp only
  repeat' (first
    | with_reducible assumption | with_reducible apply catchUp_keeps | with_reducible apply finishSync_keeps
    | with_reducible apply newTrack_keeps | with_reducible apply updQueue_keeps
    | (with_reducible refine Keeps.of_pair (by with_reducible assumption) ?_) | intro _ | split)

theorem completeFence_keeps {z : State} (s : State) (p l q : Nat) (hz : Keeps z s) :
    Keeps z (completeFence s p l q) := by
  unfold completeFence
  try dsimp only
  repeat' (first
    | with_reducible assumption | with_reducible apply settleSync_keeps | with_reducible apply catchUp_keeps
    | with_reducible apply updQueue_keeps | with_reducible apply endTrack_keeps | with_reducible apply dueDone_keeps
    | with_reducible apply report_keeps | with_reducible apply leaveHead_keeps | intro _ | split)

theorem expireWait_keeps {z : State} (s : State) (p l q : Nat) (hz : Keeps z s) :
    Keeps z (expireWait s p l q) := by
  unfold expireWait
  try dsimp only
  repeat' (first
    | with_reducible assumption | with_reducible apply settleSync_keeps | with_reducible apply partTimeout_keeps
    | with_reducible apply updCore_keeps | with_reducible apply report_keeps | with_reducible apply endSleep_keeps
    | with_reducible apply logTimeout_keeps | intro _ | split)

theorem syncRow_keeps {z : State} (s : State) (l q sop : Nat) (f : State → Nat → Nat → SyncCmd → State)
    (hz : Keeps z s) (hf : ∀ t a b c, Keeps z t → Keeps z (f t a b c)) :
    Keeps z (syncRow s l q sop f) := by
  unfold syncRow
  try dsimp only
  repeat' (first
    | with_reducible assumption | apply hf | with_reducible apply onHead_keeps | intro _ | split)

end Sys2Proof.Machine
end

