-- ==== Sys2Proof/Laws/KeepsExec.lean ====
section
/-!
SUPPORT. What Keeps says, for the meaning of every command but POWER_UP and POWER_DOWN, which change the power: each answers
a next state and keeps it.
-/

namespace Sys2Proof.Machine

theorem execMove_keeps {z : State} (core : Nat) (s : State) (hz : Keeps z s) :
    ∃ t, execMove core s = .next t ∧ Keeps z t := by
  unfold execMove
  refine ⟨_, rfl, ?_⟩
  try dsimp only
  repeat' (first
    | with_reducible assumption | with_reducible apply moveRow_keeps)

theorem execTileOut_keeps {z : State} (core : Nat) (s : State) (hz : Keeps z s) :
    ∃ t, execTileOut core s = .next t ∧ Keeps z t := by
  unfold execTileOut
  refine ⟨_, rfl, ?_⟩
  try dsimp only
  repeat' (first
    | with_reducible assumption | with_reducible apply moveRow_keeps)

theorem execSignal_keeps {z : State} (core : Nat) (s : State) (hz : Keeps z s) :
    ∃ t, execSignal core s = .next t ∧ Keeps z t := by
  unfold execSignal
  refine ⟨_, rfl, ?_⟩
  try dsimp only
  repeat' (first
    | with_reducible assumption | with_reducible apply moveRow_keeps)

theorem execGrant_keeps {z : State} (core : Nat) (s : State) (hz : Keeps z s) :
    ∃ t, execGrant core s = .next t ∧ Keeps z t := by
  unfold execGrant
  refine ⟨_, rfl, ?_⟩
  try dsimp only
  repeat' (first
    | with_reducible assumption | with_reducible apply moveRow_keeps)

theorem execDeepRead_keeps {z : State} (core : Nat) (s : State) (hz : Keeps z s) :
    ∃ t, execDeepRead core s = .next t ∧ Keeps z t := by
  unfold execDeepRead
  refine ⟨_, rfl, ?_⟩
  try dsimp only
  repeat' (first
    | with_reducible assumption | with_reducible apply moveRow_keeps)

theorem execDeepReadIssue_keeps {z : State} (core : Nat) (s : State) (hz : Keeps z s) :
    ∃ t, execDeepReadIssue core s = .next t ∧ Keeps z t := by
  unfold execDeepReadIssue
  refine ⟨_, rfl, ?_⟩
  try dsimp only
  repeat' (first
    | with_reducible assumption | with_reducible apply withIssue_keeps | with_reducible apply endHead_keeps
    | with_reducible apply noteFree_keeps | with_reducible apply updCore_keeps
    | with_reducible apply issueDeepRead_keeps | intro _ | split)

theorem execMoveIssueTimeout_keeps {z : State} (core q : Nat) (s : State) (hz : Keeps z s) :
    ∃ t, execMoveIssueTimeout core q s = .next t ∧ Keeps z t := by
  unfold execMoveIssueTimeout
  refine ⟨_, rfl, ?_⟩
  try dsimp only
  repeat' (first
    | with_reducible assumption | with_reducible apply withLive_keeps | with_reducible apply updCore_keeps
    | with_reducible apply retireDecoded_keeps | with_reducible apply logCore_keeps | intro _ | split)

theorem execDeepData_keeps {z : State} (port : Port) (pkt : Packet) (s : State) (hz : Keeps z s) :
    ∃ t, execDeepData port pkt s = .next t ∧ Keeps z t := by
  refine ⟨_, rfl, ?_⟩
  split
  · exact hz
  refine deliver_keeps s port pkt _ hz fun t l p ht => ?_
  dsimp only
  generalize (if (received port pkt).poison = true then Status.poisoned else _) = st
  repeat' (first
    | with_reducible assumption | with_reducible apply restoreRow_keeps
    | with_reducible apply logCore_keeps | with_reducible apply updCore_keeps | with_reducible apply tryImage_keeps
    | with_reducible apply respond_keeps | intro _ | split)

theorem execAck_keeps {z : State} (port : Port) (pkt : Packet) (s : State) (hz : Keeps z s) :
    ∃ t, execAck port pkt s = .next t ∧ Keeps z t := by
  unfold execAck
  refine ⟨_, rfl, ?_⟩
  try dsimp only
  repeat' (first
    | with_reducible assumption | with_reducible apply deliver_keeps | with_reducible apply setCore_keeps
    | with_reducible apply respond_keeps | with_reducible apply updCore_keeps | with_reducible apply tryImage_keeps
    | intro _ | split)

theorem execRowTimeout_keeps {z : State} (core tag row : Nat) (s : State) (hz : Keeps z s) :
    ∃ t, execRowTimeout core tag row s = .next t ∧ Keeps z t := by
  unfold execRowTimeout
  refine ⟨_, rfl, ?_⟩
  try dsimp only
  repeat' (first
    | with_reducible assumption | with_reducible apply withLive_keeps | with_reducible apply catchUp_keeps
    | with_reducible apply updCore_keeps | with_reducible apply tryImage_keeps | with_reducible apply respond_keeps
    | intro _ | split)

theorem execCreditGrant_keeps {z : State} (port : Port) (pkt : Packet) (s : State) (hz : Keeps z s) :
    ∃ t, execCreditGrant port pkt s = .next t ∧ Keeps z t := by
  unfold execCreditGrant
  refine ⟨_, rfl, ?_⟩
  try dsimp only
  repeat' (first
    | with_reducible assumption | with_reducible apply deliver_keeps | with_reducible apply updCore_keeps
    | with_reducible apply useWords_keeps | with_reducible apply setCore_keeps | with_reducible apply logCore_keeps
    | (with_reducible refine Keeps.of_pair (by with_reducible assumption) ?_) | intro _ | split)

theorem execRevoke_keeps {z : State} (port : Port) (pkt : Packet) (s : State) (hz : Keeps z s) :
    ∃ t, execRevoke port pkt s = .next t ∧ Keeps z t := by
  unfold execRevoke
  refine ⟨_, rfl, ?_⟩
  try dsimp only
  repeat' (first
    | with_reducible assumption | with_reducible apply deliver_keeps | with_reducible apply updCore_keeps | intro _
    | split)

theorem execBounce_keeps {z : State} (port : Port) (pkt : Packet) (s : State) (hz : Keeps z s) :
    ∃ t, execBounce port pkt s = .next t ∧ Keeps z t := by
  unfold execBounce
  refine ⟨_, rfl, ?_⟩
  try dsimp only
  repeat' (first
    | with_reducible assumption | with_reducible apply deliver_keeps | with_reducible apply updCore_keeps
    | with_reducible apply catchUp_keeps | with_reducible apply resendHeld_keeps | with_reducible apply logCore_keeps
    | intro _ | split)

theorem execUnsettledMaskBroadcast_keeps {z : State} (gal : Nat) (s : State) (hz : Keeps z s) :
    ∃ t, execUnsettledMaskBroadcast gal s = .next t ∧ Keeps z t := by
  unfold execUnsettledMaskBroadcast
  refine ⟨_, rfl, ?_⟩
  try dsimp only
  repeat' (first
    | with_reducible assumption | with_reducible apply updGal_keeps | with_reducible apply resendHeld_keeps
    | with_reducible apply Keeps.foldl)

theorem execInjectFlit_keeps {z : State} (core side : Nat) (err : FlitErr) (s : State) (hz : Keeps z s) :
    ∃ t, execInjectFlit core side s err = .next t ∧ Keeps z t := by
  unfold execInjectFlit
  refine ⟨_, rfl, ?_⟩
  try dsimp only
  repeat' (first
    | with_reducible assumption | with_reducible apply loseOutbound_keeps | with_reducible apply countAct_keeps
    | with_reducible apply sendInj_keeps | with_reducible apply updCore_keeps | intro _ | split
    | (with_reducible refine Keeps.lit ?_ rfl rfl rfl))

theorem execRouterArbitrate_keeps {z : State} (node output : Nat) (err : FlitErr) (s : State) (hz : Keeps z s) :
    ∃ t, execRouterArbitrate node output s err = .next t ∧ Keeps z t := by
  unfold execRouterArbitrate
  refine ⟨_, rfl, ?_⟩
  try dsimp only
  repeat' (first
    | with_reducible assumption | with_reducible apply grantFlit_keeps | intro _ | split
    | (with_reducible refine Keeps.lit ?_ rfl rfl rfl))

theorem execHeadBoost_keeps {z : State} (node input channel : Nat) (s : State) (hz : Keeps z s) :
    ∃ t, execHeadBoost node input channel s = .next t ∧ Keeps z t := by
  unfold execHeadBoost
  refine ⟨_, rfl, ?_⟩
  try dsimp only
  repeat' (first
    | with_reducible assumption | intro _ | split | (with_reducible refine Keeps.lit ?_ rfl rfl rfl))

theorem execWatchdogStall_keeps {z : State} (node input channel : Nat) (s : State) (hz : Keeps z s) :
    ∃ t, execWatchdogStall node input channel s = .next t ∧ Keeps z t := by
  unfold execWatchdogStall
  refine ⟨_, rfl, ?_⟩
  try dsimp only
  repeat' (first
    | with_reducible assumption | with_reducible apply stallNode_keeps | with_reducible apply stallInj_keeps | intro _
    | split)

theorem execPass_keeps {z : State} (core : Nat) (s : State) (hz : Keeps z s) :
    ∃ t, execPass core s = .next t ∧ Keeps z t := by
  unfold execPass
  refine ⟨_, rfl, ?_⟩
  try dsimp only
  repeat' (first
    | with_reducible assumption | with_reducible apply onHeadFail_keeps | with_reducible apply refuseGang_keeps
    | with_reducible apply waitHead_keeps | with_reducible apply bringRamp_keeps | with_reducible apply updCore_keeps
    | with_reducible apply arriveGang_keeps | with_reducible apply endAbandonedHead_keeps | intro _ | split)

theorem execActivityRampStep_keeps {z : State} (core : Nat) (s : State) (hz : Keeps z s) :
    ∃ t, execActivityRampStep core s = .next t ∧ Keeps z t := by
  unfold execActivityRampStep
  refine ⟨_, rfl, ?_⟩
  try dsimp only
  repeat' (first
    | with_reducible assumption | with_reducible apply withLive_keeps | with_reducible apply bringRamp_keeps
    | with_reducible apply updCore_keeps | intro _)

theorem execGangTimeout_keeps {z : State} (gal : Nat) (s : State) (hz : Keeps z s) :
    ∃ t, execGangTimeout gal s = .next t ∧ Keeps z t := by
  unfold execGangTimeout
  refine ⟨_, rfl, ?_⟩
  try dsimp only
  repeat' (first
    | with_reducible assumption | with_reducible apply failRendezvous_keeps | with_reducible apply logGal_keeps
    | with_reducible apply Keeps.foldl | (with_reducible refine Keeps.of_pair (by with_reducible assumption) ?_)
    | intro _ | split)

theorem execSbTimeout_keeps {z : State} (core q : Nat) (s : State) (hz : Keeps z s) :
    ∃ t, execSbTimeout core q s = .next t ∧ Keeps z t := by
  unfold execSbTimeout
  refine ⟨_, rfl, ?_⟩
  try dsimp only
  repeat' (first
    | with_reducible assumption | with_reducible apply withLive_keeps | with_reducible apply endPend_keeps
    | with_reducible apply endHead_keeps | with_reducible apply updCore_keeps | with_reducible apply logCore_keeps
    | intro _ | split)

theorem execDrain_keeps {z : State} (core : Nat) (s : State) (hz : Keeps z s) :
    ∃ t, execDrain core s = .next t ∧ Keeps z t := by
  unfold execDrain
  refine ⟨_, rfl, ?_⟩
  try dsimp only
  repeat' (first
    | with_reducible assumption | with_reducible apply outRow_keeps)

theorem execDescSet_keeps {z : State} (core : Nat) (s : State) (hz : Keeps z s) :
    ∃ t, execDescSet core s = .next t ∧ Keeps z t := by
  unfold execDescSet
  refine ⟨_, rfl, ?_⟩
  try dsimp only
  repeat' (first
    | with_reducible assumption | with_reducible apply outRow_keeps)

theorem execRescale_keeps {z : State} (core : Nat) (s : State) (hz : Keeps z s) :
    ∃ t, execRescale core s = .next t ∧ Keeps z t := by
  unfold execRescale
  refine ⟨_, rfl, ?_⟩
  try dsimp only
  repeat' (first
    | with_reducible assumption | with_reducible apply outRow_keeps)

theorem execZero_keeps {z : State} (core : Nat) (s : State) (hz : Keeps z s) :
    ∃ t, execZero core s = .next t ∧ Keeps z t := by
  unfold execZero
  refine ⟨_, rfl, ?_⟩
  try dsimp only
  repeat' (first
    | with_reducible assumption | with_reducible apply outRow_keeps)

theorem execAdd_keeps {z : State} (core : Nat) (s : State) (hz : Keeps z s) :
    ∃ t, execAdd core s = .next t ∧ Keeps z t := by
  unfold execAdd
  refine ⟨_, rfl, ?_⟩
  try dsimp only
  repeat' (first
    | with_reducible assumption | with_reducible apply vecRow_keeps)

theorem execSub_keeps {z : State} (core : Nat) (s : State) (hz : Keeps z s) :
    ∃ t, execSub core s = .next t ∧ Keeps z t := by
  unfold execSub
  refine ⟨_, rfl, ?_⟩
  try dsimp only
  repeat' (first
    | with_reducible assumption | with_reducible apply vecRow_keeps)

theorem execMul_keeps {z : State} (core : Nat) (s : State) (hz : Keeps z s) :
    ∃ t, execMul core s = .next t ∧ Keeps z t := by
  unfold execMul
  refine ⟨_, rfl, ?_⟩
  try dsimp only
  repeat' (first
    | with_reducible assumption | with_reducible apply vecRow_keeps)

theorem execMin_keeps {z : State} (core : Nat) (s : State) (hz : Keeps z s) :
    ∃ t, execMin core s = .next t ∧ Keeps z t := by
  unfold execMin
  refine ⟨_, rfl, ?_⟩
  try dsimp only
  repeat' (first
    | with_reducible assumption | with_reducible apply vecRow_keeps)

theorem execMax_keeps {z : State} (core : Nat) (s : State) (hz : Keeps z s) :
    ∃ t, execMax core s = .next t ∧ Keeps z t := by
  unfold execMax
  refine ⟨_, rfl, ?_⟩
  try dsimp only
  repeat' (first
    | with_reducible assumption | with_reducible apply vecRow_keeps)

theorem execCmplt_keeps {z : State} (core : Nat) (s : State) (hz : Keeps z s) :
    ∃ t, execCmplt core s = .next t ∧ Keeps z t := by
  unfold execCmplt
  refine ⟨_, rfl, ?_⟩
  try dsimp only
  repeat' (first
    | with_reducible assumption | with_reducible apply vecRow_keeps)

theorem execCmple_keeps {z : State} (core : Nat) (s : State) (hz : Keeps z s) :
    ∃ t, execCmple core s = .next t ∧ Keeps z t := by
  unfold execCmple
  refine ⟨_, rfl, ?_⟩
  try dsimp only
  repeat' (first
    | with_reducible assumption | with_reducible apply vecRow_keeps)

theorem execCmpeq_keeps {z : State} (core : Nat) (s : State) (hz : Keeps z s) :
    ∃ t, execCmpeq core s = .next t ∧ Keeps z t := by
  unfold execCmpeq
  refine ⟨_, rfl, ?_⟩
  try dsimp only
  repeat' (first
    | with_reducible assumption | with_reducible apply vecRow_keeps)

theorem execSel_keeps {z : State} (core : Nat) (s : State) (hz : Keeps z s) :
    ∃ t, execSel core s = .next t ∧ Keeps z t := by
  unfold execSel
  refine ⟨_, rfl, ?_⟩
  try dsimp only
  repeat' (first
    | with_reducible assumption | with_reducible apply vecRow_keeps)

theorem execCopy_keeps {z : State} (core : Nat) (s : State) (hz : Keeps z s) :
    ∃ t, execCopy core s = .next t ∧ Keeps z t := by
  unfold execCopy
  refine ⟨_, rfl, ?_⟩
  try dsimp only
  repeat' (first
    | with_reducible assumption | with_reducible apply vecRow_keeps)

theorem execNeg_keeps {z : State} (core : Nat) (s : State) (hz : Keeps z s) :
    ∃ t, execNeg core s = .next t ∧ Keeps z t := by
  unfold execNeg
  refine ⟨_, rfl, ?_⟩
  try dsimp only
  repeat' (first
    | with_reducible assumption | with_reducible apply vecRow_keeps)

theorem execAbs_keeps {z : State} (core : Nat) (s : State) (hz : Keeps z s) :
    ∃ t, execAbs core s = .next t ∧ Keeps z t := by
  unfold execAbs
  refine ⟨_, rfl, ?_⟩
  try dsimp only
  repeat' (first
    | with_reducible assumption | with_reducible apply vecRow_keeps)

theorem execShift_keeps {z : State} (core : Nat) (s : State) (hz : Keeps z s) :
    ∃ t, execShift core s = .next t ∧ Keeps z t := by
  unfold execShift
  refine ⟨_, rfl, ?_⟩
  try dsimp only
  repeat' (first
    | with_reducible assumption | with_reducible apply vecRow_keeps)

theorem execIsnar_keeps {z : State} (core : Nat) (s : State) (hz : Keeps z s) :
    ∃ t, execIsnar core s = .next t ∧ Keeps z t := by
  unfold execIsnar
  refine ⟨_, rfl, ?_⟩
  try dsimp only
  repeat' (first
    | with_reducible assumption | with_reducible apply vecRow_keeps)

theorem execExp2_keeps {z : State} (core : Nat) (s : State) (hz : Keeps z s) :
    ∃ t, execExp2 core s = .next t ∧ Keeps z t := by
  unfold execExp2
  refine ⟨_, rfl, ?_⟩
  try dsimp only
  repeat' (first
    | with_reducible assumption | with_reducible apply vecRow_keeps)

theorem execLog2_keeps {z : State} (core : Nat) (s : State) (hz : Keeps z s) :
    ∃ t, execLog2 core s = .next t ∧ Keeps z t := by
  unfold execLog2
  refine ⟨_, rfl, ?_⟩
  try dsimp only
  repeat' (first
    | with_reducible assumption | with_reducible apply vecRow_keeps)

theorem execRecip_keeps {z : State} (core : Nat) (s : State) (hz : Keeps z s) :
    ∃ t, execRecip core s = .next t ∧ Keeps z t := by
  unfold execRecip
  refine ⟨_, rfl, ?_⟩
  try dsimp only
  repeat' (first
    | with_reducible assumption | with_reducible apply vecRow_keeps)

theorem execRsqrt_keeps {z : State} (core : Nat) (s : State) (hz : Keeps z s) :
    ∃ t, execRsqrt core s = .next t ∧ Keeps z t := by
  unfold execRsqrt
  refine ⟨_, rfl, ?_⟩
  try dsimp only
  repeat' (first
    | with_reducible assumption | with_reducible apply vecRow_keeps)

theorem execWiden_keeps {z : State} (core : Nat) (s : State) (hz : Keeps z s) :
    ∃ t, execWiden core s = .next t ∧ Keeps z t := by
  unfold execWiden
  refine ⟨_, rfl, ?_⟩
  try dsimp only
  repeat' (first
    | with_reducible assumption | with_reducible apply vecRow_keeps)

theorem execNarrow_keeps {z : State} (core : Nat) (s : State) (hz : Keeps z s) :
    ∃ t, execNarrow core s = .next t ∧ Keeps z t := by
  unfold execNarrow
  refine ⟨_, rfl, ?_⟩
  try dsimp only
  repeat' (first
    | with_reducible assumption | with_reducible apply vecRow_keeps)

theorem execRsum_keeps {z : State} (core : Nat) (s : State) (hz : Keeps z s) :
    ∃ t, execRsum core s = .next t ∧ Keeps z t := by
  unfold execRsum
  refine ⟨_, rfl, ?_⟩
  try dsimp only
  repeat' (first
    | with_reducible assumption | with_reducible apply vecRow_keeps)

theorem execRsumsq_keeps {z : State} (core : Nat) (s : State) (hz : Keeps z s) :
    ∃ t, execRsumsq core s = .next t ∧ Keeps z t := by
  unfold execRsumsq
  refine ⟨_, rfl, ?_⟩
  try dsimp only
  repeat' (first
    | with_reducible assumption | with_reducible apply vecRow_keeps)

theorem execRmax_keeps {z : State} (core : Nat) (s : State) (hz : Keeps z s) :
    ∃ t, execRmax core s = .next t ∧ Keeps z t := by
  unfold execRmax
  refine ⟨_, rfl, ?_⟩
  try dsimp only
  repeat' (first
    | with_reducible assumption | with_reducible apply vecRow_keeps)

theorem execRmin_keeps {z : State} (core : Nat) (s : State) (hz : Keeps z s) :
    ∃ t, execRmin core s = .next t ∧ Keeps z t := by
  unfold execRmin
  refine ⟨_, rfl, ?_⟩
  try dsimp only
  repeat' (first
    | with_reducible assumption | with_reducible apply vecRow_keeps)

theorem execSget_keeps {z : State} (core : Nat) (s : State) (hz : Keeps z s) :
    ∃ t, execSget core s = .next t ∧ Keeps z t := by
  unfold execSget
  refine ⟨_, rfl, ?_⟩
  try dsimp only
  repeat' (first
    | with_reducible assumption | with_reducible apply vecRow_keeps)

theorem execSoftmax_keeps {z : State} (core : Nat) (s : State) (hz : Keeps z s) :
    ∃ t, execSoftmax core s = .next t ∧ Keeps z t := by
  unfold execSoftmax
  refine ⟨_, rfl, ?_⟩
  try dsimp only
  repeat' (first
    | with_reducible assumption | with_reducible apply vecRow_keeps)

theorem execLnorm_keeps {z : State} (core : Nat) (s : State) (hz : Keeps z s) :
    ∃ t, execLnorm core s = .next t ∧ Keeps z t := by
  unfold execLnorm
  refine ⟨_, rfl, ?_⟩
  try dsimp only
  repeat' (first
    | with_reducible assumption | with_reducible apply vecRow_keeps)

theorem execRmsnorm_keeps {z : State} (core : Nat) (s : State) (hz : Keeps z s) :
    ∃ t, execRmsnorm core s = .next t ∧ Keeps z t := by
  unfold execRmsnorm
  refine ⟨_, rfl, ?_⟩
  try dsimp only
  repeat' (first
    | with_reducible assumption | with_reducible apply vecRow_keeps)

theorem execXent_keeps {z : State} (core : Nat) (s : State) (hz : Keeps z s) :
    ∃ t, execXent core s = .next t ∧ Keeps z t := by
  unfold execXent
  refine ⟨_, rfl, ?_⟩
  try dsimp only
  repeat' (first
    | with_reducible assumption | with_reducible apply vecRow_keeps)

theorem execMse_keeps {z : State} (core : Nat) (s : State) (hz : Keeps z s) :
    ∃ t, execMse core s = .next t ∧ Keeps z t := by
  unfold execMse
  refine ⟨_, rfl, ?_⟩
  try dsimp only
  repeat' (first
    | with_reducible assumption | with_reducible apply vecRow_keeps)

theorem execCscnt_keeps {z : State} (core : Nat) (s : State) (hz : Keeps z s) :
    ∃ t, execCscnt core s = .next t ∧ Keeps z t := by
  unfold execCscnt
  refine ⟨_, rfl, ?_⟩
  try dsimp only
  repeat' (first
    | with_reducible assumption | with_reducible apply vecRow_keeps)

theorem execCsclr_keeps {z : State} (core : Nat) (s : State) (hz : Keeps z s) :
    ∃ t, execCsclr core s = .next t ∧ Keeps z t := by
  unfold execCsclr
  refine ⟨_, rfl, ?_⟩
  try dsimp only
  repeat' (first
    | with_reducible assumption | with_reducible apply vecRow_keeps)

theorem execCensusRollup_keeps {z : State} (s : State) (hz : Keeps z s) :
    ∃ t, execCensusRollup s = .next t ∧ Keeps z t := by
  unfold execCensusRollup
  refine ⟨_, rfl, ?_⟩
  try dsimp only
  repeat' (first
    | with_reducible assumption | with_reducible apply updGal_keeps | with_reducible apply updCav_keeps
    | with_reducible apply Keeps.foldl | (with_reducible refine Keeps.of_pair (by with_reducible assumption) ?_)
    | intro _ | split | (with_reducible refine Keeps.lit ?_ rfl rfl rfl))

theorem execPassIssue_keeps {z : State} (core : Nat) (meets : List Meet) (fault : Option CellFault) (s : State)
    (hz : Keeps z s) :
    ∃ t, execPassIssue core meets fault s = .next t ∧ Keeps z t := by
  unfold execPassIssue
  refine ⟨_, rfl, ?_⟩
  try dsimp only
  repeat' (first
    | with_reducible assumption | with_reducible apply mendCore_keeps | with_reducible apply issuePass_keeps)

theorem execGangIssue_keeps {z : State} (gal : Nat) (meets : List (Nat × List Meet))
    (faults : List (Nat × CellFault)) (s : State) (hz : Keeps z s) :
    ∃ t, execGangIssue gal meets faults s = .next t ∧ Keeps z t := by
  unfold execGangIssue
  refine ⟨_, rfl, ?_⟩
  try dsimp only
  repeat' (first
    | with_reducible assumption | with_reducible apply mendCore_keeps | with_reducible apply issueRendezvous_keeps
    | with_reducible apply Keeps.foldl | (with_reducible refine Keeps.of_pair (by with_reducible assumption) ?_)
    | intro _)

theorem execOutputPathStart_keeps {z : State} (core : Nat) (meets : List Meet) (s : State) (hz : Keeps z s) :
    ∃ t, execOutputPathStart core meets s = .next t ∧ Keeps z t := by
  unfold execOutputPathStart
  refine ⟨_, rfl, ?_⟩
  try dsimp only
  repeat' (first
    | with_reducible assumption | with_reducible apply mendCore_keeps | with_reducible apply startPending_keeps)

theorem execVecStart_keeps {z : State} (core : Nat) (meets : List Meet) (s : State) (hz : Keeps z s) :
    ∃ t, execVecStart core meets s = .next t ∧ Keeps z t := by
  unfold execVecStart
  refine ⟨_, rfl, ?_⟩
  try dsimp only
  repeat' (first
    | with_reducible assumption | with_reducible apply mendCore_keeps | with_reducible apply startVec_keeps)

theorem execMovePrelude_keeps {z : State} (core q : Nat) (meets : List Meet) (s : State) (hz : Keeps z s) :
    ∃ t, execMovePrelude core q meets s = .next t ∧ Keeps z t := by
  unfold execMovePrelude
  refine ⟨_, rfl, ?_⟩
  try dsimp only
  repeat' (first
    | with_reducible assumption | with_reducible apply mendCore_keeps | with_reducible apply readIndex_keeps)

theorem execMoveIssue_keeps {z : State} (core : Nat) (meets : List Meet) (s : State) (hz : Keeps z s) :
    ∃ t, execMoveIssue core meets s = .next t ∧ Keeps z t := by
  unfold execMoveIssue
  refine ⟨_, rfl, ?_⟩
  try dsimp only
  repeat' (first
    | with_reducible assumption | with_reducible apply mendCore_keeps | with_reducible apply issueOut_keeps)

theorem execTailAdd_keeps {z : State} (port : Port) (pkt : Packet) (s : State) (hz : Keeps z s) :
    ∃ t, execTailAdd port pkt s = .next t ∧ Keeps z t := by
  unfold execTailAdd
  refine ⟨_, rfl, ?_⟩
  try dsimp only
  repeat' (first
    | with_reducible assumption | with_reducible apply doorPacket_keeps | intro _ | split)

theorem execHeadAdd_keeps {z : State} (port : Port) (pkt : Packet) (s : State) (hz : Keeps z s) :
    ∃ t, execHeadAdd port pkt s = .next t ∧ Keeps z t := by
  unfold execHeadAdd
  refine ⟨_, rfl, ?_⟩
  try dsimp only
  repeat' (first
    | with_reducible assumption | with_reducible apply doorPacket_keeps | intro _ | split)

theorem execWr_keeps {z : State} (port : Port) (pkt : Packet) (s : State) (hz : Keeps z s) :
    ∃ t, execWr port pkt s = .next t ∧ Keeps z t := by
  refine ⟨_, rfl, ?_⟩
  split
  · exact hz
  refine deliverOpt_keeps s port pkt _ hz fun t l p ht => ?_
  dsimp only
  split
  · exact KeepsO.some (answerPkt_keeps _ _ _ _ _ _ ht)
  split
  · exact KeepsO.some (refuseRow_keeps _ _ _ _ _ _ ht)
  split
  · exact KeepsO.some (answerPkt_keeps _ _ _ _ _ _ ht)
  split
  · exact KeepsO.some (refuseRow_keeps _ _ _ _ _ _ ht)
  · next n _ _ =>
    have hu := useWords_keeps t p l [(7, n)] ht
    generalize (useWords t p l [(7, n)]).2 = u at hu
    split
    · exact KeepsO.some (refuseRow_keeps _ _ _ _ _ _ hu)
    · exact KeepsO.map (makeRoom_keeps _ _ _ _ hu) fun v hv => enterRow_keeps _ _ _ _ _ _ _ (updCore_keeps _ _ _ hv)

theorem execClassTWrite_keeps {z : State} (port : Port) (pkt : Packet) (s : State) (hz : Keeps z s) :
    ∃ t, execClassTWrite port pkt s = .next t ∧ Keeps z t := by
  refine ⟨_, rfl, ?_⟩
  split
  · exact hz
  refine deliverOpt_keeps s port pkt _ hz fun t l p ht => ?_
  dsimp only
  split
  · exact KeepsO.some (answerPkt_keeps _ _ _ _ _ _ (logCore_keeps _ _ _ _ _ _ (updCore_keeps _ _ _ ht)))
  split
  · exact KeepsO.some (answerPkt_keeps _ _ _ _ _ _ (logCore_keeps _ _ _ _ _ _ (updCore_keeps _ _ _ ht)))
  · next w _ _ =>
    have hu := useWords_keeps t p l [(7, 16 + w)] ht
    generalize (useWords t p l [(7, 16 + w)]).2 = u at hu
    split
    · exact KeepsO.some (answerPkt_keeps _ _ _ _ _ _ (logCore_keeps _ _ _ _ _ _ (updCore_keeps _ _ _ hu)))
    split
    · exact KeepsO.some (answerPkt_keeps _ _ _ _ _ _ hu)
    · exact KeepsO.map (makeRoom_keeps _ _ _ _ hu) fun v hv => enterRow_keeps _ _ _ _ _ _ _ (updCore_keeps _ _ _ hv)

theorem execInboundCommit_keeps {z : State} (core bank : Nat) (s : State) (hz : Keeps z s) :
    ∃ t, execInboundCommit core bank s = .next t ∧ Keeps z t := by
  unfold execInboundCommit
  refine ⟨_, rfl, ?_⟩
  try dsimp only
  repeat' (first
    | with_reducible assumption | with_reducible apply withLive_keeps | with_reducible apply tryImage_keeps
    | with_reducible apply loseInbound_keeps | with_reducible apply respond_keeps | with_reducible apply useFill_keeps
    | with_reducible apply setCore_keeps | with_reducible apply countAct_keeps
    | with_reducible apply countArrived_keeps | with_reducible apply settleSync_keeps
    | with_reducible apply answerPkt_keeps | with_reducible apply Keeps.foldl
    | (with_reducible refine Keeps.of_pair (by with_reducible assumption) ?_) | intro _ | split)

theorem execRd_keeps {z : State} (port : Port) (pkt : Packet) (s : State) (hz : Keeps z s) :
    ∃ t, execRd port pkt s = .next t ∧ Keeps z t := by
  unfold execRd
  refine ⟨_, rfl, ?_⟩
  try dsimp only
  repeat' (first
    | with_reducible assumption | with_reducible apply deliver_keeps | with_reducible apply answerPkt_keeps | intro _
    | split)

theorem execPoolBankPowerDown_keeps {z : State} (core bank : Nat) (s : State) (hz : Keeps z s) :
    ∃ t, execPoolBankPowerDown core bank s = .next t ∧ Keeps z t := by
  unfold execPoolBankPowerDown
  refine ⟨_, rfl, ?_⟩
  try dsimp only
  repeat' (first
    | with_reducible assumption | with_reducible apply withPowered_keeps | with_reducible apply setCore_keeps
    | intro _ | split)

theorem execPoolBankReady_keeps {z : State} (core bank : Nat) (s : State) (hz : Keeps z s) :
    ∃ t, execPoolBankReady core bank s = .next t ∧ Keeps z t := by
  unfold execPoolBankReady
  refine ⟨_, rfl, ?_⟩
  try dsimp only
  repeat' (first
    | with_reducible assumption | with_reducible apply withPowered_keeps | with_reducible apply releaseWithheld_keeps
    | with_reducible apply setCore_keeps | intro _ | split)

theorem execQueuePark_keeps {z : State} (core q : Nat) (s : State) (hz : Keeps z s) :
    ∃ t, execQueuePark core q s = .next t ∧ Keeps z t := by
  unfold execQueuePark
  refine ⟨_, rfl, ?_⟩
  try dsimp only
  repeat' (first
    | with_reducible assumption | with_reducible apply withLive_keeps | with_reducible apply settleSync_keeps
    | with_reducible apply parkNow_keeps | intro _ | split)

theorem execSaveComplete_keeps {z : State} (core : Nat) (s : State) (hz : Keeps z s) :
    ∃ t, execSaveComplete core s = .next t ∧ Keeps z t := by
  unfold execSaveComplete
  refine ⟨_, rfl, ?_⟩
  try dsimp only
  repeat' (first
    | with_reducible assumption | with_reducible apply withLive_keeps | with_reducible apply saveSend_keeps
    | with_reducible apply setCore_keeps | intro _ | split)

theorem execRestoreHeaderCheck_keeps {z : State} (core : Nat) (s : State) (hz : Keeps z s) :
    ∃ t, execRestoreHeaderCheck core s = .next t ∧ Keeps z t := by
  unfold execRestoreHeaderCheck
  refine ⟨_, rfl, ?_⟩
  try dsimp only
  repeat' (first
    | with_reducible assumption | with_reducible apply withLive_keeps | with_reducible apply setCore_keeps
    | with_reducible apply sendImageRow_keeps | with_reducible apply Keeps.foldl
    | (with_reducible refine Keeps.of_pair (by with_reducible assumption) ?_) | intro _ | split)

theorem execRestoreComplete_keeps {z : State} (core : Nat) (s : State) (hz : Keeps z s) :
    ∃ t, execRestoreComplete core s = .next t ∧ Keeps z t := by
  unfold execRestoreComplete
  refine ⟨_, rfl, ?_⟩
  try dsimp only
  repeat' (first
    | with_reducible assumption | with_reducible apply withLive_keeps | with_reducible apply setCore_keeps
    | with_reducible apply useFill_keeps | with_reducible apply markHw_keeps | with_reducible apply settleCore_keeps
    | with_reducible apply Keeps.foldl | (with_reducible refine Keeps.of_pair (by with_reducible assumption) ?_)
    | intro _ | split)

theorem execContextOpTimeout_keeps {z : State} (core : Nat) (s : State) (hz : Keeps z s) :
    ∃ t, execContextOpTimeout core s = .next t ∧ Keeps z t := by
  unfold execContextOpTimeout
  refine ⟨_, rfl, ?_⟩
  try dsimp only
  repeat' (first
    | with_reducible assumption | with_reducible apply withLive_keeps | with_reducible apply logCore_keeps
    | with_reducible apply setCore_keeps | with_reducible apply stopBadRow_keeps | with_reducible apply updQueue_keeps
    | with_reducible apply updCore_keeps | with_reducible apply Keeps.foldl
    | (with_reducible refine Keeps.of_pair (by with_reducible assumption) ?_) | intro _ | split)

theorem execSequenceEnd_keeps {z : State} (cav : Nat) (s : State) (hz : Keeps z s) :
    ∃ t, execSequenceEnd cav s = .next t ∧ Keeps z t := by
  unfold execSequenceEnd
  refine ⟨_, rfl, ?_⟩
  try dsimp only
  repeat' (first
    | with_reducible assumption | with_reducible apply updCav_keeps | with_reducible apply startSequence_keeps
    | with_reducible apply startRise_keeps | intro _ | split)

theorem execReferenceLost_keeps {z : State} (s : State) (hz : Keeps z s) :
    ∃ t, execReferenceLost s = .next t ∧ Keeps z t := by
  unfold execReferenceLost
  refine ⟨_, rfl, ?_⟩
  try dsimp only
  repeat' (first
    | with_reducible assumption | with_reducible apply updCav_keeps | with_reducible apply logChip_keeps
    | with_reducible apply Keeps.foldl | (with_reducible refine Keeps.of_pair (by with_reducible assumption) ?_)
    | intro _ | split)

theorem execReferenceRelock_keeps {z : State} (cav : Nat) (s : State) (hz : Keeps z s) :
    ∃ t, execReferenceRelock cav s = .next t ∧ Keeps z t := by
  unfold execReferenceRelock
  refine ⟨_, rfl, ?_⟩
  try dsimp only
  repeat' (first
    | with_reducible assumption | with_reducible apply updCav_keeps | intro _ | split)

theorem execIssueWindow_keeps {z : State} (gal : Nat) (s : State) (hz : Keeps z s) :
    ∃ t, execIssueWindow gal s = .next t ∧ Keeps z t := by
  unfold execIssueWindow
  refine ⟨_, rfl, ?_⟩
  try dsimp only
  repeat' (first
    | with_reducible assumption | with_reducible apply rollGal_keeps | intro _ | split)

theorem execRailPower_keeps {z : State} (bundle cav m : Nat) (s : State) (hz : Keeps z s) :
    ∃ t, execRailPower cav m s bundle = .next t ∧ Keeps z t := by
  unfold execRailPower
  refine ⟨_, rfl, ?_⟩
  try dsimp only
  repeat' (first
    | with_reducible assumption | with_reducible apply onMsg_keeps | with_reducible apply endWindow_keeps | intro _)

theorem execPowerWindowTimeout_keeps {z : State} (cav : Nat) (s : State) (hz : Keeps z s) :
    ∃ t, execPowerWindowTimeout cav s = .next t ∧ Keeps z t := by
  unfold execPowerWindowTimeout
  refine ⟨_, rfl, ?_⟩
  try dsimp only
  repeat' (first
    | with_reducible assumption | with_reducible apply endWindow_keeps | intro _ | split)

theorem execDroopTrip_keeps {z : State} (gal : Nat) (s : State) (hz : Keeps z s) :
    ∃ t, execDroopTrip gal s = .next t ∧ Keeps z t := by
  unfold execDroopTrip
  refine ⟨_, rfl, ?_⟩
  try dsimp only
  repeat' (first
    | with_reducible assumption | with_reducible apply updCav_keeps | with_reducible apply updGal_keeps | intro _
    | split)

theorem execDroopDetectorClear_keeps {z : State} (gal : Nat) (s : State) (hz : Keeps z s) :
    ∃ t, execDroopDetectorClear gal s = .next t ∧ Keeps z t := by
  unfold execDroopDetectorClear
  refine ⟨_, rfl, ?_⟩
  try dsimp only
  repeat' (first
    | with_reducible assumption | with_reducible apply updGal_keeps | with_reducible apply updCav_keeps | intro _
    | split)

theorem execStretchEnd_keeps {z : State} (cav : Nat) (s : State) (hz : Keeps z s) :
    ∃ t, execStretchEnd cav s = .next t ∧ Keeps z t := by
  unfold execStretchEnd
  refine ⟨_, rfl, ?_⟩
  try dsimp only
  repeat' (first
    | with_reducible assumption | with_reducible apply updCav_keeps | intro _ | split)

theorem execThermalCalibration_keeps {z : State} (_gal : Nat) (s : State) (hz : Keeps z s) :
    ∃ t, execThermalCalibration _gal s = .next t ∧ Keeps z t := by
  unfold execThermalCalibration
  refine ⟨_, rfl, ?_⟩
  try dsimp only
  repeat' (first
    | with_reducible assumption)

theorem execTemperatureSample_keeps {z : State} (gal temp : Nat) (s : State) (hz : Keeps z s) :
    ∃ t, execTemperatureSample gal temp s = .next t ∧ Keeps z t := by
  unfold execTemperatureSample
  refine ⟨_, rfl, ?_⟩
  try dsimp only
  repeat' (first
    | with_reducible assumption | with_reducible apply updGal_keeps)

theorem execResetEffect_keeps {z : State} (s : State) (hz : Keeps z s) :
    ∃ t, execResetEffect s = .next t ∧ Keeps z t := by
  unfold execResetEffect
  refine ⟨_, rfl, ?_⟩
  try dsimp only
  repeat' (first
    | with_reducible assumption | with_reducible apply resetDomain_keeps | intro _ | split
    | (with_reducible refine Keeps.lit ?_ rfl rfl rfl))

theorem execResetExit_keeps {z : State} (s : State) (hz : Keeps z s) :
    ∃ t, execResetExit s = .next t ∧ Keeps z t := by
  unfold execResetExit
  refine ⟨_, rfl, ?_⟩
  try dsimp only
  repeat' (first
    | with_reducible assumption | intro _ | split | (with_reducible refine Keeps.lit ?_ rfl rfl rfl))

theorem execDieResetSelfRelease_keeps {z : State} (s : State) (hz : Keeps z s) :
    ∃ t, execDieResetSelfRelease s = .next t ∧ Keeps z t := by
  unfold execDieResetSelfRelease
  refine ⟨_, rfl, ?_⟩
  try dsimp only
  repeat' (first
    | with_reducible assumption | intro _ | split | (with_reducible refine Keeps.lit ?_ rfl rfl rfl))

theorem execScrubPool_keeps {z : State} (phys row : Nat) (s : State) (hz : Keeps z s) :
    ∃ t, execScrubPool phys row s = .next t ∧ Keeps z t := by
  unfold execScrubPool
  refine ⟨_, rfl, ?_⟩
  try dsimp only
  repeat' (first
    | with_reducible assumption | with_reducible apply logPhys_keeps | with_reducible apply setCore_keeps | intro _
    | split)

theorem execScrubPoolWriteback_keeps {z : State} (phys row : Nat) (s : State) (hz : Keeps z s) :
    ∃ t, execScrubPoolWriteback phys row s = .next t ∧ Keeps z t := by
  unfold execScrubPoolWriteback
  refine ⟨_, rfl, ?_⟩
  try dsimp only
  repeat' (first
    | with_reducible assumption | with_reducible apply setCore_keeps | intro _ | split)

theorem execScrubFlowstone_keeps {z : State} (phys trow : Nat) (s : State) (hz : Keeps z s) :
    ∃ t, execScrubFlowstone phys trow s = .next t ∧ Keeps z t := by
  unfold execScrubFlowstone
  refine ⟨_, rfl, ?_⟩
  try dsimp only
  repeat' (first
    | with_reducible assumption | with_reducible apply scrubTrow_keeps | intro _ | split)

theorem execScrubFlowstoneWriteback_keeps {z : State} (phys trow : Nat) (s : State) (hz : Keeps z s) :
    ∃ t, execScrubFlowstoneWriteback phys trow s = .next t ∧ Keeps z t := by
  unfold execScrubFlowstoneWriteback
  refine ⟨_, rfl, ?_⟩
  try dsimp only
  repeat' (first
    | with_reducible assumption | with_reducible apply setCore_keeps | intro _ | split)

theorem execScrubSync_keeps {z : State} (phys word : Nat) (s : State) (hz : Keeps z s) :
    ∃ t, execScrubSync phys word s = .next t ∧ Keeps z t := by
  unfold execScrubSync
  refine ⟨_, rfl, ?_⟩
  try dsimp only
  repeat' (first
    | with_reducible assumption | with_reducible apply setCore_keeps | with_reducible apply logPhys_keeps | intro _
    | split)

theorem execScrubConfig_keeps {z : State} (cell : Nat) (s : State) (hz : Keeps z s) :
    ∃ t, execScrubConfig cell s = .next t ∧ Keeps z t := by
  unfold execScrubConfig
  refine ⟨_, rfl, ?_⟩
  try dsimp only
  repeat' (first
    | with_reducible assumption | with_reducible apply noteScrub_keeps | with_reducible apply writeLive_keeps
    | with_reducible apply writeShadow_keeps | intro _ | split | (with_reducible refine Keeps.lit ?_ rfl rfl rfl))

theorem execAttestComplete_keeps {z : State} (s : State) (hz : Keeps z s) :
    ∃ t, execAttestComplete s = .next t ∧ Keeps z t := by
  unfold execAttestComplete
  refine ⟨_, rfl, ?_⟩
  try dsimp only
  repeat' (first
    | with_reducible assumption | intro _ | split | (with_reducible refine Keeps.lit ?_ rfl rfl rfl))

theorem execBistComplete_keeps {z : State} (gal failUnit : Nat) (repair : Option (Nat × Nat)) (s : State)
    (hz : Keeps z s) :
    ∃ t, execBistComplete gal failUnit s repair = .next t ∧ Keeps z t := by
  unfold execBistComplete
  refine ⟨_, rfl, ?_⟩
  try dsimp only
  repeat' (first
    | with_reducible assumption | with_reducible apply updCore_keeps | with_reducible apply updGal_keeps | intro _
    | split)

theorem execIdcode_keeps {z : State} (s : State) (hz : Keeps z s) :
    ∃ t, execIdcode s = .next t ∧ Keeps z t := by
  unfold execIdcode
  refine ⟨_, rfl, ?_⟩
  try dsimp only
  repeat' (first
    | with_reducible assumption | with_reducible apply tapLoad_keeps)

theorem execSamplePreload_keeps {z : State} (load up : List Nat) (s : State) (hz : Keeps z s) :
    ∃ t, execSamplePreload load up s = .next t ∧ Keeps z t := by
  unfold execSamplePreload
  refine ⟨_, rfl, ?_⟩
  try dsimp only
  repeat' (first
    | with_reducible assumption | with_reducible apply tapLoad_keeps | intro _ | split
    | (with_reducible refine Keeps.lit ?_ rfl rfl rfl))

theorem execExtest_keeps {z : State} (up : List Nat) (s : State) (hz : Keeps z s) :
    ∃ t, execExtest up s = .next t ∧ Keeps z t := by
  unfold execExtest
  refine ⟨_, rfl, ?_⟩
  try dsimp only
  repeat' (first
    | with_reducible assumption | with_reducible apply intrusive_keeps | with_reducible apply tapLoad_keeps | intro _)

theorem execWrap1500_keeps {z : State} (s : State) (hz : Keeps z s) :
    ∃ t, execWrap1500 s = .next t ∧ Keeps z t := by
  unfold execWrap1500
  refine ⟨_, rfl, ?_⟩
  try dsimp only
  repeat' (first
    | with_reducible assumption | with_reducible apply intrusive_keeps | with_reducible apply tapLoad_keeps | intro _
    | (with_reducible refine Keeps.lit ?_ rfl rfl rfl))

theorem execGsel_keeps {z : State} (gal : Nat) (s : State) (hz : Keeps z s) :
    ∃ t, execGsel gal s = .next t ∧ Keeps z t := by
  unfold execGsel
  refine ⟨_, rfl, ?_⟩
  try dsimp only
  repeat' (first
    | with_reducible assumption | with_reducible apply tapLoad_keeps | intro _ | split
    | (with_reducible refine Keeps.lit ?_ rfl rfl rfl))

theorem execBypass_keeps {z : State} (code : Nat) (s : State) (hz : Keeps z s) :
    ∃ t, execBypass code s = .next t ∧ Keeps z t := by
  unfold execBypass
  refine ⟨_, rfl, ?_⟩
  try dsimp only
  repeat' (first
    | with_reducible assumption | with_reducible apply tapLoad_keeps)

theorem execLinkAutoTrain_keeps {z : State} (b : Nat) (obs : TrainObs) (s : State) (hz : Keeps z s) :
    ∃ t, execLinkAutoTrain b obs s = .next t ∧ Keeps z t := by
  unfold execLinkAutoTrain
  refine ⟨_, rfl, ?_⟩
  try dsimp only
  repeat' (first
    | with_reducible assumption | with_reducible apply finishTrain_keeps | with_reducible apply startTrain_keeps
    | intro _ | split)

theorem execTrainingStepTimeout_keeps {z : State} (b : Nat) (obs : TrainObs) (s : State) (hz : Keeps z s) :
    ∃ t, execTrainingStepTimeout b s obs = .next t ∧ Keeps z t := by
  unfold execTrainingStepTimeout
  refine ⟨_, rfl, ?_⟩
  try dsimp only
  repeat' (first
    | with_reducible assumption | with_reducible apply finishTrain_keeps | with_reducible apply finishRetrain_keeps
    | intro _ | split)

theorem execLaneRecalibrate_keeps {z : State} (b : Nat) (s : State) (hz : Keeps z s) :
    ∃ t, execLaneRecalibrate b s = .next t ∧ Keeps z t := by
  unfold execLaneRecalibrate
  refine ⟨_, rfl, ?_⟩
  try dsimp only
  repeat' (first
    | with_reducible assumption | with_reducible apply updBun_keeps | intro _ | split)

theorem execMarginalLane_keeps {z : State} (b lane more : Nat) (s : State) (hz : Keeps z s) :
    ∃ t, execMarginalLane b lane more s = .next t ∧ Keeps z t := by
  unfold execMarginalLane
  refine ⟨_, rfl, ?_⟩
  try dsimp only
  repeat' (first
    | with_reducible assumption | with_reducible apply logBundle_keeps | with_reducible apply updBun_keeps | intro _
    | split)

theorem execLinkFlit_keeps {z : State} (b : Nat) (flit : BitVec 512) (errs : List (Nat × Nat)) (retrain : Bool)
    (s : State) (hz : Keeps z s) :
    ∃ t, execLinkFlit b flit s errs retrain = .next t ∧ Keeps z t := by
  unfold execLinkFlit
  refine ⟨_, rfl, ?_⟩
  try dsimp only
  repeat' (first
    | with_reducible assumption | with_reducible apply loseHeader_keeps | with_reducible apply updBun_keeps
    | with_reducible apply loseDie_keeps | with_reducible apply startRetrain_keeps | intro _ | split)

theorem execLinkDown_keeps {z : State} (b : Nat) (clkLost : Bool) (s : State) (hz : Keeps z s) :
    ∃ t, execLinkDown b clkLost s = .next t ∧ Keeps z t := by
  unfold execLinkDown
  refine ⟨_, rfl, ?_⟩
  try dsimp only
  repeat' (first
    | with_reducible assumption | with_reducible apply goDown_keeps | intro _ | split)

theorem execUncorrectableHeaderFlit_keeps {z : State} (b : Nat) (errs : List (Nat × Nat)) (s : State)
    (hz : Keeps z s) :
    ∃ t, execUncorrectableHeaderFlit b s errs = .next t ∧ Keeps z t := by
  unfold execUncorrectableHeaderFlit
  refine ⟨_, rfl, ?_⟩
  try dsimp only
  repeat' (first
    | with_reducible assumption | with_reducible apply loseHeader_keeps | intro _ | split)

theorem execLinkState_keeps {z : State} (s : State) (hz : Keeps z s) :
    ∃ t, execLinkState s = .next t ∧ Keeps z t := by
  unfold execLinkState
  refine ⟨_, rfl, ?_⟩
  try dsimp only
  repeat' (first
    | with_reducible assumption | with_reducible apply sendMsg_keeps)

theorem execTelemetry_keeps {z : State} (bundle : Nat) (s : State) (hz : Keeps z s) :
    ∃ t, execTelemetry bundle s = .next t ∧ Keeps z t := by
  unfold execTelemetry
  refine ⟨_, rfl, ?_⟩
  try dsimp only
  repeat' (first
    | with_reducible assumption | with_reducible apply drawFree_keeps | with_reducible apply sendMsg_keeps
    | (with_reducible refine Keeps.of_pair (by with_reducible assumption) ?_) | intro _ | split)

theorem execUnknownMessage_keeps {z : State} (bundle code : Nat) (s : State) (hz : Keeps z s) :
    ∃ t, execUnknownMessage bundle code s = .next t ∧ Keeps z t := by
  unfold execUnknownMessage
  refine ⟨_, rfl, ?_⟩
  try dsimp only
  repeat' (first
    | with_reducible assumption | with_reducible apply logChip_keeps | intro _ | split)

theorem execLoopTestComplete_keeps {z : State} (b : Nat) (bad : List Nat) (s : State) (hz : Keeps z s) :
    ∃ t, execLoopTestComplete b bad s = .next t ∧ Keeps z t := by
  unfold execLoopTestComplete
  refine ⟨_, rfl, ?_⟩
  try dsimp only
  repeat' (first
    | with_reducible assumption | with_reducible apply updBun_keeps | with_reducible apply Keeps.foldl
    | (with_reducible refine Keeps.of_pair (by with_reducible assumption) ?_) | intro _ | split)

theorem execCommandRowFetch_keeps {z : State} (core q : Nat) (s : State) (hz : Keeps z s) :
    ∃ t, execCommandRowFetch core q s = .next t ∧ Keeps z t := by
  unfold execCommandRowFetch
  refine ⟨_, rfl, ?_⟩
  try dsimp only
  repeat' (first
    | with_reducible assumption | with_reducible apply withLive_keeps | with_reducible apply updCore_keeps
    | with_reducible apply usePoolRow_keeps | with_reducible apply updQueue_keeps
    | with_reducible apply stopBadRow_keeps | intro _ | split)

theorem execNop_keeps {z : State} (core q : Nat) (s : State) (hz : Keeps z s) :
    ∃ t, execNop core q s = .next t ∧ Keeps z t := by
  unfold execNop
  refine ⟨_, rfl, ?_⟩
  try dsimp only
  repeat' (first
    | with_reducible assumption | with_reducible apply withLive_keeps | with_reducible apply leaveHead_keeps
    | with_reducible apply onHead_keeps | intro _ | split)

theorem execVddInLow_keeps {z : State} (s : State) (hz : Keeps z s) :
    ∃ t, execVddInLow s = .next t ∧ Keeps z t := by
  unfold execVddInLow
  refine ⟨_, rfl, ?_⟩
  try dsimp only
  repeat' (first
    | with_reducible assumption | with_reducible apply resetDomain_keeps | intro _ | split
    | (with_reducible refine Keeps.lit ?_ rfl rfl rfl))

theorem execVddSumpFault_keeps {z : State} (s : State) (hz : Keeps z s) :
    ∃ t, execVddSumpFault s = .next t ∧ Keeps z t := by
  unfold execVddSumpFault
  refine ⟨_, rfl, ?_⟩
  try dsimp only
  repeat' (first
    | with_reducible assumption | with_reducible apply goDown_keeps | with_reducible apply Keeps.foldl
    | (with_reducible refine Keeps.of_pair (by with_reducible assumption) ?_) | intro _ | split)

theorem execEchoStart_keeps {z : State} (s : State) (hz : Keeps z s) :
    ∃ t, execEchoStart s = .next t ∧ Keeps z t := by
  unfold execEchoStart
  refine ⟨_, rfl, ?_⟩
  try dsimp only
  repeat' (first
    | with_reducible assumption | with_reducible apply runBoot_keeps | with_reducible apply startEcho_keeps)

theorem execEchoReload_keeps {z : State} (s : State) (hz : Keeps z s) :
    ∃ t, execEchoReload s = .next t ∧ Keeps z t := by
  unfold execEchoReload
  refine ⟨_, rfl, ?_⟩
  try dsimp only
  repeat' (first
    | with_reducible assumption | with_reducible apply runBoot_keeps | with_reducible apply startEcho_keeps)

theorem execVerify_keeps {z : State} (s : State) (hz : Keeps z s) :
    ∃ t, execVerify s = .next t ∧ Keeps z t := by
  unfold execVerify
  refine ⟨_, rfl, ?_⟩
  try dsimp only
  repeat' (first
    | with_reducible assumption | with_reducible apply runBoot_keeps | with_reducible apply verifyCmd_keeps)

theorem execApply_keeps {z : State} (s : State) (hz : Keeps z s) :
    ∃ t, execApply s = .next t ∧ Keeps z t := by
  unfold execApply
  refine ⟨_, rfl, ?_⟩
  try dsimp only
  repeat' (first
    | with_reducible assumption | with_reducible apply runBoot_keeps | with_reducible apply applyCmd_keeps)

theorem execClock_keeps {z : State} (s : State) (hz : Keeps z s) :
    ∃ t, execClock s = .next t ∧ Keeps z t := by
  unfold execClock
  refine ⟨_, rfl, ?_⟩
  try dsimp only
  repeat' (first
    | with_reducible assumption | with_reducible apply runBoot_keeps | with_reducible apply clockCmd_keeps)

theorem execPower_keeps {z : State} (shorted : List Nat) (s : State) (hz : Keeps z s) :
    ∃ t, execPower shorted s = .next t ∧ Keeps z t := by
  unfold execPower
  refine ⟨_, rfl, ?_⟩
  try dsimp only
  repeat' (first
    | with_reducible assumption | with_reducible apply runBoot_keeps | with_reducible apply powerCmd_keeps)

theorem execTrain_keeps {z : State} (obs : List (Nat × TrainObs)) (s : State) (hz : Keeps z s) :
    ∃ t, execTrain obs s = .next t ∧ Keeps z t := by
  unfold execTrain
  refine ⟨_, rfl, ?_⟩
  try dsimp only
  repeat' (first
    | with_reducible assumption | with_reducible apply runBoot_keeps | with_reducible apply trainCmd_keeps)

theorem execTopology_keeps {z : State} (obs : List VeinObs) (s : State) (hz : Keeps z s) :
    ∃ t, execTopology obs s = .next t ∧ Keeps z t := by
  unfold execTopology
  refine ⟨_, rfl, ?_⟩
  try dsimp only
  repeat' (first
    | with_reducible assumption | with_reducible apply runBoot_keeps | with_reducible apply topologyCmd_keeps)

theorem execReady_keeps {z : State} (s : State) (hz : Keeps z s) :
    ∃ t, execReady s = .next t ∧ Keeps z t := by
  unfold execReady
  refine ⟨_, rfl, ?_⟩
  try dsimp only
  repeat' (first
    | with_reducible assumption | with_reducible apply runBoot_keeps | with_reducible apply readyCmd_keeps)

theorem execStagingClear_keeps {z : State} (s : State) (hz : Keeps z s) :
    ∃ t, execStagingClear s = .next t ∧ Keeps z t := by
  unfold execStagingClear
  refine ⟨_, rfl, ?_⟩
  try dsimp only
  repeat' (first
    | with_reducible assumption | with_reducible apply runBoot_keeps | with_reducible apply clearCmd_keeps)

theorem execFirstDawn_keeps {z : State} (s : State) (hz : Keeps z s) :
    ∃ t, execFirstDawn s = .next t ∧ Keeps z t := by
  unfold execFirstDawn
  refine ⟨_, rfl, ?_⟩
  try dsimp only
  repeat' (first
    | with_reducible assumption | with_reducible apply firstDawn_keeps | with_reducible apply noteMarkLost_keeps
    | intro _ | split)

theorem execDuskMark_keeps {z : State} (bundle : Nat) (s : State) (hz : Keeps z s) :
    ∃ t, execDuskMark s bundle = .next t ∧ Keeps z t := by
  unfold execDuskMark
  refine ⟨_, rfl, ?_⟩
  try dsimp only
  repeat' (first
    | with_reducible assumption | with_reducible apply onMsg_keeps | with_reducible apply firstDawn_keeps
    | with_reducible apply dusk_keeps | with_reducible apply logChip_keeps | intro _ | split
    | (with_reducible refine Keeps.lit ?_ rfl rfl rfl))

theorem execLocalDusk_keeps {z : State} (s : State) (hz : Keeps z s) :
    ∃ t, execLocalDusk s = .next t ∧ Keeps z t := by
  unfold execLocalDusk
  refine ⟨_, rfl, ?_⟩
  try dsimp only
  repeat' (first
    | with_reducible assumption | with_reducible apply dusk_keeps | with_reducible apply noteMarkLost_keeps | intro _
    | split)

theorem execDaybreakEnd_keeps {z : State} (s : State) (hz : Keeps z s) :
    ∃ t, execDaybreakEnd s = .next t ∧ Keeps z t := by
  unfold execDaybreakEnd
  refine ⟨_, rfl, ?_⟩
  try dsimp only
  repeat' (first
    | with_reducible assumption | intro _ | split | (with_reducible refine Keeps.lit ?_ rfl rfl rfl))

theorem execTwilightBegin_keeps {z : State} (s : State) (hz : Keeps z s) :
    ∃ t, execTwilightBegin s = .next t ∧ Keeps z t := by
  unfold execTwilightBegin
  refine ⟨_, rfl, ?_⟩
  try dsimp only
  repeat' (first
    | with_reducible assumption | intro _ | split | (with_reducible refine Keeps.lit ?_ rfl rfl rfl))

theorem execRegReq_keeps {z : State} (m : RegReq) (s : State) (hz : Keeps z s) :
    ∃ t, execRegReq m s = .next t ∧ Keeps z t := by
  unfold execRegReq
  refine ⟨_, rfl, ?_⟩
  try dsimp only
  repeat' (first
    | with_reducible assumption | with_reducible apply onMsg_keeps | with_reducible apply respondReg_keeps | intro _
    | split | (with_reducible refine Keeps.lit ?_ rfl rfl rfl))

theorem execRegAccess_keeps {z : State} (policy : Bool) (s : State) (hz : Keeps z s) :
    ∃ t, execRegAccess policy s = .next t ∧ Keeps z t := by
  unfold execRegAccess
  refine ⟨_, rfl, ?_⟩
  try dsimp only
  repeat' (first
    | with_reducible assumption | with_reducible apply hostWrite_keeps | with_reducible apply respondReg_keeps
    | with_reducible apply hostRead_keeps | (with_reducible refine Keeps.of_pair (by with_reducible assumption) ?_)
    | (with_reducible refine Keeps.of_triple (by with_reducible assumption) ?_) | intro _ | split
    | (with_reducible refine Keeps.lit ?_ rfl rfl rfl))

theorem execApertureWrite_keeps {z : State} (off : Nat) (v : Word) (s : State) (hz : Keeps z s) :
    ∃ t, execApertureWrite off v s = .next t ∧ Keeps z t := by
  unfold execApertureWrite
  refine ⟨_, rfl, ?_⟩
  try dsimp only
  repeat' (first
    | with_reducible assumption | with_reducible apply regRow_keeps)

theorem execReload_keeps {z : State} (v : Word) (s : State) (hz : Keeps z s) :
    ∃ t, execReload v s = .next t ∧ Keeps z t := by
  unfold execReload
  refine ⟨_, rfl, ?_⟩
  try dsimp only
  repeat' (first
    | with_reducible assumption | with_reducible apply regRow_keeps)

theorem execReloadCancel_keeps {z : State} (v : Word) (s : State) (hz : Keeps z s) :
    ∃ t, execReloadCancel v s = .next t ∧ Keeps z t := by
  unfold execReloadCancel
  refine ⟨_, rfl, ?_⟩
  try dsimp only
  repeat' (first
    | with_reducible assumption | with_reducible apply regRow_keeps)

theorem execResetAssert_keeps {z : State} (v : Word) (s : State) (hz : Keeps z s) :
    ∃ t, execResetAssert v s = .next t ∧ Keeps z t := by
  unfold execResetAssert
  refine ⟨_, rfl, ?_⟩
  try dsimp only
  repeat' (first
    | with_reducible assumption | with_reducible apply regRow_keeps)

theorem execResetRelease_keeps {z : State} (v : Word) (s : State) (hz : Keeps z s) :
    ∃ t, execResetRelease v s = .next t ∧ Keeps z t := by
  unfold execResetRelease
  refine ⟨_, rfl, ?_⟩
  try dsimp only
  repeat' (first
    | with_reducible assumption | with_reducible apply regRow_keeps)

theorem execPeerDown_keeps {z : State} (v : Word) (s : State) (hz : Keeps z s) :
    ∃ t, execPeerDown v s = .next t ∧ Keeps z t := by
  unfold execPeerDown
  refine ⟨_, rfl, ?_⟩
  try dsimp only
  repeat' (first
    | with_reducible assumption | with_reducible apply regRow_keeps)

theorem execDayRunStart_keeps {z : State} (v : Word) (s : State) (hz : Keeps z s) :
    ∃ t, execDayRunStart v s = .next t ∧ Keeps z t := by
  unfold execDayRunStart
  refine ⟨_, rfl, ?_⟩
  try dsimp only
  repeat' (first
    | with_reducible assumption | with_reducible apply regRow_keeps)

theorem execDayRunStop_keeps {z : State} (v : Word) (s : State) (hz : Keeps z s) :
    ∃ t, execDayRunStop v s = .next t ∧ Keeps z t := by
  unfold execDayRunStop
  refine ⟨_, rfl, ?_⟩
  try dsimp only
  repeat' (first
    | with_reducible assumption | with_reducible apply regRow_keeps)

theorem execQueueResume_keeps {z : State} (core q : Nat) (v : Word) (s : State) (hz : Keeps z s) :
    ∃ t, execQueueResume core q v s = .next t ∧ Keeps z t := by
  unfold execQueueResume
  refine ⟨_, rfl, ?_⟩
  try dsimp only
  repeat' (first
    | with_reducible assumption | with_reducible apply regRow_keeps)

theorem execCheckModeWrite_keeps {z : State} (core : Nat) (v : Word) (s : State) (hz : Keeps z s) :
    ∃ t, execCheckModeWrite core v s = .next t ∧ Keeps z t := by
  unfold execCheckModeWrite
  refine ⟨_, rfl, ?_⟩
  try dsimp only
  repeat' (first
    | with_reducible assumption | with_reducible apply regRow_keeps)

theorem execRingEnable_keeps {z : State} (core n : Nat) (v : Word) (s : State) (hz : Keeps z s) :
    ∃ t, execRingEnable core n v s = .next t ∧ Keeps z t := by
  unfold execRingEnable
  refine ⟨_, rfl, ?_⟩
  try dsimp only
  repeat' (first
    | with_reducible assumption | with_reducible apply regRow_keeps)

theorem execRingDisable_keeps {z : State} (core n : Nat) (v : Word) (s : State) (hz : Keeps z s) :
    ∃ t, execRingDisable core n v s = .next t ∧ Keeps z t := by
  unfold execRingDisable
  refine ⟨_, rfl, ?_⟩
  try dsimp only
  repeat' (first
    | with_reducible assumption | with_reducible apply regRow_keeps)

theorem execPoolBankOffRequest_keeps {z : State} (core : Nat) (v : Word) (s : State) (hz : Keeps z s) :
    ∃ t, execPoolBankOffRequest core v s = .next t ∧ Keeps z t := by
  unfold execPoolBankOffRequest
  refine ⟨_, rfl, ?_⟩
  try dsimp only
  repeat' (first
    | with_reducible assumption | with_reducible apply regRow_keeps)

theorem execPoolBankOffCancel_keeps {z : State} (core : Nat) (v : Word) (s : State) (hz : Keeps z s) :
    ∃ t, execPoolBankOffCancel core v s = .next t ∧ Keeps z t := by
  unfold execPoolBankOffCancel
  refine ⟨_, rfl, ?_⟩
  try dsimp only
  repeat' (first
    | with_reducible assumption | with_reducible apply regRow_keeps)

theorem execPoolBankPowerUp_keeps {z : State} (core : Nat) (v : Word) (s : State) (hz : Keeps z s) :
    ∃ t, execPoolBankPowerUp core v s = .next t ∧ Keeps z t := by
  unfold execPoolBankPowerUp
  refine ⟨_, rfl, ?_⟩
  try dsimp only
  repeat' (first
    | with_reducible assumption | with_reducible apply regRow_keeps)

theorem execWindowOpen_keeps {z : State} (core w : Nat) (v : Word) (s : State) (hz : Keeps z s) :
    ∃ t, execWindowOpen core w v s = .next t ∧ Keeps z t := by
  unfold execWindowOpen
  refine ⟨_, rfl, ?_⟩
  try dsimp only
  repeat' (first
    | with_reducible assumption | with_reducible apply regRow_keeps)

theorem execWindowClose_keeps {z : State} (core w : Nat) (v : Word) (s : State) (hz : Keeps z s) :
    ∃ t, execWindowClose core w v s = .next t ∧ Keeps z t := by
  unfold execWindowClose
  refine ⟨_, rfl, ?_⟩
  try dsimp only
  repeat' (first
    | with_reducible assumption | with_reducible apply regRow_keeps)

theorem execCounterEnable_keeps {z : State} (core : Nat) (v : Word) (s : State) (hz : Keeps z s) :
    ∃ t, execCounterEnable core v s = .next t ∧ Keeps z t := by
  unfold execCounterEnable
  refine ⟨_, rfl, ?_⟩
  try dsimp only
  repeat' (first
    | with_reducible assumption | with_reducible apply regRow_keeps)

theorem execCounterDisable_keeps {z : State} (core : Nat) (v : Word) (s : State) (hz : Keeps z s) :
    ∃ t, execCounterDisable core v s = .next t ∧ Keeps z t := by
  unfold execCounterDisable
  refine ⟨_, rfl, ?_⟩
  try dsimp only
  repeat' (first
    | with_reducible assumption | with_reducible apply regRow_keeps)

theorem execSlotEnable_keeps {z : State} (slot : Nat) (v : Word) (s : State) (hz : Keeps z s) :
    ∃ t, execSlotEnable slot v s = .next t ∧ Keeps z t := by
  unfold execSlotEnable
  refine ⟨_, rfl, ?_⟩
  try dsimp only
  repeat' (first
    | with_reducible assumption | with_reducible apply regRow_keeps)

theorem execSlotDisable_keeps {z : State} (slot : Nat) (v : Word) (s : State) (hz : Keeps z s) :
    ∃ t, execSlotDisable slot v s = .next t ∧ Keeps z t := by
  unfold execSlotDisable
  refine ⟨_, rfl, ?_⟩
  try dsimp only
  repeat' (first
    | with_reducible assumption | with_reducible apply regRow_keeps)

theorem execSlotRearm_keeps {z : State} (slot : Nat) (v : Word) (s : State) (hz : Keeps z s) :
    ∃ t, execSlotRearm slot v s = .next t ∧ Keeps z t := by
  unfold execSlotRearm
  refine ⟨_, rfl, ?_⟩
  try dsimp only
  repeat' (first
    | with_reducible assumption | with_reducible apply regRow_keeps)

theorem execSetFlag_keeps {z : State} (core requester : Nat) (v : Word) (s : State) (hz : Keeps z s) :
    ∃ t, execSetFlag core requester v s = .next t ∧ Keeps z t := by
  unfold execSetFlag
  refine ⟨_, rfl, ?_⟩
  try dsimp only
  repeat' (first
    | with_reducible assumption | with_reducible apply handRow_keeps)

theorem execClearFlag_keeps {z : State} (core requester : Nat) (v : Word) (s : State) (hz : Keeps z s) :
    ∃ t, execClearFlag core requester v s = .next t ∧ Keeps z t := by
  unfold execClearFlag
  refine ⟨_, rfl, ?_⟩
  try dsimp only
  repeat' (first
    | with_reducible assumption | with_reducible apply handRow_keeps)

theorem execCntWrite_keeps {z : State} (core requester : Nat) (v : Word) (s : State) (hz : Keeps z s) :
    ∃ t, execCntWrite core requester v s = .next t ∧ Keeps z t := by
  unfold execCntWrite
  refine ⟨_, rfl, ?_⟩
  try dsimp only
  repeat' (first
    | with_reducible assumption | with_reducible apply handRow_keeps)

theorem execRingHead_keeps {z : State} (core requester : Nat) (v : Word) (s : State) (hz : Keeps z s) :
    ∃ t, execRingHead core requester v s = .next t ∧ Keeps z t := by
  unfold execRingHead
  refine ⟨_, rfl, ?_⟩
  try dsimp only
  repeat' (first
    | with_reducible assumption | with_reducible apply handRow_keeps)

theorem execRingTail_keeps {z : State} (core requester : Nat) (v : Word) (s : State) (hz : Keeps z s) :
    ∃ t, execRingTail core requester v s = .next t ∧ Keeps z t := by
  unfold execRingTail
  refine ⟨_, rfl, ?_⟩
  try dsimp only
  repeat' (first
    | with_reducible assumption | with_reducible apply handRow_keeps)

theorem execCreate_keeps {z : State} (core : Nat) (v : Word) (s : State) (hz : Keeps z s) :
    ∃ t, execCreate core v s = .next t ∧ Keeps z t := by
  unfold execCreate
  refine ⟨_, rfl, ?_⟩
  try dsimp only
  repeat' (first
    | with_reducible assumption | with_reducible apply ctxRow_keeps)

theorem execBind_keeps {z : State} (core : Nat) (v : Word) (s : State) (hz : Keeps z s) :
    ∃ t, execBind core v s = .next t ∧ Keeps z t := by
  unfold execBind
  refine ⟨_, rfl, ?_⟩
  try dsimp only
  repeat' (first
    | with_reducible assumption | with_reducible apply ctxRow_keeps)

theorem execUnbind_keeps {z : State} (core : Nat) (v : Word) (s : State) (hz : Keeps z s) :
    ∃ t, execUnbind core v s = .next t ∧ Keeps z t := by
  unfold execUnbind
  refine ⟨_, rfl, ?_⟩
  try dsimp only
  repeat' (first
    | with_reducible assumption | with_reducible apply ctxRow_keeps)

theorem execSave_keeps {z : State} (core : Nat) (v : Word) (s : State) (hz : Keeps z s) :
    ∃ t, execSave core v s = .next t ∧ Keeps z t := by
  unfold execSave
  refine ⟨_, rfl, ?_⟩
  try dsimp only
  repeat' (first
    | with_reducible assumption | with_reducible apply ctxRow_keeps)

theorem execRestore_keeps {z : State} (core : Nat) (v : Word) (s : State) (hz : Keeps z s) :
    ∃ t, execRestore core v s = .next t ∧ Keeps z t := by
  unfold execRestore
  refine ⟨_, rfl, ?_⟩
  try dsimp only
  repeat' (first
    | with_reducible assumption | with_reducible apply ctxRow_keeps)

theorem execDestroy_keeps {z : State} (core : Nat) (v : Word) (s : State) (hz : Keeps z s) :
    ∃ t, execDestroy core v s = .next t ∧ Keeps z t := by
  unfold execDestroy
  refine ⟨_, rfl, ?_⟩
  try dsimp only
  repeat' (first
    | with_reducible assumption | with_reducible apply ctxRow_keeps)

theorem execSettle_keeps {z : State} (core : Nat) (v : Word) (s : State) (hz : Keeps z s) :
    ∃ t, execSettle core v s = .next t ∧ Keeps z t := by
  unfold execSettle
  refine ⟨_, rfl, ?_⟩
  try dsimp only
  repeat' (first
    | with_reducible assumption | with_reducible apply ctxRow_keeps)

theorem execSpare_keeps {z : State} (cav : Nat) (v : Word) (s : State) (hz : Keeps z s) :
    ∃ t, execSpare cav v s = .next t ∧ Keeps z t := by
  unfold execSpare
  refine ⟨_, rfl, ?_⟩
  try dsimp only
  repeat' (first
    | with_reducible assumption | with_reducible apply capRow_keeps)

theorem execUnspare_keeps {z : State} (cav : Nat) (v : Word) (s : State) (hz : Keeps z s) :
    ∃ t, execUnspare cav v s = .next t ∧ Keeps z t := by
  unfold execUnspare
  refine ⟨_, rfl, ?_⟩
  try dsimp only
  repeat' (first
    | with_reducible assumption | with_reducible apply capRow_keeps)

theorem execOffline_keeps {z : State} (cav : Nat) (v : Word) (s : State) (hz : Keeps z s) :
    ∃ t, execOffline cav v s = .next t ∧ Keeps z t := by
  unfold execOffline
  refine ⟨_, rfl, ?_⟩
  try dsimp only
  repeat' (first
    | with_reducible assumption | with_reducible apply capRow_keeps)

theorem execOnline_keeps {z : State} (cav : Nat) (v : Word) (s : State) (hz : Keeps z s) :
    ∃ t, execOnline cav v s = .next t ∧ Keeps z t := by
  unfold execOnline
  refine ⟨_, rfl, ?_⟩
  try dsimp only
  repeat' (first
    | with_reducible assumption | with_reducible apply capRow_keeps)

theorem execCapacityCancel_keeps {z : State} (cav : Nat) (v : Word) (s : State) (hz : Keeps z s) :
    ∃ t, execCapacityCancel cav v s = .next t ∧ Keeps z t := by
  unfold execCapacityCancel
  refine ⟨_, rfl, ?_⟩
  try dsimp only
  repeat' (first
    | with_reducible assumption | with_reducible apply capRow_keeps)

theorem execBundleTrain_keeps {z : State} (b : Nat) (v : Word) (obs : TrainObs) (s : State) (hz : Keeps z s) :
    ∃ t, execBundleTrain b v obs s = .next t ∧ Keeps z t := by
  unfold execBundleTrain
  refine ⟨_, rfl, ?_⟩
  try dsimp only
  repeat' (first
    | with_reducible assumption | with_reducible apply regRow_keeps | with_reducible apply finishTrain_keeps | intro _
    | split)

theorem execRetrain_keeps {z : State} (b : Nat) (v : Word) (byBase : Bool) (obs : TrainObs) (s : State)
    (hz : Keeps z s) :
    ∃ t, execRetrain b v byBase obs s = .next t ∧ Keeps z t := by
  unfold execRetrain
  refine ⟨_, rfl, ?_⟩
  try dsimp only
  repeat' (first
    | with_reducible assumption | with_reducible apply finishRetrain_keeps | with_reducible apply startRetrain_keeps
    | with_reducible apply regRow_keeps | intro _ | split)

theorem execLoopEnable_keeps {z : State} (b : Nat) (v : Word) (s : State) (hz : Keeps z s) :
    ∃ t, execLoopEnable b v s = .next t ∧ Keeps z t := by
  unfold execLoopEnable
  refine ⟨_, rfl, ?_⟩
  try dsimp only
  repeat' (first
    | with_reducible assumption | with_reducible apply regRow_keeps)

theorem execLoopTestStart_keeps {z : State} (b : Nat) (v : Word) (obs : LinkObs) (s : State) (hz : Keeps z s) :
    ∃ t, execLoopTestStart b v obs s = .next t ∧ Keeps z t := by
  unfold execLoopTestStart
  refine ⟨_, rfl, ?_⟩
  try dsimp only
  repeat' (first
    | with_reducible assumption | with_reducible apply regRow_keeps | with_reducible apply updBun_keeps | intro _
    | split)

theorem execAttestReq_keeps {z : State} (s : State) (hz : Keeps z s) :
    ∃ t, execAttestReq s = .next t ∧ Keeps z t := by
  unfold execAttestReq
  refine ⟨_, rfl, ?_⟩
  try dsimp only
  repeat' (first
    | with_reducible assumption | with_reducible apply regRow_keeps)

theorem execBistStart_keeps {z : State} (gal : Nat) (v : Word) (s : State) (hz : Keeps z s) :
    ∃ t, execBistStart gal v s = .next t ∧ Keeps z t := by
  unfold execBistStart
  refine ⟨_, rfl, ?_⟩
  try dsimp only
  repeat' (first
    | with_reducible assumption | with_reducible apply regRow_keeps)

theorem execStandaloneSet_keeps {z : State} (v : Word) (s : State) (hz : Keeps z s) :
    ∃ t, execStandaloneSet v s = .next t ∧ Keeps z t := by
  unfold execStandaloneSet
  refine ⟨_, rfl, ?_⟩
  try dsimp only
  repeat' (first
    | with_reducible assumption | with_reducible apply regRow_keeps)

theorem execTapLock_keeps {z : State} (v : Word) (s : State) (hz : Keeps z s) :
    ∃ t, execTapLock v s = .next t ∧ Keeps z t := by
  unfold execTapLock
  refine ⟨_, rfl, ?_⟩
  try dsimp only
  repeat' (first
    | with_reducible assumption | with_reducible apply regRow_keeps)

theorem execLogHeadAdvance_keeps {z : State} (v : Word) (s : State) (hz : Keeps z s) :
    ∃ t, execLogHeadAdvance v s = .next t ∧ Keeps z t := by
  unfold execLogHeadAdvance
  refine ⟨_, rfl, ?_⟩
  try dsimp only
  repeat' (first
    | with_reducible assumption | with_reducible apply regRow_keeps)

theorem execLogClearLost_keeps {z : State} (s : State) (hz : Keeps z s) :
    ∃ t, execLogClearLost s = .next t ∧ Keeps z t := by
  unfold execLogClearLost
  refine ⟨_, rfl, ?_⟩
  try dsimp only
  repeat' (first
    | with_reducible assumption | with_reducible apply regRow_keeps)

theorem execSet_keeps {z : State} (core q : Nat) (s : State) (hz : Keeps z s) :
    ∃ t, execSet core q s = .next t ∧ Keeps z t := by
  unfold execSet
  refine ⟨_, rfl, ?_⟩
  try dsimp only
  repeat' (first
    | with_reducible assumption | with_reducible apply syncRow_keeps | with_reducible apply doSet_keeps | intro _)

theorem execClear_keeps {z : State} (core q : Nat) (s : State) (hz : Keeps z s) :
    ∃ t, execClear core q s = .next t ∧ Keeps z t := by
  unfold execClear
  refine ⟨_, rfl, ?_⟩
  try dsimp only
  repeat' (first
    | with_reducible assumption | with_reducible apply syncRow_keeps | with_reducible apply doClear_keeps | intro _)

theorem execWait_keeps {z : State} (core q : Nat) (s : State) (hz : Keeps z s) :
    ∃ t, execWait core q s = .next t ∧ Keeps z t := by
  unfold execWait
  refine ⟨_, rfl, ?_⟩
  try dsimp only
  repeat' (first
    | with_reducible assumption | with_reducible apply syncRow_keeps | with_reducible apply doWait_keeps | intro _)

theorem execCount_keeps {z : State} (core q : Nat) (s : State) (hz : Keeps z s) :
    ∃ t, execCount core q s = .next t ∧ Keeps z t := by
  unfold execCount
  refine ⟨_, rfl, ?_⟩
  try dsimp only
  repeat' (first
    | with_reducible assumption | with_reducible apply syncRow_keeps | with_reducible apply doCount_keeps | intro _)

theorem execWaitCnt_keeps {z : State} (core q : Nat) (s : State) (hz : Keeps z s) :
    ∃ t, execWaitCnt core q s = .next t ∧ Keeps z t := by
  unfold execWaitCnt
  refine ⟨_, rfl, ?_⟩
  try dsimp only
  repeat' (first
    | with_reducible assumption | with_reducible apply syncRow_keeps | with_reducible apply doWaitCnt_keeps | intro _)

theorem execArrive_keeps {z : State} (core q : Nat) (s : State) (hz : Keeps z s) :
    ∃ t, execArrive core q s = .next t ∧ Keeps z t := by
  unfold execArrive
  refine ⟨_, rfl, ?_⟩
  try dsimp only
  repeat' (first
    | with_reducible assumption | with_reducible apply syncRow_keeps | with_reducible apply doArrive_keeps | intro _)

theorem execWaitSlot_keeps {z : State} (core q : Nat) (s : State) (hz : Keeps z s) :
    ∃ t, execWaitSlot core q s = .next t ∧ Keeps z t := by
  unfold execWaitSlot
  refine ⟨_, rfl, ?_⟩
  try dsimp only
  repeat' (first
    | with_reducible assumption | with_reducible apply syncRow_keeps | with_reducible apply doWaitSlot_keeps | intro _)

theorem execFence_keeps {z : State} (core q : Nat) (s : State) (hz : Keeps z s) :
    ∃ t, execFence core q s = .next t ∧ Keeps z t := by
  unfold execFence
  refine ⟨_, rfl, ?_⟩
  try dsimp only
  repeat' (first
    | with_reducible assumption | with_reducible apply syncRow_keeps | with_reducible apply doFence_keeps | intro _)

theorem execFenceComplete_keeps {z : State} (core q : Nat) (s : State) (hz : Keeps z s) :
    ∃ t, execFenceComplete core q s = .next t ∧ Keeps z t := by
  unfold execFenceComplete
  refine ⟨_, rfl, ?_⟩
  try dsimp only
  repeat' (first
    | with_reducible assumption | with_reducible apply withLive_keeps | with_reducible apply completeFence_keeps
    | intro _)

theorem execWaitTimeout_keeps {z : State} (core q : Nat) (s : State) (hz : Keeps z s) :
    ∃ t, execWaitTimeout core q s = .next t ∧ Keeps z t := by
  unfold execWaitTimeout
  refine ⟨_, rfl, ?_⟩
  try dsimp only
  repeat' (first
    | with_reducible assumption | with_reducible apply withLive_keeps | with_reducible apply expireWait_keeps
    | intro _)

theorem execCntAdd_keeps {z : State} (port : Port) (pkt : Packet) (s : State) (hz : Keeps z s) :
    ∃ t, execCntAdd port pkt s = .next t ∧ Keeps z t := by
  unfold execCntAdd
  refine ⟨_, rfl, ?_⟩
  try dsimp only
  repeat' (first
    | with_reducible assumption | with_reducible apply counterPacket_keeps | intro _ | split)

theorem execCntMax_keeps {z : State} (port : Port) (pkt : Packet) (s : State) (hz : Keeps z s) :
    ∃ t, execCntMax port pkt s = .next t ∧ Keeps z t := by
  unfold execCntMax
  refine ⟨_, rfl, ?_⟩
  try dsimp only
  repeat' (first
    | with_reducible assumption | with_reducible apply counterPacket_keeps | intro _ | split)

theorem execArriveTimeout_keeps {z : State} (core ctx slot : Nat) (s : State) (hz : Keeps z s) :
    ∃ t, execArriveTimeout core ctx slot s = .next t ∧ Keeps z t := by
  unfold execArriveTimeout
  refine ⟨_, rfl, ?_⟩
  try dsimp only
  repeat' (first
    | with_reducible assumption | with_reducible apply withLive_keeps | with_reducible apply partTimeout_keeps
    | with_reducible apply settleSync_keeps | intro _)

theorem execChimneyRelease_keeps {z : State} (slot parity : Nat) (s : State) (hz : Keeps z s) :
    ∃ t, execChimneyRelease slot parity s = .next t ∧ Keeps z t := by
  unfold execChimneyRelease
  refine ⟨_, rfl, ?_⟩
  try dsimp only
  repeat' (first
    | with_reducible assumption | with_reducible apply updSlot_keeps | with_reducible apply sendArr_keeps
    | with_reducible apply releaseSlot_keeps | intro _ | split)

theorem execChimneyRel_keeps {z : State} (bundle slot : Nat) (m : RelMsg) (s : State) (hz : Keeps z s) :
    ∃ t, execChimneyRel slot m s bundle = .next t ∧ Keeps z t := by
  unfold execChimneyRel
  refine ⟨_, rfl, ?_⟩
  try dsimp only
  repeat' (first
    | with_reducible assumption | with_reducible apply onMsg_keeps | with_reducible apply logChip_keeps
    | with_reducible apply breakSlot_keeps | with_reducible apply releaseSlot_keeps | intro _ | split)

theorem execReleaseReachesCore_keeps {z : State} (core slot : Nat) (s : State) (hz : Keeps z s) :
    ∃ t, execReleaseReachesCore core slot s = .next t ∧ Keeps z t := by
  unfold execReleaseReachesCore
  refine ⟨_, rfl, ?_⟩
  try dsimp only
  repeat' (first
    | with_reducible assumption | with_reducible apply updCore_keeps | with_reducible apply outcomeReaches_keeps
    | with_reducible apply settleSync_keeps | intro _ | split | (with_reducible refine Keeps.lit ?_ rfl rfl rfl))

theorem execSlotBreak_keeps {z : State} (slot : Nat) (cause : BreakCause) (s : State) (hz : Keeps z s) :
    ∃ t, execSlotBreak slot cause s = .next t ∧ Keeps z t := by
  unfold execSlotBreak
  refine ⟨_, rfl, ?_⟩
  try dsimp only
  repeat' (first
    | with_reducible assumption | with_reducible apply breakSlot_keeps | with_reducible apply updSlot_keeps
    | with_reducible apply breakIfUnserved_keeps | intro _ | split)

end Sys2Proof.Machine
end

