-- ==== Sys2Proof/Laws/Log.lean ====
section
/-!
SUPPORT. Writing an error-log record leaves everything but the log as it was.
-/

namespace Sys2Proof.Machine

@[simp] theorem logRecord_pending (s : State) (cls status core gal cav : Nat) (rep : Bool) (body : List (Nat × Nat)) :
    (logRecord s cls status core gal cav rep body).pending = s.pending := rfl
@[simp] theorem logRecord_cores (s : State) (cls status core gal cav : Nat) (rep : Bool) (body : List (Nat × Nat)) :
    (logRecord s cls status core gal cav rep body).cores = s.cores := rfl
@[simp] theorem logRecord_gals (s : State) (cls status core gal cav : Nat) (rep : Bool) (body : List (Nat × Nat)) :
    (logRecord s cls status core gal cav rep body).gals = s.gals := rfl
@[simp] theorem logRecord_cavs (s : State) (cls status core gal cav : Nat) (rep : Bool) (body : List (Nat × Nat)) :
    (logRecord s cls status core gal cav rep body).cavs = s.cavs := rfl
@[simp] theorem logRecord_bundles (s : State) (cls status core gal cav : Nat) (rep : Bool) (body : List (Nat × Nat)) :
    (logRecord s cls status core gal cav rep body).bundles = s.bundles := rfl
@[simp] theorem logRecord_slots (s : State) (cls status core gal cav : Nat) (rep : Bool) (body : List (Nat × Nat)) :
    (logRecord s cls status core gal cav rep body).slots = s.slots := rfl
@[simp] theorem logRecord_news (s : State) (cls status core gal cav : Nat) (rep : Bool) (body : List (Nat × Nat)) :
    (logRecord s cls status core gal cav rep body).news = s.news := rfl
@[simp] theorem logRecord_net (s : State) (cls status core gal cav : Nat) (rep : Bool) (body : List (Nat × Nat)) :
    (logRecord s cls status core gal cav rep body).net = s.net := rfl
@[simp] theorem logRecord_day (s : State) (cls status core gal cav : Nat) (rep : Bool) (body : List (Nat × Nat)) :
    (logRecord s cls status core gal cav rep body).day = s.day := rfl
@[simp] theorem logRecord_held (s : State) (cls status core gal cav : Nat) (rep : Bool) (body : List (Nat × Nat)) :
    (logRecord s cls status core gal cav rep body).held = s.held := rfl
@[simp] theorem logRecord_boot (s : State) (cls status core gal cav : Nat) (rep : Bool) (body : List (Nat × Nat)) :
    (logRecord s cls status core gal cav rep body).boot = s.boot := rfl
@[simp] theorem logRecord_cfg (s : State) (cls status core gal cav : Nat) (rep : Bool) (body : List (Nat × Nat)) :
    (logRecord s cls status core gal cav rep body).cfg = s.cfg := rfl
@[simp] theorem logRecord_resets (s : State) (cls status core gal cav : Nat) (rep : Bool) (body : List (Nat × Nat)) :
    (logRecord s cls status core gal cav rep body).resets = s.resets := rfl
@[simp] theorem logRecord_attest (s : State) (cls status core gal cav : Nat) (rep : Bool) (body : List (Nat × Nat)) :
    (logRecord s cls status core gal cav rep body).attest = s.attest := rfl
@[simp] theorem logRecord_tap (s : State) (cls status core gal cav : Nat) (rep : Bool) (body : List (Nat × Nat)) :
    (logRecord s cls status core gal cav rep body).tap = s.tap := rfl
@[simp] theorem logRecord_pwr (s : State) (cls status core gal cav : Nat) (rep : Bool) (body : List (Nat × Nat)) :
    (logRecord s cls status core gal cav rep body).pwr = s.pwr := rfl
@[simp] theorem logRecord_echoQ (s : State) (cls status core gal cav : Nat) (rep : Bool) (body : List (Nat × Nat)) :
    (logRecord s cls status core gal cav rep body).echoQ = s.echoQ := rfl
@[simp] theorem logRecord_half (s : State) (cls status core gal cav : Nat) (rep : Bool) (body : List (Nat × Nat)) :
    (logRecord s cls status core gal cav rep body).half = s.half := rfl
@[simp] theorem logRecord_capture (s : State) (cls status core gal cav : Nat) (rep : Bool) (body : List (Nat × Nat)) :
    (logRecord s cls status core gal cav rep body).capture = s.capture := rfl
@[simp] theorem logRecord_fuse (s : State) (cls status core gal cav : Nat) (rep : Bool) (body : List (Nat × Nat)) :
    (logRecord s cls status core gal cav rep body).fuse = s.fuse := rfl
@[simp] theorem logRecord_out (s : State) (cls status core gal cav : Nat) (rep : Bool) (body : List (Nat × Nat)) :
    (logRecord s cls status core gal cav rep body).out = s.out := rfl
@[simp] theorem logRecord_answer (s : State) (cls status core gal cav : Nat) (rep : Bool) (body : List (Nat × Nat)) :
    (logRecord s cls status core gal cav rep body).answer = s.answer := rfl
@[simp] theorem logRecord_answerData (s : State) (cls status core gal cav : Nat) (rep : Bool) (body : List (Nat × Nat)) :
    (logRecord s cls status core gal cav rep body).answerData = s.answerData := rfl
@[simp] theorem logRecord_msgSeq (s : State) (cls status core gal cav : Nat) (rep : Bool) (body : List (Nat × Nat)) :
    (logRecord s cls status core gal cav rep body).msgSeq = s.msgSeq := rfl
@[simp] theorem logRecord_mNow (s : State) (cls status core gal cav : Nat) (rep : Bool) (body : List (Nat × Nat)) :
    (logRecord s cls status core gal cav rep body).mNow = s.mNow := rfl
@[simp] theorem logRecord_free (s : State) (cls status core gal cav : Nat) (rep : Bool) (body : List (Nat × Nat)) :
    (logRecord s cls status core gal cav rep body).free = s.free := rfl
@[simp] theorem coreAt_logRecord (s : State) (cls status core gal cav : Nat) (rep : Bool) (body : List (Nat × Nat)) (i : Nat) :
    coreAt (logRecord s cls status core gal cav rep body) i = coreAt s i := rfl
@[simp] theorem galAt_logRecord (s : State) (cls status core gal cav : Nat) (rep : Bool) (body : List (Nat × Nat)) (i : Nat) :
    galAt (logRecord s cls status core gal cav rep body) i = galAt s i := rfl
@[simp] theorem cavAt_logRecord (s : State) (cls status core gal cav : Nat) (rep : Bool) (body : List (Nat × Nat)) (i : Nat) :
    cavAt (logRecord s cls status core gal cav rep body) i = cavAt s i := rfl
@[simp] theorem bunAt_logRecord (s : State) (cls status core gal cav : Nat) (rep : Bool) (body : List (Nat × Nat)) (i : Nat) :
    bunAt (logRecord s cls status core gal cav rep body) i = bunAt s i := rfl
@[simp] theorem slotAt_logRecord (s : State) (cls status core gal cav : Nat) (rep : Bool) (body : List (Nat × Nat)) (i : Nat) :
    slotAt (logRecord s cls status core gal cav rep body) i = slotAt s i := rfl

@[simp] theorem logRecordAt_pending (s : State) (cls status core gal cav cyc : Nat) (rep : Bool) (body : List (Nat × Nat)) :
    (logRecordAt s cls status core gal cav cyc rep body).pending = s.pending := rfl
@[simp] theorem logRecordAt_cores (s : State) (cls status core gal cav cyc : Nat) (rep : Bool) (body : List (Nat × Nat)) :
    (logRecordAt s cls status core gal cav cyc rep body).cores = s.cores := rfl
@[simp] theorem logRecordAt_gals (s : State) (cls status core gal cav cyc : Nat) (rep : Bool) (body : List (Nat × Nat)) :
    (logRecordAt s cls status core gal cav cyc rep body).gals = s.gals := rfl
@[simp] theorem logRecordAt_cavs (s : State) (cls status core gal cav cyc : Nat) (rep : Bool) (body : List (Nat × Nat)) :
    (logRecordAt s cls status core gal cav cyc rep body).cavs = s.cavs := rfl
@[simp] theorem logRecordAt_bundles (s : State) (cls status core gal cav cyc : Nat) (rep : Bool) (body : List (Nat × Nat)) :
    (logRecordAt s cls status core gal cav cyc rep body).bundles = s.bundles := rfl
@[simp] theorem logRecordAt_slots (s : State) (cls status core gal cav cyc : Nat) (rep : Bool) (body : List (Nat × Nat)) :
    (logRecordAt s cls status core gal cav cyc rep body).slots = s.slots := rfl
@[simp] theorem logRecordAt_news (s : State) (cls status core gal cav cyc : Nat) (rep : Bool) (body : List (Nat × Nat)) :
    (logRecordAt s cls status core gal cav cyc rep body).news = s.news := rfl
@[simp] theorem logRecordAt_net (s : State) (cls status core gal cav cyc : Nat) (rep : Bool) (body : List (Nat × Nat)) :
    (logRecordAt s cls status core gal cav cyc rep body).net = s.net := rfl
@[simp] theorem logRecordAt_day (s : State) (cls status core gal cav cyc : Nat) (rep : Bool) (body : List (Nat × Nat)) :
    (logRecordAt s cls status core gal cav cyc rep body).day = s.day := rfl
@[simp] theorem logRecordAt_held (s : State) (cls status core gal cav cyc : Nat) (rep : Bool) (body : List (Nat × Nat)) :
    (logRecordAt s cls status core gal cav cyc rep body).held = s.held := rfl
@[simp] theorem logRecordAt_boot (s : State) (cls status core gal cav cyc : Nat) (rep : Bool) (body : List (Nat × Nat)) :
    (logRecordAt s cls status core gal cav cyc rep body).boot = s.boot := rfl
@[simp] theorem logRecordAt_cfg (s : State) (cls status core gal cav cyc : Nat) (rep : Bool) (body : List (Nat × Nat)) :
    (logRecordAt s cls status core gal cav cyc rep body).cfg = s.cfg := rfl
@[simp] theorem logRecordAt_resets (s : State) (cls status core gal cav cyc : Nat) (rep : Bool) (body : List (Nat × Nat)) :
    (logRecordAt s cls status core gal cav cyc rep body).resets = s.resets := rfl
@[simp] theorem logRecordAt_attest (s : State) (cls status core gal cav cyc : Nat) (rep : Bool) (body : List (Nat × Nat)) :
    (logRecordAt s cls status core gal cav cyc rep body).attest = s.attest := rfl
@[simp] theorem logRecordAt_tap (s : State) (cls status core gal cav cyc : Nat) (rep : Bool) (body : List (Nat × Nat)) :
    (logRecordAt s cls status core gal cav cyc rep body).tap = s.tap := rfl
@[simp] theorem logRecordAt_pwr (s : State) (cls status core gal cav cyc : Nat) (rep : Bool) (body : List (Nat × Nat)) :
    (logRecordAt s cls status core gal cav cyc rep body).pwr = s.pwr := rfl
@[simp] theorem logRecordAt_echoQ (s : State) (cls status core gal cav cyc : Nat) (rep : Bool) (body : List (Nat × Nat)) :
    (logRecordAt s cls status core gal cav cyc rep body).echoQ = s.echoQ := rfl
@[simp] theorem logRecordAt_half (s : State) (cls status core gal cav cyc : Nat) (rep : Bool) (body : List (Nat × Nat)) :
    (logRecordAt s cls status core gal cav cyc rep body).half = s.half := rfl
@[simp] theorem logRecordAt_capture (s : State) (cls status core gal cav cyc : Nat) (rep : Bool) (body : List (Nat × Nat)) :
    (logRecordAt s cls status core gal cav cyc rep body).capture = s.capture := rfl
@[simp] theorem logRecordAt_fuse (s : State) (cls status core gal cav cyc : Nat) (rep : Bool) (body : List (Nat × Nat)) :
    (logRecordAt s cls status core gal cav cyc rep body).fuse = s.fuse := rfl
@[simp] theorem logRecordAt_out (s : State) (cls status core gal cav cyc : Nat) (rep : Bool) (body : List (Nat × Nat)) :
    (logRecordAt s cls status core gal cav cyc rep body).out = s.out := rfl
@[simp] theorem logRecordAt_answer (s : State) (cls status core gal cav cyc : Nat) (rep : Bool) (body : List (Nat × Nat)) :
    (logRecordAt s cls status core gal cav cyc rep body).answer = s.answer := rfl
@[simp] theorem logRecordAt_answerData (s : State) (cls status core gal cav cyc : Nat) (rep : Bool) (body : List (Nat × Nat)) :
    (logRecordAt s cls status core gal cav cyc rep body).answerData = s.answerData := rfl
@[simp] theorem logRecordAt_msgSeq (s : State) (cls status core gal cav cyc : Nat) (rep : Bool) (body : List (Nat × Nat)) :
    (logRecordAt s cls status core gal cav cyc rep body).msgSeq = s.msgSeq := rfl
@[simp] theorem logRecordAt_mNow (s : State) (cls status core gal cav cyc : Nat) (rep : Bool) (body : List (Nat × Nat)) :
    (logRecordAt s cls status core gal cav cyc rep body).mNow = s.mNow := rfl
@[simp] theorem logRecordAt_free (s : State) (cls status core gal cav cyc : Nat) (rep : Bool) (body : List (Nat × Nat)) :
    (logRecordAt s cls status core gal cav cyc rep body).free = s.free := rfl
@[simp] theorem coreAt_logRecordAt (s : State) (cls status core gal cav cyc : Nat) (rep : Bool) (body : List (Nat × Nat)) (i : Nat) :
    coreAt (logRecordAt s cls status core gal cav cyc rep body) i = coreAt s i := rfl
@[simp] theorem galAt_logRecordAt (s : State) (cls status core gal cav cyc : Nat) (rep : Bool) (body : List (Nat × Nat)) (i : Nat) :
    galAt (logRecordAt s cls status core gal cav cyc rep body) i = galAt s i := rfl
@[simp] theorem cavAt_logRecordAt (s : State) (cls status core gal cav cyc : Nat) (rep : Bool) (body : List (Nat × Nat)) (i : Nat) :
    cavAt (logRecordAt s cls status core gal cav cyc rep body) i = cavAt s i := rfl
@[simp] theorem bunAt_logRecordAt (s : State) (cls status core gal cav cyc : Nat) (rep : Bool) (body : List (Nat × Nat)) (i : Nat) :
    bunAt (logRecordAt s cls status core gal cav cyc rep body) i = bunAt s i := rfl
@[simp] theorem slotAt_logRecordAt (s : State) (cls status core gal cav cyc : Nat) (rep : Bool) (body : List (Nat × Nat)) (i : Nat) :
    slotAt (logRecordAt s cls status core gal cav cyc rep body) i = slotAt s i := rfl

@[simp] theorem logCoreAt_pending (s : State) (cls : Nat) (st : Status) (l c : Nat) (rep : Bool) (body : List (Nat × Nat)) :
    (logCoreAt s cls st l c rep body).pending = s.pending := rfl
@[simp] theorem logCoreAt_cores (s : State) (cls : Nat) (st : Status) (l c : Nat) (rep : Bool) (body : List (Nat × Nat)) :
    (logCoreAt s cls st l c rep body).cores = s.cores := rfl
@[simp] theorem logCoreAt_gals (s : State) (cls : Nat) (st : Status) (l c : Nat) (rep : Bool) (body : List (Nat × Nat)) :
    (logCoreAt s cls st l c rep body).gals = s.gals := rfl
@[simp] theorem logCoreAt_cavs (s : State) (cls : Nat) (st : Status) (l c : Nat) (rep : Bool) (body : List (Nat × Nat)) :
    (logCoreAt s cls st l c rep body).cavs = s.cavs := rfl
@[simp] theorem logCoreAt_bundles (s : State) (cls : Nat) (st : Status) (l c : Nat) (rep : Bool) (body : List (Nat × Nat)) :
    (logCoreAt s cls st l c rep body).bundles = s.bundles := rfl
@[simp] theorem logCoreAt_slots (s : State) (cls : Nat) (st : Status) (l c : Nat) (rep : Bool) (body : List (Nat × Nat)) :
    (logCoreAt s cls st l c rep body).slots = s.slots := rfl
@[simp] theorem logCoreAt_news (s : State) (cls : Nat) (st : Status) (l c : Nat) (rep : Bool) (body : List (Nat × Nat)) :
    (logCoreAt s cls st l c rep body).news = s.news := rfl
@[simp] theorem logCoreAt_net (s : State) (cls : Nat) (st : Status) (l c : Nat) (rep : Bool) (body : List (Nat × Nat)) :
    (logCoreAt s cls st l c rep body).net = s.net := rfl
@[simp] theorem logCoreAt_day (s : State) (cls : Nat) (st : Status) (l c : Nat) (rep : Bool) (body : List (Nat × Nat)) :
    (logCoreAt s cls st l c rep body).day = s.day := rfl
@[simp] theorem logCoreAt_held (s : State) (cls : Nat) (st : Status) (l c : Nat) (rep : Bool) (body : List (Nat × Nat)) :
    (logCoreAt s cls st l c rep body).held = s.held := rfl
@[simp] theorem logCoreAt_boot (s : State) (cls : Nat) (st : Status) (l c : Nat) (rep : Bool) (body : List (Nat × Nat)) :
    (logCoreAt s cls st l c rep body).boot = s.boot := rfl
@[simp] theorem logCoreAt_cfg (s : State) (cls : Nat) (st : Status) (l c : Nat) (rep : Bool) (body : List (Nat × Nat)) :
    (logCoreAt s cls st l c rep body).cfg = s.cfg := rfl
@[simp] theorem logCoreAt_resets (s : State) (cls : Nat) (st : Status) (l c : Nat) (rep : Bool) (body : List (Nat × Nat)) :
    (logCoreAt s cls st l c rep body).resets = s.resets := rfl
@[simp] theorem logCoreAt_attest (s : State) (cls : Nat) (st : Status) (l c : Nat) (rep : Bool) (body : List (Nat × Nat)) :
    (logCoreAt s cls st l c rep body).attest = s.attest := rfl
@[simp] theorem logCoreAt_tap (s : State) (cls : Nat) (st : Status) (l c : Nat) (rep : Bool) (body : List (Nat × Nat)) :
    (logCoreAt s cls st l c rep body).tap = s.tap := rfl
@[simp] theorem logCoreAt_pwr (s : State) (cls : Nat) (st : Status) (l c : Nat) (rep : Bool) (body : List (Nat × Nat)) :
    (logCoreAt s cls st l c rep body).pwr = s.pwr := rfl
@[simp] theorem logCoreAt_echoQ (s : State) (cls : Nat) (st : Status) (l c : Nat) (rep : Bool) (body : List (Nat × Nat)) :
    (logCoreAt s cls st l c rep body).echoQ = s.echoQ := rfl
@[simp] theorem logCoreAt_half (s : State) (cls : Nat) (st : Status) (l c : Nat) (rep : Bool) (body : List (Nat × Nat)) :
    (logCoreAt s cls st l c rep body).half = s.half := rfl
@[simp] theorem logCoreAt_capture (s : State) (cls : Nat) (st : Status) (l c : Nat) (rep : Bool) (body : List (Nat × Nat)) :
    (logCoreAt s cls st l c rep body).capture = s.capture := rfl
@[simp] theorem logCoreAt_fuse (s : State) (cls : Nat) (st : Status) (l c : Nat) (rep : Bool) (body : List (Nat × Nat)) :
    (logCoreAt s cls st l c rep body).fuse = s.fuse := rfl
@[simp] theorem logCoreAt_out (s : State) (cls : Nat) (st : Status) (l c : Nat) (rep : Bool) (body : List (Nat × Nat)) :
    (logCoreAt s cls st l c rep body).out = s.out := rfl
@[simp] theorem logCoreAt_answer (s : State) (cls : Nat) (st : Status) (l c : Nat) (rep : Bool) (body : List (Nat × Nat)) :
    (logCoreAt s cls st l c rep body).answer = s.answer := rfl
@[simp] theorem logCoreAt_answerData (s : State) (cls : Nat) (st : Status) (l c : Nat) (rep : Bool) (body : List (Nat × Nat)) :
    (logCoreAt s cls st l c rep body).answerData = s.answerData := rfl
@[simp] theorem logCoreAt_msgSeq (s : State) (cls : Nat) (st : Status) (l c : Nat) (rep : Bool) (body : List (Nat × Nat)) :
    (logCoreAt s cls st l c rep body).msgSeq = s.msgSeq := rfl
@[simp] theorem logCoreAt_mNow (s : State) (cls : Nat) (st : Status) (l c : Nat) (rep : Bool) (body : List (Nat × Nat)) :
    (logCoreAt s cls st l c rep body).mNow = s.mNow := rfl
@[simp] theorem logCoreAt_free (s : State) (cls : Nat) (st : Status) (l c : Nat) (rep : Bool) (body : List (Nat × Nat)) :
    (logCoreAt s cls st l c rep body).free = s.free := rfl
@[simp] theorem coreAt_logCoreAt (s : State) (cls : Nat) (st : Status) (l c : Nat) (rep : Bool) (body : List (Nat × Nat)) (i : Nat) :
    coreAt (logCoreAt s cls st l c rep body) i = coreAt s i := rfl
@[simp] theorem galAt_logCoreAt (s : State) (cls : Nat) (st : Status) (l c : Nat) (rep : Bool) (body : List (Nat × Nat)) (i : Nat) :
    galAt (logCoreAt s cls st l c rep body) i = galAt s i := rfl
@[simp] theorem cavAt_logCoreAt (s : State) (cls : Nat) (st : Status) (l c : Nat) (rep : Bool) (body : List (Nat × Nat)) (i : Nat) :
    cavAt (logCoreAt s cls st l c rep body) i = cavAt s i := rfl
@[simp] theorem bunAt_logCoreAt (s : State) (cls : Nat) (st : Status) (l c : Nat) (rep : Bool) (body : List (Nat × Nat)) (i : Nat) :
    bunAt (logCoreAt s cls st l c rep body) i = bunAt s i := rfl
@[simp] theorem slotAt_logCoreAt (s : State) (cls : Nat) (st : Status) (l c : Nat) (rep : Bool) (body : List (Nat × Nat)) (i : Nat) :
    slotAt (logCoreAt s cls st l c rep body) i = slotAt s i := rfl

@[simp] theorem logCore_pending (s : State) (cls : Nat) (st : Status) (l : Nat) (rep : Bool) (body : List (Nat × Nat)) :
    (logCore s cls st l rep body).pending = s.pending := rfl
@[simp] theorem logCore_cores (s : State) (cls : Nat) (st : Status) (l : Nat) (rep : Bool) (body : List (Nat × Nat)) :
    (logCore s cls st l rep body).cores = s.cores := rfl
@[simp] theorem logCore_gals (s : State) (cls : Nat) (st : Status) (l : Nat) (rep : Bool) (body : List (Nat × Nat)) :
    (logCore s cls st l rep body).gals = s.gals := rfl
@[simp] theorem logCore_cavs (s : State) (cls : Nat) (st : Status) (l : Nat) (rep : Bool) (body : List (Nat × Nat)) :
    (logCore s cls st l rep body).cavs = s.cavs := rfl
@[simp] theorem logCore_bundles (s : State) (cls : Nat) (st : Status) (l : Nat) (rep : Bool) (body : List (Nat × Nat)) :
    (logCore s cls st l rep body).bundles = s.bundles := rfl
@[simp] theorem logCore_slots (s : State) (cls : Nat) (st : Status) (l : Nat) (rep : Bool) (body : List (Nat × Nat)) :
    (logCore s cls st l rep body).slots = s.slots := rfl
@[simp] theorem logCore_news (s : State) (cls : Nat) (st : Status) (l : Nat) (rep : Bool) (body : List (Nat × Nat)) :
    (logCore s cls st l rep body).news = s.news := rfl
@[simp] theorem logCore_net (s : State) (cls : Nat) (st : Status) (l : Nat) (rep : Bool) (body : List (Nat × Nat)) :
    (logCore s cls st l rep body).net = s.net := rfl
@[simp] theorem logCore_day (s : State) (cls : Nat) (st : Status) (l : Nat) (rep : Bool) (body : List (Nat × Nat)) :
    (logCore s cls st l rep body).day = s.day := rfl
@[simp] theorem logCore_held (s : State) (cls : Nat) (st : Status) (l : Nat) (rep : Bool) (body : List (Nat × Nat)) :
    (logCore s cls st l rep body).held = s.held := rfl
@[simp] theorem logCore_boot (s : State) (cls : Nat) (st : Status) (l : Nat) (rep : Bool) (body : List (Nat × Nat)) :
    (logCore s cls st l rep body).boot = s.boot := rfl
@[simp] theorem logCore_cfg (s : State) (cls : Nat) (st : Status) (l : Nat) (rep : Bool) (body : List (Nat × Nat)) :
    (logCore s cls st l rep body).cfg = s.cfg := rfl
@[simp] theorem logCore_resets (s : State) (cls : Nat) (st : Status) (l : Nat) (rep : Bool) (body : List (Nat × Nat)) :
    (logCore s cls st l rep body).resets = s.resets := rfl
@[simp] theorem logCore_attest (s : State) (cls : Nat) (st : Status) (l : Nat) (rep : Bool) (body : List (Nat × Nat)) :
    (logCore s cls st l rep body).attest = s.attest := rfl
@[simp] theorem logCore_tap (s : State) (cls : Nat) (st : Status) (l : Nat) (rep : Bool) (body : List (Nat × Nat)) :
    (logCore s cls st l rep body).tap = s.tap := rfl
@[simp] theorem logCore_pwr (s : State) (cls : Nat) (st : Status) (l : Nat) (rep : Bool) (body : List (Nat × Nat)) :
    (logCore s cls st l rep body).pwr = s.pwr := rfl
@[simp] theorem logCore_echoQ (s : State) (cls : Nat) (st : Status) (l : Nat) (rep : Bool) (body : List (Nat × Nat)) :
    (logCore s cls st l rep body).echoQ = s.echoQ := rfl
@[simp] theorem logCore_half (s : State) (cls : Nat) (st : Status) (l : Nat) (rep : Bool) (body : List (Nat × Nat)) :
    (logCore s cls st l rep body).half = s.half := rfl
@[simp] theorem logCore_capture (s : State) (cls : Nat) (st : Status) (l : Nat) (rep : Bool) (body : List (Nat × Nat)) :
    (logCore s cls st l rep body).capture = s.capture := rfl
@[simp] theorem logCore_fuse (s : State) (cls : Nat) (st : Status) (l : Nat) (rep : Bool) (body : List (Nat × Nat)) :
    (logCore s cls st l rep body).fuse = s.fuse := rfl
@[simp] theorem logCore_out (s : State) (cls : Nat) (st : Status) (l : Nat) (rep : Bool) (body : List (Nat × Nat)) :
    (logCore s cls st l rep body).out = s.out := rfl
@[simp] theorem logCore_answer (s : State) (cls : Nat) (st : Status) (l : Nat) (rep : Bool) (body : List (Nat × Nat)) :
    (logCore s cls st l rep body).answer = s.answer := rfl
@[simp] theorem logCore_answerData (s : State) (cls : Nat) (st : Status) (l : Nat) (rep : Bool) (body : List (Nat × Nat)) :
    (logCore s cls st l rep body).answerData = s.answerData := rfl
@[simp] theorem logCore_msgSeq (s : State) (cls : Nat) (st : Status) (l : Nat) (rep : Bool) (body : List (Nat × Nat)) :
    (logCore s cls st l rep body).msgSeq = s.msgSeq := rfl
@[simp] theorem logCore_mNow (s : State) (cls : Nat) (st : Status) (l : Nat) (rep : Bool) (body : List (Nat × Nat)) :
    (logCore s cls st l rep body).mNow = s.mNow := rfl
@[simp] theorem logCore_free (s : State) (cls : Nat) (st : Status) (l : Nat) (rep : Bool) (body : List (Nat × Nat)) :
    (logCore s cls st l rep body).free = s.free := rfl
@[simp] theorem coreAt_logCore (s : State) (cls : Nat) (st : Status) (l : Nat) (rep : Bool) (body : List (Nat × Nat)) (i : Nat) :
    coreAt (logCore s cls st l rep body) i = coreAt s i := rfl
@[simp] theorem galAt_logCore (s : State) (cls : Nat) (st : Status) (l : Nat) (rep : Bool) (body : List (Nat × Nat)) (i : Nat) :
    galAt (logCore s cls st l rep body) i = galAt s i := rfl
@[simp] theorem cavAt_logCore (s : State) (cls : Nat) (st : Status) (l : Nat) (rep : Bool) (body : List (Nat × Nat)) (i : Nat) :
    cavAt (logCore s cls st l rep body) i = cavAt s i := rfl
@[simp] theorem bunAt_logCore (s : State) (cls : Nat) (st : Status) (l : Nat) (rep : Bool) (body : List (Nat × Nat)) (i : Nat) :
    bunAt (logCore s cls st l rep body) i = bunAt s i := rfl
@[simp] theorem slotAt_logCore (s : State) (cls : Nat) (st : Status) (l : Nat) (rep : Bool) (body : List (Nat × Nat)) (i : Nat) :
    slotAt (logCore s cls st l rep body) i = slotAt s i := rfl

@[simp] theorem logGal_pending (s : State) (cls : Nat) (st : Status) (l : Nat) (rep : Bool) (body : List (Nat × Nat)) :
    (logGal s cls st l rep body).pending = s.pending := rfl
@[simp] theorem logGal_cores (s : State) (cls : Nat) (st : Status) (l : Nat) (rep : Bool) (body : List (Nat × Nat)) :
    (logGal s cls st l rep body).cores = s.cores := rfl
@[simp] theorem logGal_gals (s : State) (cls : Nat) (st : Status) (l : Nat) (rep : Bool) (body : List (Nat × Nat)) :
    (logGal s cls st l rep body).gals = s.gals := rfl
@[simp] theorem logGal_cavs (s : State) (cls : Nat) (st : Status) (l : Nat) (rep : Bool) (body : List (Nat × Nat)) :
    (logGal s cls st l rep body).cavs = s.cavs := rfl
@[simp] theorem logGal_bundles (s : State) (cls : Nat) (st : Status) (l : Nat) (rep : Bool) (body : List (Nat × Nat)) :
    (logGal s cls st l rep body).bundles = s.bundles := rfl
@[simp] theorem logGal_slots (s : State) (cls : Nat) (st : Status) (l : Nat) (rep : Bool) (body : List (Nat × Nat)) :
    (logGal s cls st l rep body).slots = s.slots := rfl
@[simp] theorem logGal_news (s : State) (cls : Nat) (st : Status) (l : Nat) (rep : Bool) (body : List (Nat × Nat)) :
    (logGal s cls st l rep body).news = s.news := rfl
@[simp] theorem logGal_net (s : State) (cls : Nat) (st : Status) (l : Nat) (rep : Bool) (body : List (Nat × Nat)) :
    (logGal s cls st l rep body).net = s.net := rfl
@[simp] theorem logGal_day (s : State) (cls : Nat) (st : Status) (l : Nat) (rep : Bool) (body : List (Nat × Nat)) :
    (logGal s cls st l rep body).day = s.day := rfl
@[simp] theorem logGal_held (s : State) (cls : Nat) (st : Status) (l : Nat) (rep : Bool) (body : List (Nat × Nat)) :
    (logGal s cls st l rep body).held = s.held := rfl
@[simp] theorem logGal_boot (s : State) (cls : Nat) (st : Status) (l : Nat) (rep : Bool) (body : List (Nat × Nat)) :
    (logGal s cls st l rep body).boot = s.boot := rfl
@[simp] theorem logGal_cfg (s : State) (cls : Nat) (st : Status) (l : Nat) (rep : Bool) (body : List (Nat × Nat)) :
    (logGal s cls st l rep body).cfg = s.cfg := rfl
@[simp] theorem logGal_resets (s : State) (cls : Nat) (st : Status) (l : Nat) (rep : Bool) (body : List (Nat × Nat)) :
    (logGal s cls st l rep body).resets = s.resets := rfl
@[simp] theorem logGal_attest (s : State) (cls : Nat) (st : Status) (l : Nat) (rep : Bool) (body : List (Nat × Nat)) :
    (logGal s cls st l rep body).attest = s.attest := rfl
@[simp] theorem logGal_tap (s : State) (cls : Nat) (st : Status) (l : Nat) (rep : Bool) (body : List (Nat × Nat)) :
    (logGal s cls st l rep body).tap = s.tap := rfl
@[simp] theorem logGal_pwr (s : State) (cls : Nat) (st : Status) (l : Nat) (rep : Bool) (body : List (Nat × Nat)) :
    (logGal s cls st l rep body).pwr = s.pwr := rfl
@[simp] theorem logGal_echoQ (s : State) (cls : Nat) (st : Status) (l : Nat) (rep : Bool) (body : List (Nat × Nat)) :
    (logGal s cls st l rep body).echoQ = s.echoQ := rfl
@[simp] theorem logGal_half (s : State) (cls : Nat) (st : Status) (l : Nat) (rep : Bool) (body : List (Nat × Nat)) :
    (logGal s cls st l rep body).half = s.half := rfl
@[simp] theorem logGal_capture (s : State) (cls : Nat) (st : Status) (l : Nat) (rep : Bool) (body : List (Nat × Nat)) :
    (logGal s cls st l rep body).capture = s.capture := rfl
@[simp] theorem logGal_fuse (s : State) (cls : Nat) (st : Status) (l : Nat) (rep : Bool) (body : List (Nat × Nat)) :
    (logGal s cls st l rep body).fuse = s.fuse := rfl
@[simp] theorem logGal_out (s : State) (cls : Nat) (st : Status) (l : Nat) (rep : Bool) (body : List (Nat × Nat)) :
    (logGal s cls st l rep body).out = s.out := rfl
@[simp] theorem logGal_answer (s : State) (cls : Nat) (st : Status) (l : Nat) (rep : Bool) (body : List (Nat × Nat)) :
    (logGal s cls st l rep body).answer = s.answer := rfl
@[simp] theorem logGal_answerData (s : State) (cls : Nat) (st : Status) (l : Nat) (rep : Bool) (body : List (Nat × Nat)) :
    (logGal s cls st l rep body).answerData = s.answerData := rfl
@[simp] theorem logGal_msgSeq (s : State) (cls : Nat) (st : Status) (l : Nat) (rep : Bool) (body : List (Nat × Nat)) :
    (logGal s cls st l rep body).msgSeq = s.msgSeq := rfl
@[simp] theorem logGal_mNow (s : State) (cls : Nat) (st : Status) (l : Nat) (rep : Bool) (body : List (Nat × Nat)) :
    (logGal s cls st l rep body).mNow = s.mNow := rfl
@[simp] theorem logGal_free (s : State) (cls : Nat) (st : Status) (l : Nat) (rep : Bool) (body : List (Nat × Nat)) :
    (logGal s cls st l rep body).free = s.free := rfl
@[simp] theorem coreAt_logGal (s : State) (cls : Nat) (st : Status) (l : Nat) (rep : Bool) (body : List (Nat × Nat)) (i : Nat) :
    coreAt (logGal s cls st l rep body) i = coreAt s i := rfl
@[simp] theorem galAt_logGal (s : State) (cls : Nat) (st : Status) (l : Nat) (rep : Bool) (body : List (Nat × Nat)) (i : Nat) :
    galAt (logGal s cls st l rep body) i = galAt s i := rfl
@[simp] theorem cavAt_logGal (s : State) (cls : Nat) (st : Status) (l : Nat) (rep : Bool) (body : List (Nat × Nat)) (i : Nat) :
    cavAt (logGal s cls st l rep body) i = cavAt s i := rfl
@[simp] theorem bunAt_logGal (s : State) (cls : Nat) (st : Status) (l : Nat) (rep : Bool) (body : List (Nat × Nat)) (i : Nat) :
    bunAt (logGal s cls st l rep body) i = bunAt s i := rfl
@[simp] theorem slotAt_logGal (s : State) (cls : Nat) (st : Status) (l : Nat) (rep : Bool) (body : List (Nat × Nat)) (i : Nat) :
    slotAt (logGal s cls st l rep body) i = slotAt s i := rfl

@[simp] theorem logCav_pending (s : State) (cls : Nat) (st : Status) (l : Nat) (rep : Bool) (body : List (Nat × Nat)) :
    (logCav s cls st l rep body).pending = s.pending := rfl
@[simp] theorem logCav_cores (s : State) (cls : Nat) (st : Status) (l : Nat) (rep : Bool) (body : List (Nat × Nat)) :
    (logCav s cls st l rep body).cores = s.cores := rfl
@[simp] theorem logCav_gals (s : State) (cls : Nat) (st : Status) (l : Nat) (rep : Bool) (body : List (Nat × Nat)) :
    (logCav s cls st l rep body).gals = s.gals := rfl
@[simp] theorem logCav_cavs (s : State) (cls : Nat) (st : Status) (l : Nat) (rep : Bool) (body : List (Nat × Nat)) :
    (logCav s cls st l rep body).cavs = s.cavs := rfl
@[simp] theorem logCav_bundles (s : State) (cls : Nat) (st : Status) (l : Nat) (rep : Bool) (body : List (Nat × Nat)) :
    (logCav s cls st l rep body).bundles = s.bundles := rfl
@[simp] theorem logCav_slots (s : State) (cls : Nat) (st : Status) (l : Nat) (rep : Bool) (body : List (Nat × Nat)) :
    (logCav s cls st l rep body).slots = s.slots := rfl
@[simp] theorem logCav_news (s : State) (cls : Nat) (st : Status) (l : Nat) (rep : Bool) (body : List (Nat × Nat)) :
    (logCav s cls st l rep body).news = s.news := rfl
@[simp] theorem logCav_net (s : State) (cls : Nat) (st : Status) (l : Nat) (rep : Bool) (body : List (Nat × Nat)) :
    (logCav s cls st l rep body).net = s.net := rfl
@[simp] theorem logCav_day (s : State) (cls : Nat) (st : Status) (l : Nat) (rep : Bool) (body : List (Nat × Nat)) :
    (logCav s cls st l rep body).day = s.day := rfl
@[simp] theorem logCav_held (s : State) (cls : Nat) (st : Status) (l : Nat) (rep : Bool) (body : List (Nat × Nat)) :
    (logCav s cls st l rep body).held = s.held := rfl
@[simp] theorem logCav_boot (s : State) (cls : Nat) (st : Status) (l : Nat) (rep : Bool) (body : List (Nat × Nat)) :
    (logCav s cls st l rep body).boot = s.boot := rfl
@[simp] theorem logCav_cfg (s : State) (cls : Nat) (st : Status) (l : Nat) (rep : Bool) (body : List (Nat × Nat)) :
    (logCav s cls st l rep body).cfg = s.cfg := rfl
@[simp] theorem logCav_resets (s : State) (cls : Nat) (st : Status) (l : Nat) (rep : Bool) (body : List (Nat × Nat)) :
    (logCav s cls st l rep body).resets = s.resets := rfl
@[simp] theorem logCav_attest (s : State) (cls : Nat) (st : Status) (l : Nat) (rep : Bool) (body : List (Nat × Nat)) :
    (logCav s cls st l rep body).attest = s.attest := rfl
@[simp] theorem logCav_tap (s : State) (cls : Nat) (st : Status) (l : Nat) (rep : Bool) (body : List (Nat × Nat)) :
    (logCav s cls st l rep body).tap = s.tap := rfl
@[simp] theorem logCav_pwr (s : State) (cls : Nat) (st : Status) (l : Nat) (rep : Bool) (body : List (Nat × Nat)) :
    (logCav s cls st l rep body).pwr = s.pwr := rfl
@[simp] theorem logCav_echoQ (s : State) (cls : Nat) (st : Status) (l : Nat) (rep : Bool) (body : List (Nat × Nat)) :
    (logCav s cls st l rep body).echoQ = s.echoQ := rfl
@[simp] theorem logCav_half (s : State) (cls : Nat) (st : Status) (l : Nat) (rep : Bool) (body : List (Nat × Nat)) :
    (logCav s cls st l rep body).half = s.half := rfl
@[simp] theorem logCav_capture (s : State) (cls : Nat) (st : Status) (l : Nat) (rep : Bool) (body : List (Nat × Nat)) :
    (logCav s cls st l rep body).capture = s.capture := rfl
@[simp] theorem logCav_fuse (s : State) (cls : Nat) (st : Status) (l : Nat) (rep : Bool) (body : List (Nat × Nat)) :
    (logCav s cls st l rep body).fuse = s.fuse := rfl
@[simp] theorem logCav_out (s : State) (cls : Nat) (st : Status) (l : Nat) (rep : Bool) (body : List (Nat × Nat)) :
    (logCav s cls st l rep body).out = s.out := rfl
@[simp] theorem logCav_answer (s : State) (cls : Nat) (st : Status) (l : Nat) (rep : Bool) (body : List (Nat × Nat)) :
    (logCav s cls st l rep body).answer = s.answer := rfl
@[simp] theorem logCav_answerData (s : State) (cls : Nat) (st : Status) (l : Nat) (rep : Bool) (body : List (Nat × Nat)) :
    (logCav s cls st l rep body).answerData = s.answerData := rfl
@[simp] theorem logCav_msgSeq (s : State) (cls : Nat) (st : Status) (l : Nat) (rep : Bool) (body : List (Nat × Nat)) :
    (logCav s cls st l rep body).msgSeq = s.msgSeq := rfl
@[simp] theorem logCav_mNow (s : State) (cls : Nat) (st : Status) (l : Nat) (rep : Bool) (body : List (Nat × Nat)) :
    (logCav s cls st l rep body).mNow = s.mNow := rfl
@[simp] theorem logCav_free (s : State) (cls : Nat) (st : Status) (l : Nat) (rep : Bool) (body : List (Nat × Nat)) :
    (logCav s cls st l rep body).free = s.free := rfl
@[simp] theorem coreAt_logCav (s : State) (cls : Nat) (st : Status) (l : Nat) (rep : Bool) (body : List (Nat × Nat)) (i : Nat) :
    coreAt (logCav s cls st l rep body) i = coreAt s i := rfl
@[simp] theorem galAt_logCav (s : State) (cls : Nat) (st : Status) (l : Nat) (rep : Bool) (body : List (Nat × Nat)) (i : Nat) :
    galAt (logCav s cls st l rep body) i = galAt s i := rfl
@[simp] theorem cavAt_logCav (s : State) (cls : Nat) (st : Status) (l : Nat) (rep : Bool) (body : List (Nat × Nat)) (i : Nat) :
    cavAt (logCav s cls st l rep body) i = cavAt s i := rfl
@[simp] theorem bunAt_logCav (s : State) (cls : Nat) (st : Status) (l : Nat) (rep : Bool) (body : List (Nat × Nat)) (i : Nat) :
    bunAt (logCav s cls st l rep body) i = bunAt s i := rfl
@[simp] theorem slotAt_logCav (s : State) (cls : Nat) (st : Status) (l : Nat) (rep : Bool) (body : List (Nat × Nat)) (i : Nat) :
    slotAt (logCav s cls st l rep body) i = slotAt s i := rfl

@[simp] theorem logChip_pending (s : State) (cls : Nat) (st : Status) (rep : Bool) (body : List (Nat × Nat)) :
    (logChip s cls st rep body).pending = s.pending := rfl
@[simp] theorem logChip_cores (s : State) (cls : Nat) (st : Status) (rep : Bool) (body : List (Nat × Nat)) :
    (logChip s cls st rep body).cores = s.cores := rfl
@[simp] theorem logChip_gals (s : State) (cls : Nat) (st : Status) (rep : Bool) (body : List (Nat × Nat)) :
    (logChip s cls st rep body).gals = s.gals := rfl
@[simp] theorem logChip_cavs (s : State) (cls : Nat) (st : Status) (rep : Bool) (body : List (Nat × Nat)) :
    (logChip s cls st rep body).cavs = s.cavs := rfl
@[simp] theorem logChip_bundles (s : State) (cls : Nat) (st : Status) (rep : Bool) (body : List (Nat × Nat)) :
    (logChip s cls st rep body).bundles = s.bundles := rfl
@[simp] theorem logChip_slots (s : State) (cls : Nat) (st : Status) (rep : Bool) (body : List (Nat × Nat)) :
    (logChip s cls st rep body).slots = s.slots := rfl
@[simp] theorem logChip_news (s : State) (cls : Nat) (st : Status) (rep : Bool) (body : List (Nat × Nat)) :
    (logChip s cls st rep body).news = s.news := rfl
@[simp] theorem logChip_net (s : State) (cls : Nat) (st : Status) (rep : Bool) (body : List (Nat × Nat)) :
    (logChip s cls st rep body).net = s.net := rfl
@[simp] theorem logChip_day (s : State) (cls : Nat) (st : Status) (rep : Bool) (body : List (Nat × Nat)) :
    (logChip s cls st rep body).day = s.day := rfl
@[simp] theorem logChip_held (s : State) (cls : Nat) (st : Status) (rep : Bool) (body : List (Nat × Nat)) :
    (logChip s cls st rep body).held = s.held := rfl
@[simp] theorem logChip_boot (s : State) (cls : Nat) (st : Status) (rep : Bool) (body : List (Nat × Nat)) :
    (logChip s cls st rep body).boot = s.boot := rfl
@[simp] theorem logChip_cfg (s : State) (cls : Nat) (st : Status) (rep : Bool) (body : List (Nat × Nat)) :
    (logChip s cls st rep body).cfg = s.cfg := rfl
@[simp] theorem logChip_resets (s : State) (cls : Nat) (st : Status) (rep : Bool) (body : List (Nat × Nat)) :
    (logChip s cls st rep body).resets = s.resets := rfl
@[simp] theorem logChip_attest (s : State) (cls : Nat) (st : Status) (rep : Bool) (body : List (Nat × Nat)) :
    (logChip s cls st rep body).attest = s.attest := rfl
@[simp] theorem logChip_tap (s : State) (cls : Nat) (st : Status) (rep : Bool) (body : List (Nat × Nat)) :
    (logChip s cls st rep body).tap = s.tap := rfl
@[simp] theorem logChip_pwr (s : State) (cls : Nat) (st : Status) (rep : Bool) (body : List (Nat × Nat)) :
    (logChip s cls st rep body).pwr = s.pwr := rfl
@[simp] theorem logChip_echoQ (s : State) (cls : Nat) (st : Status) (rep : Bool) (body : List (Nat × Nat)) :
    (logChip s cls st rep body).echoQ = s.echoQ := rfl
@[simp] theorem logChip_half (s : State) (cls : Nat) (st : Status) (rep : Bool) (body : List (Nat × Nat)) :
    (logChip s cls st rep body).half = s.half := rfl
@[simp] theorem logChip_capture (s : State) (cls : Nat) (st : Status) (rep : Bool) (body : List (Nat × Nat)) :
    (logChip s cls st rep body).capture = s.capture := rfl
@[simp] theorem logChip_fuse (s : State) (cls : Nat) (st : Status) (rep : Bool) (body : List (Nat × Nat)) :
    (logChip s cls st rep body).fuse = s.fuse := rfl
@[simp] theorem logChip_out (s : State) (cls : Nat) (st : Status) (rep : Bool) (body : List (Nat × Nat)) :
    (logChip s cls st rep body).out = s.out := rfl
@[simp] theorem logChip_answer (s : State) (cls : Nat) (st : Status) (rep : Bool) (body : List (Nat × Nat)) :
    (logChip s cls st rep body).answer = s.answer := rfl
@[simp] theorem logChip_answerData (s : State) (cls : Nat) (st : Status) (rep : Bool) (body : List (Nat × Nat)) :
    (logChip s cls st rep body).answerData = s.answerData := rfl
@[simp] theorem logChip_msgSeq (s : State) (cls : Nat) (st : Status) (rep : Bool) (body : List (Nat × Nat)) :
    (logChip s cls st rep body).msgSeq = s.msgSeq := rfl
@[simp] theorem logChip_mNow (s : State) (cls : Nat) (st : Status) (rep : Bool) (body : List (Nat × Nat)) :
    (logChip s cls st rep body).mNow = s.mNow := rfl
@[simp] theorem logChip_free (s : State) (cls : Nat) (st : Status) (rep : Bool) (body : List (Nat × Nat)) :
    (logChip s cls st rep body).free = s.free := rfl
@[simp] theorem coreAt_logChip (s : State) (cls : Nat) (st : Status) (rep : Bool) (body : List (Nat × Nat)) (i : Nat) :
    coreAt (logChip s cls st rep body) i = coreAt s i := rfl
@[simp] theorem galAt_logChip (s : State) (cls : Nat) (st : Status) (rep : Bool) (body : List (Nat × Nat)) (i : Nat) :
    galAt (logChip s cls st rep body) i = galAt s i := rfl
@[simp] theorem cavAt_logChip (s : State) (cls : Nat) (st : Status) (rep : Bool) (body : List (Nat × Nat)) (i : Nat) :
    cavAt (logChip s cls st rep body) i = cavAt s i := rfl
@[simp] theorem bunAt_logChip (s : State) (cls : Nat) (st : Status) (rep : Bool) (body : List (Nat × Nat)) (i : Nat) :
    bunAt (logChip s cls st rep body) i = bunAt s i := rfl
@[simp] theorem slotAt_logChip (s : State) (cls : Nat) (st : Status) (rep : Bool) (body : List (Nat × Nat)) (i : Nat) :
    slotAt (logChip s cls st rep body) i = slotAt s i := rfl

end Sys2Proof.Machine
end

