-- ==== Sys2Proof/Laws/Regs.lean ====
section
/-!
SUPPORT. Where a register's address leads, and that an access which passes the checks of R533 is that register's write.
-/

namespace Sys2Proof.Machine

theorem physOf_lt {s : State} {l p : Nat} (h : physOf s l = some p) : l < 2048 := by
  unfold physOf at h
  split at h
  · cases h
  · omega

/-- A core's register address leads to the physical core that serves it (R529). -/
theorem regAt_core {s : State} {l p off : Nat} (h : physOf s l = some p) (ho : off < 0x1000) :
    regAt s (coreReg l off) = .core p l off := by
  have hl := physOf_lt h
  have h1 : (coreReg l off - 0x800000) / 0x1000 = l := by unfold coreReg; omega
  have h2 : coreReg l off % 0x1000 = off := by unfold coreReg; omega
  have h3 : ¬ coreReg l off < 0x100000 := by unfold coreReg; omega
  have h4 : ¬ coreReg l off < 0x200000 := by unfold coreReg; omega
  have h5 : ¬ coreReg l off < 0x400000 := by unfold coreReg; omega
  have h6 : ¬ (coreReg l off < 0x800000 ∨ 0x1000000 ≤ coreReg l off) := by unfold coreReg; omega
  unfold regAt
  simp only [if_neg h3, if_neg h4, if_neg h5, if_neg h6, h1, h2, h]

theorem regAt_chip {s : State} {a : Nat} (h : a < 0x100000) : regAt s a = .chip a := by
  unfold regAt; simp only [if_pos h]

theorem regAt_gal {s : State} {g off : Nat} (hg : g < 32) (ho : off < 0x10000) : regAt s (galReg g off) = .gal g off := by
  have h1 : (galReg g off - 0x200000) / 0x10000 = g := by unfold galReg; omega
  have h2 : galReg g off % 0x10000 = off := by unfold galReg; omega
  have h3 : ¬ galReg g off < 0x100000 := by unfold galReg; omega
  have h4 : ¬ galReg g off < 0x200000 := by unfold galReg; omega
  have h5 : galReg g off < 0x400000 := by unfold galReg; omega
  unfold regAt
  simp only [if_neg h3, if_neg h4, if_pos h5, h1, h2]

theorem regAt_cav {s : State} {c off : Nat} (hc : c < 4) (ho : off < 0x30000) : regAt s (cavReg c off) = .cav c off := by
  have h1 : (cavReg c off - 0x100000) / 0x40000 = c := by unfold cavReg; omega
  have h2 : cavReg c off % 0x40000 = off := by unfold cavReg; omega
  have h3 : ¬ cavReg c off < 0x100000 := by unfold cavReg; omega
  have h4 : cavReg c off < 0x200000 := by unfold cavReg; omega
  have h5 : ¬ (0x30000 ≤ off ∧ off < 0x38000) := by omega
  unfold regAt
  simp only [if_neg h3, if_pos h4, h1, h2, if_neg h5]

theorem dropHalf_none {s : State} (h : s.half = none) (r : Reg) (w : Bool) : dropHalf s r w = s := by
  unfold dropHalf; rw [h]

/-- A write of a register that passes steps 1 to 3 of R533 and is no CORE_HAND is its own write. -/
theorem hostWrite_ok {s : State} {a v : Nat} {hand : Bool} {rq : Nat} {r : Reg} (hs : s.half = none)
    (hl : reloading s = false) (hr : regAt s a = r) (hh : isHandReg r = false) (hc : accessCheck s r true hand = .done) :
    hostWrite s a v hand rq = writeAccepted s r v := by
  unfold hostWrite
  simp [hl, hr, dropHalf_none hs, hh, hc]

/-- A write that meets no update of the register by the part has the register's own effect. -/
theorem rejectBusy_off {s : State} {r : Reg} (h : hwHit s r = false) (x : Status × State) : rejectBusy s r x = x := by
  simp [rejectBusy, h]

/-- No write of a register of a core that the Guideline reaches meets an update by the part. -/
theorem Reach.noHit {s : State} {l p : Nat} (h : Reach s l p) (off : Nat) : hwHit s (.core p l off) = false := by
  cases e : hwHit s (.core p l off) with
  | false => rfl
  | true => exact absurd rfl (h.2.2.2.1 _ (List.contains_iff_mem.mp e))

/-- A write of a core's register that stands in the map, is not read only and is no CORE_HAND. -/
theorem hostWrite_core {s : State} {l p off v m rq : Nat} {hand : Bool} (h : Reach s l p) (ho : off < 0x1000)
    (hi : coreInfo off = some (false, m)) (hm : v &&& m = v) (hh : off ≠ 0x7E0) (hn : off < 0x640 ∨ 0x65C < off) :
    hostWrite s (coreReg l off) v hand rq =
      ((writeCore s p l off v).1, noteStatus (writeCore s p l off v).2 (.core p l off) v (writeCore s p l off v).1) := by
  have hu := h.noHit off
  obtain ⟨⟨_, he, hf, hl⟩, hp, hg, _⟩ := h
  have hacc : accessCheck s (.core p l off) true hand = .done := by
    simp [accessCheck, regInfo, hi, he, hh, unreachable, hg]
  rw [hostWrite_ok hf hl (regAt_core hp ho) (by simp [isHandReg, hh]) hacc]
  have hk : isHeldReg (.core p l off) = false := by
    simp only [isHeldReg, Bool.and_eq_false_iff, decide_eq_false_iff_not]; omega
  simp only [writeAccepted, regWrite, rejectBusy_off hu, regEffect, regInfo, hi, hm, ne_eq, not_true_eq_false, if_false, hk, Bool.false_eq_true]

/-- The row of a command that is the write of a core's register other than CORE_CTX_OP. -/
theorem regRow_core {s : State} {l p off m : Nat} {v : Word} (h : Reach s l p) (ho : off < 0x1000)
    (hi : coreInfo off = some (false, m)) (hm : Clean v m) (hh : off ≠ 0x7E0) (hn : off < 0x640 ∨ 0x65C < off)
    (hx : off ≠ 0x130) :
    regRow s true (coreReg l off) v =
      report (writeCore s p l off v.toNat).2 (writeCore s p l off v.toNat).1 := by
  have hw := hostWrite_core (rq := 0) (hand := false) h ho hi hm hh hn
  unfold regRow
  simp [h.1.1, hw, noteStatus, hx]

theorem and_word (v : Word) : v.toNat &&& 0xFFFFFFFF = v.toNat := by
  have := v.isLt
  have h := Nat.and_two_pow_sub_one_of_lt_two_pow (n := 32) this
  exact h

/-- A write of a chip register that stands in the map, is not read only and does not wait for Dusk. -/
theorem hostWrite_chip {s : State} {off v m rq : Nat} {hand : Bool} (h : Serves s) (ho : off < 0x100000)
    (hi : chipInfo off = some (false, m)) (hm : v &&& m = v) (hk : isHeldReg (.chip off) = false) (h1 : off ≠ 0x300)
    (h2 : off ≠ 0x40C) (hu : hwHit s (.chip off) = false) :
    hostWrite s off v hand rq =
      ((writeChip s off v).1, noteStatus (writeChip s off v).2 (.chip off) v (writeChip s off v).1) := by
  obtain ⟨_, he, hf, hl⟩ := h
  have hacc : accessCheck s (.chip off) true hand = .done := by
    simp [accessCheck, regInfo, hi, he, unreachable, isPort]
  rw [hostWrite_ok hf hl (regAt_chip ho) (by simp [isHandReg]) hacc]
  simp only [writeAccepted, if_neg h1, if_neg h2, regWrite, rejectBusy_off hu, regEffect, regInfo, hi, hm, ne_eq, not_true_eq_false, if_false, hk,
    Bool.false_eq_true]

/-- The row of a command that is the write of a chip register. -/
theorem regRow_chip {s : State} {off m : Nat} {v : Word} (h : Serves s) (ho : off < 0x100000)
    (hi : chipInfo off = some (false, m)) (hm : Clean v m) (hk : isHeldReg (.chip off) = false) (h1 : off ≠ 0x300)
    (h2 : off ≠ 0x40C) (hu : hwHit s (.chip off) = false) :
    regRow s true off v =
      report (noteStatus (writeChip s off v.toNat).2 (.chip off) v.toNat (writeChip s off v.toNat).1)
        (writeChip s off v.toNat).1 := by
  have hw := hostWrite_chip (rq := 0) (hand := false) h ho hi hm hk h1 h2 hu
  unfold regRow
  simp [h.1, hw]

/-- The row of a command that is the write of a Gallery's register. -/
theorem regRow_gal {s : State} {g off m : Nat} {v : Word} (h : Serves s) (hg : g < 32) (ho : off < 0x10000)
    (hi : galInfo off = some (false, m)) (hm : Clean v m) (hk : isHeldReg (.gal g off) = false) :
    regRow s true (galReg g off) v =
      report (noteStatus (writeGal s g off v.toNat).2 (.gal g off) v.toNat (writeGal s g off v.toNat).1)
        (writeGal s g off v.toNat).1 := by
  obtain ⟨hp, he, hf, hl⟩ := h
  have hacc : accessCheck s (.gal g off) true false = .done := by
    simp [accessCheck, regInfo, hi, he, unreachable, isPort]
  have hw : hostWrite s (galReg g off) v.toNat false 0 = writeAccepted s (.gal g off) v.toNat :=
    hostWrite_ok hf hl (regAt_gal hg ho) (by simp [isHandReg]) hacc
  unfold Clean at hm
  unfold regRow
  simp [hp, hw, writeAccepted, regWrite, rejectBusy, hwHit, regEffect, regInfo, hi, hm, hk]

/-- The row of a command that is the write of a Cavern's register. -/
theorem regRow_cav {s : State} {c off m : Nat} {v : Word} (h : Serves s) (hc : c < 4) (ho : off < 0x30000)
    (hi : cavInfo off = some (false, m)) (hm : Clean v m) (hk : isHeldReg (.cav c off) = false) :
    regRow s true (cavReg c off) v =
      report (noteStatus (writeCav s c off v.toNat).2 (.cav c off) v.toNat (writeCav s c off v.toNat).1)
        (writeCav s c off v.toNat).1 := by
  obtain ⟨hp, he, hf, hl⟩ := h
  have hacc : accessCheck s (.cav c off) true false = .done := by
    simp [accessCheck, regInfo, hi, he, unreachable, isPort]
  have hw : hostWrite s (cavReg c off) v.toNat false 0 = writeAccepted s (.cav c off) v.toNat :=
    hostWrite_ok hf hl (regAt_cav hc ho) (by simp [isHandReg]) hacc
  unfold Clean at hm
  unfold regRow
  simp [hp, hw, writeAccepted, regWrite, rejectBusy, hwHit, regEffect, regInfo, hi, hm, hk]

end Sys2Proof.Machine
end

