-- ==== Sys2Proof/WellFormed.lean ====
section
/-!
DEFINITION. When a command's operands name things that exist: cores, queues, Galleries, Caverns, bundles, slots, rings,
windows and banks within their ranges (R18, R19, R215, R253, R288, R316, R342, R412).
-/

namespace Sys2Proof

/-- A difference names a column or row of the tile, or its corner (R97). -/
def cellFaultOk (f : CellFault) : Bool := decide (f.row ≤ 32) && decide (f.col ≤ 32)

/-- Wrong codewords of a flit, or of the flits of a packet: a codeword within it and a pattern of 72 bits (R407). -/
def errsOk (n : Nat) (errs : List (Nat × Nat)) : Bool := errs.all fun e => decide (e.1 < n) && decide (0 < e.2) && decide (e.2 < 2 ^ 72)

/-- An arrival's bundle exists, and its wrong codewords are codewords of at most nine flits (R279, R405). -/
def portOk : Port → Bool
  | .vein => true
  | .sump b errs => decide (b < 2176) && errsOk 72 errs

/-- What training observes: three clock lanes, at most 68 positions of at most 64 words each, and a step of R412. -/
def linkObsOk (o : LinkObs) : Bool :=
  o.clocks.length == 3 && decide (o.positions.length ≤ 68) &&
  (o.positions.all fun x => decide ((x.words.map (·.2)).sum ≤ 64)) && o.overran.all fun k => decide (1 ≤ k) && decide (k ≤ 6)

/-- What training observes of both links of a bundle. -/
def trainObsOk (o : TrainObs) : Bool := linkObsOk o.up && linkObsOk o.down

/-- The operand ranges of each command. -/
def Instr.wellFormed : Instr → Bool
  | .powerUp => true
  | .powerDown => true
  | .vddInLow => true
  | .vddSumpFault => true
  | .echoStart => true
  | .echoReload => true
  | .apertureWrite off _ => decide (off < 65536 ∧ off % 4 = 0)
  | .verify => true
  | .apply => true
  | .clock => true
  | .power _ => true
  | .train obs => obs.all fun e => decide (e.1 < 2176) && trainObsOk e.2
  | .topology obs => obs.all fun x => decide (x.gal < 32) && decide (x.port < 4)
  | .ready => true
  | .stagingClear => true
  | .reload _ => true
  | .reloadCancel _ => true
  | .resetAssert _ => true
  | .resetEffect => true
  | .resetRelease _ => true
  | .resetExit => true
  | .dieResetSelfRelease => true
  | .peerDown _ => true
  | .regReq _ => true
  | .regAccess _ => true
  | .dayRunStart _ => true
  | .dayRunStop _ => true
  | .firstDawn => true
  | .duskMark bundle => decide (bundle < 8)
  | .localDusk => true
  | .daybreakEnd => true
  | .twilightBegin => true
  | .commandRowFetch core q => decide (core < 2048) && decide (q < 4)
  | .nop core q => decide (core < 2048) && decide (q < 4)
  | .queueResume core q _ => decide (core < 2048) && decide (q < 4)
  | .pass core => decide (core < 2048)
  | .passIssue core _ fault => decide (core < 2048) && fault.all cellFaultOk
  | .activityRampStep core => decide (core < 2048)
  | .checkModeWrite core _ => decide (core < 2048)
  | .gangIssue gal _ faults => decide (gal < 32) && faults.all fun x => decide (x.1 < 64) && cellFaultOk x.2
  | .gangTimeout gal => decide (gal < 32)
  | .drain core => decide (core < 2048)
  | .descSet core => decide (core < 2048)
  | .rescale core => decide (core < 2048)
  | .zero core => decide (core < 2048)
  | .outputPathStart core _ => decide (core < 2048)
  | .vecStart core _ => decide (core < 2048)
  | .add core => decide (core < 2048)
  | .sub core => decide (core < 2048)
  | .mul core => decide (core < 2048)
  | .min core => decide (core < 2048)
  | .max core => decide (core < 2048)
  | .cmplt core => decide (core < 2048)
  | .cmple core => decide (core < 2048)
  | .cmpeq core => decide (core < 2048)
  | .sel core => decide (core < 2048)
  | .copy core => decide (core < 2048)
  | .neg core => decide (core < 2048)
  | .abs core => decide (core < 2048)
  | .shift core => decide (core < 2048)
  | .isnar core => decide (core < 2048)
  | .exp2 core => decide (core < 2048)
  | .log2 core => decide (core < 2048)
  | .recip core => decide (core < 2048)
  | .rsqrt core => decide (core < 2048)
  | .widen core => decide (core < 2048)
  | .narrow core => decide (core < 2048)
  | .rsum core => decide (core < 2048)
  | .rsumsq core => decide (core < 2048)
  | .rmax core => decide (core < 2048)
  | .rmin core => decide (core < 2048)
  | .sget core => decide (core < 2048)
  | .softmax core => decide (core < 2048)
  | .lnorm core => decide (core < 2048)
  | .rmsnorm core => decide (core < 2048)
  | .xent core => decide (core < 2048)
  | .mse core => decide (core < 2048)
  | .cscnt core => decide (core < 2048)
  | .csclr core => decide (core < 2048)
  | .censusRollup => true
  | .scrubPool phys row => decide (phys < 2176) && decide (row < 512)
  | .scrubPoolWriteback phys row => decide (phys < 2176) && decide (row < 512)
  | .scrubFlowstone phys trow => decide (phys < 2176) && decide (trow < 256)
  | .scrubFlowstoneWriteback phys trow => decide (phys < 2176) && decide (trow < 256)
  | .scrubSync phys _ => decide (phys < 2176)
  | .scrubConfig _ => true
  | .sbTimeout core q => decide (core < 2048) && decide (q < 5)
  | .tailAdd port _ => portOk port
  | .headAdd port _ => portOk port
  | .ringEnable core n _ => decide (core < 2048) && decide (n < 16)
  | .ringDisable core n _ => decide (core < 2048) && decide (n < 16)
  | .wr port _ => portOk port
  | .inboundCommit core bank => decide (core < 2048) && decide (bank < 17)
  | .classTWrite port _ => portOk port
  | .rd port _ => portOk port
  | .poolBankOffRequest core _ => decide (core < 2048)
  | .poolBankOffCancel core _ => decide (core < 2048)
  | .poolBankPowerDown core bank => decide (core < 2048) && decide (bank < 16)
  | .poolBankPowerUp core _ => decide (core < 2048)
  | .poolBankReady core bank => decide (core < 2048) && decide (bank < 16)
  | .move core => decide (core < 2048)
  | .tileOut core => decide (core < 2048)
  | .signal core => decide (core < 2048)
  | .grant core => decide (core < 2048)
  | .deepRead core => decide (core < 2048)
  | .movePrelude core q _ => decide (core < 2048) && decide (q < 4)
  | .moveIssue core _ => decide (core < 2048)
  | .deepReadIssue core => decide (core < 2048)
  | .moveIssueTimeout core q => decide (core < 2048) && decide (q < 4)
  | .deepData port _ => portOk port
  | .ack port _ => portOk port
  | .rowTimeout core _ _ => decide (core < 2048)
  | .creditGrant port _ => portOk port
  | .revoke port _ => portOk port
  | .bounce port _ => portOk port
  | .injectFlit core side err => decide (core < 2048 + 2176) && decide (side < 2) && errsOk 8 err.words
  | .routerArbitrate node _ err => decide (node < 64) && errsOk 8 err.words
  | .headBoost node _ channel => decide (node < 64) && decide (channel < 4)
  | .watchdogStall node _ channel => decide (node < 64 + 2 * (2048 + 2176)) && decide (channel < 4)
  | .windowOpen core w _ => decide (core < 2048) && decide (w < 8)
  | .windowClose core w _ => decide (core < 2048) && decide (w < 8)
  | .set core q => decide (core < 2048) && decide (q < 4)
  | .clear core q => decide (core < 2048) && decide (q < 4)
  | .wait core q => decide (core < 2048) && decide (q < 4)
  | .count core q => decide (core < 2048) && decide (q < 4)
  | .waitCnt core q => decide (core < 2048) && decide (q < 4)
  | .arrive core q => decide (core < 2048) && decide (q < 4)
  | .waitSlot core q => decide (core < 2048) && decide (q < 4)
  | .fence core q => decide (core < 2048) && decide (q < 4)
  | .fenceComplete core q => decide (core < 2048) && decide (q < 4)
  | .waitTimeout core q => decide (core < 2048) && decide (q < 4)
  | .cntAdd port _ => portOk port
  | .cntMax port _ => portOk port
  | .counterEnable core _ => decide (core < 2048)
  | .counterDisable core _ => decide (core < 2048)
  | .chimneyRelease slot parity => decide (slot < 128) && decide (parity < 2)
  | .chimneyRel slot _ bundle => decide (bundle < 8) && decide (slot < 128)
  | .releaseReachesCore core slot => decide (core < 2048) && decide (slot < 128)
  | .slotBreak slot _ => decide (slot < 128)
  | .arriveTimeout core ctx slot => decide (core < 2048) && decide (ctx < 4) && decide (slot < 128)
  | .slotEnable slot _ => decide (slot < 128)
  | .slotDisable slot _ => decide (slot < 128)
  | .slotRearm slot _ => decide (slot < 128)
  | .setFlag core requester _ => decide (core < 2048) && decide (1 ≤ requester ∧ requester < 65536)
  | .clearFlag core requester _ => decide (core < 2048) && decide (1 ≤ requester ∧ requester < 65536)
  | .cntWrite core requester _ => decide (core < 2048) && decide (1 ≤ requester ∧ requester < 65536)
  | .ringHead core requester _ => decide (core < 2048) && decide (1 ≤ requester ∧ requester < 65536)
  | .ringTail core requester _ => decide (core < 2048) && decide (1 ≤ requester ∧ requester < 65536)
  | .create core _ => decide (core < 2048)
  | .bind core _ => decide (core < 2048)
  | .unbind core _ => decide (core < 2048)
  | .queuePark core q => decide (core < 2048) && decide (q < 4)
  | .save core _ => decide (core < 2048)
  | .saveComplete core => decide (core < 2048)
  | .restore core _ => decide (core < 2048)
  | .restoreHeaderCheck core => decide (core < 2048)
  | .restoreComplete core => decide (core < 2048)
  | .destroy core _ => decide (core < 2048)
  | .settle core _ => decide (core < 2048)
  | .contextOpTimeout core => decide (core < 2048)
  | .unsettledMaskBroadcast gal => decide (gal < 32)
  | .spare cav _ => decide (cav < 4)
  | .unspare cav _ => decide (cav < 4)
  | .offline cav _ => decide (cav < 4)
  | .online cav _ => decide (cav < 4)
  | .capacityCancel cav _ => decide (cav < 4)
  | .bundleTrain b _ obs => decide (b < 2184) && trainObsOk obs
  | .linkAutoTrain b obs => decide (b < 2184) && trainObsOk obs
  | .trainingStepTimeout b obs => decide (b < 2184) && trainObsOk obs
  | .retrain b _ _ obs => decide (b < 2184) && trainObsOk obs
  | .laneRecalibrate b => decide (b < 2184)
  | .marginalLane b lane _ => decide (b < 2184) && decide (lane < 64)
  | .linkFlit b _ errs _ => decide (b < 2184) && errsOk 8 errs
  | .linkDown b _ => decide (b < 2184)
  | .railPower cav _ bundle => decide (bundle < 8) && decide (cav < 4)
  | .linkState => true
  | .telemetry bundle => decide (bundle < 8)
  | .loopEnable b _ => decide (b < 2184)
  | .loopTestStart b _ obs => decide (b < 2184) && linkObsOk obs
  | .sequenceEnd cav => decide (cav < 4)
  | .referenceLost => true
  | .referenceRelock cav => decide (cav < 4)
  | .issueWindow gal => decide (gal < 32)
  | .powerWindowTimeout cav => decide (cav < 4)
  | .droopTrip gal => decide (gal < 32)
  | .stretchEnd cav => decide (cav < 4)
  | .thermalCalibration gal => decide (gal < 32)
  | .attestReq => true
  | .attestComplete => true
  | .bistStart gal _ => decide (gal < 32)
  | .bistComplete gal failUnit repair => decide (gal < 32) && decide (failUnit < 7) &&
    repair.all fun r => (decide (r.1 < 33) || r.1 == 0x3F) && (decide (r.2 < 33) || r.2 == 0x3F)
  | .standaloneSet _ => true
  | .tapLock _ => true
  | .logHeadAdvance _ => true
  | .logClearLost => true
  | .idcode => true
  | .samplePreload _ _ => true
  | .extest _ => true
  | .wrap1500 => true
  | .gsel gal => decide (gal < 32)
  | .bypass _ => true
  | .droopDetectorClear gal => decide (gal < 32)
  | .temperatureSample gal _ => decide (gal < 32)
  | .loopTestComplete b _ => decide (b < 2184)
  | .uncorrectableHeaderFlit b errs => decide (b < 2184) && errsOk 8 errs
  | .unknownMessage bundle _ => decide (bundle < 8)

end Sys2Proof
end

