-- ==== Sys2Proof/Tests/Slice0.lean ====
section
/-!
SUPPORT. The model's own tests: the spec's worked examples, the ill-formed terms the well-formedness check refuses, and for
each statement with hypotheses a state and operands that meet them.
-/

namespace Sys2Proof.Tests

open Sys2Proof Sys2Proof.Machine

set_option Elab.async false

/-- A part at stage READY, powered and served by Echo, with Cavern 0's A-clock at cycle 10000, and physical core 0's bundle
and one management bundle UP. -/
def wOn : State :=
  { State.reset with
    boot := { State.reset.boot with powered := true, stage := 7, echo := true, defState := 1, idState := 1, gatesOn := true,
                                    released := true },
    cavs := [(0, { Cav.init with running := true, fifths := 50000, locked := true })],
    bundles := [(0, { Bundle.init 0 with state := 2 }), (2176, { Bundle.init 2176 with state := 2 })],
    mNow := 10000 }

/-- The part at another boot stage. -/
def wStage (n : Nat) (released := false) : State := { wOn with boot := { wOn.boot with stage := n, released := released } }

/-- The part with physical core 0 changed. -/
def wCore (f : Core → Core) : State := { wOn with cores := [(0, f Core.init)] }

/-- The part with its Day timer at a time. -/
def wDay (f : Day → Day) : State := { wOn with day := f { State.reset.day with run := true, inForce := true } }

/-- The part with its configuration changed. -/
def wCfg (f : Cfg → Cfg) : State := { wOn with cfg := f State.reset.cfg }

/-- The part with Gallery, Cavern, bundle or slot 0 changed. -/
def wGal (f : Gal → Gal) : State := { wOn with gals := [(0, f Gal.init)] }
def wCav (f : Cav → Cav) : State := updCav wOn 0 f
def wBun (b : Nat) (f : Bundle → Bundle) : State := updBun wOn b f
def wSlot (n : Nat) (f : Slot → Slot) (s : State) : State := updSlot s n fun x => f { x with enable := true }

/-- An enabled ring. -/
def wRing (n base size : Nat) : Ring := { Ring.init n with base := base, size := size, enable := true }

/-- A core with queue q at work and a slot's bits at its head. -/
def wQueue (q b : Nat) (k : Core) : Core :=
  setQueue (setRing k q { wRing q 0 4 with tail := 1 }) q
    { Queue.init with state := 1, bufs := [{ count := 0, row := { data := BitVec.ofNat 4096 b, side := 0 }, bad := false, avail := 0 }] }

/-- A decoded command. -/
def wDec (c : Cmd) : Decoded :=
  { slot := 0, ctx := 0, tag := none, cmd := c, since := 9000, limit := 2000, sbFrom := 9000, sbLimit := 100, idx := none, track := 0 }

/-- A core with a command decoded at the head of queue q. -/
def wHead (q : Nat) (d : Decoded) (k : Core) : Core :=
  setQueue (setRing k q (wRing q 500 4)) q
    { Queue.init with state := 1, head := some d,
                      bufs := [{ count := 0, row := Row.zero, bad := false, avail := 0 }] }

/-- A core with a command in the output path's pending slot. -/
def wPend (d : Decoded) (k : Core) : Core := { k with outp := { k.outp with pend := some d } }

/-- A packet from logical core 0 of the die. -/
def wPkt (t : PType) (a : Nat) (w : Quad) : Packet := { Packet.empty with addr := BitVec.ofNat 64 a, ptype := t, word := w }

/-- A drain of tile 7 to rows 96 and 97. -/
def wDrain : DrainCmd :=
  { tile := 7, dstRow := 96, ofmt := 0, maxabs := false, oexp := 2, wexp := none, act := 0, leak := 0, scEn := false,
    scRow := 0, biasEn := true, biasRow := 64, biasGrp := 0, topk := 0, topkRow := 0, colBase := 0, doneFlag := 0,
    doneEn := false, censusEn := false }

/-- A core whose matrix queue holds a decoded gang pass, its activity level at 16. -/
def wMemberCore (checker : Bool) : Core :=
  { wHead 0 (wDec (.pass (passBuild 0x10000000 0))) Core.init with
    tile := { Tile.init with level := 16, rampTgt := true, rampAt := 9000, checkMode := checker, checkEnd := if checker then 99999 else 0 } }

/-- Gallery 0 with 64 members arrived at the rendezvous and a ceiling of its limiter. -/
def wGangOf (checker : Bool) (ceiling : Nat) : State :=
  { wOn with
    cores := (List.range 64).map fun i => (mapCore wOn i, wMemberCore checker),
    gals := [(0, { Gal.init with rendezvous := (List.range 64).map fun i => (i, 9000),
                                 lim := { Gal.init.lim with ceiling := ceiling, window := 39 } })] }
def wGang : State := wGangOf false 64
def wGangFull : State := wGangOf false 63
def wGangChecker : State := wGangOf true 64

/-- An inbound row for Pool row 511. -/
def wIn : InEntry :=
  { row := 511, fs := false, data := { data := 5, side := 1 }, entered := 0, own := false, tag := 0, q := 0, ring := 24,
    pkt := Packet.empty }

/-- An issued move command under tag 255. -/
def wRun : MoveRun :=
  { tag := 255, q := 3, op := 1, slot := 0, ctx := 0, rows := 1, resp := [], deadline := [], released := 0, doneAt := false,
    doneFlag := 0, doneEn := false, dstFs := false, whole := false, dst := 0, poisoned := false, image := [], issued := 0,
    began := 0, track := 0 }

/-- Context 0 of core 0 a member of an enabled Chimney slot. -/
def wMember (n : Nat) (s : State) : State :=
  { wSlot n id s with cfg := { s.cfg with memb := [(n / 2, if n % 2 = 0 then 1 else 16)] } }

/-- A fence that awaits command 9. -/
def wFence : FenceWait := { slot := 0, ctx := 0, scope := 0, ids := [9], track := 10, doneFlag := 0, doneEn := false }

/-- A sleeping WAIT with its deadline. -/
def wSleep (deadline : Nat) : Sleep :=
  { slot := 0, ctx := 0, cmd := syncBuild (parseHeader 6) 0x10003 0 0, deadline := deadline, arrived := false, track := 0 }

/-- A receiving position that saw the ident of a transmitter position, 64 times alike. -/
def wRx (half pos dir : Nat) : RxObs := { toggled := true, words := [(identSent (identWord half pos dir), 64)] }

/-- Both links seen with every position good. -/
def wLink (dir : Nat) : LinkObs :=
  { clocks := [true, true, true], positions := (List.range 68).map fun q => wRx (q / 34) (q % 34) dir, overran := none }
def wObs : TrainObs := { up := wLink 1, down := wLink 0 }

/-- Training that finds no position, and training a step of which has not ended. -/
def wDead : TrainObs := { wObs with up := { wObs.up with positions := [] } }
def wLate : TrainObs := { wObs with down := { wObs.down with overran := some 6 } }

/-- A register request. -/
def wReq : RegReq :=
  { seq := 1, op := 0, hand := 0, requester := 1, addr := 0x700, data := 0, restZero := true, bundle := 0 }


/-- What holds of a table's default and of its entries holds of every entry read. -/
theorem Store_get_all {α : Type} (d : α) (P : α → Prop) (hd : P d) :
    ∀ m : Store α, (∀ e, e ∈ m → P e.2) → ∀ i, P (Store.get d m i)
  | [], _, _ => hd
  | (j, x) :: t, h, i => by
    unfold Store.get
    split
    · exact h (j, x) List.mem_cons_self
    · exact Store_get_all d P hd t (fun e he => h e (List.mem_cons_of_mem _ he)) i

/-- What holds of a table's default and, at their keys, of its entries, holds of every entry read. -/
theorem Store_get_at {α : Type} (d : α) (P : Nat → α → Prop) (hd : ∀ i, P i d) :
    ∀ m : Store α, (∀ e, e ∈ m → P e.1 e.2) → ∀ i, P i (Store.get d m i)
  | [], _, i => hd i
  | (j, x) :: t, h, i => by
    unfold Store.get
    split
    · rename_i e
      exact e ▸ h (j, x) List.mem_cons_self
    · exact Store_get_at d P hd t (fun e he => h e (List.mem_cons_of_mem _ he)) i

/-- No queue but one sleeps when no other listed queue does. -/
theorem noSleepBut (k : Core) {q : Nat} (h : ∀ e, e ∈ k.queues → e.1 ≠ q → e.2.sleep = none) (r : Nat) (hr : r ≠ q) :
    (queueAt k r).sleep = none :=
  Store_get_at Queue.init (fun i x => i ≠ q → x.sleep = none) (fun _ _ => rfl) k.queues h r hr

/-- An estimate agrees with itself; one under 2,000 does not agree with 4,095, and no other with 0 (R448). -/
theorem same_agrees (e : Nat) : 20 * ((e - e) + (e - e)) ≤ 3 * e := by omega
theorem far_disagrees {e : Nat} (h : e ≤ 0xFFF) :
    ¬20 * ((e - (if e < 2000 then 0xFFF else 0)) + ((if e < 2000 then 0xFFF else 0) - e)) ≤ 3 * (if e < 2000 then 0xFFF else 0) := by
  split <;> omega

/-- No queue of a core sleeps when none of its listed queues does. -/
theorem noSleep (k : Core) (h : ∀ e, e ∈ k.queues → e.2.sleep = none) (q : Nat) : (queueAt k q).sleep = none :=
  Store_get_all Queue.init (fun x => x.sleep = none) rfl k.queues h q

/-- A core none of whose listed rings is abandoned ends no command that waits with ABANDONED. -/
theorem notAbandoned {s : State} {l p : Nat} {c : Cmd} (h : ∀ e, e ∈ (coreAt s p).pool.rings → e.2.abandoned = false) :
    NotAbandoned s l p c := by
  intro d _ _
  have ha : ∀ row, readAbandoned (coreAt s p) row = false := by
    intro row
    unfold readAbandoned
    split
    · rename_i n r hr
      have hm := List.mem_of_find?_eq_some hr
      obtain ⟨m, _, hm⟩ := List.mem_map.mp hm
      have hx : (ringAt (coreAt s p) m).abandoned = false :=
        Store_get_all (Ring.init m) (fun x => x.abandoned = false) rfl _ h m
      rw [(Prod.mk.inj hm).2] at hx
      simp [hx]
    · rfl
  unfold cmdVerdict issueVerdict
  have hb : ∀ rs : List Nat, rs.any (readAbandoned (coreAt s p)) = false := fun rs =>
    List.any_eq_false.mpr fun x _ => by simp [ha x]
  simp only [hb, Bool.false_eq_true, if_false]
  split <;> nofun

/-- What a computed check of an optional value says of the value. -/
theorem of_some {α : Type} {o : Option α} {P : α → Prop} [DecidablePred P] (h : o.all (fun x => decide (P x)) = true) :
    ∀ x, o = some x → P x := by
  intro x e
  subst e
  simpa using h

/-- A computed check that the slot at a queue's head decodes to a command. -/
def decodesTo (s : State) (l q p key : Nat) (c : Cmd) : Bool :=
  match headBits (queueAt (coreAt s p) q) with
  | none => false
  | some b =>
    decide (liveCore s l = some p) && queueFree (coreAt s p) q && decide (slotKey q b = key) && !slotBad q b &&
    decide ((coreAt s p).sync.due = []) && decide ((coreAt s p).upsets.sync = []) &&
    decide (decodeSlot s p l q key b = .ok c)

theorem decodes_of {s : State} {l q p key : Nat} {c : Cmd} (h : decodesTo s l q p key c = true) : Decodes s l q p key c := by
  unfold decodesTo at h
  split at h
  · exact absurd h (by decide)
  · rename_i b hb
    simp only [Bool.and_eq_true, decide_eq_true_eq, Bool.not_eq_true'] at h
    obtain ⟨⟨⟨⟨⟨⟨h1, h2⟩, h3⟩, h4⟩, h5⟩, h6⟩, h7⟩ := h
    exact ⟨b, ⟨h1, h2, hb, h3, h4, h5, h6⟩, h7⟩

/-! Worked examples of the spec, and single commands. -/

/-- R18, R19 (example of 01_organisation): core 0x579 beyond the mapped-out column 4 of its row is physical core 1,489. -/
theorem test_map_example :
    mapCore { State.reset with gals := [(21, { Gal.init with outCol := [16, 16, 16, 4] })] } 0x579 = 1489 := by decide +kernel

/-- R35 (example of 01_organisation). -/
theorem test_address_example :
    (addrDie 0x002A000057925800, addrSpace 0x002A000057925800, addrCore 0x002A000057925800, addrByte 0x002A000057925800) =
      (0x2A, 0, 0x579, 300 * 512) := by decide +kernel

/-- R38 to R41 (examples of 02_number_formats): K2, K4 and K8 element codes. -/
theorem test_element_examples :
    [0, 1, 3, 2].map (elemValue 2) = [some 0, some 1, some (-1), none] ∧ elemValue 1 0xB = some (-3) ∧
    elemValue 1 0x9 = some (-1) ∧ elemValue 0 0x8B = some (-11) ∧ elemValue 0 0x80 = none ∧
    (mkBlock 0x80 [some 0]).lanes = [none] := by decide +kernel

/-- R58 (example of 02_number_formats): an aligned product, shifted left and truncated toward zero. -/
theorem test_product_example :
    (alignedProduct (-4) (-5) (-12) (some 101) (some (-73))).toWord = 0x00FFFFFFFFFF1998 ∧
    (alignedProduct (-4) (-5) (-6) (some 101) (some (-73))).toWord = 0x00FFFFFFFFFFFC67 := by decide +kernel

/-- R55 (example of 02_number_formats): the order of additions matters. -/
theorem test_sum_order_example :
    ([4, -4, -1].foldl (fun x v => A64.add x (.ofExact v)) (A64.ofExact (2 ^ 55 - 2))).isInf = true ∧
    [-4, -1, 4].foldl (fun x v => A64.add x (.ofExact v)) (A64.ofExact (2 ^ 55 - 2)) = A64.ofExact (2 ^ 55 - 3) := by
  decide +kernel

/-- R61 (example of 02_number_formats): MAXABS of 58,984, 1,000, -300 and +infinity at exponent -12 picks -3. -/
theorem test_maxabs_example :
    maxabsExp ([0x00FFFFFFFFFF1998, 0x3E8, 0x00FFFFFFFFFFFED4, 0x4000000000000000].map fun w => a64Wide (-12) (A64.ofWord w)) 7 =
      -3 := by decide +kernel

/-- R107 (example of 04_gangs). -/
theorem test_gang_position_example :
    gangPos 2 (16 + 3) = (0, 28) ∧ gangPos 2 (48 + 3) = (1, 28) ∧ gangPos 3 (48 + 3) = (0, 60) := by decide +kernel

/-- R143 to R151 (example of 05_accumulation): the first four bytes of the drained row and its first scale. -/
theorem test_drain_example :
    let row0 : TileRow := mkTileRow ([A64.ofWord 0x2710, A64.ofWord 0x00FFFFFFFFFFF000, A64.ofWord 0x1770,
      A64.ofWord 0x4000000000000000] ++ List.replicate 28 (A64.ofExact 0))
    let zero : TileRow := mkTileRow (List.replicate 32 (A64.ofExact 0))
    let d : DrainCmd := { wDrain with maxabs := true, oexp := 0, act := 1, scEn := true, biasEn := true }
    let sc := mkRow (packN 16 [3, 2, 0x8001, 1]) 0xFF
    let bias := mkRow (packN 32 [4, 8, 0xFFFFFFFC, 0]) 0xFC
    ((drainRows d (-12) (drainStages d (-12) (-12) (some sc) (some bias) ((row0 :: List.replicate 31 zero).map tileWords))).map
      fun o => (fieldN o.row.data.toNat 0 32, fieldN o.row.side.toNat 0 16))
      = [(0x8000007D, 0xF9FB), (0x00004020, 0xF9F9)] := by decide +kernel

/-- R180 (example of 06_vector_engine): EXP2 of 2.5, -1, NaR, -40 and zeros with MAXABS. -/
theorem test_exp2_example :
    let i : VecIns := { op := 0x15, aRow := 0, bRow := 0, dRow := 0, n := 0, sreg := 0, bsrc := false, omode := 1, oexp := 0,
                        doneFlag := 0, doneEn := false }
    let r := ((vecResult i [mkRow (packN 32 [5, 0xFFFFFFFE, 0x80000000, 0xFFFFFFB0]) 0xFF] [] [] []).rows.map (·.row)).headD Row.zero
    (fieldN r.data.toNat 0 32, fieldN r.data.toNat 32 32, fieldN r.data.toNat 64 32, fieldN r.data.toNat 96 32,
     fieldN r.data.toNat 128 32, fieldN r.side.toNat 0 8) =
      (0x5A827999, 0x08000000, 0x80000000, 0, 0x10000000, 0xE4) := by decide +kernel

/-- R222, R171 (example of 08_pool): the reserved phase of bank 12 is 8; a start at phase 5 waits for phase 8. -/
theorem test_phase_example : reservedPhase 12 = 8 ∧ reservedPhase 6 = 28 ∧ nextPhase 2053 0 4 = 2056 := by decide +kernel

/-- R352 (example of 11_queues_and_contexts): at 904 ns budget 80 decodes; at 905 ns 120 is held and 0 decodes. -/
theorem test_gate_example :
    gateHolds (wDay fun d => { d with ns := 904, gate := true }) 0 80 = false ∧
    gateHolds (wDay fun d => { d with ns := 905, gate := true }) 0 120 = true ∧
    gateHolds (wDay fun d => { d with ns := 905, gate := true }) 0 0 = false := by decide +kernel

/-- R414 (example of 13_sump_interface): positions 5, 6 and 54 invalid on a reversed link are 62, 61 and 13. -/
theorem test_training_example :
    let seen : LinkObs := { clocks := [true, true, true], overran := none, positions := (List.range 68).map fun p =>
      if p = 5 ∨ p = 6 ∨ p = 54 then { toggled := true, words := [] } else wRx ((67 - p) / 34) ((67 - p) % 34) 1 }
    rxReversed (validIdents seen) 1 = true ∧ trainBad (validIdents seen) 1 true = [13, 61, 62] := by decide +kernel

/-- R442 (example of 14_clocks_and_power): the ceiling of the windows of a chain of 64-core passes. -/
theorem test_limiter_example :
    let pass (n : Nat) (x : Limiter) : Limiter := { x with used := 64 * n, demand := true }
    let w0 := { Gal.init.lim with ceiling := 32, demand := true }
    let w1 := rollLimiter w0 1
    let w2 := rollLimiter (pass 1 w1) 2
    (w1.ceiling, w2.ceiling, (rollLimiter (pass 1 w2) 3).ceiling, limAdmits w0 64) = (64, 96, 128, false) := by decide +kernel

/-- R469 (example of 15_bringup_config_reset): 177 frames start at 0x3000, the 13th at 0xF000. -/
theorem test_frame_offset_example : bsFirst 177 = 0x3000 ∧ bsFirst 177 + 4096 * 12 = 0xF000 := by decide +kernel

/-- R533 (example of 00_scope): a bad value to a core that is mapped out is answered MAPPED_OUT. -/
theorem test_check_order_example :
    (hostWrite { wOn with boot := { wOn.boot with lostIds := [0x579] } } (0x800000 + 0x579 * 0x1000 + 0x400) 0xFFFFFFFF false 1).1 =
      .mappedOut := by decide +kernel

/-- R10: the status codes in the table's order. -/
theorem test_status_codes :
    [Status.done, .badValue, .badState, .noAccess, .busy, .fenced, .absorbed, .uncredited, .timeout, .broken, .abandoned,
     .poisoned, .mappedOut, .destDown, .conflict, .overrun].map Status.code = List.range 16 := by decide +kernel

/-- R522: IDCODE in front of the queue runs as the next step. -/
theorem test_idcode_step :
    step { wOn with pending := [.idcode, .linkState] } =
      .next { wOn with pending := [.linkState], tap := { wOn.tap with ir := 1, tdo := 0x1204854B } } := rfl

/-- No table word spells a command, so placing one changes nothing. -/
theorem test_no_table_word : decodeTableWord 32 0x1204854B = none ∧ wOn.withFetchWord 32 5 = wOn := by decide +kernel

/-- R436 (example of 14_clocks_and_power): a rise from OP3 to OP7 begun at 300 ns glides from 2,000 to 3,000 ns, over about
2,800 A-cycles. -/
theorem test_glide_example :
    let x : Cav := { Cav.init with running := true, opNow := 3, opTarget := 7, rateFrom := 20, rateTo := 20 }
    let s : State := { wOn with mNow := 150, fuse := { wOn.fuse with vtable := [0, 0, 0, 56, 0, 0, 0, 116] }, cavs := [(2, x)] }
    let c := cavAt (startSequence s 2) 2
    let n := (List.range 500).foldl (fun n i => n + rateAt c (1000 + i)) 0 / 5
    (c.seqEnd, rateAt c 1000, rateAt c 1500) = (some 1500, 20, 36) ∧ 2790 ≤ n ∧ n ≤ 2810 := by decide +kernel

/-- R97, R99, R162: a difference in checksum mode poisons the destination tile with cause 0b100. -/
theorem test_checked_pass :
    let k : Core := { (wHead 0 (wDec (.pass (passBuild 0x1008800 0))) Core.init) with
      tile := { Tile.init with level := 16, rampTgt := true, rampAt := 9000, checkMode := true } }
    let s : State := { (wCore fun _ => k) with
      gals := [(0, { Gal.init with lim := { Gal.init.lim with ceiling := 512, window := 39 } })] }
    (match exec (.passIssue 0 [] (some { row := 2, col := 31, delta := 1 })) s with
     | .next t => some (t.answer, (finalMarks (descAt (coreAt t 0) 1)).poisoned, (finalMarks (descAt (coreAt t 0) 1)).cause)
     | _ => none) = some (.poisoned, true, 4) := by decide +kernel

/-- The slot at a queue's head decodes to some command. -/
def decodesSome (s : State) (l q p key : Nat) : Bool :=
  match headBits (queueAt (coreAt s p) q) with
  | none => false
  | some b =>
    match decodeSlot s p l q key b with
    | .ok c => decodesTo s l q p key c
    | _ => false

theorem decodes_some {s : State} {l q p key : Nat} (h : decodesSome s l q p key = true) : ∃ c, Decodes s l q p key c := by
  unfold decodesSome at h
  split at h
  · exact absurd h (by decide)
  · split at h
    · exact ⟨_, decodes_of h⟩
    · exact absurd h (by decide)

/-- A slot of each vector op: one row, A row 32, B row 64 or parameter 1, result row 96, a census tag for CSCNT. -/
def wVecBits (op : Nat) : Nat :=
  4 + (if op = 0x38 then 2 ^ 16 else 0) +
    2 ^ 64 * (op + (if op = 0x39 then 0 else 2 ^ 6 * 32) +
      2 ^ 16 * (if opHasB op then 64 else if vecHasParam op then 1 else 0) + 2 ^ 26 * (if vecWritesRows op then 96 else 0))

/-- Every vector command decodes somewhere. -/
theorem witness_vector_rows (x : Instr × Nat) (h : x ∈ vectorRows 0) :
    ∃ s c, Decodes s 0 1 0 x.2 c := by
  have h' : ∀ y, y ∈ vectorRows 0 → decodesSome (wCore (wQueue 1 (wVecBits (y.2 - 0x400)))) 0 1 0 y.2 = true := by
    decide +kernel
  exact ⟨_, decodes_some (h' x h)⟩

/-- A slot of each move-out command and of DEEP_READ, by its key. -/
def wMoveBits (key : Nat) : Nat :=
  5 + 2 ^ 64 * (key % 16 + (if key = 0x504 then 2 ^ 4 * 7 + 2 ^ 7 * 4 else 0)) +
    2 ^ 128 * (if key = 0x504 then 0 else if key = 0x503 then 2 ^ 45 else 2 ^ 47)

/-- A core with window 7 open and tile 7 not POISONED. -/
def wReady (k : Core) : Core :=
  setDesc (setWin k 7 { Win.init with base := 508, size := 4, opened := true }) 7 { Desc.init with poisoned := false }

/-- Every move-out command and DEEP_READ decode somewhere. -/
theorem witness_move_rows (x : Instr × Nat) (h : x ∈ moveOutRows 0) :
    (∃ s c, Decodes s 0 3 0 x.2 c) ∧ ∃ s c, Decodes s 0 2 0 0x511 c := by
  have h' : ∀ y, y ∈ moveOutRows 0 → decodesSome (wCore fun k => wQueue 3 (wMoveBits y.2) (wReady k)) 0 3 0 y.2 = true := by
    decide +kernel
  have d : decodesSome (wCore (wQueue 2 (wMoveBits 0x511))) 0 2 0 0x511 = true := by decide +kernel
  exact ⟨⟨_, decodes_some (h' x h)⟩, ⟨_, decodes_some d⟩⟩

/-- A slot of each output-path command for tile 7, by its key. -/
def wOutBits (key : Nat) : Nat :=
  if key = 0x200 then 2 + 2 ^ 64 * (7 + 2 ^ 3 * 96) else 3 + 2 ^ 64 * (7 + 2 ^ 11 * (key % 16))

/-- DRAIN, DESC_SET, RESCALE and ZERO decode somewhere. -/
theorem witness_output_rows (x : Instr × Nat) (h : x ∈ outputRows 0) : ∃ s c, Decodes s 0 0 0 x.2 c := by
  have h' : ∀ y, y ∈ outputRows 0 → decodesSome (wCore fun k => wQueue 0 (wOutBits y.2) (wReady k)) 0 0 0 y.2 = true := by
    decide +kernel
  exact ⟨_, decodes_some (h' x h)⟩


/-! A configuration cell whose copies differ, with the frame's check left to the digest (R496). -/

/-- A read past, or within, one part of a table in two parts. -/
theorem Store_get_first {α : Type} (d : α) (i : Nat) :
    ∀ l m : Store α, (∀ e, e ∈ m → e.1 ≠ i) → Store.get d (l ++ m) i = Store.get d l i
  | [], [], _ => rfl
  | [], (k, x) :: m, h => by
    have hk : ¬i = k := fun e => h (k, x) List.mem_cons_self e.symm
    have ht := Store_get_first d i [] m fun e he => h e (List.mem_cons_of_mem _ he)
    show (if i = k then x else Store.get d m i) = d
    rw [if_neg hk]
    exact ht
  | (k, x) :: l, m, h => by
    rw [List.cons_append, Store.get, Store.get, Store_get_first d i l m h]
theorem Store_get_second {α : Type} (d : α) (i : Nat) (m : Store α) :
    ∀ l : Store α, (∀ e, e ∈ l → e.1 ≠ i) → Store.get d (l ++ m) i = Store.get d m i
  | [], _ => rfl
  | (k, x) :: l, h => by
    have hk : ¬i = k := fun e => h (k, x) List.mem_cons_self e.symm
    rw [List.cons_append, Store.get, if_neg hk]
    exact Store_get_second d i m l fun e he => h e (List.mem_cons_of_mem _ he)

/-- The bytes of a number make it up again. -/
theorem packN_bytes : ∀ (w n : Nat), packN 8 ((List.range w).map fun i => n / 256 ^ i % 256) = n % 256 ^ w
  | 0, n => by simp [packN, Nat.mod_one]
  | w + 1, n => by
    rw [List.range_succ_eq_map, List.map_cons, List.map_map, packN]
    have h : ((fun i => n / 256 ^ i % 256) ∘ Nat.succ) = fun i => n / 256 / 256 ^ i % 256 := by
      funext i
      simp only [Function.comp, Nat.pow_succ', Nat.div_div_eq_div_mul]
    rw [h, packN_bytes w, show 256 ^ (w + 1) = 256 * 256 ^ w from Nat.pow_succ', Nat.mod_mul (a := 256), Nat.pow_zero, Nat.div_one]
    show n % 256 % 256 + 256 * _ = _
    rw [Nat.mod_mod]

/-- A table of one frame of type 1 at 0x2000, its check n, and the part that holds it, with die id 5. -/
def wTableTop : Store Nat := [(12, 1), (0x1500, 1), (0x1505, 0x20)]
def wCheckBytes (n : Nat) : Store Nat := (List.range 8).map fun i => (0x1508 + i, n / 256 ^ i % 256)
def wTable (n : Nat) : Store Nat := wTableTop ++ wCheckBytes n
def wEntry (n : Nat) : FrameEntry := bsEntry (wTable n) 0
def wFrame (n : Nat) : State := { (wCfg fun c => { c with shadow := wTable n }) with boot := { wOn.boot with dieId := 5 } }

/-- The checks of its shadow bytes and of its live bytes. -/
def wShadowSum : Nat := frameCheck ((List.range 4096).map fun _ => 0)
def wLiveSum : Nat := frameCheck ((List.range 4096).map fun i => if i = 16 then 5 else 0)

theorem wTable_else (n : Nat) {a : Nat} (h : a < 0x1508 ∨ 0x1510 ≤ a) : stByte (wTable n) a = stByte wTableTop a := by
  have hk : Store.get 0 (wTable n) a = Store.get 0 wTableTop a := Store_get_first 0 a _ _ fun e he => by
    obtain ⟨i, hi, rfl⟩ := List.mem_map.mp he
    have hi := List.mem_range.mp hi
    show 0x1508 + i ≠ a
    omega
  exact congrArg (· % 256) hk

theorem wTable_check (n : Nat) {j : Nat} (h : j < 8) : stByte (wTable n) (0x1508 + j) = n / 256 ^ j % 256 := by
  have h1 : Store.get 0 (wTable n) (0x1508 + j) = Store.get 0 (wCheckBytes n) (0x1508 + j) :=
    Store_get_second 0 _ _ _ fun e he => by
      simp only [wTableTop, List.mem_cons, List.not_mem_nil, or_false] at he
      rcases he with rfl | rfl | rfl <;> simp <;> omega
  have h2 (f : Nat → Nat) : Store.get 0 ((List.range 8).map fun i => (0x1508 + i, f i)) (0x1508 + j) = f j := by
    interval_cases j <;> rfl
  have h3 : Store.get 0 (wTable n) (0x1508 + j) = n / 256 ^ j % 256 := h1.trans (h2 fun i => n / 256 ^ i % 256)
  rw [stByte, h3, Nat.mod_mod]

theorem wTable_high (n i : Nat) : stByte (wTable n) (0x2000 + i) = 0 := by
  have h : Store.get 0 wTableTop (0x2000 + i) = 0 :=
    (Store_get_first 0 _ [] wTableTop fun e he => by
      simp only [wTableTop, List.mem_cons, List.not_mem_nil, or_false] at he
      rcases he with rfl | rfl | rfl <;> simp <;> omega)
  rw [wTable_else n (.inr (by omega)), stByte, h]

theorem wTable_word (n : Nat) {i w : Nat} (h : i + w ≤ 0x1508) :
    stWord (wTable n) i w = stWord wTableTop i w := by
  unfold stWord
  congr 1
  exact List.map_congr_left fun j hj => wTable_else n (.inl (by have := List.mem_range.mp hj; omega))

theorem wEntry_off (n : Nat) : (wEntry n).off = 0x2000 := (wTable_word n (by decide)).trans (by decide)
theorem wEntry_ftype (n : Nat) : (wEntry n).ftype = 1 := (wTable_else n (.inl (by decide))).trans (by decide)
theorem wTable_frames (n : Nat) : bsTable (wTable n) = [wEntry n] := by
  unfold bsTable bsCount
  rw [wTable_word n (by decide)]
  rfl

theorem wFrame_shadow (n : Nat) : frameCheck (frameBytes (wFrame n).cfg.shadow (wEntry n).off) = wShadowSum := by
  have h : stBytes (wTable n) 0x2000 4096 = (List.range 4096).map fun _ => 0 :=
    List.map_congr_left fun i _ => by rw [wTable_high]; rfl
  rw [wEntry_off]
  exact congrArg frameCheck h

theorem wFrame_byte (n i : Nat) : liveByte (wFrame n) (wEntry n) i = if i = 16 then 5 else 0 := by
  have hd : (wFrame n).boot.dieId = 5 := rfl
  have hs : stByte (wFrame n).cfg.shadow ((wEntry n).off + i) = 0 := by rw [wEntry_off]; exact wTable_high n i
  simp only [liveByte, wEntry_ftype, hs, hd, show ¬((1 : Nat) = 6 ∧ (wEntry n).scope < 4) by omega, if_false, true_and]
  by_cases h : i = 16
  · subst h; rfl
  · by_cases h' : i = 17
    · subst h'; rfl
    · simp [h, h']

theorem wFrame_live (n : Nat) : frameCheck (liveFrame (wFrame n) (wEntry n)) = wLiveSum := by
  have h : liveFrame (wFrame n) (wEntry n) = (List.range 4096).map fun i => if i = 16 then 5 else 0 :=
    List.map_congr_left fun i _ => by rw [wFrame_byte]; split <;> rfl
  exact congrArg frameCheck h

theorem wEntry_check {n : Nat} (h : n < 2 ^ 64) : (wEntry n).check = n := by
  have hb : (List.range 8).map (fun j => stByte (wTable n) (0x1508 + j)) = (List.range 8).map fun i => n / 256 ^ i % 256 :=
    List.map_congr_left fun j hj => wTable_check n (List.mem_range.mp hj)
  exact (congrArg (packN 8) hb).trans ((packN_bytes 8 n).trans (Nat.mod_eq_of_lt (by simpa using h)))

/-- A held, unfaulted frame's cell whose copies carry no error and differ. -/
def ScrubDiffers (s : State) (cell j : Nat) (e : FrameEntry) : Prop :=
  2 ≤ s.boot.stage ∧
  findIdx (fun z : FrameEntry => decide (z.off ≤ 8 * cell) && decide (8 * cell < z.off + 4096)) (bsTable s.cfg.shadow) = some (j, e) ∧
  isFrameHeld e = true ∧ j ∉ s.cfg.faulted ∧ Store.get 0 s.cfg.cellUpsets cell = 0 ∧ Store.get 0 s.cfg.shadowUpsets cell = 0 ∧
  ∃ i, i < 8 ∧ liveByte s e (8 * cell - e.off + i) ≠ stByte s.cfg.shadow (e.off + (8 * cell - e.off) + i)

theorem wFrame_differs (n : Nat) : ScrubDiffers (wFrame n) 1026 0 (wEntry n) :=
  ⟨Nat.le_of_ble_eq_true rfl, by
    show findIdx _ (bsTable (wTable n)) = _
    rw [wTable_frames]
    simp [findIdx, wEntry_off], by simp [isFrameHeld, wEntry_ftype], nofun, rfl, rfl, 0, by decide, by
    rw [wFrame_byte, wEntry_off, show (wFrame n).cfg.shadow = wTable n from rfl]
    show (if 8 * 1026 - 0x2000 + 0 = 16 then 5 else 0) ≠ stByte (wTable n) (0x2000 + 16)
    rw [wTable_high]
    decide⟩

/-- The three last clauses of ConfigScrubRows: the shadow's frame passes its check, neither does, and, if the digest tells the two
frames apart, the live frame alone does. -/
theorem witness_ConfigScrubChecks :
    (∃ s cell j e, ScrubDiffers s cell j e ∧ frameCheck (frameBytes s.cfg.shadow e.off) = e.check) ∧
    (wShadowSum ≠ wLiveSum → ∃ s cell j e, ScrubDiffers s cell j e ∧
      frameCheck (frameBytes s.cfg.shadow e.off) ≠ e.check ∧ frameCheck (liveFrame s e) = e.check) ∧
    ∃ s cell j e, ScrubDiffers s cell j e ∧
      frameCheck (frameBytes s.cfg.shadow e.off) ≠ e.check ∧ frameCheck (liveFrame s e) ≠ e.check := by
  have hs : wShadowSum < 2 ^ 64 := Nat.mod_lt _ (by decide)
  have hl : wLiveSum < 2 ^ 64 := Nat.mod_lt _ (by decide)
  refine ⟨⟨_, _, _, _, wFrame_differs wShadowSum, ?_⟩, fun h => ⟨_, _, _, _, wFrame_differs wLiveSum, ?_, ?_⟩, ?_⟩
  · rw [wFrame_shadow, wEntry_check hs]
  · rw [wFrame_shadow, wEntry_check hl]
    exact h
  · rw [wFrame_live, wEntry_check hl]
  · obtain ⟨n, hn, h1, h2⟩ : ∃ n, n < 2 ^ 64 ∧ wShadowSum ≠ n ∧ wLiveSum ≠ n := by
      by_cases h0 : wShadowSum = 0 ∨ wLiveSum = 0
      · by_cases h1 : wShadowSum = 1 ∨ wLiveSum = 1
        · exact ⟨2, by decide, by omega, by omega⟩
        · exact ⟨1, by decide, by omega, by omega⟩
      · exact ⟨0, by decide, by omega, by omega⟩
    exact ⟨_, _, _, _, wFrame_differs n, by rw [wFrame_shadow, wEntry_check hn]; exact h1,
      by rw [wFrame_live, wEntry_check hn]; exact h2⟩

/-- Commands whose operands name nothing that exists are ill-formed (part 1). -/
theorem test_ill_formed_1 : (([
    .apertureWrite 65536 0, .apertureWrite 2 0, .duskMark 8, .commandRowFetch 2048 0, .commandRowFetch 0 4, .nop 2048 0,
    .nop 0 4, .queueResume 2048 0 0, .queueResume 0 4 0, .pass 2048, .passIssue 2048 [] none, .activityRampStep 2048,
    .checkModeWrite 2048 0, .gangIssue 32 [] [], .gangTimeout 32, .drain 2048, .descSet 2048, .rescale 2048, .zero 2048,
    .outputPathStart 2048 [], .vecStart 2048 [], .add 2048, .sub 2048, .mul 2048, .min 2048, .max 2048, .cmplt 2048,
    .cmple 2048, .cmpeq 2048, .sel 2048, .copy 2048, .neg 2048, .abs 2048, .shift 2048, .isnar 2048, .exp2 2048, .log2 2048,
    .recip 2048, .rsqrt 2048, .widen 2048, .narrow 2048, .rsum 2048, .rsumsq 2048, .rmax 2048, .rmin 2048
    ] : List Instr).any Instr.wellFormed) = false := by decide +kernel

/-- Commands whose operands name nothing that exists are ill-formed (part 2). -/
theorem test_ill_formed_2 : (([
    .sget 2048, .softmax 2048, .lnorm 2048, .rmsnorm 2048, .xent 2048, .mse 2048, .cscnt 2048, .csclr 2048,
    .scrubPool 2176 0, .scrubPool 0 512, .scrubPoolWriteback 2176 0, .scrubPoolWriteback 0 512, .scrubFlowstone 2176 0,
    .scrubFlowstone 0 256, .scrubFlowstoneWriteback 2176 0, .scrubFlowstoneWriteback 0 256, .scrubSync 2176 0,
    .sbTimeout 2048 0, .sbTimeout 0 5, .ringEnable 2048 0 0, .ringEnable 0 16 0, .ringDisable 2048 0 0, .ringDisable 0 16 0,
    .inboundCommit 2048 0, .inboundCommit 0 17, .poolBankOffRequest 2048 0, .poolBankOffCancel 2048 0,
    .poolBankPowerDown 2048 0, .poolBankPowerDown 0 16, .poolBankPowerUp 2048 0, .poolBankReady 2048 0, .poolBankReady 0 16,
    .move 2048, .tileOut 2048, .signal 2048, .grant 2048, .deepRead 2048, .movePrelude 2048 0 [], .movePrelude 0 4 [],
    .moveIssue 2048 [], .deepReadIssue 2048, .moveIssueTimeout 2048 0, .moveIssueTimeout 0 4, .rowTimeout 2048 0 0,
    .injectFlit 4224 0 { words := [], parity := false }
    ] : List Instr).any Instr.wellFormed) = false := by decide +kernel

/-- Commands whose operands name nothing that exists are ill-formed (part 3). -/
theorem test_ill_formed_3 : (([
    .injectFlit 0 2 { words := [], parity := false }, .routerArbitrate 64 0 { words := [], parity := false },
    .headBoost 64 0 0, .headBoost 0 0 4, .watchdogStall 8512 0 0, .watchdogStall 0 0 4, .windowOpen 2048 0 0,
    .windowOpen 0 8 0, .windowClose 2048 0 0, .windowClose 0 8 0, .set 2048 0, .set 0 4, .clear 2048 0, .clear 0 4,
    .wait 2048 0, .wait 0 4, .count 2048 0, .count 0 4, .waitCnt 2048 0, .waitCnt 0 4, .arrive 2048 0, .arrive 0 4,
    .waitSlot 2048 0, .waitSlot 0 4, .fence 2048 0, .fence 0 4, .fenceComplete 2048 0, .fenceComplete 0 4,
    .waitTimeout 2048 0, .waitTimeout 0 4, .counterEnable 2048 0, .counterDisable 2048 0, .chimneyRelease 128 0,
    .chimneyRelease 0 2, .chimneyRel 0 (.broken 0) 8, .chimneyRel 128 (.broken 0) 0, .releaseReachesCore 2048 0,
    .releaseReachesCore 0 128, .slotBreak 128 .disabled, .arriveTimeout 2048 0 0, .arriveTimeout 0 4 0,
    .arriveTimeout 0 0 128, .slotEnable 128 0, .slotDisable 128 0, .slotRearm 128 0
    ] : List Instr).any Instr.wellFormed) = false := by decide +kernel

/-- Commands whose operands name nothing that exists are ill-formed (part 4). -/
theorem test_ill_formed_4 : (([
    .setFlag 2048 1 0, .setFlag 0 0 0, .setFlag 0 65536 0, .clearFlag 2048 1 0, .clearFlag 0 0 0, .clearFlag 0 65536 0,
    .cntWrite 2048 1 0, .cntWrite 0 0 0, .cntWrite 0 65536 0, .ringHead 2048 1 0, .ringHead 0 0 0, .ringHead 0 65536 0,
    .ringTail 2048 1 0, .ringTail 0 0 0, .ringTail 0 65536 0, .create 2048 0, .bind 2048 0, .unbind 2048 0,
    .queuePark 2048 0, .queuePark 0 4, .save 2048 0, .saveComplete 2048, .restore 2048 0, .restoreHeaderCheck 2048,
    .restoreComplete 2048, .destroy 2048 0, .settle 2048 0, .contextOpTimeout 2048, .unsettledMaskBroadcast 32, .spare 4 0,
    .unspare 4 0, .offline 4 0, .online 4 0, .capacityCancel 4 0, .bundleTrain 2184 0 wObs, .linkAutoTrain 2184 wObs,
    .trainingStepTimeout 2184 wObs, .retrain 2184 0 false wObs, .laneRecalibrate 2184, .marginalLane 2184 0 0,
    .marginalLane 0 64 0, .linkFlit 2184 0 [] false, .linkDown 2184 false, .railPower 0 0 8, .railPower 4 0 0
    ] : List Instr).any Instr.wellFormed) = false := by decide +kernel

/-- Commands whose operands name nothing that exists are ill-formed (part 5). -/
theorem test_ill_formed_5 : (([
    .telemetry 8, .loopEnable 2184 0, .loopTestStart 2184 0 wObs.up, .sequenceEnd 4, .referenceRelock 4, .issueWindow 32,
    .powerWindowTimeout 4, .droopTrip 32, .stretchEnd 4, .thermalCalibration 32, .bistStart 32 0, .bistComplete 32 0 none,
    .bistComplete 0 7 none, .gsel 32, .droopDetectorClear 32, .temperatureSample 32 0, .loopTestComplete 2184 [],
    .uncorrectableHeaderFlit 2184 [], .unknownMessage 8 0, .passIssue 0 [] (some { row := 33, col := 0, delta := 1 }),
    .passIssue 0 [] (some { row := 0, col := 33, delta := 1 }), .gangIssue 0 [] [(64, { row := 0, col := 0, delta := 1 })],
    .gangIssue 0 [] [(0, { row := 0, col := 33, delta := 1 })], .train [(2176, wObs)],
    .train [(0, { wObs with up := { wObs.up with clocks := [] } })],
    .train [(0, { wObs with down := { wObs.down with positions := List.replicate 69 (wRx 0 0 0) } })],
    .train [(0, { wObs with up := { wObs.up with overran := some 0 } })],
    .bundleTrain 0 0 { wObs with up := { wObs.up with overran := some 7 } },
    .loopTestStart 0 0 { wObs.up with positions := [{ toggled := true, words := [(5, 65)] }] },
    .topology [{ gal := 32, port := 0, fixed := 0, lost := 0 }], .topology [{ gal := 0, port := 4, fixed := 0, lost := 0 }],
    .wr (.sump 2176 []) Packet.empty, .wr (.sump 0 [(72, 1)]) Packet.empty, .ack (.sump 0 [(0, 0)]) Packet.empty,
    .ack (.sump 0 [(0, 2 ^ 72)]) Packet.empty, .injectFlit 0 0 { words := [(8, 1)], parity := false },
    .routerArbitrate 0 0 { words := [(0, 0)], parity := false }, .linkFlit 0 0 [(8, 1)] false,
    .uncorrectableHeaderFlit 0 [(8, 1)], .bistComplete 0 0 (some (33, 0x3F)), .bistComplete 0 0 (some (0x3F, 62))
    ] : List Instr).any Instr.wellFormed) = false := by decide +kernel

/-- The last operands of each range are well formed (part 1). -/
theorem test_well_formed_1 : (([
    .apertureWrite 65532 0, .train [], .topology [], .duskMark 7, .commandRowFetch 2047 3, .nop 2047 3,
    .queueResume 2047 3 0, .pass 2047, .passIssue 2047 [] none, .activityRampStep 2047, .checkModeWrite 2047 0,
    .gangIssue 31 [] [], .gangTimeout 31, .drain 2047, .descSet 2047, .rescale 2047, .zero 2047, .outputPathStart 2047 [],
    .vecStart 2047 [], .add 2047, .sub 2047, .mul 2047, .min 2047, .max 2047, .cmplt 2047, .cmple 2047, .cmpeq 2047,
    .sel 2047, .copy 2047, .neg 2047, .abs 2047, .shift 2047, .isnar 2047, .exp2 2047, .log2 2047, .recip 2047, .rsqrt 2047,
    .widen 2047, .narrow 2047, .rsum 2047, .rsumsq 2047, .rmax 2047, .rmin 2047, .sget 2047, .softmax 2047, .lnorm 2047,
    .rmsnorm 2047, .xent 2047, .mse 2047, .cscnt 2047, .csclr 2047, .scrubPool 2175 511, .scrubPoolWriteback 2175 511,
    .scrubFlowstone 2175 255, .scrubFlowstoneWriteback 2175 255, .scrubSync 2175 0, .sbTimeout 2047 4,
    .tailAdd .vein Packet.empty, .headAdd .vein Packet.empty, .ringEnable 2047 15 0
    ] : List Instr).all Instr.wellFormed) = true := by decide +kernel

/-- The last operands of each range are well formed (part 2). -/
theorem test_well_formed_2 : (([
    .ringDisable 2047 15 0, .wr .vein Packet.empty, .inboundCommit 2047 16, .classTWrite .vein Packet.empty,
    .rd .vein Packet.empty, .poolBankOffRequest 2047 0, .poolBankOffCancel 2047 0, .poolBankPowerDown 2047 15,
    .poolBankPowerUp 2047 0, .poolBankReady 2047 15, .move 2047, .tileOut 2047, .signal 2047, .grant 2047, .deepRead 2047,
    .movePrelude 2047 3 [], .moveIssue 2047 [], .deepReadIssue 2047, .moveIssueTimeout 2047 3, .deepData .vein Packet.empty,
    .ack .vein Packet.empty, .rowTimeout 2047 0 0, .creditGrant .vein Packet.empty, .revoke .vein Packet.empty,
    .bounce .vein Packet.empty, .injectFlit 4223 1 { words := [], parity := false },
    .routerArbitrate 63 0 { words := [], parity := false }, .headBoost 63 0 3, .watchdogStall 8511 0 3,
    .windowOpen 2047 7 0, .windowClose 2047 7 0, .set 2047 3, .clear 2047 3, .wait 2047 3, .count 2047 3, .waitCnt 2047 3,
    .arrive 2047 3, .waitSlot 2047 3, .fence 2047 3, .fenceComplete 2047 3, .waitTimeout 2047 3, .cntAdd .vein Packet.empty,
    .cntMax .vein Packet.empty, .counterEnable 2047 0, .counterDisable 2047 0, .chimneyRelease 127 1,
    .chimneyRel 127 (.broken 0) 7, .releaseReachesCore 2047 127, .slotBreak 127 .disabled, .arriveTimeout 2047 3 127,
    .slotEnable 127 0, .slotDisable 127 0, .slotRearm 127 0, .setFlag 2047 65535 0, .clearFlag 2047 65535 0,
    .cntWrite 2047 65535 0, .ringHead 2047 65535 0, .ringTail 2047 65535 0, .create 2047 0, .bind 2047 0
    ] : List Instr).all Instr.wellFormed) = true := by decide +kernel

/-- The last operands of each range are well formed (part 3). -/
theorem test_well_formed_3 : (([
    .unbind 2047 0, .queuePark 2047 3, .save 2047 0, .saveComplete 2047, .restore 2047 0, .restoreHeaderCheck 2047,
    .restoreComplete 2047, .destroy 2047 0, .settle 2047 0, .contextOpTimeout 2047, .unsettledMaskBroadcast 31, .spare 3 0,
    .unspare 3 0, .offline 3 0, .online 3 0, .capacityCancel 3 0, .bundleTrain 2183 0 wObs, .linkAutoTrain 2183 wObs,
    .trainingStepTimeout 2183 wObs, .retrain 2183 0 false wObs, .laneRecalibrate 2183, .marginalLane 2183 63 0,
    .linkFlit 2183 0 [] false, .linkDown 2183 false, .railPower 3 0 7, .telemetry 7, .loopEnable 2183 0,
    .loopTestStart 2183 0 wObs.up, .sequenceEnd 3, .referenceRelock 3, .issueWindow 31, .powerWindowTimeout 3,
    .droopTrip 31, .stretchEnd 3, .thermalCalibration 31, .bistStart 31 0, .bistComplete 31 6 none, .gsel 31,
    .droopDetectorClear 31, .temperatureSample 31 0, .loopTestComplete 2183 [], .uncorrectableHeaderFlit 2183 [],
    .unknownMessage 7 0, .gangIssue 31 [] [(63, { row := 32, col := 32, delta := -1 })],
    .wr (.sump 2175 [(71, 2 ^ 72 - 1)]) Packet.empty, .bistComplete 31 6 (some (32, 0x3F)), .train [(2175, wLate)]
    ] : List Instr).all Instr.wellFormed) = true := by decide +kernel

/-- States and operands that meet the hypotheses of StepRunsFrontCommand, clause by clause. -/
theorem witness_StepRunsFrontCommand :
    ∃ (s : State) (c : Instr) (rest : List Instr), s.pending = c :: rest :=
  ⟨{ wOn with pending := [.powerUp] }, .powerUp, [], by decide +kernel⟩

/-- States and operands that meet the hypotheses of IdleStepIsOneCycle, clause by clause. -/
theorem witness_IdleStepIsOneCycle :
    (∃ (s : State), s.pending = [] ∧ s.boot.powered = false) ∧
    (∃ (s : State), s.pending = [] ∧ s.boot.powered = true) ∧
    (∃ (s : State), s.pending = []) :=
  ⟨⟨State.reset, by decide +kernel⟩,
   ⟨wOn, by decide +kernel⟩,
   ⟨State.reset, by decide +kernel⟩⟩

/-- States and operands that meet the hypotheses of StepKeepsInvariant, clause by clause. -/
theorem witness_StepKeepsInvariant :
    ∃ (s t : State), Inv s ∧ step s = .next t :=
  ⟨wOn, tick wOn, by unfold Machine.Inv logWf; decide +kernel, rfl⟩

/-- States and operands that meet the hypotheses of TapLockStays, clause by clause. -/
theorem witness_TapLockStays :
    ∃ (s t : State), s.tap.tapLock = true ∧ s.pending.head? ≠ some .powerDown ∧ step s = .next t :=
  ⟨{ wOn with tap := { wOn.tap with tapLock := true } }, tick { wOn with tap := { wOn.tap with tapLock := true } },
   by decide +kernel, by decide +kernel, rfl⟩

/-- States and operands that meet the hypotheses of PowerRails, clause by clause. -/
theorem witness_PowerRails :
    (∃ (s : State), s.boot.powered = false) ∧
    (∃ (s : State), s.boot.powered = true) ∧
    (∃ (s : State), s.boot.powered = true) :=
  ⟨⟨State.reset, by decide +kernel⟩,
   ⟨wOn, by decide +kernel⟩,
   ⟨wOn, by decide +kernel⟩⟩

/-- States and operands that meet the hypotheses of RingAndWindowRows, clause by clause. -/
theorem witness_RingAndWindowRows :
    (∃ (s : State) (l p : Nat) (v : Word), Reach s l p ∧ ∃ n, n < 16 ∧ wbit v 21 = true ∧
     (ringAt (coreAt s p) n).enable = false ∧ (n < 4 → wbit v 22 = true) ∧
     ringEnableCheck s (coreAt s p) l n (ringFromCfg (ringAt (coreAt s p) n) v.toNat) = .done) ∧
    (∃ (s : State) (l p : Nat) (v : Word), Reach s l p ∧ ∃ n, n < 16 ∧ (ringAt (coreAt s p) n).enable = true ∧
     wbit v 21 = false ∧ (n < 4 → wbit v 22 = true) ∧
     readRingCfg { ringAt (coreAt s p) n with enable := false } = v.toNat) ∧
    (∃ (s : State) (l p : Nat) (v : Word), Reach s l p ∧ ∃ w, w < 8 ∧ wbit v 21 = true ∧ wbit v 23 = false ∧
     (winAt (coreAt s p) w).opened = false ∧
     winOpenCheck (coreAt s p) w { winAt (coreAt s p) w with base := fieldN v.toNat 0 10, size := fieldN v.toNat 10 11, opened := true, flagEn := wbit v 22, flag := fieldN v.toNat 24 8 } = .done) ∧
    (∃ (s : State) (l p : Nat) (v : Word), Reach s l p ∧ ∃ w, w < 8 ∧ (winAt (coreAt s p) w).opened = true ∧
     wbit v 21 = false ∧ wbit v 23 = false ∧ readWinCfg { winAt (coreAt s p) w with opened := false } = v.toNat) :=
  ⟨⟨wOn, 0, 0, 0x2011FC, by unfold Reach Serves Current; decide +kernel, 15, by decide +kernel⟩,
   ⟨wCore fun k => setRing k 15 (wRing 15 508 4), 0, 0, 0x11FC, by unfold Reach Serves Current; decide +kernel, 15,
    by decide +kernel⟩,
   ⟨wOn, 0, 0, 0x2011FC, by unfold Reach Serves Current; decide +kernel, 7, by decide +kernel⟩,
   ⟨wCore fun k => setWin k 7 { Win.init with base := 508, size := 4, opened := true }, 0, 0, 0x11FC,
    by unfold Reach Serves Current; decide +kernel, 7, by decide +kernel⟩⟩

/-- States and operands that meet the hypotheses of PoolPowerRows, clause by clause. -/
theorem witness_PoolPowerRows :
    (∃ (s : State) (l p : Nat) (v : Word), Reach s l p ∧ let want := (List.range 16).filter (bitN v.toNat);
     let hit := want.any fun b => !(coreAt s p).pool.offReq.contains b && (List.range 4).any fun n => (ringAt (coreAt s p)
       n).enable && overlapsBank (ringAt (coreAt s p) n).base (ringAt (coreAt s p) n).size b;
     (∃ b, b < 16 ∧ wbit v b = true ∧ b ∉ (coreAt s p).pool.offReq) ∧ hit = false) ∧
    (∃ (s : State) (l p : Nat) (v : Word), Reach s l p ∧ let want := (List.range 16).filter (bitN v.toNat);
     let hit := want.any fun b => !(coreAt s p).pool.offReq.contains b && (List.range 4).any fun n => (ringAt (coreAt s p)
       n).enable && overlapsBank (ringAt (coreAt s p) n).base (ringAt (coreAt s p) n).size b;
     (∃ b, b < 16 ∧ wbit v b = true ∧ b ∉ (coreAt s p).pool.offReq) ∧ hit = true) ∧
    (∃ (s : State) (l p : Nat) (v : Word), Reach s l p ∧ let want := (List.range 16).filter (bitN v.toNat);
     let hit := want.any fun b => !(coreAt s p).pool.offReq.contains b && (List.range 4).any fun n => (ringAt (coreAt s p)
       n).enable && overlapsBank (ringAt (coreAt s p) n).base (ringAt (coreAt s p) n).size b;
     (∃ b, b ∈ (coreAt s p).pool.offReq ∧ wbit v b = false ∧ b ∉ (coreAt s p).pool.off) ∧ hit = false) ∧
    (∃ (s : State) (l p : Nat) (v : Word), Reach s l p ∧ let want := (List.range 16).filter (bitN v.toNat);
     let hit := want.any fun b => !(coreAt s p).pool.offReq.contains b && (List.range 4).any fun n => (ringAt (coreAt s p)
       n).enable && overlapsBank (ringAt (coreAt s p) n).base (ringAt (coreAt s p) n).size b; ∃ (b : Nat), b < 16 ∧
     b ∈ (coreAt s p).pool.off ∧ wbit v b = false ∧ (∀ u, u ∈ (coreAt s p).pool.ups → u.1 ≠ b) ∧ hit = false) :=
  ⟨⟨wOn, 0, 0, 0x8000, by unfold Reach Serves Current; decide +kernel, by decide +kernel⟩,
   ⟨wCore fun k => setRing k 3 (wRing 3 508 4), 0, 0, 0x8000, by unfold Reach Serves Current; decide +kernel,
    by decide +kernel⟩,
   ⟨wCore fun k => { k with pool := { k.pool with offReq := [15] } }, 0, 0, 0,
    by unfold Reach Serves Current; decide +kernel, by decide +kernel⟩,
   ⟨wCore fun k => { k with pool := { k.pool with offReq := [15], off := [15] } }, 0, 0, 0,
    by unfold Reach Serves Current; decide +kernel, 15, by decide +kernel⟩⟩

/-- States and operands that meet the hypotheses of BanksUnderRingsStayOn, clause by clause. -/
theorem witness_BanksUnderRingsStayOn :
    (∃ (s : State) (l p : Nat) (v : Word), Reach s l p ∧ ∃ (b : Nat) (n : _), b < 16 ∧ n < 4 ∧ wbit v b = true ∧
     b ∉ (coreAt s p).pool.offReq ∧ (ringAt (coreAt s p) n).enable = true ∧
     overlapsBank (ringAt (coreAt s p) n).base (ringAt (coreAt s p) n).size b = true) ∧
    (∃ (s : State) (l p : Nat) (v : Word), Reach s l p ∧ ∃ (b : Nat) (n : _), b < 16 ∧ n < 16 ∧
     (b ∈ (coreAt s p).pool.offReq ∨ b ∈ (coreAt s p).pool.off) ∧
     overlapsBank (fieldN v.toNat 0 10) (fieldN v.toNat 10 11) b = true ∧ wbit v 21 = true ∧ (n < 4 → wbit v 22 = true) ∧
     (ringAt (coreAt s p) n).enable = false ∧
     ringEnableCheck s (coreAt s p) l n (ringFromCfg (ringAt (coreAt s p) n) v.toNat) ≠ .badValue) :=
  ⟨⟨wCore fun k => setRing k 3 (wRing 3 508 4), 0, 0, 0x8000, by unfold Reach Serves Current; decide +kernel, 15, 3,
    by decide +kernel⟩,
   ⟨wCore fun k => { k with pool := { k.pool with offReq := [15] } }, 0, 0, 0x2011FC,
    by unfold Reach Serves Current; decide +kernel, 15, 15, by decide +kernel⟩⟩

/-- States and operands that meet the hypotheses of CounterQueueAndModeRows, clause by clause. -/
theorem witness_CounterQueueAndModeRows :
    (∃ (s : State) (l p : Nat) (v : Word), Reach s l p ∧ ∃ (n : _) (y : Counter), n = (coreAt s p).sync.selCounter ∧
     (cntAt (coreAt s p) n).enable = false ∧ wbit v 0 = true ∧ Clean v 0xFFF ∧
     y = cntWith (cntAt (coreAt s p) n) v.toNat (readCntProd (cntAt (coreAt s p) n)) (cntAt (coreAt s p) n).bound ∧
     0 < y.bound ∧ producerFieldsOk s l y.kind y.die y.core = true ∧
     (y.partnerEn = true → y.mono = true ∧ y.partner ≠ n ∧ (cntAt (coreAt s p) y.partner).enable = true ∧ (cntAt (coreAt s
       p) y.partner).mono = true ∧ (cntAt (coreAt s p) y.partner).owner = y.owner)) ∧
    (∃ (s : State) (l p : Nat) (v : Word), Reach s l p ∧ ∃ n, n = (coreAt s p).sync.selCounter ∧
     (cntAt (coreAt s p) n).enable = true ∧ wbit v 0 = false ∧ Clean v 0xFFF ∧
     fieldN v.toNat 1 10 = fieldN (readCntCfg (cntAt (coreAt s p) n)) 1 10) ∧
    (∃ (s : State) (l p : Nat) (v : Word), Reach s l p ∧ ∃ q, q < 4 ∧ wbit v 9 = true ∧ Clean v 0x7FF ∧
     (queueAt (coreAt s p) q).state = 2) ∧
    (∃ (s : State) (l p : Nat) (v : Word), Reach s l p ∧ ∃ q, q < 4 ∧ wbit v 9 = true ∧ Clean v 0x7FF ∧
     (queueAt (coreAt s p) q).state ≠ 2) ∧
    (∃ (s : State) (l p : Nat) (v : Word), Reach s l p ∧ Clean v 1 ∧ (wbit v 0 = false ∨ isRepaired (coreAt s p) = false)) ∧
    (∃ (s : State) (l p : Nat) (v : Word), Reach s l p ∧ Clean v 1 ∧ wbit v 0 = true ∧ isRepaired (coreAt s p) = true ∧
     physOf s (partnerOf l) = none) ∧
    (∃ (s : State) (l p : Nat) (v : Word), Reach s l p ∧ Clean v 1 ∧ wbit v 0 = true ∧ isRepaired (coreAt s p) = true) :=
  ⟨⟨wCore fun k => { setCnt k 63 { Counter.init with bound := 5 } with sync := { (setCnt k 63 { Counter.init with bound := 5 }).sync with selCounter := 63 } },
    0, 0, 1, by unfold Reach Serves Current; decide +kernel, _, _, rfl, by decide +kernel, by decide +kernel,
    by unfold Clean; decide +kernel, rfl, by decide +kernel⟩,
   ⟨wCore fun k => setCnt k 0 { Counter.init with bound := 5, enable := true, value := 3 }, 0, 0, 0,
    by unfold Reach Serves Current; decide +kernel, _, rfl, by decide +kernel, by decide +kernel,
    by unfold Clean; decide +kernel, by decide +kernel⟩,
   ⟨wCore fun k => setQueue k 3 { Queue.init with state := 2 }, 0, 0, 0x300, by unfold Reach Serves Current; decide +kernel,
    3, by decide +kernel, by decide +kernel, by unfold Clean; decide +kernel, by decide +kernel⟩,
   ⟨wOn, 0, 0, 0x200, by unfold Reach Serves Current; decide +kernel, 3, by decide +kernel, by decide +kernel,
    by unfold Clean; decide +kernel, by decide +kernel⟩,
   ⟨wOn, 0, 0, 1, by unfold Reach Serves Current; decide +kernel, by unfold Clean; decide +kernel, by decide +kernel⟩,
   ⟨{ (wCore fun k => { k with repair := (5, 0x3F) }) with boot := { wOn.boot with lostIds := [1] } }, 0, 0, 1,
    by unfold Reach Serves Current; decide +kernel, by unfold Clean; decide +kernel, by decide +kernel⟩,
   ⟨wCore fun k => { k with repair := (5, 0x3F) }, 0, 0, 1, by unfold Reach Serves Current; decide +kernel,
    by unfold Clean; decide +kernel, by decide +kernel⟩⟩

/-- States and operands that meet the hypotheses of HandRows, clause by clause. -/
theorem witness_HandRows :
    (∃ (s : State) (l p : Nat) (v : Word), Reach s l p ∧ v.toNat < 2 ^ 12 ∧ (coreAt s p).sync.due = [] ∧
     (coreAt s p).upsets.sync = [] ∧ (∀ q, (queueAt (coreAt s p) q).sleep = none) ∧ fieldN v.toNat 0 4 = 1 ∧
     fieldN v.toNat 4 8 ∉ (coreAt s p).sync.flags) ∧
    (∃ (s : State) (l p : Nat) (v : Word), Reach s l p ∧ v.toNat < 2 ^ 12 ∧ (coreAt s p).sync.due = [] ∧
     (coreAt s p).upsets.sync = [] ∧ (∀ q, (queueAt (coreAt s p) q).sleep = none) ∧ fieldN v.toNat 0 4 = 2) ∧
    (∃ (s : State) (l p : Nat) (v : Word), Reach s l p ∧ v.toNat < 2 ^ 12 ∧ (coreAt s p).sync.due = [] ∧
     (coreAt s p).upsets.sync = [] ∧ (∀ q, (queueAt (coreAt s p) q).sleep = none) ∧ fieldN v.toNat 0 4 = 3 ∧
     fieldN v.toNat 4 8 < 64 ∧ (cntAt (coreAt s p) (fieldN v.toNat 4 8)).enable = true) ∧
    (∃ (s : State) (l p : Nat) (v : Word), Reach s l p ∧ v.toNat < 2 ^ 12 ∧ (coreAt s p).sync.due = [] ∧
     (coreAt s p).upsets.sync = [] ∧ (∀ q, (queueAt (coreAt s p) q).sleep = none) ∧ fieldN v.toNat 0 4 = 3 ∧
     64 ≤ fieldN v.toNat 4 8) ∧
    (∃ (s : State) (l p : Nat) (v : Word), Reach s l p ∧ v.toNat < 2 ^ 12 ∧ (coreAt s p).sync.due = [] ∧
     (coreAt s p).upsets.sync = [] ∧ (∀ q, (queueAt (coreAt s p) q).sleep = none) ∧ ∃ n, fieldN v.toNat 4 8 = n ∧ n < 16 ∧
     (ringAt (coreAt s p) n).enable = true ∧ fieldN v.toNat 0 4 = 4 ∧
     ((coreAt s p).sync.handVal.toNat % 2 ^ 32 + 2 ^ 32 - (ringAt (coreAt s p) n).head % 2 ^ 32) % 2 ^ 32 ≤ ringOcc
       (ringAt (coreAt s p) n)) ∧
    (∃ (s : State) (l p : Nat) (v : Word), Reach s l p ∧ v.toNat < 2 ^ 12 ∧ (coreAt s p).sync.due = [] ∧
     (coreAt s p).upsets.sync = [] ∧ (∀ q, (queueAt (coreAt s p) q).sleep = none) ∧ ∃ n, fieldN v.toNat 4 8 = n ∧ n < 16 ∧
     (ringAt (coreAt s p) n).enable = true ∧ fieldN v.toNat 0 4 = 5 ∧
     ((coreAt s p).sync.handVal.toNat % 2 ^ 32 + 2 ^ 32 - (ringAt (coreAt s p) n).tail % 2 ^ 32) % 2 ^ 32 + ringOcc
       (ringAt (coreAt s p) n) ≤ (ringAt (coreAt s p) n).size) :=
  ⟨⟨wOn, 0, 0, 0xFF1, by unfold Reach Serves Current; decide +kernel, by decide +kernel, by decide +kernel,
    by decide +kernel, noSleep _ (by decide +kernel), by decide +kernel⟩,
   ⟨wCore fun k => { k with sync := { k.sync with flags := [255] } }, 0, 0, 0xFF2,
    by unfold Reach Serves Current; decide +kernel, by decide +kernel, by decide +kernel, by decide +kernel,
    noSleep _ (by decide +kernel), by decide +kernel⟩,
   ⟨wCore fun k => setCnt k 63 { Counter.init with bound := 5, enable := true, value := 3 }, 0, 0, 0x3F3,
    by unfold Reach Serves Current; decide +kernel, by decide +kernel, by decide +kernel, by decide +kernel,
    noSleep _ (by decide +kernel), by decide +kernel⟩,
   ⟨wOn, 0, 0, 0x403, by unfold Reach Serves Current; decide +kernel, by decide +kernel, by decide +kernel,
    by decide +kernel, noSleep _ (by decide +kernel), by decide +kernel⟩,
   ⟨wCore fun k => setRing { k with sync := { k.sync with handVal := 2 } } 15 { wRing 15 0 4 with tail := 2 }, 0, 0, 0xF4,
    by unfold Reach Serves Current; decide +kernel, by decide +kernel, by decide +kernel, by decide +kernel,
    noSleep _ (by decide +kernel), 15, by decide +kernel⟩,
   ⟨wCore fun k => setRing { k with sync := { k.sync with handVal := 4 } } 15 { wRing 15 0 4 with tail := 2 }, 0, 0, 0xF5,
    by unfold Reach Serves Current; decide +kernel, by decide +kernel, by decide +kernel, by decide +kernel,
    noSleep _ (by decide +kernel), 15, by decide +kernel⟩⟩

/-- States and operands that meet the hypotheses of ContextRows, clause by clause. -/
theorem witness_ContextRows :
    (∃ (s : State) (l p c : Nat) (v : Word), Reach s l p ∧ Clean v 0x1FF03FF ∧ fieldN v.toNat 3 2 = c ∧
     ctxOpCheck s p l v.toNat = .done ∧ fieldN v.toNat 0 3 = 1 ∧
     ctxOverlaps (coreAt s p) c (ctxAt (coreAt s p) c).tiles (ctxAt (coreAt s p) c).pools = false) ∧
    (∃ (s : State) (l p c : Nat) (v : Word), Reach s l p ∧ Clean v 0x1FF03FF ∧ fieldN v.toNat 3 2 = c ∧
     ctxOpCheck s p l v.toNat = .done ∧ fieldN v.toNat 0 3 = 1 ∧
     ctxOverlaps (coreAt s p) c (ctxAt (coreAt s p) c).tiles (ctxAt (coreAt s p) c).pools = true) ∧
    (∃ (s : State) (l p c : Nat) (v : Word), Reach s l p ∧ Clean v 0x1FF03FF ∧ fieldN v.toNat 3 2 = c ∧
     ctxOpCheck s p l v.toNat = .done ∧ fieldN v.toNat 0 3 = 7) ∧
    (∃ (s : State) (l p : Nat) (v : Word) (i : Instr) (st : Status), Reach s l p ∧ Clean v 0x1FF03FF ∧
     (i, fieldN v.toNat 0 3) ∈ [(Instr.create l v, 1), (.bind l v, 2), (.unbind l v, 3), (.save l v, 4), (.restore l v,
       5), (.destroy l v, 6), (.settle l v, 7)] ∧ ctxOpCheck s p l v.toNat = st ∧ st ≠ .done) ∧
    (∃ (s : State) (l p c : Nat) (v : Word), Reach s l p ∧ Clean v 0x1FF03FF ∧ fieldN v.toNat 3 2 = c ∧
     ctxOpCheck s p l v.toNat = .done ∧ ∃ qs, qs = (List.range 4).filter (fun q => wbit v (5 + q)) ∧
     fieldN v.toNat 0 3 = 2 ∧ (ctxBind s p l c qs).1 = .done) ∧
    (∃ (s : State) (l p c : Nat) (v : Word), Reach s l p ∧ Clean v 0x1FF03FF ∧ fieldN v.toNat 3 2 = c ∧
     ctxOpCheck s p l v.toNat = .done ∧ ∃ qs, qs = (List.range 4).filter (fun q => wbit v (5 + q)) ∧
     fieldN v.toNat 0 3 = 2 ∧ ∃ q, q ∈ qs ∧ (ringAt (coreAt s p) q).enable = true) ∧
    (∃ (s : State) (l p c : Nat) (v : Word), Reach s l p ∧ Clean v 0x1FF03FF ∧ fieldN v.toNat 3 2 = c ∧
     ctxOpCheck s p l v.toNat = .done ∧ ∃ qs, qs = (List.range 4).filter (fun q => wbit v (5 + q)) ∧
     fieldN v.toNat 0 3 = 2 ∧ ∃ q, qs = [q] ∧ (ringAt (coreAt s p) q).enable = false) ∧
    (∃ (s : State) (l p c : Nat) (v : Word), Reach s l p ∧ Clean v 0x1FF03FF ∧ fieldN v.toNat 3 2 = c ∧
     ctxOpCheck s p l v.toNat = .done ∧ ∃ qs, qs = (List.range 4).filter (fun q => wbit v (5 + q)) ∧
     fieldN v.toNat 0 3 = 2 ∧ ∃ (st : Status), (ctxBind s p l c qs).1 = st ∧ st ≠ .done) ∧
    (∃ (s : State) (l p c : Nat) (v : Word), Reach s l p ∧ Clean v 0x1FF03FF ∧ fieldN v.toNat 3 2 = c ∧
     ctxOpCheck s p l v.toNat = .done ∧ fieldN v.toNat 0 3 = 3) :=
  ⟨⟨wCore fun k => setCtx k 3 { Ctx.init with tiles := 1, pools := [(0, 8), (0, 0), (0, 0), (0, 0)], xlat := [(1, 0x8005)] },
    0, 0, 3, 0x19, by unfold Reach Serves Current; decide +kernel, by unfold Clean; decide +kernel, by decide +kernel⟩,
   ⟨wCore fun k => setCtx (setCtx k 3 { Ctx.init with tiles := 1, pools := [(0, 8), (0, 0), (0, 0), (0, 0)] }) 2 { Ctx.init with state := 1, tiles := 1 },
    0, 0, 3, 0x19, by unfold Reach Serves Current; decide +kernel, by unfold Clean; decide +kernel, by decide +kernel⟩,
   ⟨{ (wCore fun k => setCtx k 0 { Ctx.init with state := 1 }) with gals := [(0, { Gal.init with unsettled := [0] })] }, 0,
    0, 0, 7, by unfold Reach Serves Current; decide +kernel, by unfold Clean; decide +kernel, by decide +kernel⟩,
   ⟨wCore fun k => { k with op := { k.op with busy := true } }, 0, 0, 0x19, .create 0 0x19, .busy,
    by unfold Reach Serves Current; decide +kernel, by unfold Clean; decide +kernel, by decide +kernel⟩,
   ⟨wCore fun k => setCtx k 3 { Ctx.init with state := 1, recs := [(3, { present := true, ring := wRing 3 508 4, nextSlot := 5, onFail := true, wait := none })] },
    0, 0, 3, 0x11A, by unfold Reach Serves Current; decide +kernel, by unfold Clean; decide +kernel, by decide +kernel,
    by decide +kernel, _, rfl, by decide +kernel⟩,
   ⟨wCore fun k => setRing (setCtx k 3 { Ctx.init with state := 1 }) 3 (wRing 3 508 4), 0, 0, 3, 0x11A,
    by unfold Reach Serves Current; decide +kernel, by unfold Clean; decide +kernel, by decide +kernel, by decide +kernel,
    _, rfl, by decide +kernel, 3, by decide +kernel⟩,
   ⟨wCore fun k => setCtx k 3 { Ctx.init with state := 1, recs := [(3, { present := true, ring := wRing 3 508 4, nextSlot := 5, onFail := true, wait := none })] },
    0, 0, 3, 0x11A, by unfold Reach Serves Current; decide +kernel, by unfold Clean; decide +kernel, by decide +kernel,
    by decide +kernel, _, rfl, by decide +kernel, 3, by decide +kernel⟩,
   ⟨wCore fun k => setRing (setCtx k 3 { Ctx.init with state := 1 }) 3 (wRing 3 508 4), 0, 0, 3, 0x11A,
    by unfold Reach Serves Current; decide +kernel, by unfold Clean; decide +kernel, by decide +kernel, by decide +kernel,
    _, rfl, by decide +kernel, .badState, by decide +kernel⟩,
   ⟨wCore fun k => setCtx (setQueue k 3 { Queue.init with state := 1, ctx := 3 }) 3 { Ctx.init with state := 1 }, 0, 0, 3,
    0x11B, by unfold Reach Serves Current; decide +kernel, by unfold Clean; decide +kernel, by decide +kernel⟩⟩

/-- States and operands that meet the hypotheses of DestroyEmptiesTheSlot, clause by clause. -/
theorem witness_DestroyEmptiesTheSlot :
    ∃ (s : State) (l p c : Nat) (v : Word), Reach s l p ∧ Clean v 0x1FF03FF ∧ fieldN v.toNat 3 2 = c ∧
    fieldN v.toNat 0 3 = 6 ∧ ctxOpCheck s p l v.toNat = .done :=
  ⟨wCore fun k => setCtx { (setCnt k 5 { Counter.init with owner := 3, enable := true }) with tile := { k.tile with owner := 4 }, flow := { k.flow with desc := [(7, { Desc.init with poisoned := false })] } } 3 { Ctx.init with state := 1, tiles := 0x80, xlat := [(1, 0x8005)] },
   0, 0, 3, 0x1E, by unfold Reach Serves Current; decide +kernel, by unfold Clean; decide +kernel, by decide +kernel⟩

/-- States and operands that meet the hypotheses of SaveAndRestoreRows, clause by clause. -/
theorem witness_SaveAndRestoreRows :
    (∃ (s : State) (l p c : Nat) (v : Word), Reach s l p ∧ Clean v 0x1FF03FF ∧ fieldN v.toNat 3 2 = c ∧
     ctxOpCheck s p l v.toNat = .done ∧ ∃ (i : Instr), (i, fieldN v.toNat 0 3) ∈ [(Instr.save l v, 4), (.restore l v, 5)] ∧
     imageAddrOk (coreAt s p).op.img = false) ∧
    (∃ (s : State) (l p c : Nat) (v : Word), Reach s l p ∧ Clean v 0x1FF03FF ∧ fieldN v.toNat 3 2 = c ∧
     ctxOpCheck s p l v.toNat = .done ∧ fieldN v.toNat 0 3 = 4 ∧ imageAddrOk (coreAt s p).op.img = true ∧
     recordsCovered (ctxAt (coreAt s p) c) = false) ∧
    (∃ (s : State) (l p c : Nat) (v : Word), Reach s l p ∧ Clean v 0x1FF03FF ∧ fieldN v.toNat 3 2 = c ∧
     ctxOpCheck s p l v.toNat = .done ∧ fieldN v.toNat 0 3 = 4 ∧ imageAddrOk (coreAt s p).op.img = true ∧
     recordsCovered (ctxAt (coreAt s p) c) = true ∧ saveReady (startCtxOp s p l v.toNat) p l = true ∧
     Clear (coreAt s p) [] ∧
     (∀ i, i < imageRows (ctxAt (coreAt s p) c).tiles (ctxAt (coreAt s p) c).pools → rowUnsent s p ((coreAt s p).op.img +
       512 * i) = false)) ∧
    (∃ (s : State) (l p c : Nat) (v : Word), Reach s l p ∧ Clean v 0x1FF03FF ∧ fieldN v.toNat 3 2 = c ∧
     ctxOpCheck s p l v.toNat = .done ∧ fieldN v.toNat 0 3 = 4 ∧ imageAddrOk (coreAt s p).op.img = true ∧
     recordsCovered (ctxAt (coreAt s p) c) = true ∧ saveReady (startCtxOp s p l v.toNat) p l = false) ∧
    (∃ (s : State) (l p c : Nat) (v : Word), Reach s l p ∧ Clean v 0x1FF03FF ∧ fieldN v.toNat 3 2 = c ∧
     ctxOpCheck s p l v.toNat = .done ∧ fieldN v.toNat 0 3 = 5 ∧ imageAddrOk (coreAt s p).op.img = true ∧
     (∀ i, i < 8 → rowUnsent s p ((coreAt s p).op.img + 512 * i) = false)) :=
  ⟨⟨wCore fun k => setCtx k 3 { Ctx.init with state := 1 }, 0, 0, 3, 0x1C, by unfold Reach Serves Current; decide +kernel,
    by unfold Clean; decide +kernel, by decide +kernel, by decide +kernel, .save 0 0x1C, by decide +kernel⟩,
   ⟨wCore fun k => setCtx { k with op := { k.op with img := 2 ^ 47 } } 3 { Ctx.init with state := 1, recs := [(3, { present := true, ring := wRing 3 508 4, nextSlot := 5, onFail := true, wait := none })] },
    0, 0, 3, 0x1C, by unfold Reach Serves Current; decide +kernel, by unfold Clean; decide +kernel, by decide +kernel⟩,
   ⟨wCore fun k => setCtx { k with op := { k.op with img := 2 ^ 47 } } 3 { Ctx.init with state := 1, tiles := 0x80, pools := [(0, 1), (0, 0), (0, 0), (0, 0)] },
    0, 0, 3, 0x1C, by unfold Reach Serves Current; decide +kernel, by unfold Clean; decide +kernel, by decide +kernel,
    by decide +kernel, by decide +kernel, by decide +kernel, by decide +kernel, by decide +kernel,
    by unfold Machine.Clear; decide +kernel, by decide +kernel⟩,
   ⟨wCore fun k => setCtx { k with op := { k.op with img := 2 ^ 47 } } 3 { Ctx.init with state := 1, parts := [{ slot := 0, parity := false, verdict := false, deadline := 0, out := false, frozen := false }] },
    0, 0, 3, 0x1C, by unfold Reach Serves Current; decide +kernel, by unfold Clean; decide +kernel, by decide +kernel⟩,
   ⟨wCore fun k => { k with op := { k.op with img := 2 ^ 47 } }, 0, 0, 3, 0x21D,
    by unfold Reach Serves Current; decide +kernel, by unfold Clean; decide +kernel, by decide +kernel⟩⟩

/-- States and operands that meet the hypotheses of ContextEvents, clause by clause. -/
theorem witness_ContextEvents :
    (∃ (s : State) (l p : Nat), liveCore s l = some p ∧ ∃ q x, (coreAt s p).sync.due = [] ∧
     parkReady s l (cycleOf s l) q (coreAt s p) = true ∧ x = queueAt (coreAt s p) q) ∧
    (∃ (s : State) (l p : Nat), liveCore s l = some p ∧ (coreAt s p).op.busy = true ∧ (coreAt s p).op.op = 4 ∧
     (coreAt s p).op.stage ≠ 0 ∧ (coreAt s p).op.left = []) ∧
    (∃ (s : State) (l p : Nat), liveCore s l = some p ∧ (coreAt s p).op.busy = true ∧ (coreAt s p).op.op = 5 ∧
     (coreAt s p).op.stage = 0 ∧ (coreAt s p).op.left = [] ∧ (coreAt s p).op.fail = none ∧
     (∀ i, i < rowBytes (Store.get Row.zero (coreAt s p).op.rows 0) 8 2 → rowUnsent s p ((coreAt s p).op.img + 512 * i) =
       false)) ∧
    (∃ (s : State) (l p : Nat), liveCore s l = some p ∧ ∃ x ts, (coreAt s p).op.busy = true ∧ (coreAt s p).op.op = 5 ∧
     (coreAt s p).op.stage = 1 ∧ (coreAt s p).op.left = [] ∧ (coreAt s p).op.fail = none ∧
     x = imageCtx (Store.get Row.zero (coreAt s p).op.rows) ∧ ts = maskTiles x.tiles ∧
     (ts.all fun t => trowsOpen (coreAt s p) (cycleOf s l) (32 * t)) = true ∧
     (ts.mapIdx fun i _ => imageTile (coreAt s p) i).all imageOk = true) ∧
    (∃ (s : State) (l p : Nat), liveCore s l = some p ∧ ∃ x ts, (coreAt s p).op.busy = true ∧ (coreAt s p).op.op = 5 ∧
     (coreAt s p).op.stage = 1 ∧ (coreAt s p).op.left = [] ∧ (coreAt s p).op.fail = none ∧
     x = imageCtx (Store.get Row.zero (coreAt s p).op.rows) ∧ ts = maskTiles x.tiles ∧
     (ts.all fun t => trowsOpen (coreAt s p) (cycleOf s l) (32 * t)) = true ∧
     (ts.mapIdx fun i _ => imageTile (coreAt s p) i).all imageOk = false) ∧
    (∃ (s : State) (l p : Nat), liveCore s l = some p ∧ (coreAt s p).op.busy = true ∧
     (coreAt s p).op.since + (coreAt s p).op.limit < cycleOf s l) :=
  ⟨⟨wCore fun k => setCtx (setQueue (setRing k 1 (wRing 1 0 4)) 1 { Queue.init with state := 3, ctx := 3, nextSlot := 15 }) 3 { Ctx.init with state := 2 },
    0, 0, by decide +kernel, 1, _, by decide +kernel, by decide +kernel, rfl⟩,
   ⟨wCore fun k => { k with op := { k.op with busy := true, op := 4, stage := 1, slot := 3, since := 9000, limit := 10000, fail := some 13 } },
    0, 0, by decide +kernel⟩,
   ⟨wCore fun k => { k with op := { k.op with busy := true, op := 5, slot := 3, since := 9000, limit := 10000 } }, 0, 0,
    by decide +kernel⟩,
   ⟨wCore fun k => { k with op := { k.op with busy := true, op := 5, slot := 3, stage := 1, since := 9000, limit := 10000, rows := [(0, { data := BitVec.ofNat 4096 (0x4A594358 + 2 ^ 32 + 2 ^ 40 + 8 * 2 ^ 64), side := 0 })] } },
    0, 0, by decide +kernel, _, _, by decide +kernel, by decide +kernel, by decide +kernel, by decide +kernel,
    by decide +kernel, rfl, rfl, by decide +kernel⟩,
   ⟨wCore fun k => { k with op := { k.op with busy := true, op := 5, slot := 3, stage := 1, since := 9000, limit := 10000, rows := [(0, { data := BitVec.ofNat 4096 (0x4A594358 + 2 ^ 32 + 2 ^ 40 + 2 ^ 48 + 24 * 2 ^ 64), side := 0 }), (8, { data := 2 ^ 56, side := 0 })] } },
    0, 0, by decide +kernel, _, _, by decide +kernel, by decide +kernel, by decide +kernel, by decide +kernel,
    by decide +kernel, rfl, rfl, by decide +kernel⟩,
   ⟨wCore fun k => setCtx (setQueue { k with op := { k.op with busy := true, op := 3, slot := 3, qmask := [1], since := 9000, limit := 999 } } 1 { Queue.init with state := 3, ctx := 3 }) 3 { Ctx.init with state := 2 },
    0, 0, by decide +kernel⟩⟩

/-- States and operands that meet the hypotheses of ResetRows, clause by clause. -/
theorem witness_ResetRows :
    (∃ (s : State) (v : Word) (d : Nat × Nat) (i : Instr) (rel off bad : Bool), Serves s ∧
     (i, rel) ∈ [(Instr.resetAssert v, false), (.resetRelease v, true)] ∧ wbit v 13 = rel ∧
     d = (fieldN v.toNat 0 2, fieldN v.toNat 2 11) ∧
     off = (wbit v 14 || wbit v 15 || decide (2 ^ 25 ≤ v.toNat) || decide ((match d.1 with | 0 => 2048 | 1 => 32 | 2 => 4 | _ => 1) ≤ d.2)) ∧
     bad = ((d.1 != 3 && decide (s.boot.stage < 2)) || (!rel && s.resets.asserted.contains d) || (rel &&
       (!s.resets.asserted.contains d || (largerDomains d).any s.resets.asserted.contains))) ∧ ∃ (st : Status), st ≠ .done ∧
     st = (if off then .badValue else if s.resets.taking ≠ [] then .busy else if bad then .badState else if d.1 = 0 ∧
       unserved s d.2 = true then .mappedOut else .done)) ∧
    (∃ (s : State) (v : Word) (d : Nat × Nat) (i : Instr) (rel off bad : Bool), Serves s ∧
     (i, rel) ∈ [(Instr.resetAssert v, false), (.resetRelease v, true)] ∧ wbit v 13 = rel ∧
     d = (fieldN v.toNat 0 2, fieldN v.toNat 2 11) ∧
     off = (wbit v 14 || wbit v 15 || decide (2 ^ 25 ≤ v.toNat) || decide ((match d.1 with | 0 => 2048 | 1 => 32 | 2 => 4 | _ => 1) ≤ d.2)) ∧
     bad = ((d.1 != 3 && decide (s.boot.stage < 2)) || (!rel && s.resets.asserted.contains d) || (rel &&
       (!s.resets.asserted.contains d || (largerDomains d).any s.resets.asserted.contains))) ∧ off = false ∧ bad = false ∧
     s.resets.taking = [] ∧ (d.1 = 0 → unserved s d.2 = false)) ∧
    (∃ (s : State), ∃ (x : Nat × (Nat × Nat)) (rest : List (Nat × (Nat × Nat))), s.resets.leaving = x :: rest ∧
     x.1 + 32 ≤ s.mNow) ∧
    (∃ (s : State), (∀ x rest, s.resets.leaving = x :: rest → s.mNow < x.1 + 32)) ∧
    (∃ (s : State), (3, 0) ∈ s.resets.asserted ∧ (3, 0) ∉ s.resets.taking) ∧
    (∃ (s : State), ((3, 0) ∉ s.resets.asserted ∨ (3, 0) ∈ s.resets.taking)) ∧
    (∃ (s : State) (v : Word), Serves s ∧ Clean v 0xFFFFFFF) :=
  ⟨⟨{ wOn with resets := { wOn.resets with asserted := [(1, 31)] } }, 0x7D, _, .resetAssert 0x7D, false, _, _,
    by unfold Serves; decide +kernel, by decide +kernel, by decide +kernel, rfl, rfl, rfl, .badState, by decide +kernel⟩,
   ⟨wOn, 3, _, .resetAssert 3, false, _, _, by unfold Serves; decide +kernel, by decide +kernel, by decide +kernel, rfl,
    rfl, rfl, by decide +kernel⟩,
   ⟨{ wOn with resets := { wOn.resets with leaving := [(9968, (0, 0))] } }, (9968, (0, 0)), [], by decide +kernel⟩,
   ⟨wOn, fun _ _ h => nomatch h⟩,
   ⟨{ wOn with resets := { wOn.resets with asserted := [(3, 0)] } }, by decide +kernel⟩,
   ⟨wOn, by decide +kernel⟩,
   ⟨wCore fun k => setRing { k with mv := { k.mv with creds := [{ die := 9, core := 0, ring := 0, base := 0, size := 4, count := 1 }] } } 15 { wRing 15 0 4 with kind := 2, die := 9 },
    0x8000009, by unfold Serves; decide +kernel, by unfold Clean; decide +kernel⟩⟩

/-- States and operands that meet the hypotheses of CoreResetTakesEffect, clause by clause. -/
theorem witness_CoreResetTakesEffect :
    (∃ (s : State) (l p : Nat) (rest : List (Nat × Nat)), s.resets.taking = (0, l) :: rest ∧ physOf s l = some p ∧
     s.mNow ≤ s.resets.since) ∧
    (∃ (s : State) (l p : Nat) (rest : List (Nat × Nat)), s.resets.taking = (0, l) :: rest ∧ physOf s l = some p ∧
     s.resets.since < s.mNow) ∧
    (∃ (s : State) (d : Nat × Nat) (rest : List (Nat × Nat)), s.resets.taking = d :: rest ∧ s.resets.since < s.mNow ∧
     (d.1 = 1 ∨ d.1 = 2)) ∧
    (∃ (s : State) (d : Nat × Nat) (rest : List (Nat × Nat)), s.resets.taking = d :: rest ∧ s.resets.since < s.mNow ∧
     d.1 = 3) :=
  ⟨⟨{ wOn with resets := { wOn.resets with since := 10000, asserted := [(0, 0)], taking := [(0, 0), (3, 0)] } }, 0, 0,
    [(3, 0)], by decide +kernel⟩,
   ⟨{ wOn with resets := { wOn.resets with asserted := [(0, 0)], taking := [(0, 0), (3, 0)] } }, 0, 0, [(3, 0)],
    by decide +kernel⟩,
   ⟨{ wOn with resets := { wOn.resets with asserted := [(2, 0)], taking := [(2, 0)] } }, (2, 0), [], by decide +kernel⟩,
   ⟨{ wOn with resets := { wOn.resets with asserted := [(3, 0)], taking := [(3, 0)] } }, (3, 0), [], by decide +kernel⟩⟩

/-- States and operands that meet the hypotheses of CoreResetClearsTheCensus, clause by clause. -/
theorem witness_CoreResetClearsTheCensus :
    (∃ (s : State) (l p : Nat) (rest : List (Nat × Nat)), s.resets.taking = (0, l) :: rest ∧ physOf s l = some p ∧
     s.resets.since < s.mNow) ∧
    (∃ (s : State) (p : Nat), Inv s ∧ (coreAt s p).upsets.sync = []) :=
  ⟨⟨{ wOn with resets := { wOn.resets with asserted := [(0, 0)], taking := [(0, 0), (3, 0)] } }, 0, 0, [(3, 0)],
    by decide +kernel⟩,
   ⟨wCore fun k => { k with census := { k.census with live := [(3, { TagCnt.init with zero := 5 })] } }, 0,
    by unfold Machine.Inv logWf; decide +kernel, by decide +kernel⟩⟩

/-- States and operands that meet the hypotheses of DayRunRows, clause by clause. -/
theorem witness_DayRunRows :
    (∃ (s : State) (v : Word) (i : Instr) (d : Day), Serves s ∧ Clean v 0x303 ∧
     (i, wbit v 0) ∈ [(Instr.dayRunStart v, true), (.dayRunStop v, false)] ∧
     d = { s.day with markLost := s.day.markLost && !wbit v 8, overrun := s.day.overrun && !wbit v 9, source := wbit v 1 } ∧
     ((s.day.run = true ∧ wbit v 1 ≠ s.day.source) ∨ (s.tap.standalone = true ∧ wbit v 1 = true))) ∧
    (∃ (s : State) (v : Word) (i : Instr) (d : Day), Serves s ∧ Clean v 0x303 ∧
     (i, wbit v 0) ∈ [(Instr.dayRunStart v, true), (.dayRunStop v, false)] ∧
     d = { s.day with markLost := s.day.markLost && !wbit v 8, overrun := s.day.overrun && !wbit v 9, source := wbit v 1 } ∧
     (s.day.run = true → wbit v 1 = s.day.source) ∧ (s.tap.standalone = true → wbit v 1 = false) ∧ wbit v 0 = s.day.run) ∧
    (∃ (s : State) (v : Word) (i : Instr) (d : Day), Serves s ∧ Clean v 0x303 ∧
     (i, wbit v 0) ∈ [(Instr.dayRunStart v, true), (.dayRunStop v, false)] ∧
     d = { s.day with markLost := s.day.markLost && !wbit v 8, overrun := s.day.overrun && !wbit v 9, source := wbit v 1 } ∧
     (s.day.run = true → wbit v 1 = s.day.source) ∧ (s.tap.standalone = true → wbit v 1 = false) ∧ wbit v 0 = true ∧
     s.day.run = false) ∧
    (∃ (s : State) (v : Word) (i : Instr) (d : Day), Serves s ∧ Clean v 0x303 ∧
     (i, wbit v 0) ∈ [(Instr.dayRunStart v, true), (.dayRunStop v, false)] ∧
     d = { s.day with markLost := s.day.markLost && !wbit v 8, overrun := s.day.overrun && !wbit v 9, source := wbit v 1 } ∧
     (s.day.run = true → wbit v 1 = s.day.source) ∧ (s.tap.standalone = true → wbit v 1 = false) ∧ wbit v 0 = false ∧
     s.day.run = true) :=
  ⟨⟨wDay id, 1, .dayRunStart 1, _, by unfold Serves; decide +kernel, by unfold Clean; decide +kernel, by decide +kernel,
    rfl, by decide +kernel⟩,
   ⟨wDay id, 3, .dayRunStart 3, _, by unfold Serves; decide +kernel, by unfold Clean; decide +kernel, by decide +kernel,
    rfl, by decide +kernel⟩,
   ⟨wOn, 0x301, .dayRunStart 0x301, _, by unfold Serves; decide +kernel, by unfold Clean; decide +kernel, by decide +kernel,
    rfl, by decide +kernel⟩,
   ⟨{ wDay id with held := [{ addr := 0x700, value := 500 }] }, 2, .dayRunStop 2, _, by unfold Serves; decide +kernel,
    by unfold Clean; decide +kernel, by decide +kernel, rfl, by decide +kernel⟩⟩

/-- States and operands that meet the hypotheses of DayGatesAndFirstDawn, clause by clause. -/
theorem witness_DayGatesAndFirstDawn :
    (∃ (s : State), (s.day.inForce = false ∨ 128 ≤ s.day.ns)) ∧
    (∃ (s : State), s.day.inForce = true ∧ s.day.ns < 128) ∧
    (∃ (s : State), s.day.inForce = true ∧ s.day.period - s.day.twilight ≤ s.day.ns) ∧
    (∃ (s : State), (s.day.inForce = false ∨ s.day.ns < s.day.period - s.day.twilight)) ∧
    (∃ (s : State),
     (s.day.run = false ∨ s.day.inForce = true ∨ s.day.ns < (if s.day.source then s.day.period + 64 else 128))) ∧
    (∃ (s : State),
     (s.day.run = false ∨ s.day.inForce = false ∨ s.day.ns < (if s.day.source then s.day.period + 64 else s.day.period))) ∧
    (∃ (s : State) (m : Nat), m < 8 ∧ (bunAt s (2176 + m)).state = 2 ∧ (s.day.run = false ∨ s.day.source = false)) ∧
    (∃ (s : State) (m : Nat), m < 8 ∧ (bunAt s (2176 + m)).state = 2 ∧ s.day.run = true ∧ s.day.source = true ∧
     s.day.inForce = true ∧ s.day.ns ≤ 64) ∧
    (∃ (s : State) (m : Nat), m < 8 ∧ (bunAt s (2176 + m)).state ≠ 2) ∧
    (∃ (s : State), s.day.run = true ∧ s.day.inForce = false ∧
     (if s.day.source then s.day.period + 64 else 128) ≤ s.day.ns) ∧
    (∃ (s : State), s.day.run = true ∧ s.day.inForce = false ∧ ∃ m, m < 8 ∧ (bunAt s (2176 + m)).state = 2 ∧
     s.day.source = true) :=
  ⟨⟨wDay fun d => { d with ns := 128 }, by decide +kernel⟩,
   ⟨wDay fun d => { d with ns := 127 }, by decide +kernel⟩,
   ⟨wDay fun d => { d with ns := 900 }, by decide +kernel⟩,
   ⟨wDay fun d => { d with ns := 899 }, by decide +kernel⟩,
   ⟨wDay fun d => { d with inForce := false, ns := 1063 }, by decide +kernel⟩,
   ⟨wDay fun d => { d with ns := 1063 }, by decide +kernel⟩,
   ⟨wDay fun d => { d with source := false }, 0, by decide +kernel⟩,
   ⟨wDay fun d => { d with ns := 64 }, 0, by decide +kernel⟩,
   ⟨wDay id, 7, by decide +kernel⟩,
   ⟨wDay fun d => { d with inForce := false, ns := 1064 }, by decide +kernel⟩,
   ⟨wDay fun d => { d with inForce := false }, by decide +kernel, by decide +kernel, 0, by decide +kernel⟩⟩

/-- States and operands that meet the hypotheses of DuskEndsDay, clause by clause. -/
theorem witness_DuskEndsDay :
    (∃ (s : State), s.day.run = true ∧ s.day.inForce = true ∧ ∃ m, m < 8 ∧ (bunAt s (2176 + m)).state = 2 ∧
     s.day.source = true ∧ 64 < s.day.ns) ∧
    (∃ (s : State), s.day.run = true ∧ s.day.inForce = true ∧ s.day.source = false ∧ s.day.period ≤ s.day.ns) ∧
    (∃ (s : State), s.day.run = true ∧ s.day.inForce = true ∧ s.day.source = true ∧ s.day.period + 64 ≤ s.day.ns) ∧
    (∃ (s : State), Inv s ∧ ∃ p, (coreAt s p).upsets.sync = []) ∧
    (∃ (s : State), Inv s) ∧
    (∃ (s : State), Inv s ∧ ∃ c, c < 4) ∧
    (∃ (s : State), Inv s) ∧
    (∃ (s : State), s.day.rollForming = false) ∧
    (∃ (s : State), s.day.rollForming = true) :=
  ⟨⟨wDay fun d => { d with ns := 65 }, by decide +kernel, by decide +kernel, 0, by decide +kernel⟩,
   ⟨wDay fun d => { d with source := false, ns := 1000 }, by decide +kernel⟩,
   ⟨wDay fun d => { d with ns := 1064 }, by decide +kernel⟩,
   ⟨wCore fun k => { k with ecc := { Ecc.init with poolCorr := 3 } }, by unfold Machine.Inv logWf; decide +kernel, 0,
    by decide +kernel⟩,
   ⟨wOn, by unfold Machine.Inv logWf; decide +kernel⟩,
   ⟨wOn, by unfold Machine.Inv logWf; decide +kernel, 3, by decide +kernel⟩,
   ⟨wOn, by unfold Machine.Inv logWf; decide +kernel⟩,
   ⟨wOn, by decide +kernel⟩,
   ⟨{ (wCore fun k => { k with census := { k.census with shadow := [(3, { TagCnt.init with zero := 5 })] } }) with day := { wOn.day with rollForming := true, shadowDay := 7, goneCores := [2047] } },
    by decide +kernel⟩⟩

/-- States and operands that meet the hypotheses of SlotRows, clause by clause. -/
theorem witness_SlotRows :
    (∃ (s : State) (n : Nat) (v : Word) (i : Instr) (x : Slot), Serves s ∧ n < 128 ∧ Clean v 0x1FF3F ∧ x = slotAt s n ∧
     ((i = .slotEnable n v ∧ wbit v 0 = true ∧ wbit v 5 = false) ∨ (i = .slotDisable n v ∧ wbit v 0 = false ∧ wbit v 5 =
       false) ∨ (i = .slotRearm n v ∧ wbit v 5 = true)) ∧
     ((wbit v 5 = true ∧ slotState x ≠ 2) ∨ (wbit v 1 = true ∧ s.tap.standalone = true))) ∧
    (∃ (s : State) (n : Nat) (v : Word) (i : Instr) (x : Slot), Serves s ∧ n < 128 ∧ Clean v 0x1FF3F ∧ x = slotAt s n ∧
     ((i = .slotEnable n v ∧ wbit v 0 = true ∧ wbit v 5 = false) ∨ (i = .slotDisable n v ∧ wbit v 0 = false ∧ wbit v 5 =
       false) ∨ (i = .slotRearm n v ∧ wbit v 5 = true)) ∧ (wbit v 5 = true → slotState x = 2) ∧
     (s.tap.standalone = true → wbit v 1 = false) ∧ s.day.run = true) ∧
    (∃ (s : State) (n : Nat) (v : Word) (i : Instr) (x : Slot), Serves s ∧ n < 128 ∧ Clean v 0x1FF3F ∧ x = slotAt s n ∧
     ((i = .slotEnable n v ∧ wbit v 0 = true ∧ wbit v 5 = false) ∨ (i = .slotDisable n v ∧ wbit v 0 = false ∧ wbit v 5 =
       false) ∨ (i = .slotRearm n v ∧ wbit v 5 = true)) ∧ (wbit v 5 = true → slotState x = 2) ∧
     (s.tap.standalone = true → wbit v 1 = false) ∧ s.day.run = false ∧ wbit v 0 = false ∧ x.enable = true) ∧
    (∃ (s : State) (n : Nat) (v : Word) (i : Instr) (x : Slot), Serves s ∧ n < 128 ∧ Clean v 0x1FF3F ∧ x = slotAt s n ∧
     ((i = .slotEnable n v ∧ wbit v 0 = true ∧ wbit v 5 = false) ∨ (i = .slotDisable n v ∧ wbit v 0 = false ∧ wbit v 5 =
       false) ∨ (i = .slotRearm n v ∧ wbit v 5 = true)) ∧ (wbit v 5 = true → slotState x = 2) ∧
     (s.tap.standalone = true → wbit v 1 = false) ∧ s.day.run = false ∧ wbit v 0 = x.enable ∧ wbit v 5 = false ∧
     (x.enable = false ∨ wbit v 0 = true)) ∧
    (∃ (s : State) (n : Nat) (v : Word) (i : Instr) (x : Slot), Serves s ∧ n < 128 ∧ Clean v 0x1FF3F ∧ x = slotAt s n ∧
     ((i = .slotEnable n v ∧ wbit v 0 = true ∧ wbit v 5 = false) ∨ (i = .slotDisable n v ∧ wbit v 0 = false ∧ wbit v 5 =
       false) ∨ (i = .slotRearm n v ∧ wbit v 5 = true)) ∧ (wbit v 5 = true → slotState x = 2) ∧
     (s.tap.standalone = true → wbit v 1 = false) ∧ s.day.run = false ∧ wbit v 0 = true ∧
     (x.enable = false ∨ wbit v 5 = true)) :=
  ⟨⟨wOn, 127, 0x21, .slotRearm 127 0x21, _, by unfold Serves; decide +kernel, by decide +kernel,
    by unfold Clean; decide +kernel, rfl, by decide +kernel⟩,
   ⟨wDay id, 127, 1, .slotEnable 127 1, _, by unfold Serves; decide +kernel, by decide +kernel,
    by unfold Clean; decide +kernel, rfl, by decide +kernel⟩,
   ⟨wSlot 127 (fun x => { x with arr0 := [(0, 1, true)] }) wOn, 127, 0, .slotDisable 127 0, _,
    by unfold Serves; decide +kernel, by decide +kernel, by unfold Clean; decide +kernel, rfl, by decide +kernel⟩,
   ⟨wSlot 127 id wOn, 127, 3, .slotEnable 127 3, _, by unfold Serves; decide +kernel, by decide +kernel,
    by unfold Clean; decide +kernel, rfl, by decide +kernel⟩,
   ⟨wSlot 127 (fun x => { x with broken := true }) wOn, 127, 0x21, .slotRearm 127 0x21, _, by unfold Serves; decide +kernel,
    by decide +kernel, by unfold Clean; decide +kernel, rfl, by decide +kernel⟩⟩

/-- States and operands that meet the hypotheses of ApertureAndReloadRows, clause by clause. -/
theorem witness_ApertureAndReloadRows :
    (∃ (s : State) (off : Nat), Serves s ∧ off < 0x10000 ∧ off % 4 = 0 ∧ s.cfg.target = true) ∧
    (∃ (s : State) (off : Nat), Serves s ∧ off < 0x10000 ∧ off % 4 = 0 ∧ s.cfg.target = false ∧ s.cfg.bsState < 2) ∧
    (∃ (s : State) (off : Nat), Serves s ∧ off < 0x10000 ∧ off % 4 = 0 ∧ s.cfg.target = false ∧ 2 ≤ s.cfg.bsState) ∧
    (∃ (s : State) (v : Word) (r : List Nat × Bool), Serves s ∧ r = ((List.range 4).filter (bitN v.toNat), wbit v 4) ∧
     ∃ (i : Instr), (i, wbit v 5) ∈ [(Instr.reload v, false), (.reloadCancel v, true)] ∧
     (2 ^ 16 ≤ v.toNat ∨ (r = ([], false) ∧ wbit v 5 = false))) ∧
    (∃ (s : State) (v : Word) (r : List Nat × Bool), Serves s ∧ r = ((List.range 4).filter (bitN v.toNat), wbit v 4) ∧
     let live := s.boot.stage = 7 ∧ s.cfg.bsState = 2; ∃ (i : Instr),
     (i, wbit v 5) ∈ [(Instr.reload v, false), (.reloadCancel v, true)] ∧ v.toNat < 2 ^ 16 ∧
     (r = ([], false) → wbit v 5 = true) ∧ ¬live) ∧
    (∃ (s : State) (v : Word) (r : List Nat × Bool), Serves s ∧ r = ((List.range 4).filter (bitN v.toNat), wbit v 4) ∧
     let live := s.boot.stage = 7 ∧ s.cfg.bsState = 2; live ∧ v.toNat < 2 ^ 16 ∧ wbit v 5 = false ∧ r ≠ ([], false) ∧
     s.cfg.pending = none ∧ reloadMisfit s r = true) ∧
    (∃ (s : State) (v : Word) (r : List Nat × Bool), Serves s ∧ r = ((List.range 4).filter (bitN v.toNat), wbit v 4) ∧
     let live := s.boot.stage = 7 ∧ s.cfg.bsState = 2; live ∧ v.toNat < 2 ^ 16 ∧ wbit v 5 = false ∧ r ≠ ([], false) ∧
     s.cfg.pending = none ∧ ∃ (st : Status) (j k : _), reloadMisfit s r = false ∧ reloadReject s r = some (st, j, k)) ∧
    (∃ (s : State) (v : Word) (r : List Nat × Bool), Serves s ∧ r = ((List.range 4).filter (bitN v.toNat), wbit v 4) ∧
     let live := s.boot.stage = 7 ∧ s.cfg.bsState = 2; live ∧ v.toNat < 2 ^ 16 ∧ wbit v 5 = false ∧
     (r.1 ≠ [] ∨ r.2 = true) ∧ s.cfg.pending = none ∧ reloadMisfit s r = false ∧ reloadReject s r = none) ∧
    (∃ (s : State) (v : Word) (r : List Nat × Bool), Serves s ∧ r = ((List.range 4).filter (bitN v.toNat), wbit v 4) ∧
     let live := s.boot.stage = 7 ∧ s.cfg.bsState = 2; live ∧ v.toNat < 2 ^ 16 ∧ wbit v 5 = false ∧
     (r.1 ≠ [] ∨ r.2 = true) ∧ s.cfg.pending.isSome = true) ∧
    (∃ (s : State) (v : Word) (r : List Nat × Bool), Serves s ∧ r = ((List.range 4).filter (bitN v.toNat), wbit v 4) ∧
     let live := s.boot.stage = 7 ∧ s.cfg.bsState = 2; live ∧ v.toNat < 2 ^ 16 ∧ wbit v 5 = true) :=
  ⟨⟨wCfg fun c => { c with target := true, page := 3 }, 0xFFFC, by unfold Serves; decide +kernel, by decide +kernel⟩,
   ⟨wCfg fun c => { c with bsState := 1 }, 0xFFFC, by unfold Serves; decide +kernel, by decide +kernel⟩,
   ⟨wCfg fun c => { c with bsState := 2 }, 0, by unfold Serves; decide +kernel, by decide +kernel⟩,
   ⟨wCfg fun c => { c with bsState := 2 }, 0, _, by unfold Serves; decide +kernel, rfl, .reload 0, by decide +kernel⟩,
   ⟨wOn, 0xF, _, by unfold Serves; decide +kernel, rfl, .reload 0xF, by decide +kernel⟩,
   ⟨wCfg fun c => { c with bsState := 2, staging := [(6, 9)] }, 0x1F, _, by unfold Serves; decide +kernel, rfl,
    by decide +kernel⟩,
   ⟨wCfg fun c => { c with bsState := 2, staging := [(12, 1), (0x1500, 9), (0x1501, 0), (0x1505, 0x30), (0x3006, 1), (0x3012, 0x0F)] },
    1, _, by unfold Serves; decide +kernel, rfl, by decide +kernel, by decide +kernel, by decide +kernel, by decide +kernel,
    by decide +kernel, .badState, 0, 0, by decide +kernel⟩,
   ⟨wCfg fun c => { c with bsState := 2 }, 0x1F, _, by unfold Serves; decide +kernel, rfl, by decide +kernel⟩,
   ⟨wCfg fun c => { c with bsState := 2, pending := some ([], true) }, 1, _, by unfold Serves; decide +kernel, rfl,
    by decide +kernel⟩,
   ⟨wCfg fun c => { c with bsState := 2, pending := some ([], true) }, 0x20, _, by unfold Serves; decide +kernel, rfl,
    by decide +kernel⟩⟩

/-- States and operands that meet the hypotheses of TestLogAndAttestationRows, clause by clause. -/
theorem witness_TestLogAndAttestationRows :
    (∃ (s : State), Serves s ∧ s.attest.busy = false ∧ s.boot.idState = 1) ∧
    (∃ (s : State), Serves s ∧ s.attest.busy = true) ∧
    (∃ (s : State), Serves s ∧ s.attest.busy = false ∧ s.boot.idState ≠ 1) ∧
    (∃ (s : State) (v : Word), Serves s ∧ ∃ (i : Instr) (bad : _),
     ((i = .standaloneSet v ∧ wbit v 0 = true) ∨ (i = .tapLock v ∧ wbit v 1 = true)) ∧ Clean v 3 ∧
     bad = ((wbit v 0 && !s.tap.standalone && (s.day.run || s.slots.any fun e => e.2.enable && e.2.offDie)) || (!wbit v 1
       && s.tap.tapLock)) ∧ bad = true) ∧
    (∃ (s : State) (v : Word), Serves s ∧ ∃ (i : Instr) (bad : _),
     ((i = .standaloneSet v ∧ wbit v 0 = true) ∨ (i = .tapLock v ∧ wbit v 1 = true)) ∧ Clean v 3 ∧
     bad = ((wbit v 0 && !s.tap.standalone && (s.day.run || s.slots.any fun e => e.2.enable && e.2.offDie)) || (!wbit v 1
       && s.tap.tapLock)) ∧ bad = false) ∧
    (∃ (s : State) (v : Word), Serves s ∧ s.log.head < 2 ^ 32 ∧ s.log.tail < 2 ^ 32 ∧
     (v.toNat + 2 ^ 32 - s.log.head) % 2 ^ 32 ≤ (s.log.tail + 2 ^ 32 - s.log.head) % 2 ^ 32) ∧
    (∃ (s : State) (v : Word), Serves s ∧ s.log.head < 2 ^ 32 ∧
     (s.log.tail + 2 ^ 32 - s.log.head) % 2 ^ 32 < (v.toNat + 2 ^ 32 - s.log.head) % 2 ^ 32) ∧
    (∃ (s : State), Serves s) ∧
    (∃ (s : State), s.boot.powered = true ∧
     (∀ e, e ∈ s.cores → ∀ x, x ∈ (coreAt s e.1).late → aNow (advance s) (e.1 / 544) ≤ x.cycle)) ∧
    (∃ (s : State), s.boot.powered = true ∧ reloading s = false ∧ s.log.recs.length + s.log.fresh.length ≤ 4096) ∧
    (∃ (s : State), s.boot.powered = true ∧ ∃ (r : LogRec), s.log.fresh = [r] ∧ reloading s = false ∧
     4096 ≤ s.log.recs.length) ∧
    (∃ (s : State), s.boot.powered = true) ∧
    (∃ (s : State), s.attest.busy = true) ∧
    (∃ (s : State), s.attest.busy = false) ∧
    (∃ (s : State), ∃ (g : Nat) (v : Word), Serves s ∧ g < 32 ∧ Clean v 0xFF1FFF ∧ wbit v 7 = true ∧
     fieldN v.toNat 0 7 ≤ 67 ∧ (galAt s g).bist.busy = false ∧
     (∀ l, logOf s (68 * g + fieldN v.toNat 0 7) = some l → inReset s l = true) ∧
     gateOn s (68 * g + fieldN v.toNat 0 7) = true) ∧
    (∃ (s : State), ∃ (g : Nat) (v : Word) (st : Status), Serves s ∧ g < 32 ∧ Clean v 0xFF1FFF ∧ wbit v 7 = true ∧
     (st = (if 67 < fieldN v.toNat 0 7 then Status.badValue else if (galAt s g).bist.busy then .busy else if gateOn s (68
       * g + fieldN v.toNat 0 7) = false ∨ (∃ l, logOf s (68 * g + fieldN v.toNat 0 7) = some l ∧ inReset s l = false) then
       .badState else .done)) ∧ st ≠ .done) ∧
    (∃ (s : State), ∃ (g : _) (u : Nat), ((galAt s g).bist.busy = false ∨ 6 < u)) ∧
    (∃ (s : State), ∃ (g : _) (u : Nat) (p : _), (galAt s g).bist.busy = true ∧ u ≤ 6 ∧
     p = 68 * g + (galAt s g).bist.running) :=
  ⟨⟨wOn, by unfold Serves; decide +kernel, by decide +kernel⟩,
   ⟨{ wOn with attest := { wOn.attest with busy := true } }, by unfold Serves; decide +kernel, by decide +kernel⟩,
   ⟨{ wOn with boot := { wOn.boot with idState := 0 } }, by unfold Serves; decide +kernel, by decide +kernel⟩,
   ⟨{ wOn with tap := { wOn.tap with tapLock := true } }, 1, by unfold Serves; decide +kernel, .standaloneSet 1, _,
    by decide +kernel, by unfold Clean; decide +kernel, rfl, by decide +kernel⟩,
   ⟨wOn, 3, by unfold Serves; decide +kernel, .tapLock 3, _, by decide +kernel, by unfold Clean; decide +kernel, rfl,
    by decide +kernel⟩,
   ⟨{ wOn with log := { recs := [{ cls := 1, status := 0, core := 0, gal := 0, cav := 0, reported := false, day := 0, ns := 0, seq := 2 ^ 32 - 1, body := [], cyc := 0 }, { cls := 2, status := 0, core := 0, gal := 0, cav := 0, reported := false, day := 0, ns := 0, seq := 0, body := [], cyc := 0 }], head := 2 ^ 32 - 1, tail := 1, lost := 3, waiting := [], missed := 0, fresh := [], upsets := [] } },
    0, by unfold Serves; decide +kernel, by decide +kernel⟩,
   ⟨{ wOn with log := { recs := [{ cls := 1, status := 0, core := 0, gal := 0, cav := 0, reported := false, day := 0, ns := 0, seq := 2 ^ 32 - 1, body := [], cyc := 0 }, { cls := 2, status := 0, core := 0, gal := 0, cav := 0, reported := false, day := 0, ns := 0, seq := 0, body := [], cyc := 0 }], head := 2 ^ 32 - 1, tail := 1, lost := 3, waiting := [], missed := 0, fresh := [], upsets := [] } },
    2, by unfold Serves; decide +kernel, by decide +kernel⟩,
   ⟨{ wOn with log := { recs := [{ cls := 1, status := 0, core := 0, gal := 0, cav := 0, reported := false, day := 0, ns := 0, seq := 2 ^ 32 - 1, body := [], cyc := 0 }, { cls := 2, status := 0, core := 0, gal := 0, cav := 0, reported := false, day := 0, ns := 0, seq := 0, body := [], cyc := 0 }], head := 2 ^ 32 - 1, tail := 1, lost := 3, waiting := [], missed := 0, fresh := [], upsets := [] } },
    by unfold Serves; decide +kernel⟩,
   ⟨wCore fun k => { k with late := [{ cycle := 20000, act := .clearNar }] }, by decide +kernel⟩,
   ⟨{ wOn with log := { wOn.log with fresh := [{ cls := 1, status := 0, core := 0, gal := 0, cav := 0, reported := false, day := 0, ns := 0, seq := 0, body := [], cyc := 0 }, { cls := 2, status := 0, core := 0, gal := 0, cav := 0, reported := false, day := 0, ns := 0, seq := 0, body := [], cyc := 0 }] } },
    by decide +kernel⟩,
   ⟨{ wOn with log := { wOn.log with recs := List.replicate 4096 { cls := 1, status := 0, core := 0, gal := 0, cav := 0, reported := false, day := 0, ns := 0, seq := 0, body := [], cyc := 0 }, fresh := [{ cls := 2, status := 0, core := 0, gal := 0, cav := 0, reported := false, day := 0, ns := 0, seq := 0, body := [], cyc := 0 }] } },
    by decide +kernel,
    { cls := 2, status := 0, core := 0, gal := 0, cav := 0, reported := false, day := 0, ns := 0, seq := 0, body := [], cyc := 0 },
    by decide +kernel⟩,
   ⟨wOn, by decide +kernel⟩,
   ⟨{ wOn with attest := { wOn.attest with busy := true } }, by decide +kernel⟩,
   ⟨wOn, by decide +kernel⟩,
   ⟨wOn, 31, 0x90, by unfold Serves; decide +kernel, by decide +kernel, by unfold Clean; decide +kernel, by decide +kernel⟩,
   ⟨wOn, 31, 0xC4, _, by unfold Serves; decide +kernel, by decide +kernel, by unfold Clean; decide +kernel,
    by decide +kernel, rfl, by decide +kernel⟩,
   ⟨wOn, 0, 0, by decide +kernel⟩,
   ⟨{ (wCore fun k => setRow k 5 { data := 1, side := 0 }) with gals := [(0, { Gal.init with bist := { Gal.init.bist with busy := true } })] },
    0, 6, _, by decide +kernel, by decide +kernel, rfl⟩⟩

/-- States and operands that meet the hypotheses of CapacityRows, clause by clause. -/
theorem witness_CapacityRows :
    (∃ (s : State) (c : Nat) (v : Word), Serves s ∧ c < 4 ∧ Clean v 0xFF3FFF ∧ ∃ (i : Instr),
     (i, fieldN v.toNat 0 3) ∈ [(Instr.spare c v, 1), (.unspare c v, 2), (.offline c v, 3), (.online c v, 4)] ∧
     16 < fieldN v.toNat 8 5) ∧
    (∃ (s : State) (c : Nat) (v : Word), Serves s ∧ c < 4 ∧ Clean v 0xFF3FFF ∧ ∃ (i : Instr),
     (i, fieldN v.toNat 0 3) ∈ [(Instr.spare c v, 1), (.unspare c v, 2), (.offline c v, 3), (.online c v, 4)] ∧
     fieldN v.toNat 8 5 ≤ 16 ∧ (cavAt s c).capPending ≠ none) ∧
    (∃ (s : State) (c : Nat) (v : Word), Serves s ∧ c < 4 ∧ Clean v 0xFF3FFF ∧
     let out := (galAt s (8 * c + fieldN v.toNat 3 3)).outCol.getD (fieldN v.toNat 6 2) 16; ∃ (i : Instr),
     (i, fieldN v.toNat 0 3) ∈ [(Instr.spare c v, 1), (.unspare c v, 2), (.offline c v, 3), (.online c v, 4)] ∧
     fieldN v.toNat 8 5 ≤ 16 ∧ (cavAt s c).capPending = none ∧
     ((fieldN v.toNat 0 3 = 1 ∧ out ≠ 16) ∨ (fieldN v.toNat 0 3 = 2 ∧ out = 16) ∨ (fieldN v.toNat 0 3 = 3 ∧ (cavAt s
       c).offline = true) ∨ (fieldN v.toNat 0 3 = 4 ∧ (cavAt s c).offline = false))) ∧
    (∃ (s : State) (c : Nat) (v : Word), Serves s ∧ c < 4 ∧ Clean v 0xFF3FFF ∧
     let out := (galAt s (8 * c + fieldN v.toNat 3 3)).outCol.getD (fieldN v.toNat 6 2) 16; fieldN v.toNat 8 5 ≤ 16 ∧
     fieldN v.toNat 0 3 = 1 ∧ (cavAt s c).capPending = none ∧ out = 16) ∧
    (∃ (s : State) (c : Nat) (v : Word), Serves s ∧ c < 4 ∧ Clean v 0xFF3FFF ∧
     let out := (galAt s (8 * c + fieldN v.toNat 3 3)).outCol.getD (fieldN v.toNat 6 2) 16; fieldN v.toNat 8 5 ≤ 16 ∧
     fieldN v.toNat 0 3 = 2 ∧ (cavAt s c).capPending = none ∧ out ≠ 16) ∧
    (∃ (s : State) (c : Nat) (v : Word), Serves s ∧ c < 4 ∧ Clean v 0xFF3FFF ∧ fieldN v.toNat 8 5 ≤ 16 ∧
     fieldN v.toNat 0 3 = 3 ∧ (cavAt s c).capPending = none ∧ (cavAt s c).offline = false) ∧
    (∃ (s : State) (c : Nat) (v : Word), Serves s ∧ c < 4 ∧ Clean v 0xFF3FFF ∧ fieldN v.toNat 8 5 ≤ 16 ∧
     fieldN v.toNat 0 3 = 4 ∧ (cavAt s c).capPending = none ∧ (cavAt s c).offline = true) ∧
    (∃ (s : State) (c : Nat) (v : Word), Serves s ∧ c < 4 ∧ Clean v 0xFF3FFF ∧ fieldN v.toNat 8 5 ≤ 16 ∧
     fieldN v.toNat 0 3 = 0) :=
  ⟨⟨wOn, 3, 0x1101, by unfold Serves; decide +kernel, by decide +kernel, by unfold Clean; decide +kernel, .spare 3 0x1101,
    by decide +kernel⟩,
   ⟨updCav wOn 3 (fun x => { x with capPending := some (1, 0, 0, 0) }), 3, 1, by unfold Serves; decide +kernel,
    by decide +kernel, by unfold Clean; decide +kernel, .spare 3 1, by decide +kernel⟩,
   ⟨updCav wOn 3 (fun x => { x with offline := true }), 3, 3, by unfold Serves; decide +kernel, by decide +kernel,
    by unfold Clean; decide +kernel, .offline 3 3, by decide +kernel⟩,
   ⟨wOn, 3, 0x10F9, by unfold Serves; decide +kernel, by decide +kernel, by unfold Clean; decide +kernel,
    by decide +kernel⟩,
   ⟨updGal wOn 31 (fun x => { x with outCol := [16, 16, 16, 15] }), 3, 0xFA, by unfold Serves; decide +kernel,
    by decide +kernel, by unfold Clean; decide +kernel, by decide +kernel⟩,
   ⟨wOn, 3, 3, by unfold Serves; decide +kernel, by decide +kernel, by unfold Clean; decide +kernel, by decide +kernel⟩,
   ⟨updCav wOn 3 (fun x => { x with offline := true }), 3, 4, by unfold Serves; decide +kernel, by decide +kernel,
    by unfold Clean; decide +kernel, by decide +kernel⟩,
   ⟨updCav wOn 3 (fun x => { x with capPending := some (1, 0, 0, 0) }), 3, 0, by unfold Serves; decide +kernel,
    by decide +kernel, by unfold Clean; decide +kernel, by decide +kernel⟩⟩

/-- States and operands that meet the hypotheses of BootCommandsKeepTheirOrder, clause by clause. -/
theorem witness_BootCommandsKeepTheirOrder :
    (∃ (s : State) (shorted : List Nat) (obs : List (Nat × TrainObs)) (vs : List VeinObs), s.boot.powered = true ∧
     s.half = none ∧ ∃ (i : Instr) (cmd : _) (f : State → Status × State),
     (i, cmd, f) ∈ [(Instr.echoStart, 1, startEcho), (.verify, 2, verifyCmd), (.apply, 3, applyCmd), (.clock, 4,
       clockCmd), (.power shorted, 5, powerCmd shorted), (.train obs, 6, trainCmd obs), (.topology vs, 7, topologyCmd
       (linksBad vs)), (.ready, 8, readyCmd), (.echoReload, 9, startEcho), (.stagingClear, 10, clearCmd)] ∧
     s.boot.busy = true ∧ s.boot.cmd ≠ cmd) ∧
    (∃ (s : State) (shorted : List Nat) (obs : List (Nat × TrainObs)) (vs : List VeinObs), s.boot.powered = true ∧
     s.half = none ∧ ∃ (i : Instr) (cmd : _) (f : State → Status × State),
     (i, cmd, f) ∈ [(Instr.echoStart, 1, startEcho), (.verify, 2, verifyCmd), (.apply, 3, applyCmd), (.clock, 4,
       clockCmd), (.power shorted, 5, powerCmd shorted), (.train obs, 6, trainCmd obs), (.topology vs, 7, topologyCmd
       (linksBad vs)), (.ready, 8, readyCmd), (.echoReload, 9, startEcho), (.stagingClear, 10, clearCmd)] ∧
     s.boot.busy = true ∧ s.boot.cmd = cmd ∧ ∃ (st : Status) (u : State),
     f { s with boot := { s.boot with busy := false, cmd := 0 } } = (st, u)) ∧
    (∃ (s : State), s.boot.powered = true ∧ s.half = none ∧ s.boot.busy = false ∧ s.boot.stage ≠ 0) ∧
    (∃ (s : State), s.boot.powered = true ∧ s.half = none ∧ s.boot.busy = false ∧ (s.boot.stage = 0 ∨ s.cfg.bsState ≠ 1)) ∧
    (∃ (s : State), s.boot.powered = true ∧ s.half = none ∧ s.boot.busy = false ∧
     (s.boot.stage ≠ 1 ∨ s.cfg.bsState ≠ 2 ∨ s.boot.defState ≠ 1)) ∧
    (∃ (s : State), s.boot.powered = true ∧ s.half = none ∧ s.boot.busy = false ∧ s.boot.stage ≠ 2) ∧
    (∃ (s : State), s.boot.powered = true ∧ s.half = none ∧ s.boot.busy = false ∧ s.boot.stage ≠ 3) ∧
    (∃ (s : State), s.boot.powered = true ∧ s.half = none ∧ s.boot.busy = false ∧ s.boot.stage ≠ 4) ∧
    (∃ (s : State), s.boot.powered = true ∧ s.half = none ∧ s.boot.busy = false ∧ s.boot.stage ≠ 5) ∧
    (∃ (s : State), s.boot.powered = true ∧ s.half = none ∧ s.boot.busy = false ∧ s.boot.stage ≠ 6) ∧
    (∃ (s : State), s.boot.powered = true ∧ s.half = none ∧ s.boot.busy = false ∧
     (s.boot.stage = 0 ∨ s.boot.echo = false)) ∧
    (∃ (s : State), s.boot.powered = true ∧ s.half = none ∧ s.boot.busy = false ∧ s.cfg.bsState = 0) :=
  ⟨⟨{ wOn with boot := { wOn.boot with busy := true, cmd := 9 } }, [], [], [], by decide +kernel, by decide +kernel,
    .verify, 2, verifyCmd, .tail _ (.head _), by decide +kernel⟩,
   ⟨{ wOn with boot := { wOn.boot with busy := true, cmd := 2 } }, [], [], [], by decide +kernel, by decide +kernel,
    .verify, 2, verifyCmd, .tail _ (.head _), by decide +kernel, by decide +kernel,
    (verifyCmd { wOn with boot := { wOn.boot with busy := false, cmd := 0 } }).1,
    (verifyCmd { wOn with boot := { wOn.boot with busy := false, cmd := 0 } }).2, by decide +kernel⟩,
   ⟨wOn, by decide +kernel⟩,
   ⟨wOn, by decide +kernel⟩,
   ⟨wOn, by decide +kernel⟩,
   ⟨wOn, by decide +kernel⟩,
   ⟨wOn, by decide +kernel⟩,
   ⟨wOn, by decide +kernel⟩,
   ⟨wOn, by decide +kernel⟩,
   ⟨wOn, by decide +kernel⟩,
   ⟨wStage 0, by decide +kernel⟩,
   ⟨wOn, by decide +kernel⟩⟩

/-- States and operands that meet the hypotheses of EchoAndBitStreamRows, clause by clause. -/
theorem witness_EchoAndBitStreamRows :
    (∃ (s : State) (i : Instr), s.boot.powered = true ∧ s.boot.busy = false ∧ s.half = none ∧
     ((i = .echoStart ∧ s.boot.stage = 0) ∨ (i = .echoReload ∧ s.boot.stage ≠ 0 ∧ s.boot.echo = true)) ∧ echoLost s = [] ∧
     echoFormOk s.cfg.echoBuf = true) ∧
    (∃ (s : State) (i : Instr), s.boot.powered = true ∧ s.boot.busy = false ∧ s.half = none ∧
     ((i = .echoStart ∧ s.boot.stage = 0) ∨ (i = .echoReload ∧ s.boot.stage ≠ 0 ∧ s.boot.echo = true)) ∧ echoLost s = [] ∧
     echoFormOk s.cfg.echoBuf = false) ∧
    (∃ (s : State) (i : Instr), s.boot.powered = true ∧ s.boot.busy = false ∧ s.half = none ∧
     ((i = .echoStart ∧ s.boot.stage = 0) ∨ (i = .echoReload ∧ s.boot.stage ≠ 0 ∧ s.boot.echo = true)) ∧ echoLost s ≠ []) ∧
    (∃ (s : State), s.boot.powered = true ∧ s.boot.busy = false ∧ s.half = none ∧ s.boot.stage ≠ 0 ∧ s.cfg.bsState = 1) ∧
    (∃ (s : State), s.boot.powered = true ∧ s.boot.busy = false ∧ s.half = none ∧ s.boot.stage = 1 ∧ s.cfg.bsState = 2 ∧
     s.boot.defState = 1 ∧ ∃ (u : State),
     applyFrames s.cfg.staging { s with boot := { s.boot with busy := false, cmd := 0 } } = (none, u) ∧ rowMapOk u = true) ∧
    (∃ (s : State), s.boot.powered = true ∧ s.boot.busy = false ∧ s.half = none ∧ s.boot.stage = 1 ∧ s.cfg.bsState = 2 ∧
     s.boot.defState = 1 ∧ ∃ (u : State) (f : Option (Status × Nat × Nat)) (st : Status) (j r : _),
     applyFrames s.cfg.staging { s with boot := { s.boot with busy := false, cmd := 0 } } = (f, u) ∧
     (f = some (st, j, r) ∨ (f = none ∧ rowMapOk u = false ∧ st = .badValue ∧ j = 0x7FF ∧ r = 0x1FF))) ∧
    (∃ (s : State), s.boot.powered = true ∧ s.boot.busy = false ∧ s.half = none ∧ s.cfg.bsState ≠ 0) :=
  ⟨⟨{ (wStage 0) with cfg := { wOn.cfg with echoBuf := [(0, 0x45), (1, 0x43), (2, 0x48), (3, 0x4F), (4, 1), (9, 0x10)] } },
    .echoStart, by decide +kernel⟩,
   ⟨wOn, .echoReload, by decide +kernel⟩,
   ⟨{ (wStage 0) with cfg := { wOn.cfg with echoBuf := [(0, 0x45), (1, 0x43), (2, 0x48), (3, 0x4F), (4, 1), (9, 0x10)], echoUpsets := [(0, 3)] } },
    .echoStart, by decide +kernel⟩,
   ⟨wCfg fun c => { c with bsState := 1, staging := [(0, 1)] }, by decide +kernel⟩,
   ⟨{ (wStage 1) with cfg := { wOn.cfg with bsState := 2, staging := [(6, 9)] } }, by decide +kernel, by decide +kernel,
    by decide +kernel, by decide +kernel, by decide +kernel, by decide +kernel,
    (applyFrames [(6, 9)] { (wStage 1) with cfg := { wOn.cfg with bsState := 2, staging := [(6, 9)] } }).2,
    by decide +kernel⟩,
   ⟨{ (wStage 1) with cfg := { wOn.cfg with bsState := 2, staging := [(6, 9)] }, boot := { (wStage 1).boot with badCores := [1] } },
    by decide +kernel, by decide +kernel, by decide +kernel, by decide +kernel, by decide +kernel, by decide +kernel,
    (applyFrames [(6, 9)] ({ (wStage 1) with cfg := { wOn.cfg with bsState := 2, staging := [(6, 9)] }, boot := { (wStage 1).boot with badCores := [1] } })).2,
    none, .badValue, 0x7FF, 0x1FF, by decide +kernel⟩,
   ⟨wCfg fun c => { c with bsState := 3, staging := [(0, 1)] }, by decide +kernel⟩⟩

/-- States and operands that meet the hypotheses of BringUpRows, clause by clause. -/
theorem witness_BringUpRows :
    (∃ (s : State), s.boot.powered = true ∧ s.boot.busy = false ∧ s.half = none ∧ s.boot.stage = 2 ∧
     (∀ c, c < 4 → (cavAt s c).refLost = false)) ∧
    (∃ (s : State), s.boot.powered = true ∧ s.boot.busy = false ∧ s.half = none ∧ s.boot.stage = 2 ∧
     (∃ c, c < 4 ∧ (cavAt s c).refLost = true)) ∧
    (∃ (s : State), s.boot.powered = true ∧ s.boot.busy = false ∧ s.half = none ∧ s.boot.stage = 3) ∧
    (∃ (s : State), s.boot.powered = true ∧ s.boot.busy = false ∧ s.half = none ∧ s.boot.stage = 4) ∧
    (∃ (s : State), s.boot.powered = true ∧ s.boot.busy = false ∧ s.half = none ∧
     ∃ (vs : List VeinObs) (bad : List (Nat × Nat)), s.boot.stage = 5 ∧ bad = linksBad vs) ∧
    (∃ (s : State), s.boot.powered = true ∧ s.boot.busy = false ∧ s.half = none ∧ s.boot.stage = 6) :=
  ⟨⟨wStage 2, by decide +kernel⟩,
   ⟨updCav (wStage 2) 3 (fun x => { x with refLost := true }), by decide +kernel⟩,
   ⟨wStage 3, by decide +kernel⟩,
   ⟨wStage 4, by decide +kernel⟩,
   ⟨wStage 5, by decide +kernel, by decide +kernel, by decide +kernel, [], _, by decide +kernel, rfl⟩,
   ⟨wStage 6, by decide +kernel⟩⟩

/-- States and operands that meet the hypotheses of RegisterRequestRows, clause by clause. -/
theorem witness_RegisterRequestRows :
    (∃ (s : State), s.boot.powered = true ∧ ∃ (m : RegReq), m.bundle < 8 ∧ (bunAt s (2176 + m.bundle)).state = 2 ∧
     reqFormOk m = true ∧ s.echoQ.length < 64 ∧ (s.boot.busy = true → s.boot.cmd ≠ 9)) ∧
    (∃ (s : State), s.boot.powered = true ∧ ∃ (m : RegReq), m.bundle < 8 ∧ (bunAt s (2176 + m.bundle)).state = 2 ∧
     reqFormOk m = false) ∧
    (∃ (s : State), s.boot.powered = true ∧ ∃ (m : RegReq), m.bundle < 8 ∧ (bunAt s (2176 + m.bundle)).state = 2 ∧
     reqFormOk m = true ∧ (64 ≤ s.echoQ.length ∨ (s.boot.busy = true ∧ s.boot.cmd = 9))) ∧
    (∃ (s : State), s.boot.powered = true ∧ ∃ (m : RegReq), m.bundle < 8 ∧ (bunAt s (2176 + m.bundle)).state ≠ 2) ∧
    (∃ (s : State), s.boot.powered = true ∧ ∃ (m : RegReq) (rest : List RegReq) (policy : Bool), s.echoQ = m :: rest ∧
     m.op = 1 ∧ ∃ (x : Status × State),
     hostWrite { s with echoQ := rest } m.addr m.data (s.boot.echo && m.hand == 1 && policy) m.requester = x) ∧
    (∃ (s : State), s.boot.powered = true ∧ ∃ (m : RegReq) (rest : List RegReq) (x : Status × Nat × State),
     s.echoQ = m :: rest ∧ m.op ≠ 1 ∧ hostRead { s with echoQ := rest } m.addr = x) ∧
    (∃ (s : State), s.boot.powered = true ∧ ∃ (m : RegReq) (rest : List RegReq), s.echoQ = m :: rest ∧ reloading s = true) ∧
    (∃ (s : State), s.boot.powered = true ∧ ∃ (m : RegReq) (rest : List RegReq), s.echoQ = m :: rest ∧ m.op = 0 ∧
     m.addr = 0x700 ∧ s.boot.echo = true ∧ s.half = none ∧ reloading s = false ∧ s.day.period < 2 ^ 32) ∧
    (∃ (s : State), s.boot.powered = true ∧ s.echoQ = []) ∧
    (∃ (s : State), s.boot.powered = true ∧ ∃ (r : Reg) (a : Nat), regAt s a = r ∧ isHandReg r = false ∧ s.half = none ∧
     reloading s = false ∧ ∃ (st : Status), accessCheck s r true false = st ∧ st ≠ .done) ∧
    (∃ (s : State), s.boot.powered = true ∧ ∃ (r : Reg) (a : Nat), regAt s a = r ∧ isHandReg r = false ∧ s.half = none ∧
     reloading s = false ∧ ((∃ p k off, r = .core p k off ∧ off ≠ 0x130) ∨ r = .chip 0x70C ∨ r = .chip 0x710) ∧
     accessCheck s r true false = .done) ∧
    (∃ (s : State) (l n : Nat) (v : Word), s.boot.powered = true ∧ ∃ (i : Instr) (ok : Bool) (a : Nat) (w : Word),
     (i, ok, a, w) ∈ registerRows s l n v ∧ ok = true ∧ ∃ (st : Status) (u : State),
     hostWrite s a w.toNat false 0 = (st, u)) ∧
    (∃ (s : State) (l n : Nat) (v : Word), s.boot.powered = true ∧ ∃ (i : Instr) (ok : Bool) (a : Nat) (w : Word),
     (i, ok, a, w) ∈ registerRows s l n v ∧ ok = false) ∧
    (∃ (s : State) (l : Nat) (v : Word), s.boot.powered = true ∧ ∃ (i : Instr) (act rq : _), (i, act) ∈ handRows l rq v ∧
     fieldN v.toNat 0 4 = act ∧ ∃ (st : Status) (u : State), hostWrite s (coreReg l 0x7E0) v.toNat true rq = (st, u)) ∧
    (∃ (s : State) (l : Nat) (v : Word), s.boot.powered = true ∧ ∃ (i : Instr) (act rq : _), (i, act) ∈ handRows l rq v ∧
     fieldN v.toNat 0 4 ≠ act) :=
  ⟨⟨wOn, by decide +kernel,
    { seq := 1, op := 0, hand := 0, requester := 1, addr := 0x700, data := 5, restZero := true, bundle := 0 },
    by decide +kernel⟩,
   ⟨wOn, by decide +kernel,
    { seq := 1, op := 2, hand := 0, requester := 1, addr := 0x700, data := 5, restZero := true, bundle := 0 },
    by decide +kernel⟩,
   ⟨{ wOn with boot := { wOn.boot with busy := true, cmd := 9 } }, by decide +kernel,
    { seq := 1, op := 0, hand := 0, requester := 1, addr := 0x700, data := 5, restZero := true, bundle := 0 },
    by decide +kernel⟩,
   ⟨wOn, by decide +kernel,
    { seq := 1, op := 0, hand := 0, requester := 1, addr := 0x700, data := 5, restZero := true, bundle := 7 },
    by decide +kernel⟩,
   ⟨{ wOn with echoQ := [{ seq := 1, op := 1, hand := 0, requester := 1, addr := 0x700, data := 5, restZero := true, bundle := 0 }] },
    by decide +kernel,
    { seq := 1, op := 1, hand := 0, requester := 1, addr := 0x700, data := 5, restZero := true, bundle := 0 }, [], true,
    by decide +kernel, by decide +kernel, _, rfl⟩,
   ⟨{ wOn with echoQ := [{ seq := 1, op := 0, hand := 0, requester := 1, addr := 0x700, data := 5, restZero := true, bundle := 0 }] },
    by decide +kernel,
    { seq := 1, op := 0, hand := 0, requester := 1, addr := 0x700, data := 5, restZero := true, bundle := 0 }, [], _,
    by decide +kernel, by decide +kernel, rfl⟩,
   ⟨{ ({ wOn with echoQ := [{ seq := 1, op := 1, hand := 0, requester := 1, addr := 0x700, data := 5, restZero := true, bundle := 0 }] }) with boot := { wOn.boot with busy := true, cmd := 9 } },
    by decide +kernel,
    { seq := 1, op := 1, hand := 0, requester := 1, addr := 0x700, data := 5, restZero := true, bundle := 0 }, [],
    by decide +kernel⟩,
   ⟨{ wOn with echoQ := [{ seq := 1, op := 0, hand := 0, requester := 1, addr := 0x700, data := 5, restZero := true, bundle := 0 }] },
    by decide +kernel,
    { seq := 1, op := 0, hand := 0, requester := 1, addr := 0x700, data := 5, restZero := true, bundle := 0 }, [],
    by decide +kernel⟩,
   ⟨wOn, by decide +kernel⟩,
   ⟨{ wOn with boot := { wOn.boot with lostIds := [0] } }, by decide +kernel, _, 0x800400, rfl, by decide +kernel,
    by decide +kernel, by decide +kernel, _, rfl, by decide +kernel⟩,
   ⟨wOn, by decide +kernel, .chip 0x70C, 0x70C, by decide +kernel, by decide +kernel, by decide +kernel, by decide +kernel,
    .inr (.inl rfl), by decide +kernel⟩,
   ⟨wOn, 0, 0, 1, by decide +kernel, .dayRunStart 1, true, 0x708, 1, by decide +kernel, by decide +kernel,
    (hostWrite wOn 0x708 1 false 0).1, (hostWrite wOn 0x708 1 false 0).2, by decide +kernel⟩,
   ⟨wOn, 0, 0, 0, by decide +kernel, .dayRunStart 0, false, 0x708, 0, by decide +kernel⟩,
   ⟨wOn, 0, 0x11, by decide +kernel, .setFlag 0 1 0x11, 1, 1, by decide +kernel, by decide +kernel,
    (hostWrite wOn (coreReg 0 0x7E0) 0x11 true 1).1, (hostWrite wOn (coreReg 0 0x7E0) 0x11 true 1).2, by decide +kernel⟩,
   ⟨wOn, 0, 0x12, by decide +kernel, .setFlag 0 1 0x12, 1, 1, by decide +kernel⟩⟩

/-- States and operands that meet the hypotheses of CommandRowsAndNops, clause by clause. -/
theorem witness_CommandRowsAndNops :
    (∃ (s : State) (l q p count row : Nat), liveCore s l = some p ∧ canFetch (coreAt s p) (cycleOf s l) q = true ∧
     fetchCount (coreAt s p) q = count ∧ ringRow (ringAt (coreAt s p) q) count = row ∧
     (∀ i, i < 66 → Store.get 0 (coreAt s p).upsets.pool (row * 66 + i) = 0) ∧ Store.wf 0 (coreAt s p).upsets.pool = true) ∧
    (∃ (s : State) (l q p count row : Nat), liveCore s l = some p ∧ canFetch (coreAt s p) (cycleOf s l) q = true ∧
     fetchCount (coreAt s p) q = count ∧ ringRow (ringAt (coreAt s p) q) count = row ∧
     (rowBad (coreAt s p) row = false ∨ (queueAt (coreAt s p) q).bufs ≠ []) ∧
     (∀ b, b ∈ (queueAt (coreAt s p) q).bufs → frowBad b = false)) ∧
    (∃ (s : State) (l q p count row : Nat), liveCore s l = some p ∧ canFetch (coreAt s p) (cycleOf s l) q = true ∧
     fetchCount (coreAt s p) q = count ∧ ringRow (ringAt (coreAt s p) q) count = row ∧ rowBad (coreAt s p) row = true ∧
     (queueAt (coreAt s p) q).bufs = []) ∧
    (∃ (s : State) (l q p : Nat), liveCore s l = some p ∧ queueFree (coreAt s p) q = true ∧
     headBits (queueAt (coreAt s p) q) = some 0 ∧ gateHolds s l 0 = true) ∧
    (∃ (s : State) (l q p : Nat), liveCore s l = some p ∧ queueFree (coreAt s p) q = true ∧
     headBits (queueAt (coreAt s p) q) = some 0 ∧ gateHolds s l 0 = false ∧ (queueAt (coreAt s p) q).nextSlot ≠ 15) ∧
    (∃ (s : State) (l q p : Nat), liveCore s l = some p ∧ queueFree (coreAt s p) q = true ∧
     headBits (queueAt (coreAt s p) q) = some 0 ∧ gateHolds s l 0 = false ∧ (queueAt (coreAt s p) q).nextSlot = 15) :=
  ⟨⟨wCore fun k => setRow (setQueue (setRing k 3 { wRing 3 508 4 with tail := 4, head := 3 }) 3 { Queue.init with state := 1 }) 511 { data := 4, side := 0 },
    0, 3, 0, 3, 511, by decide +kernel⟩,
   ⟨wCore fun k => setRow (setQueue (setRing k 3 { wRing 3 508 4 with tail := 4, head := 3 }) 3 { Queue.init with state := 1 }) 511 { data := 4, side := 0 },
    0, 3, 0, 3, 511, by decide +kernel⟩,
   ⟨wCore fun k => { (setQueue (setRing k 3 { wRing 3 508 4 with tail := 4, head := 3 }) 3 { Queue.init with state := 1 }) with upsets := { k.upsets with pool := [(511 * 66, 3)] } },
    0, 3, 0, 3, 511, by decide +kernel⟩,
   ⟨{ (wCore (wQueue 3 0)) with day := { wOn.day with run := true, inForce := true, breakCores := [0] } }, 0, 3, 0,
    by decide +kernel⟩,
   ⟨wCore (wQueue 3 0), 0, 3, 0, by decide +kernel⟩,
   ⟨wCore fun k => setQueue (wQueue 3 0 k) 3 { queueAt (wQueue 3 0 k) 3 with nextSlot := 15 }, 0, 3, 0, by decide +kernel⟩⟩

/-- States and operands that meet the hypotheses of DecodedCommandsWait, clause by clause. -/
theorem witness_DecodedCommandsWait :
    (∃ (s : State) (l q p key : Nat) (i : Instr) (c : Cmd), WaitingRow l i q key ∧ Decodes s l q p key c ∧
     NotAbandoned s l p c) ∧
    (∃ (s : State) (l q p key b : Nat) (i : Instr), DecodeRow l i q key b ∧ liveCore s l = some p ∧
     queueFree (coreAt s p) q = true ∧ headBits (queueAt (coreAt s p) q) = some b ∧ slotKey q b = key ∧
     (coreAt s p).sync.due = [] ∧ (coreAt s p).upsets.sync = [] ∧ ∃ (st : Status),
     ((slotBad q b = true ∧ st = .badValue) ∨ (slotBad q b = false ∧ decodeSlot s p l q key b = .fail st))) ∧
    (∃ (s : State) (l q p key b : Nat) (i : Instr), DecodeRow l i q key b ∧ liveCore s l = some p ∧
     queueFree (coreAt s p) q = true ∧ headBits (queueAt (coreAt s p) q) = some b ∧ slotKey q b = key ∧
     (coreAt s p).sync.due = [] ∧ (coreAt s p).upsets.sync = [] ∧ slotBad q b = false ∧
     (decodeSlot s p l q key b = .hold ∨ decodeSlot s p l q key b = .verdictGate)) ∧
    (∃ (s : State) (l q p key b : Nat) (i : Instr), DecodeRow l i q key b ∧ liveCore s l = some p ∧
     queueFree (coreAt s p) q = true ∧ headBits (queueAt (coreAt s p) q) = some b ∧ slotKey q b = key ∧
     (coreAt s p).sync.due = [] ∧ (coreAt s p).upsets.sync = [] ∧ ∃ (en : Bool) (f : Nat), slotBad q b = false ∧
     decodeSlot s p l q key b = .noop en f) :=
  ⟨⟨wCore (wQueue 1 0x80100010000000000000004), 0, 1, 0, 0x401, .add 0, .vec (vecBuild 0x8010001 0 0),
    by unfold WaitingRow; decide +kernel, decodes_of (by decide +kernel), notAbandoned (by decide +kernel)⟩,
   ⟨wCore (wQueue 1 0x80000000080100010000000000000004), 0, 1, 0, 0x401, 0x80000000080100010000000000000004, .add 0,
    .inl (by unfold WaitingRow; decide +kernel), by decide +kernel, by decide +kernel, by decide +kernel, by decide +kernel,
    by decide +kernel, by decide +kernel, .badValue, by decide +kernel⟩,
   ⟨{ (wCore (wQueue 1 0x80100010000000000000004)) with day := { wOn.day with run := true, inForce := true, breakCores := [0] } },
    0, 1, 0, 0x401, 0x80100010000000000000004, .add 0, .inl (by unfold WaitingRow; decide +kernel), by decide +kernel⟩,
   ⟨wCore (fun k => setCtx (wQueue 1 0x80100010000000000020004 k) 0 { Ctx.init with vstate := 3 }), 0, 1, 0, 0x401,
    0x80100010000000000020004, .add 0, .inl (by unfold WaitingRow; decide +kernel), by decide +kernel, by decide +kernel,
    by decide +kernel, by decide +kernel, by decide +kernel, by decide +kernel, false, 0, by decide +kernel⟩⟩

/-- States and operands that meet the hypotheses of VectorInstructionResult, clause by clause. -/
theorem witness_VectorInstructionResult :
    ∃ (s : State) (l p e : Nat) (d : Decoded) (i : VecIns), liveCore s l = some p ∧ inBreak s l = false ∧
    Current (coreAt s p) (cycleOf s l) ∧ (queueAt (coreAt s p) 1).head = some d ∧ d.cmd = .vec i ∧
    e = nextPhase (max (cycleOf s l) d.since) 0 4 ∧ cmdVerdict s p l e d = .go ∧ vecIdle (coreAt s p) d.ctx e i = true ∧
    Clear (coreAt s p) ((vecFores i e).1 ++ (vecFores i e).2.1 ++ (vecFores i e).2.2.1 ++ (vecFores i e).2.2.2) :=
  ⟨wCore (wHead 1 (wDec (.vec (vecBuild 0x180400801 0 0)))), 0, 0, _, wDec (.vec (vecBuild 0x180400801 0 0)),
   vecBuild 0x180400801 0 0, by decide +kernel, by decide +kernel, by unfold Current; decide +kernel, by decide +kernel,
   by decide +kernel, rfl, by decide +kernel, by decide +kernel, by unfold Machine.Clear; decide +kernel⟩

/-- States and operands that meet the hypotheses of MatrixCommandsDecode, clause by clause. -/
theorem witness_MatrixCommandsDecode :
    (∃ (s : State) (l p : Nat) (x : PassCmd), Decodes s l 0 p 0x100 (.pass x) ∧ NotAbandoned s l p (.pass x) ∧
     let g := galOf l;
     (x.shape ≠ 0 → (galAt s g).owed.contains (l % 64) = false ∧ gangChecked s g (aNow s (g / 8)) = false ∧ (∀ m, m ∈
       arrivedMembers s g → GangAlike m.2.2.2 x) ∧ ∀ i, i < 64 → inReset s (memberOf g i) = false)) ∧
    (∃ (s : State) (l p : Nat) (x : PassCmd), Decodes s l 0 p 0x100 (.pass x) ∧ NotAbandoned s l p (.pass x) ∧ x.shape ≠ 0 ∧
     let g := galOf l; (galAt s g).owed.contains (l % 64) = true) ∧
    (∃ (s : State) (l p : Nat) (x : PassCmd), Decodes s l 0 p 0x100 (.pass x) ∧ NotAbandoned s l p (.pass x) ∧ x.shape ≠ 0 ∧
     let g := galOf l;
     let ends := gangChecked s g (aNow s (g / 8)) = true ∨ ∃ m, m ∈ arrivedMembers s g ∧ ¬GangAlike m.2.2.2 x;
     (galAt s g).owed.contains (l % 64) = false ∧ ends) ∧
    (∃ (s : State) (l p : Nat) (x : PassCmd), Decodes s l 0 p 0x100 (.pass x) ∧ NotAbandoned s l p (.pass x) ∧ x.shape ≠ 0 ∧
     let g := galOf l;
     let ends := gangChecked s g (aNow s (g / 8)) = true ∨ ∃ m, m ∈ arrivedMembers s g ∧ ¬GangAlike m.2.2.2 x;
     (galAt s g).owed.contains (l % 64) = false ∧ ¬ends ∧ (∃ i, i < 64 ∧ inReset s (memberOf g i) = true)) ∧
    (∃ (s : State) (l p b : Nat) (st : Status), liveCore s l = some p ∧ queueFree (coreAt s p) 0 = true ∧
     headBits (queueAt (coreAt s p) 0) = some b ∧ slotKey 0 b = 0x100 ∧ fieldN (slotWord b 1) 28 2 ≠ 0 ∧
     (coreAt s p).sync.due = [] ∧ (coreAt s p).upsets.sync = [] ∧
     ((slotBad 0 b = true ∧ st = .badValue) ∨ (slotBad 0 b = false ∧ decodeSlot s p l 0 0x100 b = .fail st))) :=
  ⟨⟨wCore (wQueue 0 0x10088000000000000000001), 0, 0, passBuild 0x1008800 0, decodes_of (by decide +kernel),
    notAbandoned (by decide +kernel), by unfold GangAlike; decide +kernel⟩,
   ⟨{ wOn with cores := [(0, wQueue 0 0x100000000000000000000001 Core.init), (mapCore wOn 1, wHead 0 (wDec (.pass (passBuild 0x10000000 0))) Core.init)], gals := [(0, { Gal.init with held := 7, owed := [0] })] },
    0, 0, passBuild 0x10000000 0, decodes_of (by decide +kernel), notAbandoned (by decide +kernel), by decide +kernel,
    by decide +kernel⟩,
   ⟨{ wOn with cores := [(0, wQueue 0 0x100000000000000000000001 Core.init), (mapCore wOn 1, wHead 0 (wDec (.pass (passBuild 0x10100000 0))) Core.init)], gals := [(0, { Gal.init with held := 7, rendezvous := [(1, 9000)] })] },
    0, 0, passBuild 0x10000000 0, decodes_of (by decide +kernel), notAbandoned (by decide +kernel), by decide +kernel,
    by decide +kernel, by unfold GangAlike; decide +kernel⟩,
   ⟨{ ({ wOn with cores := [(0, wQueue 0 0x100000000000000000000001 Core.init), (mapCore wOn 1, wHead 0 (wDec (.pass (passBuild 0x10000000 0))) Core.init)], gals := [(0, { Gal.init with held := 7, rendezvous := [(1, 9000)] })] }) with resets := { wOn.resets with asserted := [(0, 5)] } },
    0, 0, passBuild 0x10000000 0, decodes_of (by decide +kernel), notAbandoned (by decide +kernel), by decide +kernel,
    by decide +kernel, by unfold GangAlike; decide +kernel, by decide +kernel⟩,
   ⟨{ wOn with cores := [(0, wQueue 0 0x80000000100000000000000000000001 Core.init), (mapCore wOn 1, wHead 0 (wDec (.pass (passBuild 0x10000000 0))) Core.init)], gals := [(0, { Gal.init with held := 7, rendezvous := [(1, 9000)] })] },
    0, 0, 0x80000000100000000000000000000001, .badValue, by decide +kernel⟩⟩

/-- States and operands that meet the hypotheses of PassResult, clause by clause. -/
theorem witness_PassResult :
    (∃ (s : State) (l p e : Nat) (d : Decoded) (c : PassCmd), PassIssues s l p e d c ∧ Clear (coreAt s p) (passFores c e)) ∧
    (∃ (s : State) (l p e : Nat) (d : Decoded) (c : PassCmd) (f : Fore), PassIssues s l p e d c ∧ Clear (coreAt s p) [] ∧
     f ∈ passFores c e ∧ f.cycle % 32 = reservedPhase (bankOf f.row) ∧
     (∀ h, h ∈ passFores c e → h.cycle % 32 = reservedPhase (bankOf h.row) → f.cycle ≤ h.cycle)) :=
  ⟨⟨{ (wCore fun k => { (wHead 0 (wDec (.pass (passBuild 0x1008800 0))) k) with tile := { k.tile with level := 16, rampTgt := true, rampAt := 9000 } }) with gals := [(0, { Gal.init with lim := { Gal.init.lim with ceiling := 512, window := 39 } })] },
    0, 0, 10016, wDec (.pass (passBuild 0x1008800 0)), passBuild 0x1008800 0,
    by unfold PassIssues MayIssue Current; decide +kernel, by unfold Machine.Clear; decide +kernel⟩,
   ⟨{ (wCore fun k => { (wHead 0 (wDec (.pass (passBuild 0x1008900 0))) k) with tile := { k.tile with level := 16, rampTgt := true, rampAt := 9000 } }) with gals := [(0, { Gal.init with lim := { Gal.init.lim with ceiling := 512, window := 39 } })] },
    0, 0, 10016, wDec (.pass (passBuild 0x1008900 0)), passBuild 0x1008900 0,
    { row := 256, cycle := 10016, write := false }, by unfold PassIssues MayIssue Current; decide +kernel,
    by unfold Machine.Clear; decide +kernel, by decide +kernel⟩⟩

/-- States and operands that meet the hypotheses of GangAndRampEvents, clause by clause. -/
theorem witness_GangAndRampEvents :
    (∃ (s : State) (g : Nat), g < 32 ∧ let now := aNow s (g / 8);
     let ends := gangChecked s g now = true ∨ (gangDiffers (arrivedMembers s g)).isSome = true ∨ ∃ i, i < 64 ∧ inReset s
       (memberOf g i) = true; ∃ (ms : List (Nat × Nat × Decoded × PassCmd)) (e : _), gangMembers s g = some ms ∧ ¬ends ∧
     e = nextPhase (max now (ms.foldl (fun t m => max t m.2.2.1.since) 0)) 0 32 ∧ gangReady s g e ms = true ∧
     (∀ m, m ∈ ms → MayIssue s (memberOf g m.1) m.2.1 ∧ cmdVerdict s m.2.1 (memberOf g m.1) now m.2.2.1 ≠ .abandoned) ∧
     limAdmitsTurn (galAt (rollGal s g e) g).lim e 0 64 (limOffers (rollGal s g e) g e) = true) ∧
    (∃ (s : State) (g : Nat), g < 32 ∧ let now := aNow s (g / 8);
     let ends := gangChecked s g now = true ∨ (gangDiffers (arrivedMembers s g)).isSome = true ∨ ∃ i, i < 64 ∧ inReset s
       (memberOf g i) = true; ∃ (ms : List (Nat × Nat × Decoded × PassCmd)) (e : _), gangMembers s g = some ms ∧ ¬ends ∧
     e = nextPhase (max now (ms.foldl (fun t m => max t m.2.2.1.since) 0)) 0 32 ∧ gangReady s g e ms = true ∧
     (∀ m, m ∈ ms → MayIssue s (memberOf g m.1) m.2.1 ∧ cmdVerdict s m.2.1 (memberOf g m.1) now m.2.2.1 ≠ .abandoned) ∧
     limAdmitsTurn (galAt (rollGal s g e) g).lim e 0 64 (limOffers (rollGal s g e) g e) = false) ∧
    (∃ (s : State) (g : Nat), g < 32 ∧ let now := aNow s (g / 8);
     let ends := gangChecked s g now = true ∨ (gangDiffers (arrivedMembers s g)).isSome = true ∨ ∃ i, i < 64 ∧ inReset s
       (memberOf g i) = true; (galAt s g).rendezvous ≠ [] ∧ ends) ∧
    (∃ (s : State) (g : Nat), g < 32 ∧ let now := aNow s (g / 8); (galAt s g).rendezvous.length < 64 ∧
     (∃ a, a ∈ (galAt s g).rendezvous ∧ a.2 + (galAt s g).rvLimit ≤ now)) ∧
    (∃ (s : State) (g : Nat), g < 32 ∧ let now := aNow s (g / 8); (galAt s g).rendezvous.length < 64 ∧
     (∀ a, a ∈ (galAt s g).rendezvous → now < a.2 + (galAt s g).rvLimit)) ∧
    (∃ (k : Core), k.tile.checkMode = false) ∧
    (∃ (k : Core) (f : CellFault), k.tile.checkMode = true ∧ isRepaired k = true ∧ ∃ (i j : Nat), i < 32 ∧ j < 32 ∧
     f.row = physCell k.repair.1 i ∧ f.col = physCell k.repair.2 j ∧ f.delta ≠ 0) ∧
    (∃ (k : Core) (f : CellFault), k.tile.checkMode = true ∧ isRepaired k = true ∧
     (f.delta = 0 ∨ f.row = k.repair.1 ∨ f.col = k.repair.2)) ∧
    (∃ (k : Core) (a b : List Block), k.tile.checkMode = true ∧ isRepaired k = false ∧
     (panelHasNar a = true ∨ panelHasNar b = true)) ∧
    (∃ (k : Core) (a b : List Block), k.tile.checkMode = true ∧ isRepaired k = false ∧ panelHasNar a = false ∧
     panelHasNar b = false ∧ a.length = 32 ∧ b.length = 32) ∧
    (∃ (s : State) (l p e : Nat) (d : Decoded) (c : PassCmd) (f : CellFault), PassIssues s l p e d c ∧
     Clear (coreAt s p) (passFores c e) ∧ let k := coreAt s p; let last := passLast k d c e;
     let found := checkFault k l (passA k c) (passB k d.ctx c) (some f) last; found = none) ∧
    (∃ (s : State) (l p e : Nat) (d : Decoded) (c : PassCmd) (f : CellFault), PassIssues s l p e d c ∧
     Clear (coreAt s p) (passFores c e) ∧ let k := coreAt s p; let last := passLast k d c e;
     let found := checkFault k l (passA k c) (passB k d.ctx c) (some f) last; ∃ (x : PassFault), found = some x) ∧
    (∃ (s : State) (l p : Nat), liveCore s l = some p ∧ let c := cycleOf s l; let k := coreAt s p;
     let u := if (headPass k).isSome then k.tile else rampIdle k.tile c; u.rampAt + 3 ≤ c) ∧
    (∃ (s : State) (l p : Nat), liveCore s l = some p ∧ let c := cycleOf s l; let k := coreAt s p;
     let u := if (headPass k).isSome then k.tile else rampIdle k.tile c; c < u.rampAt + 3) ∧
    (∃ (s : State) (l p : Nat), liveCore s l = some p ∧ let c := cycleOf s l; let k := coreAt s p; ∃ (q : _) (d : Decoded),
     q < 4 ∧ (queueAt k q).head = some d ∧ d.sbFrom + d.sbLimit < c ∧ ∃ (row : _) (write : Bool),
     cmdVerdict s p l c d = .wait row write) ∧
    (∃ (s : State) (l p : Nat), liveCore s l = some p ∧ let c := cycleOf s l; let k := coreAt s p; ∃ (q : _) (d : Decoded),
     q < 4 ∧ (queueAt k q).head = some d ∧ d.sbFrom + d.sbLimit < c ∧ cmdVerdict s p l c d = .abandoned) ∧
    (∃ (s : State) (l p : Nat), liveCore s l = some p ∧ let c := cycleOf s l; let k := coreAt s p; ∃ (q : _) (d : Decoded),
     q < 4 ∧ (queueAt k q).head = some d ∧ d.sbFrom + d.sbLimit < c ∧ cmdVerdict s p l c d = .go) ∧
    (∃ (s : State) (l p : Nat), liveCore s l = some p ∧ let c := cycleOf s l; let k := coreAt s p; ∃ (d : Decoded),
     k.outp.pend = some d ∧ d.sbFrom + d.sbLimit < c ∧ ∃ (row : _) (write : Bool), cmdVerdict s p l c d = .wait row write) ∧
    (∃ (s : State) (l p : Nat), liveCore s l = some p ∧ let c := cycleOf s l; let k := coreAt s p; ∃ (d : Decoded),
     k.outp.pend = some d ∧ d.sbFrom + d.sbLimit < c ∧ cmdVerdict s p l c d = .abandoned) ∧
    (∃ (s : State) (l p : Nat), liveCore s l = some p ∧ let c := cycleOf s l; let k := coreAt s p; ∃ (q : _) (d : Decoded),
     (if q = 4 then k.outp.pend else (queueAt k q).head) = some d ∧ c ≤ d.sbFrom + d.sbLimit) :=
  ⟨⟨wGang, 0, by decide +kernel, (gangMembers wGang 0).getD [], _, by decide +kernel, by decide +kernel, rfl,
    by decide +kernel, by unfold MayIssue Current; decide +kernel, by decide +kernel⟩,
   ⟨wGangFull, 0, by decide +kernel, (gangMembers wGangFull 0).getD [], _, by decide +kernel, by decide +kernel, rfl,
    by decide +kernel, by unfold MayIssue Current; decide +kernel, by decide +kernel⟩,
   ⟨{ wGang with resets := { wOn.resets with asserted := [(0, 5)] } }, 0, by decide +kernel, by decide +kernel⟩,
   ⟨{ (wCore (wHead 0 (wDec (.pass (passBuild 0x1008800 0))))) with gals := [(0, { Gal.init with rendezvous := [(0, 9000)], rvLimit := 1000 })] },
    0, by decide +kernel, by decide +kernel⟩,
   ⟨{ (wCore (wHead 0 (wDec (.pass (passBuild 0x1008800 0))))) with gals := [(0, { Gal.init with rendezvous := [(0, 9999)], rvLimit := 1000 })] },
    0, by decide +kernel, by decide +kernel⟩,
   ⟨Core.init, by decide +kernel⟩,
   ⟨{ Core.init with repair := (5, 63), tile := { Tile.init with checkMode := true } }, { row := 6, col := 31, delta := 1 },
    by decide +kernel, by decide +kernel, 5, 31, by decide +kernel⟩,
   ⟨{ Core.init with repair := (5, 63), tile := { Tile.init with checkMode := true } }, { row := 5, col := 31, delta := 1 },
    by decide +kernel⟩,
   ⟨{ Core.init with tile := { Tile.init with checkMode := true } },
    panelLanes 0 { data := 0, side := 0x8080808080808080808080808080808080808080808080808080808080808080 } Row.zero,
    panelLanes 0 Row.zero Row.zero, by decide +kernel⟩,
   ⟨{ Core.init with tile := { Tile.init with checkMode := true } }, panelLanes 0 Row.zero Row.zero,
    panelLanes 0 Row.zero Row.zero, by decide +kernel⟩,
   ⟨{ (wCore fun k => { (wHead 0 (wDec (.pass (passBuild 0x1008800 0))) k) with tile := { k.tile with level := 16, rampTgt := true, rampAt := 9000 } }) with gals := [(0, { Gal.init with lim := { Gal.init.lim with ceiling := 512, window := 39 } })] },
    0, 0, 10016, wDec (.pass (passBuild 0x1008800 0)), passBuild 0x1008800 0, { row := 1, col := 2, delta := 3 },
    by unfold PassIssues MayIssue Current; decide +kernel, by unfold Machine.Clear; decide +kernel, by decide +kernel⟩,
   ⟨{ (wCore fun k => { { (wHead 0 (wDec (.pass (passBuild 0x1008800 0))) k) with tile := { k.tile with level := 16, rampTgt := true, rampAt := 9000 } } with tile := { ({ (wHead 0 (wDec (.pass (passBuild 0x1008800 0))) k) with tile := { k.tile with level := 16, rampTgt := true, rampAt := 9000 } }).tile with checkMode := true } }) with gals := [(0, { Gal.init with lim := { Gal.init.lim with ceiling := 512, window := 39 } })] },
    0, 0, 10016, wDec (.pass (passBuild 0x1008800 0)), passBuild 0x1008800 0, { row := 1, col := 2, delta := 3 },
    by unfold PassIssues MayIssue Current; decide +kernel, by unfold Machine.Clear; decide +kernel,
    (checkFault (coreAt ({ (wCore fun k => { { (wHead 0 (wDec (.pass (passBuild 0x1008800 0))) k) with tile := { k.tile with level := 16, rampTgt := true, rampAt := 9000 } } with tile := { ({ (wHead 0 (wDec (.pass (passBuild 0x1008800 0))) k) with tile := { k.tile with level := 16, rampTgt := true, rampAt := 9000 } }).tile with checkMode := true } }) with gals := [(0, { Gal.init with lim := { Gal.init.lim with ceiling := 512, window := 39 } })] }) 0) 0 (passA (coreAt ({ (wCore fun k => { { (wHead 0 (wDec (.pass (passBuild 0x1008800 0))) k) with tile := { k.tile with level := 16, rampTgt := true, rampAt := 9000 } } with tile := { ({ (wHead 0 (wDec (.pass (passBuild 0x1008800 0))) k) with tile := { k.tile with level := 16, rampTgt := true, rampAt := 9000 } }).tile with checkMode := true } }) with gals := [(0, { Gal.init with lim := { Gal.init.lim with ceiling := 512, window := 39 } })] }) 0) (passBuild 0x1008800 0)) (passB (coreAt ({ (wCore fun k => { { (wHead 0 (wDec (.pass (passBuild 0x1008800 0))) k) with tile := { k.tile with level := 16, rampTgt := true, rampAt := 9000 } } with tile := { ({ (wHead 0 (wDec (.pass (passBuild 0x1008800 0))) k) with tile := { k.tile with level := 16, rampTgt := true, rampAt := 9000 } }).tile with checkMode := true } }) with gals := [(0, { Gal.init with lim := { Gal.init.lim with ceiling := 512, window := 39 } })] }) 0) 0 (passBuild 0x1008800 0)) (some { row := 1, col := 2, delta := 3 }) (passLast (coreAt ({ (wCore fun k => { { (wHead 0 (wDec (.pass (passBuild 0x1008800 0))) k) with tile := { k.tile with level := 16, rampTgt := true, rampAt := 9000 } } with tile := { ({ (wHead 0 (wDec (.pass (passBuild 0x1008800 0))) k) with tile := { k.tile with level := 16, rampTgt := true, rampAt := 9000 } }).tile with checkMode := true } }) with gals := [(0, { Gal.init with lim := { Gal.init.lim with ceiling := 512, window := 39 } })] }) 0) (wDec (.pass (passBuild 0x1008800 0))) (passBuild 0x1008800 0) 10016)).getD { cause := 0, cycle := 0, more := [] },
    by decide +kernel⟩,
   ⟨wCore (fun k => { (wHead 0 (wDec (.pass (passBuild 0x1008800 0))) k) with tile := { k.tile with level := 3, rampTgt := true, rampAt := 9990 } }),
    0, 0, by decide +kernel, by decide +kernel⟩,
   ⟨wCore (fun k => { (wHead 0 (wDec (.pass (passBuild 0x1008800 0))) k) with tile := { k.tile with level := 3, rampTgt := true, rampAt := 9998 } }),
    0, 0, by decide +kernel, by decide +kernel⟩,
   ⟨wCore (fun k => { (wHead 1 (wDec (.vec (vecBuild 0x180400801 0 0))) k) with pool := { (wHead 1 (wDec (.vec (vecBuild 0x180400801 0 0))) k).pool with marks := [{ row := 32, write := true, till := none, engine := 5, slot := 0 }] } }),
    0, 0, by decide +kernel, 1, wDec (.vec (vecBuild 0x180400801 0 0)), by decide +kernel, by decide +kernel,
    by decide +kernel, 32, false, by decide +kernel⟩,
   ⟨wCore (fun k => setRing (wHead 1 (wDec (.vec (vecBuild 0x180400801 0 0))) k) 3 { wRing 3 32 4 with abandoned := true, enforce := true }),
    0, 0, by decide +kernel, 1, wDec (.vec (vecBuild 0x180400801 0 0)), by decide +kernel⟩,
   ⟨wCore (fun k => { (wHead 1 (wDec (.vec (vecBuild 0x180400801 0 0))) k) with pool := { (wHead 1 (wDec (.vec (vecBuild 0x180400801 0 0))) k).pool with marks := [] } }),
    0, 0, by decide +kernel, 1, wDec (.vec (vecBuild 0x180400801 0 0)), by decide +kernel⟩,
   ⟨wCore (fun k => { (wPend (wDec (.drain wDrain)) k) with pool := { k.pool with marks := [{ row := 64, write := true, till := none, engine := 5, slot := 0 }] } }),
    0, 0, by decide +kernel, wDec (.drain wDrain), by decide +kernel, by decide +kernel, 64, false, by decide +kernel⟩,
   ⟨wCore (fun k => setRing (wPend (wDec (.drain wDrain)) k) 3 { wRing 3 64 4 with abandoned := true, enforce := true }), 0,
    0, by decide +kernel, wDec (.drain wDrain), by decide +kernel⟩,
   ⟨wCore (fun k => { (wHead 1 ({ (wDec (.vec (vecBuild 0x180400801 0 0))) with sbLimit := 1000 }) k) with pool := { (wHead 1 ({ (wDec (.vec (vecBuild 0x180400801 0 0))) with sbLimit := 1000 }) k).pool with marks := [] } }),
    0, 0, by decide +kernel, 1, { (wDec (.vec (vecBuild 0x180400801 0 0))) with sbLimit := 1000 }, by decide +kernel⟩⟩

/-- States and operands that meet the hypotheses of OutputPathResult, clause by clause. -/
theorem witness_OutputPathResult :
    (∃ (s : State) (l p : Nat), let k := coreAt s p; ∃ (key : _) (i : Instr) (c : Cmd), (i, key) ∈ outputRows l ∧
     Decodes s l 0 p key c ∧ NotAbandoned s l p c ∧ k.outp.pend = none) ∧
    (∃ (s : State) (l p : Nat), let k := coreAt s p; ∃ (key : _) (i : Instr) (c : Cmd), (i, key) ∈ outputRows l ∧
     Decodes s l 0 p key c ∧ NotAbandoned s l p c ∧ k.outp.pend.isSome = true) ∧
    (∃ (s : State) (l p : Nat), let k := coreAt s p; let x := queueAt k 0; ∃ (d : _) (i : Instr), liveCore s l = some p ∧
     x.head = some d ∧ ((i = .drain l ∧ ∃ c, d.cmd = .drain c) ∨ ∃ c, d.cmd = .desc c ∧ (i, 0x300 + c.op) ∈ outputRows l) ∧
     k.outp.pend = none) ∧
    (∃ (s : State) (l p : Nat), let k := coreAt s p; let x := queueAt k 0; ∃ (d : _) (i : Instr), liveCore s l = some p ∧
     x.head = some d ∧ ((i = .drain l ∧ ∃ c, d.cmd = .drain c) ∨ ∃ c, d.cmd = .desc c ∧ (i, 0x300 + c.op) ∈ outputRows l) ∧
     k.outp.pend.isSome = true) ∧
    (∃ (s : State) (l p e : Nat) (d : Decoded) (c : DescCmd), MayIssue s l p ∧ (coreAt s p).outp.pend = some d ∧
     d.cmd = .desc c ∧ e = nextPhase (max (cycleOf s l) (d.since + 1)) 0 32 ∧ tileFree (coreAt s p) e c.tile = true ∧
     outIdle (coreAt s p) e = true ∧ (coreAt s p).upsets.fs = [] ∧ c.op = 0) ∧
    (∃ (s : State) (l p e : Nat) (d : Decoded) (c : DescCmd), MayIssue s l p ∧ (coreAt s p).outp.pend = some d ∧
     d.cmd = .desc c ∧ e = nextPhase (max (cycleOf s l) (d.since + 1)) 0 32 ∧ tileFree (coreAt s p) e c.tile = true ∧
     outIdle (coreAt s p) e = true ∧ (coreAt s p).upsets.fs = [] ∧ c.op = 1) ∧
    (∃ (s : State) (l p e : Nat) (d : Decoded) (c : DescCmd), MayIssue s l p ∧ (coreAt s p).outp.pend = some d ∧
     d.cmd = .desc c ∧ e = nextPhase (max (cycleOf s l) (d.since + 1)) 0 32 ∧ tileFree (coreAt s p) e c.tile = true ∧
     outIdle (coreAt s p) e = true ∧ (coreAt s p).upsets.fs = [] ∧ c.op = 2) ∧
    (∃ (s : State) (l p e : Nat) (d : Decoded) (c : DrainCmd), MayIssue s l p ∧ (coreAt s p).outp.pend = some d ∧
     d.cmd = .drain c ∧ (c.topk = 0 ∨ c.topkRow < c.dstRow ∨ c.dstRow + ofmtRows c.ofmt ≤ c.topkRow) ∧
     e = nextPhase (max (cycleOf s l) (d.since + 1)) 0 32 ∧ cmdVerdict s p l e d = .go ∧
     tileFree (coreAt s p) e c.tile = true ∧ outIdle (coreAt s p) e = true ∧ let k := coreAt s p;
     let bad := (shownMarks (descAt k c.tile) (e + 9)).poisoned;
     let sexp := signed8 (finalMarks (descAt k c.tile)).exp.toNat; let w := c.wexp.getD sexp;
     let words := if bad then List.replicate 32 (List.replicate 32 A64.nar) else (tileRowsOf k c.tile).map tileWords;
     let outs := drainOuts c w (drainStages c sexp w (if c.scEn then some (rowAt k c.scRow) else none) (if c.biasEn then
       some (rowAt k c.biasRow) else none) words);
     let reads : List Fore := (if c.scEn then [{ row := c.scRow, cycle := e, write := false }] else []) ++ (if c.biasEn
       then [{ row := c.biasRow, cycle := e + 1, write := false }] else []);
     Clear k (reads ++ outs.map fun o => { row := o.at_, cycle := e + o.cycle, write := true })) :=
  ⟨⟨wCore (wQueue 0 0x10070000000000000003), 0, 0, 0x302, .zero 0, .desc (descBuild 0x1007 0 0), by decide +kernel,
    decodes_of (by decide +kernel), notAbandoned (by decide +kernel), by decide +kernel⟩,
   ⟨wCore (fun k => wPend (wDec (.desc (descBuild 0x1007 0 0))) (wQueue 0 0x10070000000000000003 k)), 0, 0, 0x302, .zero 0,
    .desc (descBuild 0x1007 0 0), by decide +kernel, decodes_of (by decide +kernel), notAbandoned (by decide +kernel),
    by decide +kernel⟩,
   ⟨wCore (wHead 0 (wDec (.desc (descBuild 0x1007 0 0)))), 0, 0, wDec (.desc (descBuild 0x1007 0 0)), .zero 0,
    by decide +kernel, by decide +kernel, .inr ⟨_, rfl, by decide +kernel⟩, by decide +kernel⟩,
   ⟨wCore (fun k => wPend (wDec (.desc (descBuild 0x1007 0 0))) (wHead 0 (wDec (.desc (descBuild 0x1007 0 0))) k)), 0, 0,
    wDec (.desc (descBuild 0x1007 0 0)), .zero 0, by decide +kernel, by decide +kernel, .inr ⟨_, rfl, by decide +kernel⟩,
    by decide +kernel⟩,
   ⟨wCore (fun k => wPend (wDec (.desc { tile := 7, exp := -5, op := 0, clear := true, doneFlag := 0, doneEn := false })) (setDesc (setTrow k 224 0x7) 7 { Desc.init with poisoned := false, exp := 3, inf := true, pendHeld := true })),
    0, 0, _, wDec (.desc { tile := 7, exp := -5, op := 0, clear := true, doneFlag := 0, doneEn := false }),
    { tile := 7, exp := -5, op := 0, clear := true, doneFlag := 0, doneEn := false },
    by unfold MayIssue Current; decide +kernel, by decide +kernel, by decide +kernel, rfl, by decide +kernel⟩,
   ⟨wCore (fun k => wPend (wDec (.desc { tile := 7, exp := -5, op := 1, clear := false, doneFlag := 0, doneEn := false })) (setDesc (setTrow k 224 0x7) 7 { Desc.init with poisoned := false, exp := 3, inf := true, pendHeld := true })),
    0, 0, _, wDec (.desc { tile := 7, exp := -5, op := 1, clear := false, doneFlag := 0, doneEn := false }),
    { tile := 7, exp := -5, op := 1, clear := false, doneFlag := 0, doneEn := false },
    by unfold MayIssue Current; decide +kernel, by decide +kernel, by decide +kernel, rfl, by decide +kernel⟩,
   ⟨wCore (fun k => wPend (wDec (.desc { tile := 7, exp := -5, op := 2, clear := false, doneFlag := 0, doneEn := false })) (setDesc (setTrow k 224 0x7) 7 { Desc.init with poisoned := false, exp := 3, inf := true, pendHeld := true })),
    0, 0, _, wDec (.desc { tile := 7, exp := -5, op := 2, clear := false, doneFlag := 0, doneEn := false }),
    { tile := 7, exp := -5, op := 2, clear := false, doneFlag := 0, doneEn := false },
    by unfold MayIssue Current; decide +kernel, by decide +kernel, by decide +kernel, rfl, by decide +kernel⟩,
   ⟨wCore (fun k => wPend (wDec (.drain wDrain)) (setDesc k 7 { Desc.init with poisoned := false, exp := 3, pendHeld := true })),
    0, 0, _, wDec (.drain wDrain), wDrain, by unfold MayIssue Current; decide +kernel, by decide +kernel, by decide +kernel,
    by decide +kernel, rfl, by decide +kernel, by decide +kernel, by decide +kernel,
    by unfold Machine.Clear; decide +kernel⟩⟩

/-- States and operands that meet the hypotheses of ScrubRows, clause by clause. -/
theorem witness_ScrubRows :
    (∃ (w : _) (i j : Nat), w < 2 ^ 64 ∧ i < 72 ∧ j < 72 ∧ i ≠ j) ∧
    (∃ (w : _) (i j : Nat), w < 2 ^ 64 ∧ i < 72 ∧ j < 72) ∧
    (∃ (s : State) (p r : Nat), scrubbed s p = true ∧ r < 512 ∧ let k := coreAt s p; let now := physCycle s p;
     let b := bankOf r; let e := nextPhase (max now (Store.get 0 k.pool.given b)) (reservedPhase b) 32;
     let free := bankOff k b e = false ∧ (slotCycle e = 15 ∨ (fetchWaits k now b = false ∧ inbWaits k now b = false));
     ¬free) ∧
    (∃ (s : State) (p r : Nat), scrubbed s p = true ∧ r < 512 ∧ let k := coreAt s p; let now := physCycle s p;
     let b := bankOf r; let e := nextPhase (max now (Store.get 0 k.pool.given b)) (reservedPhase b) 32;
     let free := bankOff k b e = false ∧ (slotCycle e = 15 ∨ (fetchWaits k now b = false ∧ inbWaits k now b = false));
     free) ∧
    (∃ (s : State) (p r : Nat), scrubbed s p = true ∧ r < 512 ∧ let k := coreAt s p; let now := physCycle s p;
     let b := bankOf r; let e := nextPhase (max now (Store.get 0 k.pool.given b)) (reservedPhase b) 32;
     let free := bankOff k b e = false ∧ (slotCycle e = 15 ∨ (fetchWaits k now b = false ∧ inbWaits k now b = false));
     free ∧ k.pool.wb.contains r = true) ∧
    (∃ (s : State) (p r : Nat), scrubbed s p = true ∧ r < 512 ∧ let k := coreAt s p; k.pool.wb.contains r = false) ∧
    (∃ (s : State) (p : Nat), scrubbed s p = true ∧ ∃ (u : Nat), u < 255) ∧
    (∃ (s : State) (p : Nat), scrubbed s p = true ∧ let k := coreAt s p; ∃ (u : Nat),
     (k.flow.wb.contains u = false ∨ fillIdle k (physCycle s p) = false)) ∧
    (∃ (s : State) (p : Nat), scrubbed s p = true ∧ let k := coreAt s p; ∃ (u : Nat), k.flow.wb.contains u = true ∧
     fillIdle k (physCycle s p) = true) ∧
    (∃ (s : State) (p : Nat), scrubbed s p = true ∧ let k := coreAt s p; ∃ w, eccGrade (Store.get 0 k.upsets.sync w) = 0) ∧
    (∃ (s : State) (p : Nat), scrubbed s p = true ∧ let k := coreAt s p; ∃ w, eccGrade (Store.get 0 k.upsets.sync w) = 1) ∧
    (∃ (s : State) (p : Nat), scrubbed s p = true ∧ let k := coreAt s p; ∃ w, eccGrade (Store.get 0 k.upsets.sync w) = 2) :=
  ⟨⟨5, 0, 71, by decide +kernel⟩,
   ⟨5, 71, 70, by decide +kernel⟩,
   ⟨wCore (fun k => { k with pool := { k.pool with off := [15] } }), 0, 511, by decide +kernel, by decide +kernel,
    by decide +kernel⟩,
   ⟨wCore (fun k => { k with upsets := { k.upsets with pool := [(511 * 66 + 65, 1), (511 * 66, 3)] } }), 0, 511,
    by decide +kernel, by decide +kernel, by decide +kernel⟩,
   ⟨wCore (fun k => { k with upsets := { k.upsets with pool := [(511 * 66, 1)] }, pool := { k.pool with wb := [511] } }), 0,
    511, by decide +kernel, by decide +kernel, by decide +kernel⟩,
   ⟨wOn, 0, 511, by decide +kernel, by decide +kernel, by decide +kernel⟩,
   ⟨wCore (fun k => { k with upsets := { k.upsets with fs := [(254 * 32 + 31, 1), (255 * 32, 3)] } }), 0, by decide +kernel,
    254, by decide +kernel⟩,
   ⟨wOn, 0, by decide +kernel, 255, by decide +kernel⟩,
   ⟨wCore (fun k => { k with upsets := { k.upsets with fs := [(8160, 1)] }, flow := { k.flow with wb := [255] } }), 0,
    by decide +kernel, 255, by decide +kernel⟩,
   ⟨wOn, 0, by decide +kernel, 5, by decide +kernel⟩,
   ⟨wCore (fun k => { k with upsets := { k.upsets with sync := [(4096, 1)] } }), 0, by decide +kernel, 4096,
    by decide +kernel⟩,
   ⟨wCore (fun k => { k with upsets := { k.upsets with sync := [(4096, 3)] } }), 0, by decide +kernel, 4096,
    by decide +kernel⟩⟩

/-- States and operands that meet the hypotheses of ConfigScrubRows, clause by clause. -/
theorem witness_ConfigScrubRows :
    (∃ (s : State), s.boot.stage < 2) ∧
    (∃ (s : State) (cell j : Nat) (e : FrameEntry), 2 ≤ s.boot.stage ∧
     findIdx (fun (z : FrameEntry) => decide (z.off ≤ 8 * cell) && decide (8 * cell < z.off + 4096)) (bsTable
       s.cfg.shadow) = some (j, e) ∧ (isFrameHeld e = false ∨ j ∈ s.cfg.faulted)) ∧
    (∃ (s : State) (cell j : Nat) (e : FrameEntry), let x := Store.get 0 s.cfg.cellUpsets cell;
     let y := Store.get 0 s.cfg.shadowUpsets cell; 2 ≤ s.boot.stage ∧
     findIdx (fun (z : FrameEntry) => decide (z.off ≤ 8 * cell) && decide (8 * cell < z.off + 4096)) (bsTable
       s.cfg.shadow) = some (j, e) ∧ isFrameHeld e = true ∧ j ∉ s.cfg.faulted ∧ eccGrade x = 2 ∧ eccGrade y = 2) ∧
    (∃ (s : State) (cell j : Nat) (e : FrameEntry), let x := Store.get 0 s.cfg.cellUpsets cell;
     let y := Store.get 0 s.cfg.shadowUpsets cell; 2 ≤ s.boot.stage ∧
     findIdx (fun (z : FrameEntry) => decide (z.off ≤ 8 * cell) && decide (8 * cell < z.off + 4096)) (bsTable
       s.cfg.shadow) = some (j, e) ∧ isFrameHeld e = true ∧ j ∉ s.cfg.faulted ∧ eccGrade x = 2 ∧ eccGrade y ≠ 2) ∧
    (∃ (s : State) (cell j : Nat) (e : FrameEntry), let x := Store.get 0 s.cfg.cellUpsets cell;
     let y := Store.get 0 s.cfg.shadowUpsets cell; 2 ≤ s.boot.stage ∧
     findIdx (fun (z : FrameEntry) => decide (z.off ≤ 8 * cell) && decide (8 * cell < z.off + 4096)) (bsTable
       s.cfg.shadow) = some (j, e) ∧ isFrameHeld e = true ∧ j ∉ s.cfg.faulted ∧ eccGrade x ≠ 2 ∧ eccGrade y = 2) ∧
    (∃ (s : State) (cell j : Nat) (e : FrameEntry), let x := Store.get 0 s.cfg.cellUpsets cell;
     let y := Store.get 0 s.cfg.shadowUpsets cell; let o := 8 * cell - e.off; 2 ≤ s.boot.stage ∧
     findIdx (fun (z : FrameEntry) => decide (z.off ≤ 8 * cell) && decide (8 * cell < z.off + 4096)) (bsTable
       s.cfg.shadow) = some (j, e) ∧ isFrameHeld e = true ∧ j ∉ s.cfg.faulted ∧ eccGrade x ≠ 2 ∧ eccGrade y ≠ 2 ∧
     eccData x = 0 ∧ eccData y = 0 ∧ (∀ i, i < 8 → liveByte s e (o + i) = stByte s.cfg.shadow (e.off + o + i))) :=
  ⟨⟨wStage 1, by decide +kernel⟩,
   ⟨{ (wCfg fun c => { c with shadow := [(12, 1), (0x1500, 3), (0x1505, 0x20)] }) with boot := { wOn.boot with dieId := 0 } },
    1535, 0, bsEntry [(12, 1), (0x1500, 3), (0x1505, 0x20)] 0, by decide +kernel⟩,
   ⟨{ (wCfg fun c => { c with shadow := [(12, 1), (0x1500, 2), (0x1505, 0x20)], cellUpsets := [(1535, 3)], shadowUpsets := [(1535, 3)] }) with boot := { wOn.boot with dieId := 0 } },
    1535, 0, bsEntry [(12, 1), (0x1500, 2), (0x1505, 0x20)] 0, by decide +kernel⟩,
   ⟨{ (wCfg fun c => { c with shadow := [(12, 1), (0x1500, 2), (0x1505, 0x20)], cellUpsets := [(1535, 3)] }) with boot := { wOn.boot with dieId := 0 } },
    1535, 0, bsEntry [(12, 1), (0x1500, 2), (0x1505, 0x20)] 0, by decide +kernel⟩,
   ⟨{ (wCfg fun c => { c with shadow := [(12, 1), (0x1500, 2), (0x1505, 0x20)], shadowUpsets := [(1535, 3)] }) with boot := { wOn.boot with dieId := 0 } },
    1535, 0, bsEntry [(12, 1), (0x1500, 2), (0x1505, 0x20)] 0, by decide +kernel⟩,
   ⟨{ (wCfg fun c => { c with shadow := [(12, 1), (0x1500, 2), (0x1505, 0x20)] }) with boot := { wOn.boot with dieId := 0 } },
    1535, 0, bsEntry [(12, 1), (0x1500, 2), (0x1505, 0x20)] 0, by decide +kernel⟩⟩

/-- States and operands that meet the hypotheses of DoorbellRows, clause by clause. -/
theorem witness_DoorbellRows :
    (∃ (s : State) (port : Port) (pkt : Packet) (l p : Nat), Arrives s port pkt l p ∧ Quiet (coreAt s p) ∧
     respFull (coreAt s p) = false ∧ pkt.ptype = .sig ∧ pkt.classT = false ∧
     ¬(addrSpace pkt.addr.toNat = 2 ∧ doorPage pkt.addr.toNat = 1) ∧ let a := pkt.addr.toNat; let count := pkt.word.toNat;
     (addrSpace a ≠ 2 ∨ offsetHigh a = true ∨ doorbell a = none ∨ count = 0 ∨ 512 < count)) ∧
    (∃ (s : State) (port : Port) (pkt : Packet) (l p : Nat), Arrives s port pkt l p ∧ Quiet (coreAt s p) ∧
     respFull (coreAt s p) = false ∧ pkt.ptype = .sig ∧ pkt.classT = false ∧
     ¬(addrSpace pkt.addr.toNat = 2 ∧ doorPage pkt.addr.toNat = 1) ∧ let k := coreAt s p; let a := pkt.addr.toNat;
     let count := pkt.word.toNat; ∃ n head r, addrSpace a = 2 ∧ offsetHigh a = false ∧ doorbell a = some (n, head) ∧
     1 ≤ count ∧ count ≤ 512 ∧ r = ringAt k n ∧ r.enable = false) ∧
    (∃ (s : State) (port : Port) (pkt : Packet) (l p : Nat), Arrives s port pkt l p ∧ Quiet (coreAt s p) ∧
     respFull (coreAt s p) = false ∧ pkt.ptype = .sig ∧ pkt.classT = false ∧
     ¬(addrSpace pkt.addr.toNat = 2 ∧ doorPage pkt.addr.toNat = 1) ∧ let k := coreAt s p; let a := pkt.addr.toNat;
     let count := pkt.word.toNat; ∃ n head r, addrSpace a = 2 ∧ offsetHigh a = false ∧ doorbell a = some (n, head) ∧
     1 ≤ count ∧ count ≤ 512 ∧ r = ringAt k n ∧
     let right := if head then 4 ≤ n ∧ senderOf pkt = ownSender s l else isProducer s l r.kind r.die r.core (senderOf pkt)
       = true; r.enable = true ∧ ¬right) ∧
    (∃ (s : State) (port : Port) (pkt : Packet) (l p : Nat), Arrives s port pkt l p ∧ Quiet (coreAt s p) ∧
     respFull (coreAt s p) = false ∧ pkt.ptype = .sig ∧ pkt.classT = false ∧
     ¬(addrSpace pkt.addr.toNat = 2 ∧ doorPage pkt.addr.toNat = 1) ∧ let k := coreAt s p; let a := pkt.addr.toNat;
     let count := pkt.word.toNat; ∃ n head r, addrSpace a = 2 ∧ offsetHigh a = false ∧ doorbell a = some (n, head) ∧
     1 ≤ count ∧ count ≤ 512 ∧ r = ringAt k n ∧
     let right := if head then 4 ≤ n ∧ senderOf pkt = ownSender s l else isProducer s l r.kind r.die r.core (senderOf pkt)
       = true; r.enable = true ∧ right ∧ r.abandoned = true) ∧
    (∃ (s : State) (port : Port) (pkt : Packet) (l p : Nat), Arrives s port pkt l p ∧ Quiet (coreAt s p) ∧
     respFull (coreAt s p) = false ∧ pkt.ptype = .sig ∧ pkt.classT = false ∧
     ¬(addrSpace pkt.addr.toNat = 2 ∧ doorPage pkt.addr.toNat = 1) ∧ let k := coreAt s p; let a := pkt.addr.toNat;
     let count := pkt.word.toNat; ∃ n head r, addrSpace a = 2 ∧ offsetHigh a = false ∧ doorbell a = some (n, head) ∧
     1 ≤ count ∧ count ≤ 512 ∧ r = ringAt k n ∧
     let right := if head then 4 ≤ n ∧ senderOf pkt = ownSender s l else isProducer s l r.kind r.die r.core (senderOf pkt)
       = true; r.enable = true ∧ right ∧ r.abandoned = false ∧ head = false ∧ ringOcc r + count ≤ r.size) ∧
    (∃ (s : State) (port : Port) (pkt : Packet) (l p : Nat), Arrives s port pkt l p ∧ Quiet (coreAt s p) ∧
     respFull (coreAt s p) = false ∧ pkt.ptype = .sig ∧ pkt.classT = false ∧
     ¬(addrSpace pkt.addr.toNat = 2 ∧ doorPage pkt.addr.toNat = 1) ∧ let k := coreAt s p; let a := pkt.addr.toNat;
     let count := pkt.word.toNat; ∃ n head r, addrSpace a = 2 ∧ offsetHigh a = false ∧ doorbell a = some (n, head) ∧
     1 ≤ count ∧ count ≤ 512 ∧ r = ringAt k n ∧
     let right := if head then 4 ≤ n ∧ senderOf pkt = ownSender s l else isProducer s l r.kind r.die r.core (senderOf pkt)
       = true; r.enable = true ∧ right ∧ r.abandoned = false ∧ head = false ∧ r.size < ringOcc r + count) ∧
    (∃ (s : State) (port : Port) (pkt : Packet) (l p : Nat), Arrives s port pkt l p ∧ Quiet (coreAt s p) ∧
     respFull (coreAt s p) = false ∧ pkt.ptype = .sig ∧ pkt.classT = false ∧
     ¬(addrSpace pkt.addr.toNat = 2 ∧ doorPage pkt.addr.toNat = 1) ∧ let k := coreAt s p; let a := pkt.addr.toNat;
     let count := pkt.word.toNat; ∃ n head r, addrSpace a = 2 ∧ offsetHigh a = false ∧ doorbell a = some (n, head) ∧
     1 ≤ count ∧ count ≤ 512 ∧ r = ringAt k n ∧
     let right := if head then 4 ≤ n ∧ senderOf pkt = ownSender s l else isProducer s l r.kind r.die r.core (senderOf pkt)
       = true; r.enable = true ∧ right ∧ r.abandoned = false ∧ head = true ∧ count ≤ ringOcc r) ∧
    (∃ (s : State) (port : Port) (pkt : Packet) (l p : Nat), Arrives s port pkt l p ∧ Quiet (coreAt s p) ∧
     respFull (coreAt s p) = false ∧ pkt.ptype = .sig ∧ pkt.classT = false ∧
     ¬(addrSpace pkt.addr.toNat = 2 ∧ doorPage pkt.addr.toNat = 1) ∧ let k := coreAt s p; let a := pkt.addr.toNat;
     let count := pkt.word.toNat; ∃ n head r, addrSpace a = 2 ∧ offsetHigh a = false ∧ doorbell a = some (n, head) ∧
     1 ≤ count ∧ count ≤ 512 ∧ r = ringAt k n ∧
     let right := if head then 4 ≤ n ∧ senderOf pkt = ownSender s l else isProducer s l r.kind r.die r.core (senderOf pkt)
       = true; r.enable = true ∧ right ∧ r.abandoned = false ∧ head = true ∧ ringOcc r < count) :=
  ⟨⟨wOn, .vein, wPkt .sig 0x2000000003C0 0, 0, 0,
    ⟨by unfold NextIn; decide +kernel, by decide +kernel, by decide +kernel, by decide +kernel, .inl rfl⟩,
    ⟨by decide +kernel, by decide +kernel, noSleep _ (by decide +kernel)⟩, by decide +kernel, by decide +kernel,
    by decide +kernel, by decide +kernel, by decide +kernel⟩,
   ⟨wCore (fun k => setRing k 15 (Ring.init 15)), .vein, wPkt .sig 0x2000000003C0 1, 0, 0,
    ⟨by unfold NextIn; decide +kernel, by decide +kernel, by decide +kernel, by decide +kernel, .inl rfl⟩,
    ⟨by decide +kernel, by decide +kernel, noSleep _ (by decide +kernel)⟩, by decide +kernel, by decide +kernel,
    by decide +kernel, by decide +kernel, 15, false, _, by decide +kernel, by decide +kernel, by decide +kernel,
    by decide +kernel, by decide +kernel, rfl, by decide +kernel⟩,
   ⟨wCore (fun k => setRing k 15 { wRing 15 0 512 with kind := 3 }), .vein, wPkt .sig 0x2000000003C0 1, 0, 0,
    ⟨by unfold NextIn; decide +kernel, by decide +kernel, by decide +kernel, by decide +kernel, .inl rfl⟩,
    ⟨by decide +kernel, by decide +kernel, noSleep _ (by decide +kernel)⟩, by decide +kernel, by decide +kernel,
    by decide +kernel, by decide +kernel, 15, false, _, by decide +kernel, by decide +kernel, by decide +kernel,
    by decide +kernel, by decide +kernel, rfl, by decide +kernel⟩,
   ⟨wCore (fun k => setRing k 15 { wRing 15 0 512 with abandoned := true }), .vein, wPkt .sig 0x2000000003C0 1, 0, 0,
    ⟨by unfold NextIn; decide +kernel, by decide +kernel, by decide +kernel, by decide +kernel, .inl rfl⟩,
    ⟨by decide +kernel, by decide +kernel, noSleep _ (by decide +kernel)⟩, by decide +kernel, by decide +kernel,
    by decide +kernel, by decide +kernel, 15, false, _, by decide +kernel, by decide +kernel, by decide +kernel,
    by decide +kernel, by decide +kernel, rfl, by decide +kernel⟩,
   ⟨wCore (fun k => setRing k 15 { wRing 15 0 512 with flagEn := true, flag := 255 }), .vein, wPkt .sig 0x2000000003C0 512,
    0, 0, ⟨by unfold NextIn; decide +kernel, by decide +kernel, by decide +kernel, by decide +kernel, .inl rfl⟩,
    ⟨by decide +kernel, by decide +kernel, noSleep _ (by decide +kernel)⟩, by decide +kernel, by decide +kernel,
    by decide +kernel, by decide +kernel, 15, false, _, by decide +kernel, by decide +kernel, by decide +kernel,
    by decide +kernel, by decide +kernel, rfl, by decide +kernel⟩,
   ⟨wCore (fun k => setRing k 15 { wRing 15 0 512 with tail := 1 }), .vein, wPkt .sig 0x2000000003C0 512, 0, 0,
    ⟨by unfold NextIn; decide +kernel, by decide +kernel, by decide +kernel, by decide +kernel, .inl rfl⟩,
    ⟨by decide +kernel, by decide +kernel, noSleep _ (by decide +kernel)⟩, by decide +kernel, by decide +kernel,
    by decide +kernel, by decide +kernel, 15, false, _, by decide +kernel, by decide +kernel, by decide +kernel,
    by decide +kernel, by decide +kernel, rfl, by decide +kernel⟩,
   ⟨wCore (fun k => setRing k 15 { wRing 15 0 512 with tail := 512, kind := 1 }), .vein, wPkt .sig 0x2000000003C8 512, 0, 0,
    ⟨by unfold NextIn; decide +kernel, by decide +kernel, by decide +kernel, by decide +kernel, .inl rfl⟩,
    ⟨by decide +kernel, by decide +kernel, noSleep _ (by decide +kernel)⟩, by decide +kernel, by decide +kernel,
    by decide +kernel, by decide +kernel, 15, true, _, by decide +kernel, by decide +kernel, by decide +kernel,
    by decide +kernel, by decide +kernel, rfl, by decide +kernel⟩,
   ⟨wCore (fun k => setRing k 4 { wRing 4 0 512 with tail := 1 }), .vein, wPkt .sig 0x200000000108 2, 0, 0,
    ⟨by unfold NextIn; decide +kernel, by decide +kernel, by decide +kernel, by decide +kernel, .inl rfl⟩,
    ⟨by decide +kernel, by decide +kernel, noSleep _ (by decide +kernel)⟩, by decide +kernel, by decide +kernel,
    by decide +kernel, by decide +kernel, 4, true, _, by decide +kernel, by decide +kernel, by decide +kernel,
    by decide +kernel, by decide +kernel, rfl, by decide +kernel⟩⟩

/-- States and operands that meet the hypotheses of InboundRows, clause by clause. -/
theorem witness_InboundRows :
    (∃ (s : State) (port : Port) (pkt : Packet) (l p : Nat), Arrives s port pkt l p ∧ (coreAt s p).upsets.sync = [] ∧
     pkt.ptype = .wr ∧ let a := pkt.addr.toNat;
     let tileRow := addrSpace a = 1 ∧ offsetHigh a = false ∧ a % 256 = 0 ∧ addrByte a < 65536; pkt.classT = false ∧
     tileRow) ∧
    (∃ (s : State) (port : Port) (pkt : Packet) (l p : Nat), Arrives s port pkt l p ∧ (coreAt s p).upsets.sync = [] ∧
     pkt.ptype = .wr ∧ let a := pkt.addr.toNat; let poolRow := addrSpace a = 0 ∧ poolSpanOk a 0 = true;
     let tileRow := addrSpace a = 1 ∧ offsetHigh a = false ∧ a % 256 = 0 ∧ addrByte a < 65536; pkt.classT = false ∧
     ¬poolRow ∧ ¬tileRow) ∧
    (∃ (s : State) (port : Port) (pkt : Packet) (l p : Nat), Arrives s port pkt l p ∧ (coreAt s p).upsets.sync = [] ∧
     pkt.ptype = .wr ∧ let k := coreAt s p; let a := pkt.addr.toNat; let row := addrByte a / 512;
     let poolRow := addrSpace a = 0 ∧ poolSpanOk a 0 = true; pkt.classT = false ∧ poolRow ∧ ringOfRow k row = none) ∧
    (∃ (s : State) (port : Port) (pkt : Packet) (l p : Nat), Arrives s port pkt l p ∧ (coreAt s p).upsets.sync = [] ∧
     pkt.ptype = .wr ∧ let k := coreAt s p; let a := pkt.addr.toNat; let row := addrByte a / 512;
     let poolRow := addrSpace a = 0 ∧ poolSpanOk a 0 = true; pkt.classT = false ∧ ∃ (n : _) (r : Ring), poolRow ∧
     ringOfRow k row = some (n, r) ∧
     let passes := r.abandoned = false ∧ r.kind ≠ 0 ∧ isProducer s l r.kind r.die r.core (senderOf pkt) = true ∧ r.outst ≠
       0 ∧ rowFree r row = true; ¬passes) ∧
    (∃ (s : State) (port : Port) (pkt : Packet) (l p : Nat), Arrives s port pkt l p ∧ (coreAt s p).upsets.sync = [] ∧
     pkt.ptype = .wr ∧ let k := coreAt s p; let a := pkt.addr.toNat; let row := addrByte a / 512;
     let poolRow := addrSpace a = 0 ∧ poolSpanOk a 0 = true; pkt.classT = false ∧ ∃ (n : _) (r : Ring), poolRow ∧
     ringOfRow k row = some (n, r) ∧
     let passes := r.abandoned = false ∧ r.kind ≠ 0 ∧ isProducer s l r.kind r.die r.core (senderOf pkt) = true ∧ r.outst ≠
       0 ∧ rowFree r row = true; passes ∧ foreignFull k = false) ∧
    (∃ (s : State) (port : Port) (pkt : Packet) (l p : Nat), Arrives s port pkt l p ∧ (coreAt s p).upsets.sync = [] ∧
     pkt.ptype = .wr ∧ let k := coreAt s p; let a := pkt.addr.toNat; let row := addrByte a / 512;
     let poolRow := addrSpace a = 0 ∧ poolSpanOk a 0 = true; pkt.classT = false ∧ ∃ (n : _) (r : Ring), poolRow ∧
     ringOfRow k row = some (n, r) ∧
     let passes := r.abandoned = false ∧ r.kind ≠ 0 ∧ isProducer s l r.kind r.die r.core (senderOf pkt) = true ∧ r.outst ≠
       0 ∧ rowFree r row = true; passes ∧ foreignFull k = true ∧ port = .vein) ∧
    (∃ (s : State) (port : Port) (pkt : Packet) (l p : Nat), Arrives s port pkt l p ∧ (coreAt s p).upsets.sync = [] ∧
     pkt.ptype = .wr ∧ let k := coreAt s p; let a := pkt.addr.toNat; let row := addrByte a / 512;
     let poolRow := addrSpace a = 0 ∧ poolSpanOk a 0 = true; pkt.classT = true ∧
     (¬poolRow ∨ agentWin k row pkt.agent = none)) ∧
    (∃ (s : State) (port : Port) (pkt : Packet) (l p : Nat), Arrives s port pkt l p ∧ (coreAt s p).upsets.sync = [] ∧
     pkt.ptype = .wr ∧ let k := coreAt s p; let a := pkt.addr.toNat; let row := addrByte a / 512;
     let poolRow := addrSpace a = 0 ∧ poolSpanOk a 0 = true; pkt.classT = true ∧ ∃ (n : _) (x : Win), poolRow ∧
     agentWin k row pkt.agent = some (n, x) ∧ x.outst = 0) ∧
    (∃ (s : State) (port : Port) (pkt : Packet) (l p : Nat), Arrives s port pkt l p ∧ (coreAt s p).upsets.sync = [] ∧
     pkt.ptype = .wr ∧ let k := coreAt s p; let a := pkt.addr.toNat; let row := addrByte a / 512;
     let poolRow := addrSpace a = 0 ∧ poolSpanOk a 0 = true; pkt.classT = true ∧ ∃ (n : _) (x : Win), poolRow ∧
     agentWin k row pkt.agent = some (n, x) ∧ x.outst ≠ 0 ∧ foreignFull k = false) ∧
    (∃ (s : State) (port : Port) (pkt : Packet) (l : Nat), packetCore s pkt = some l ∧
     let rows := arrivalRows port pkt ++ [(.classTWrite port pkt, pkt.classT), (.rd port pkt, pkt.ptype == .rd &&
       !pkt.classT)]; ∃ (i : Instr), (i, false) ∈ rows) ∧
    (∃ (s : State) (port : Port) (pkt : Packet) (l : Nat), packetCore s pkt = some l ∧
     let rows := arrivalRows port pkt ++ [(.classTWrite port pkt, pkt.classT), (.rd port pkt, pkt.ptype == .rd &&
       !pkt.classT)]; ∃ (i : Instr) (ok : _), (i, ok) ∈ rows ∧ ¬NextIn s port pkt l) ∧
    (∃ (s : State) (port : Port) (pkt : Packet) (l : Nat), packetCore s pkt = some l ∧
     let rows := arrivalRows port pkt ++ [(.classTWrite port pkt, pkt.classT), (.rd port pkt, pkt.ptype == .rd &&
       !pkt.classT)]; ∃ (i : Instr), (i, true) ∈ rows ∧ NextIn s port pkt l ∧ physOf s l = none) ∧
    (∃ (s : State) (port : Port) (pkt : Packet) (l : Nat), packetCore s pkt = some l ∧
     let rows := arrivalRows port pkt ++ [(.classTWrite port pkt, pkt.classT), (.rd port pkt, pkt.ptype == .rd &&
       !pkt.classT)]; ∃ p, NextIn s port pkt l ∧ physOf s l = some p ∧ (port = .vein ∨ ∃ errs, port = .sump p errs) ∧
     ∃ (i : Instr), (i, true) ∈ rows ∧ isUnsettled s l = true ∧ (pkt.ptype = .wr ∨ pkt.ptype = .sig)) ∧
    (∃ (s : State) (port : Port) (pkt : Packet) (l : Nat), packetCore s pkt = some l ∧ ∃ p, NextIn s port pkt l ∧
     physOf s l = some p ∧ (port = .vein ∨ ∃ errs, port = .sump p errs) ∧ ∃ (i : Instr), (i, true) ∈ arrivalRows port pkt ∧
     isUnsettled s l = false ∧ inReset s l = true ∧ (pkt.ptype = .sig → respFull (coreAt s p) = false)) ∧
    (∃ (s : State) (port : Port) (pkt : Packet) (l : Nat), packetCore s pkt = some l ∧ ∃ p, NextIn s port pkt l ∧
     physOf s l = some p ∧ (port = .vein ∨ ∃ errs, port = .sump p errs) ∧ pkt.ptype = .rd ∧ pkt.classT = false) ∧
    (∃ (s : State) (port : Port) (pkt : Packet) (l : Nat), packetCore s pkt = some l ∧ ∃ p, NextIn s port pkt l ∧
     physOf s l = some p ∧ (port = .vein ∨ ∃ errs, port = .sump p errs) ∧ pkt.classT = true ∧ pkt.ptype ≠ .wr ∧
     (pkt.ptype = .sig → isUnsettled s l = false)) ∧
    (∃ (s : State) (l p b : Nat), liveCore s l = some p ∧ b < 17 ∧ let k := coreAt s p; b < 16 ∧ oldestInb k b = none) ∧
    (∃ (s : State) (l p b : Nat), liveCore s l = some p ∧ b < 17 ∧ let k := coreAt s p; let now := cycleOf s l;
     ∃ (x : InEntry), b < 16 ∧ oldestInb k b = some x ∧
     let free := bankOff k b (reservedFrom k (max now (x.entered + 1)) b) = false ∧ fetchWaits k now b = false ∧ ∀ m, m ∈
       k.pool.marks → m.row = x.row → m.write = false → markSeen (reservedFrom k (max now (x.entered + 1)) b) m = false;
     ¬free) ∧
    (∃ (s : State) (l p b : Nat), liveCore s l = some p ∧ b < 17 ∧ let k := coreAt s p; let now := cycleOf s l;
     ∃ (x : InEntry), b < 16 ∧ oldestInb k b = some x ∧
     let free := bankOff k b (reservedFrom k (max now (x.entered + 1)) b) = false ∧ fetchWaits k now b = false ∧ ∀ m, m ∈
       k.pool.marks → m.row = x.row → m.write = false → markSeen (reservedFrom k (max now (x.entered + 1)) b) m = false;
     free ∧ badIn x.errs = false) ∧
    (∃ (s : State) (l p b : Nat), liveCore s l = some p ∧ b < 17 ∧ let k := coreAt s p; let now := cycleOf s l;
     ∃ (x : InEntry), b < 16 ∧ oldestInb k b = some x ∧
     let free := bankOff k b (reservedFrom k (max now (x.entered + 1)) b) = false ∧ fetchWaits k now b = false ∧ ∀ m, m ∈
       k.pool.marks → m.row = x.row → m.write = false → markSeen (reservedFrom k (max now (x.entered + 1)) b) m = false;
     free ∧ badIn x.errs = true ∧ x.own = false) ∧
    (∃ (s : State) (l p b : Nat), liveCore s l = some p ∧ b < 17 ∧ let k := coreAt s p; let now := cycleOf s l;
     ∃ (x : InEntry), b = 16 ∧ oldestTrow k now = some x ∧ badIn x.errs = false) :=
  ⟨⟨wOn, .vein, wPkt .wr 0x100000000000 0, 0, 0,
    ⟨by unfold NextIn; decide +kernel, by decide +kernel, by decide +kernel, by decide +kernel, .inl rfl⟩,
    by decide +kernel, by decide +kernel, by decide +kernel⟩,
   ⟨wOn, .vein, wPkt .wr 1 0, 0, 0,
    ⟨by unfold NextIn; decide +kernel, by decide +kernel, by decide +kernel, by decide +kernel, .inl rfl⟩,
    by decide +kernel, by decide +kernel, by decide +kernel⟩,
   ⟨wOn, .vein, { (wPkt .wr 0x3FE00 0) with data := { data := 5, side := 1 } }, 0, 0,
    ⟨by unfold NextIn; decide +kernel, by decide +kernel, by decide +kernel, by decide +kernel, .inl rfl⟩,
    by decide +kernel, by decide +kernel, by decide +kernel⟩,
   ⟨wCore (fun k => setRing k 15 { wRing 15 511 1 with kind := 1 }), .vein,
    { (wPkt .wr 0x3FE00 0) with data := { data := 5, side := 1 } }, 0, 0,
    ⟨by unfold NextIn; decide +kernel, by decide +kernel, by decide +kernel, by decide +kernel, .inl rfl⟩,
    by decide +kernel, by decide +kernel, by decide +kernel, 15, { wRing 15 511 1 with kind := 1 }, by decide +kernel,
    by decide +kernel, by decide +kernel⟩,
   ⟨wCore (fun k => setRing k 15 { wRing 15 511 1 with kind := 1, outst := 1 }), .vein,
    { (wPkt .wr 0x3FE00 0) with data := { data := 5, side := 1 } }, 0, 0,
    ⟨by unfold NextIn; decide +kernel, by decide +kernel, by decide +kernel, by decide +kernel, .inl rfl⟩,
    by decide +kernel, by decide +kernel, by decide +kernel, 15, { wRing 15 511 1 with kind := 1, outst := 1 },
    by decide +kernel, by decide +kernel, by decide +kernel⟩,
   ⟨wCore (fun k => { (setRing k 15 { wRing 15 511 1 with kind := 1, outst := 1 }) with mv := { k.mv with inb := List.replicate 16 wIn } }),
    .vein, { (wPkt .wr 0x3FE00 0) with data := { data := 5, side := 1 } }, 0, 0,
    ⟨by unfold NextIn; decide +kernel, by decide +kernel, by decide +kernel, by decide +kernel, .inl rfl⟩,
    by decide +kernel, by decide +kernel, by decide +kernel, 15, { wRing 15 511 1 with kind := 1, outst := 1 },
    by decide +kernel, by decide +kernel, by decide +kernel⟩,
   ⟨wOn, .vein, { (wPkt .wr 0x3FE00 0) with classT := true, agent := 3 }, 0, 0,
    ⟨by unfold NextIn; decide +kernel, by decide +kernel, by decide +kernel, by decide +kernel, .inl rfl⟩,
    by decide +kernel, by decide +kernel, by decide +kernel⟩,
   ⟨wCore (fun k => setWin k 7 { Win.init with base := 511, size := 1, opened := true, agent := 3, outst := 0 }), .vein,
    { (wPkt .wr 0x3FE00 0) with classT := true, agent := 3 }, 0, 0,
    ⟨by unfold NextIn; decide +kernel, by decide +kernel, by decide +kernel, by decide +kernel, .inl rfl⟩,
    by decide +kernel, by decide +kernel, by decide +kernel, 7,
    { Win.init with base := 511, size := 1, opened := true, agent := 3, outst := 0 }, by decide +kernel⟩,
   ⟨wCore (fun k => setWin k 7 { Win.init with base := 511, size := 1, opened := true, agent := 3, outst := 1 }), .vein,
    { (wPkt .wr 0x3FE00 0) with classT := true, agent := 3 }, 0, 0,
    ⟨by unfold NextIn; decide +kernel, by decide +kernel, by decide +kernel, by decide +kernel, .inl rfl⟩,
    by decide +kernel, by decide +kernel, by decide +kernel, 7,
    { Win.init with base := 511, size := 1, opened := true, agent := 3, outst := 1 }, by decide +kernel⟩,
   ⟨wOn, .vein, wPkt .sig 0x2000000003C0 1, 0, by decide +kernel, .wr .vein (wPkt .sig 0x2000000003C0 1),
    by decide +kernel⟩,
   ⟨wOn, .sump 5 [], { (wPkt .wr 0x3FE00 0) with data := { data := 5, side := 1 } }, 0, by decide +kernel,
    .wr (.sump 5 []) ({ (wPkt .wr 0x3FE00 0) with data := { data := 5, side := 1 } }), true, by decide +kernel,
    by unfold NextIn; decide +kernel⟩,
   ⟨{ wOn with boot := { wOn.boot with lostIds := [0] } }, .vein,
    { (wPkt .wr 0x3FE00 0) with data := { data := 5, side := 1 } }, 0, by decide +kernel,
    .wr .vein ({ (wPkt .wr 0x3FE00 0) with data := { data := 5, side := 1 } }), by decide +kernel,
    by unfold NextIn; decide +kernel, by decide +kernel⟩,
   ⟨{ wOn with gals := [(0, { Gal.init with unsettled := [0] })] }, .vein,
    { (wPkt .wr 0x3FE00 0) with data := { data := 5, side := 1 } }, 0, by decide +kernel, 0,
    by unfold NextIn; decide +kernel, by decide +kernel, .inl rfl,
    .wr .vein ({ (wPkt .wr 0x3FE00 0) with data := { data := 5, side := 1 } }), by decide +kernel⟩,
   ⟨{ wOn with resets := { wOn.resets with asserted := [(0, 0)] } }, .sump 0 [(8, 3)],
    { (wPkt .wr 0x3FE00 0) with data := { data := 5, side := 1 } }, 0, by decide +kernel, 0,
    by unfold NextIn; decide +kernel, by decide +kernel, .inr ⟨_, rfl⟩,
    .wr (.sump 0 [(8, 3)]) ({ (wPkt .wr 0x3FE00 0) with data := { data := 5, side := 1 } }), by decide +kernel⟩,
   ⟨wOn, .vein, wPkt .rd 0x3FE00 0, 0, by decide +kernel, 0, by unfold NextIn; decide +kernel, by decide +kernel, .inl rfl,
    by decide +kernel⟩,
   ⟨wOn, .vein, { (wPkt .sig 0x2000000003C0 1) with classT := true }, 0, by decide +kernel, 0,
    by unfold NextIn; decide +kernel, by decide +kernel, .inl rfl, by decide +kernel⟩,
   ⟨wOn, 0, 0, 15, by decide +kernel, by decide +kernel, by decide +kernel⟩,
   ⟨wCore (fun k => { (setQueue (setRing k 3 { wRing 3 508 4 with tail := 4, head := 3 }) 3 { Queue.init with state := 1 }) with mv := { k.mv with inb := [wIn] } }),
    0, 0, 15, by decide +kernel, by decide +kernel, wIn, by decide +kernel, by decide +kernel, by decide +kernel⟩,
   ⟨wCore (fun k => { k with mv := { k.mv with inb := [{ wIn with errs := [(0, 1)] }] } }), 0, 0, 15, by decide +kernel,
    by decide +kernel, { wIn with errs := [(0, 1)] }, by decide +kernel, by decide +kernel, by decide +kernel⟩,
   ⟨wCore (fun k => { k with mv := { k.mv with inb := [{ wIn with errs := [(0, 3)] }] } }), 0, 0, 15, by decide +kernel,
    by decide +kernel, { wIn with errs := [(0, 3)] }, by decide +kernel, by decide +kernel, by decide +kernel⟩,
   ⟨wCore (fun k => { k with mv := { k.mv with inb := [{ wIn with fs := true, row := 10, errs := [(0, 1)] }] } }), 0, 0, 16,
    by decide +kernel, by decide +kernel, { wIn with fs := true, row := 10, errs := [(0, 1)] }, by decide +kernel⟩⟩

/-- States and operands that meet the hypotheses of BankPowerEvents, clause by clause. -/
theorem witness_BankPowerEvents :
    (∃ (s : State) (l p b : Nat), physOf s l = some p ∧ gateOn s p = true ∧ (cavAt s (cavOf l)).running = true ∧ b < 16 ∧
     let k := coreAt s p; let c := nextPhase (cycleOf s l) (reservedPhase b) 32;
     let unreached := (∀ n, n < 16 → (ringAt k n).enable = true → (ringAt k n).outst = 0 ∨ overlapsBank (ringAt k n).base
       (ringAt k n).size b = false) ∧ (∀ w, w < 8 → (winAt k w).opened = true → (winAt k w).outst = 0 ∨ overlapsBank (winAt
       k w).base (winAt k w).size b = false) ∧ (∀ m, m ∈ k.pool.marks → bankOf m.row = b → markSeen c m = false) ∧ (∀ x, x ∈
       k.mv.inb → x.fs = true ∨ bankOf x.row ≠ b) ∧ (∀ r, r ∈ k.pool.wb → bankOf r ≠ b); b ∈ k.pool.offReq ∧
     b ∉ k.pool.off ∧ unreached) ∧
    (∃ (s : State) (l p b : Nat), physOf s l = some p ∧ gateOn s p = true ∧ (cavAt s (cavOf l)).running = true ∧ b < 16 ∧
     let k := coreAt s p; let c := nextPhase (cycleOf s l) (reservedPhase b) 32;
     let unreached := (∀ n, n < 16 → (ringAt k n).enable = true → (ringAt k n).outst = 0 ∨ overlapsBank (ringAt k n).base
       (ringAt k n).size b = false) ∧ (∀ w, w < 8 → (winAt k w).opened = true → (winAt k w).outst = 0 ∨ overlapsBank (winAt
       k w).base (winAt k w).size b = false) ∧ (∀ m, m ∈ k.pool.marks → bankOf m.row = b → markSeen c m = false) ∧ (∀ x, x ∈
       k.mv.inb → x.fs = true ∨ bankOf x.row ≠ b) ∧ (∀ r, r ∈ k.pool.wb → bankOf r ≠ b);
     (b ∉ k.pool.offReq ∨ b ∈ k.pool.off ∨ ¬unreached)) ∧
    (∃ (s : State) (l p b : Nat), physOf s l = some p ∧ gateOn s p = true ∧ (cavAt s (cavOf l)).running = true ∧ b < 16 ∧
     let k := coreAt s p; ∃ (u : Nat × Nat), k.pool.ups.find? (fun x => x.1 == b) = some u ∧ cycleOf s l < u.2) ∧
    (∃ (s : State) (l p b : Nat), physOf s l = some p ∧ gateOn s p = true ∧ (cavAt s (cavOf l)).running = true ∧ b < 16 ∧
     let k := coreAt s p; ∃ (u : Nat × Nat), k.pool.ups.find? (fun x => x.1 == b) = some u ∧ u.2 ≤ cycleOf s l) ∧
    (∃ (s : State) (l p b : Nat), physOf s l = some p ∧ gateOn s p = true ∧ (cavAt s (cavOf l)).running = true ∧ b < 16 ∧
     let k := coreAt s p; k.pool.ups.find? (fun x => x.1 == b) = none) :=
  ⟨⟨wCore (fun k => { (setRow (setRow k 511 { data := 5, side := 1 }) 0 { data := 5, side := 1 }) with pool := { (setRow (setRow k 511 { data := 5, side := 1 }) 0 { data := 5, side := 1 }).pool with offReq := [15] } }),
    0, 0, 15, by decide +kernel, by decide +kernel, by decide +kernel, by decide +kernel, by decide +kernel⟩,
   ⟨wOn, 0, 0, 15, by decide +kernel, by decide +kernel, by decide +kernel, by decide +kernel, by decide +kernel⟩,
   ⟨wCore (fun k => { k with pool := { k.pool with off := [15], ups := [(15, 10001)] } }), 0, 0, 15, by decide +kernel,
    by decide +kernel, by decide +kernel, by decide +kernel, (15, 10001), by decide +kernel⟩,
   ⟨wCore (fun k => { k with pool := { k.pool with off := [15], ups := [(15, 10000)] } }), 0, 0, 15, by decide +kernel,
    by decide +kernel, by decide +kernel, by decide +kernel, (15, 10000), by decide +kernel⟩,
   ⟨wOn, 0, 0, 15, by decide +kernel, by decide +kernel, by decide +kernel, by decide +kernel, by decide +kernel⟩⟩

/-- States and operands that meet the hypotheses of PreludeAndIssueTimeout, clause by clause. -/
theorem witness_PreludeAndIssueTimeout :
    (∃ (s : State) (l p q e : Nat) (d : Decoded) (m : MoveCmd), MayIssue s l p ∧ q < 4 ∧
     (queueAt (coreAt s p) q).head = some d ∧ d.cmd = .move m ∧ (m.gather = true ∨ m.scatter = true) ∧ d.idx = none ∧
     e = nextPhase (max (cycleOf s l) d.since) 3 4 ∧ produced (coreAt s p) e m.idxRow = true ∧
     Clear (coreAt s p) [{ row := m.idxRow, cycle := e, write := false }] ∧ ∃ (es : List Nat),
     preludeEntries s l m (rowAt (coreAt s p) m.idxRow) = some es) ∧
    (∃ (s : State) (l p q e : Nat) (d : Decoded) (m : MoveCmd), MayIssue s l p ∧ q < 4 ∧
     (queueAt (coreAt s p) q).head = some d ∧ d.cmd = .move m ∧ (m.gather = true ∨ m.scatter = true) ∧ d.idx = none ∧
     e = nextPhase (max (cycleOf s l) d.since) 3 4 ∧ produced (coreAt s p) e m.idxRow = true ∧
     Clear (coreAt s p) [{ row := m.idxRow, cycle := e, write := false }] ∧
     preludeEntries s l m (rowAt (coreAt s p) m.idxRow) = none) ∧
    (∃ (s : State) (l p q e : Nat) (d : Decoded) (m : MoveCmd), MayIssue s l p ∧ q < 4 ∧
     (queueAt (coreAt s p) q).head = some d ∧ d.cmd = .move m ∧ (m.gather = true ∨ m.scatter = true) ∧ d.idx = none ∧
     e = nextPhase (max (cycleOf s l) d.since) 3 4 ∧ produced (coreAt s p) e m.idxRow = false ∧
     readAbandoned (coreAt s p) m.idxRow = true) ∧
    (∃ (s : State) (l p q e : Nat) (d : Decoded) (m : MoveCmd), MayIssue s l p ∧ q < 4 ∧
     (queueAt (coreAt s p) q).head = some d ∧ d.cmd = .move m ∧ (m.gather = true ∨ m.scatter = true) ∧ d.idx = none ∧
     e = nextPhase (max (cycleOf s l) d.since) 3 4 ∧ produced (coreAt s p) e m.idxRow = false ∧
     readAbandoned (coreAt s p) m.idxRow = false) ∧
    (∃ (s : State) (l p q : Nat) (d : Decoded), liveCore s l = some p ∧ (q = 2 ∨ q = 3) ∧
     (queueAt (coreAt s p) q).head = some d ∧ cycleOf s l ≤ d.since + d.limit) ∧
    (∃ (s : State) (l p q : Nat) (d : Decoded), liveCore s l = some p ∧ (q = 2 ∨ q = 3) ∧
     (queueAt (coreAt s p) q).head = some d ∧ d.since + d.limit < cycleOf s l) :=
  ⟨⟨wCore (fun k => setRow (wHead 3 (wDec (.move (moveBuild 0x1FF400000001 0 0 0))) k) 511 { data := 511, side := 0 }), 0,
    0, 3, _, wDec (.move (moveBuild 0x1FF400000001 0 0 0)), (moveBuild 0x1FF400000001 0 0 0),
    by unfold MayIssue Current; decide +kernel, by decide +kernel, by decide +kernel, by decide +kernel, by decide +kernel,
    by decide +kernel, rfl, by decide +kernel, by unfold Machine.Clear; decide +kernel, [511], by decide +kernel⟩,
   ⟨wCore (fun k => setRow (wHead 3 (wDec (.move (moveBuild 0x1FF400000001 0 0 0))) k) 511 { data := 512, side := 0 }), 0,
    0, 3, _, wDec (.move (moveBuild 0x1FF400000001 0 0 0)), (moveBuild 0x1FF400000001 0 0 0),
    by unfold MayIssue Current; decide +kernel, by decide +kernel, by decide +kernel, by decide +kernel, by decide +kernel,
    by decide +kernel, rfl, by decide +kernel, by unfold Machine.Clear; decide +kernel, by decide +kernel⟩,
   ⟨wCore (fun k => setRing (wHead 3 (wDec (.move (moveBuild 0x1FF400000001 0 0 0))) k) 5 { wRing 5 511 1 with enforce := true, abandoned := true }),
    0, 0, 3, _, wDec (.move (moveBuild 0x1FF400000001 0 0 0)), (moveBuild 0x1FF400000001 0 0 0),
    by unfold MayIssue Current; decide +kernel, by decide +kernel, by decide +kernel, by decide +kernel, by decide +kernel,
    by decide +kernel, rfl, by decide +kernel⟩,
   ⟨wCore (fun k => setRing (wHead 3 (wDec (.move (moveBuild 0x1FF400000001 0 0 0))) k) 5 { wRing 5 511 1 with enforce := true }),
    0, 0, 3, _, wDec (.move (moveBuild 0x1FF400000001 0 0 0)), (moveBuild 0x1FF400000001 0 0 0),
    by unfold MayIssue Current; decide +kernel, by decide +kernel, by decide +kernel, by decide +kernel, by decide +kernel,
    by decide +kernel, rfl, by decide +kernel⟩,
   ⟨wCore (wHead 2 { (wDec (.move (deepReadBuild 0x3DF01 0x800000000000 0))) with since := 9900, limit := 100 }), 0, 0, 2,
    { (wDec (.move (deepReadBuild 0x3DF01 0x800000000000 0))) with since := 9900, limit := 100 }, by decide +kernel⟩,
   ⟨wCore (wHead 3 { (wDec (.move (moveBuild 0x201 0x800000000000 0 0))) with since := 9899, limit := 100 }), 0, 0, 3,
    { (wDec (.move (moveBuild 0x201 0x800000000000 0 0))) with since := 9899, limit := 100 }, by decide +kernel⟩⟩

/-- States and operands that meet the hypotheses of MoveCommandsIssue, clause by clause. -/
theorem witness_MoveCommandsIssue :
    (∃ (s : State) (l p e : Nat) (d : Decoded), MayIssue s l p ∧ (coreAt s p).upsets.sync = [] ∧ let k := coreAt s p;
     (queueAt k 3).head = some d ∧ ((∃ m, d.cmd = .move m) ∨ (∃ v a, d.cmd = .signal v a) ∨ ∃ w n, d.cmd = .grant w n) ∧
     e = nextPhase (max (cycleOf s l) d.since) 3 4 ∧ cmdVerdict s p l e d = .abandoned) ∧
    (∃ (s : State) (l p e : Nat) (d : Decoded), MayIssue s l p ∧ (coreAt s p).upsets.sync = [] ∧ let k := coreAt s p;
     (queueAt k 3).head = some d ∧ ((∃ m, d.cmd = .move m) ∨ (∃ v a, d.cmd = .signal v a) ∨ ∃ w n, d.cmd = .grant w n) ∧
     e = nextPhase (max (cycleOf s l) d.since) 3 4 ∧ cmdVerdict s p l e d ≠ .abandoned ∧ d.since + d.limit < e) ∧
    (∃ (s : State) (l p e : Nat) (d : Decoded), MayIssue s l p ∧ (coreAt s p).upsets.sync = [] ∧ let k := coreAt s p;
     (queueAt k 3).head = some d ∧ ((∃ m, d.cmd = .move m) ∨ (∃ v a, d.cmd = .signal v a) ∨ ∃ w n, d.cmd = .grant w n) ∧
     e = nextPhase (max (cycleOf s l) d.since) 3 4 ∧ cmdVerdict s p l e d ≠ .abandoned ∧ e ≤ d.since + d.limit ∧
     issueBlock s p l e d = none ∧ (∀ w n, d.cmd ≠ .grant w n)) ∧
    (∃ (s : State) (l p e : Nat) (d : Decoded), MayIssue s l p ∧ (coreAt s p).upsets.sync = [] ∧ let k := coreAt s p;
     (queueAt k 3).head = some d ∧ ((∃ m, d.cmd = .move m) ∨ (∃ v a, d.cmd = .signal v a) ∨ ∃ w n, d.cmd = .grant w n) ∧
     e = nextPhase (max (cycleOf s l) d.since) 3 4 ∧ cmdVerdict s p l e d ≠ .abandoned ∧ e ≤ d.since + d.limit ∧
     ∃ (w : Nat) (n : _), issueBlock s p l e d = none ∧ d.cmd = .grant w n ∧ 0 < n) ∧
    (∃ (s : State) (l p e : Nat) (d : Decoded), MayIssue s l p ∧ (coreAt s p).upsets.sync = [] ∧ let k := coreAt s p;
     (queueAt k 3).head = some d ∧ ((∃ m, d.cmd = .move m) ∨ (∃ v a, d.cmd = .signal v a) ∨ ∃ w n, d.cmd = .grant w n) ∧
     e = nextPhase (max (cycleOf s l) d.since) 3 4 ∧ cmdVerdict s p l e d ≠ .abandoned ∧ e ≤ d.since + d.limit ∧
     issueBlock s p l e d = some 8) ∧
    (∃ (s : State) (l p e : Nat) (d : Decoded), MayIssue s l p ∧ (coreAt s p).upsets.sync = [] ∧ let k := coreAt s p;
     (queueAt k 3).head = some d ∧ ((∃ m, d.cmd = .move m) ∨ (∃ v a, d.cmd = .signal v a) ∨ ∃ w n, d.cmd = .grant w n) ∧
     e = nextPhase (max (cycleOf s l) d.since) 3 4 ∧ cmdVerdict s p l e d ≠ .abandoned ∧ e ≤ d.since + d.limit ∧ ∃ n,
     issueBlock s p l e d = some n ∧ n ≠ 8) ∧
    (∃ (s : State) (l p e : Nat) (d : Decoded), MayIssue s l p ∧ (coreAt s p).upsets.sync = [] ∧ let k := coreAt s p;
     ∃ (m : MoveCmd), (queueAt k 2).head = some d ∧ d.cmd = .move m ∧ e = max (cycleOf s l) d.since ∧
     cmdVerdict s p l e d = .abandoned) ∧
    (∃ (s : State) (l p e : Nat) (d : Decoded), MayIssue s l p ∧ (coreAt s p).upsets.sync = [] ∧ let k := coreAt s p;
     ∃ (m : MoveCmd), (queueAt k 2).head = some d ∧ d.cmd = .move m ∧ e = max (cycleOf s l) d.since ∧
     ∃ (row : _) (w : Bool), cmdVerdict s p l e d = .wait row w) ∧
    (∃ (s : State) (l p e : Nat) (d : Decoded), MayIssue s l p ∧ (coreAt s p).upsets.sync = [] ∧ let k := coreAt s p;
     ∃ (m : MoveCmd), (queueAt k 2).head = some d ∧ d.cmd = .move m ∧ e = max (cycleOf s l) d.since ∧
     cmdVerdict s p l e d = .go ∧ d.since + d.limit < e) ∧
    (∃ (s : State) (l p e : Nat) (d : Decoded), MayIssue s l p ∧ (coreAt s p).upsets.sync = [] ∧ let k := coreAt s p;
     ∃ (m : MoveCmd), (queueAt k 2).head = some d ∧ d.cmd = .move m ∧ e = max (cycleOf s l) d.since ∧
     cmdVerdict s p l e d = .go ∧ e ≤ d.since + d.limit ∧ deepBlock s p l e d m = none) ∧
    (∃ (s : State) (l p e : Nat) (d : Decoded), MayIssue s l p ∧ (coreAt s p).upsets.sync = [] ∧ let k := coreAt s p;
     ∃ (m : MoveCmd), (queueAt k 2).head = some d ∧ d.cmd = .move m ∧ e = max (cycleOf s l) d.since ∧
     cmdVerdict s p l e d = .go ∧ e ≤ d.since + d.limit ∧ deepBlock s p l e d m = some 8) ∧
    (∃ (s : State) (l p e : Nat) (d : Decoded), MayIssue s l p ∧ (coreAt s p).upsets.sync = [] ∧ let k := coreAt s p;
     ∃ (m : MoveCmd), (queueAt k 2).head = some d ∧ d.cmd = .move m ∧ e = max (cycleOf s l) d.since ∧
     cmdVerdict s p l e d = .go ∧ e ≤ d.since + d.limit ∧ ∃ n, deepBlock s p l e d m = some n ∧ n ≠ 8) ∧
    (∃ (s : State) (l p e : Nat) (d : Decoded) (m : MoveCmd), MayIssue s l p ∧ (coreAt s p).upsets.sync = [] ∧
     (queueAt (coreAt s p) 3).head = some d ∧ d.cmd = .move m ∧ m.op = 1 ∧ e = nextPhase (max (cycleOf s l) d.since) 3 4 ∧
     cmdVerdict s p l e d ≠ .abandoned ∧ e ≤ d.since + d.limit ∧ issueBlock s p l e d = none ∧
     Clear (coreAt s p) ((moveReads m d.idx).mapIdx fun i r => { row := r, cycle := e + 4 * i, write := false })) ∧
    (∃ (s : State) (l p e value dst tag : Nat) (d : Decoded), MayIssue s l p ∧ (queueAt (coreAt s p) 3).head = some d ∧
     d.cmd = .signal value dst ∧ e = nextPhase (max (cycleOf s l) d.since) 3 4 ∧ cmdVerdict s p l e d ≠ .abandoned ∧
     e ≤ d.since + d.limit ∧ issueBlock s p l e d = none ∧ tag = (coreAt s p).mv.nextTag % 256 ∧
     addrDie dst = s.boot.dieId ∧ dst < 2 ^ 64 ∧ addrSpace dst = 2 ∧ (galAt s (galOf (addrCore dst))).tableMask = [] ∧
     (∀ r, r ∈ (coreAt s p).mv.runs → r.tag ≠ tag)) :=
  ⟨⟨wCore (fun k => setRing (wHead 3 (wDec (.move (moveBuild 0x201 0x800000000000 0 0))) k) 5 { wRing 5 32 4 with enforce := true, abandoned := true }),
    0, 0, _, wDec (.move (moveBuild 0x201 0x800000000000 0 0)), by unfold MayIssue Current; decide +kernel,
    by decide +kernel, by decide +kernel, .inl ⟨_, rfl⟩, rfl, by decide +kernel⟩,
   ⟨wCore (wHead 3 ({ (wDec (.move (moveBuild 0x201 0x800000000000 0 0))) with since := 9899, limit := 100 })), 0, 0, _,
    { (wDec (.move (moveBuild 0x201 0x800000000000 0 0))) with since := 9899, limit := 100 },
    by unfold MayIssue Current; decide +kernel, by decide +kernel, by decide +kernel, .inl ⟨_, rfl⟩, rfl,
    by decide +kernel⟩,
   ⟨wCore (wHead 3 (wDec (.move (moveBuild 0x201 0x800000000000 0 0)))), 0, 0, _,
    wDec (.move (moveBuild 0x201 0x800000000000 0 0)), by unfold MayIssue Current; decide +kernel, by decide +kernel,
    by decide +kernel, .inl ⟨_, rfl⟩, rfl, by decide +kernel, by decide +kernel, by decide +kernel, by intros; nofun⟩,
   ⟨wCore (fun k => setWin (wHead 3 (wDec (.grant 7 4)) k) 7 { Win.init with base := 0, size := 4, opened := true }), 0, 0,
    _, wDec (.grant 7 4), by unfold MayIssue Current; decide +kernel, by decide +kernel, by decide +kernel,
    .inr (.inr ⟨_, _, rfl⟩), rfl, by decide +kernel, by decide +kernel, 7, 4, by decide +kernel⟩,
   ⟨wCore (fun k => setAllot (wHead 3 (wDec (.move (moveBuild 0x201 0x800000000000 0 0))) k) 3 { Allot.init with cap := 1, issued := 1 }),
    0, 0, _, wDec (.move (moveBuild 0x201 0x800000000000 0 0)), by unfold MayIssue Current; decide +kernel,
    by decide +kernel, by decide +kernel, .inl ⟨_, rfl⟩, rfl, by decide +kernel⟩,
   ⟨wCore (fun k => { (wHead 3 (wDec (.move (moveBuild 0x201 0x800000000000 0 0))) k) with mv := { (wHead 3 (wDec (.move (moveBuild 0x201 0x800000000000 0 0))) k).mv with lastRead := some 20000 } }),
    0, 0, _, wDec (.move (moveBuild 0x201 0x800000000000 0 0)), by unfold MayIssue Current; decide +kernel,
    by decide +kernel, by decide +kernel, .inl ⟨_, rfl⟩, rfl, by decide +kernel, by decide +kernel, 1, by decide +kernel⟩,
   ⟨wCore (fun k => setRing (wHead 2 (wDec (.move (deepReadBuild 0x3DF01 0x800000000000 0))) k) 5 { wRing 5 496 16 with enforce := true, abandoned := true, kind := 1 }),
    0, 0, _, wDec (.move (deepReadBuild 0x3DF01 0x800000000000 0)), by unfold MayIssue Current; decide +kernel,
    by decide +kernel, (deepReadBuild 0x3DF01 0x800000000000 0), by decide +kernel, by decide +kernel, rfl,
    by decide +kernel⟩,
   ⟨wCore (fun k => setRing (wHead 2 (wDec (.move (deepReadBuild 0x3DF01 0x800000000000 0))) k) 5 { wRing 5 496 16 with enforce := true, kind := 1 }),
    0, 0, _, wDec (.move (deepReadBuild 0x3DF01 0x800000000000 0)), by unfold MayIssue Current; decide +kernel,
    by decide +kernel, (deepReadBuild 0x3DF01 0x800000000000 0), by decide +kernel, by decide +kernel, rfl, 496, true,
    by decide +kernel⟩,
   ⟨wCore (wHead 2 ({ (wDec (.move (deepReadBuild 0x3DF01 0x800000000000 0))) with since := 9899, limit := 100 })), 0, 0, _,
    { (wDec (.move (deepReadBuild 0x3DF01 0x800000000000 0))) with since := 9899, limit := 100 },
    by unfold MayIssue Current; decide +kernel, by decide +kernel, (deepReadBuild 0x3DF01 0x800000000000 0),
    by decide +kernel, by decide +kernel, rfl, by decide +kernel⟩,
   ⟨wCore (wHead 2 (wDec (.move (deepReadBuild 0x3DF01 0x800000000000 0)))), 0, 0, _,
    wDec (.move (deepReadBuild 0x3DF01 0x800000000000 0)), by unfold MayIssue Current; decide +kernel, by decide +kernel,
    (deepReadBuild 0x3DF01 0x800000000000 0), by decide +kernel, by decide +kernel, rfl, by decide +kernel⟩,
   ⟨wCore (fun k => setAllot (wHead 2 (wDec (.move (deepReadBuild 0x3DF01 0x800000000000 0))) k) 2 { Allot.init with cap := 15 }),
    0, 0, _, wDec (.move (deepReadBuild 0x3DF01 0x800000000000 0)), by unfold MayIssue Current; decide +kernel,
    by decide +kernel, (deepReadBuild 0x3DF01 0x800000000000 0), by decide +kernel, by decide +kernel, rfl,
    by decide +kernel⟩,
   ⟨wCore (fun k => { (wHead 2 (wDec (.move (deepReadBuild 0x3DF01 0x800000000000 0))) k) with mv := { (wHead 2 (wDec (.move (deepReadBuild 0x3DF01 0x800000000000 0))) k).mv with runs := [{ wRun with q := 2, op := 5 }] } }),
    0, 0, _, wDec (.move (deepReadBuild 0x3DF01 0x800000000000 0)), by unfold MayIssue Current; decide +kernel,
    by decide +kernel, (deepReadBuild 0x3DF01 0x800000000000 0), by decide +kernel, by decide +kernel, rfl,
    by decide +kernel, by decide +kernel, 4, by decide +kernel⟩,
   ⟨wCore (wHead 3 (wDec (.move (moveBuild 0x201 0x800000000000 0 0)))), 0, 0, _,
    wDec (.move (moveBuild 0x201 0x800000000000 0 0)), (moveBuild 0x201 0x800000000000 0 0),
    by unfold MayIssue Current; decide +kernel, by decide +kernel, by decide +kernel, by decide +kernel, by decide +kernel,
    rfl, by decide +kernel, by decide +kernel, by decide +kernel, by unfold Machine.Clear; decide +kernel⟩,
   ⟨wCore (wHead 3 (wDec (.signal 7 0x2000000003C0))), 0, 0, _, 7, 0x2000000003C0, _, wDec (.signal 7 0x2000000003C0),
    by unfold MayIssue Current; decide +kernel, by decide +kernel, by decide +kernel, rfl, by decide +kernel,
    by decide +kernel, by decide +kernel, rfl, by decide +kernel⟩⟩

/-- States and operands that meet the hypotheses of ResponseRows, clause by clause. -/
theorem witness_ResponseRows :
    (∃ (s : State) (port : Port) (pkt : Packet) (l p : Nat), let k := coreAt s p; ∃ (st : Status), Arrives s port pkt l p ∧
     pkt.ptype = .ack ∧ pkt.classT = false ∧ k.op.busy = false ∧ findRun k pkt.tag 2 = none ∧
     statusOf (pkt.word.toNat % 256) = st ∧ findRun k pkt.tag 3 = none) ∧
    (∃ (s : State) (port : Port) (pkt : Packet) (l p : Nat), let k := coreAt s p; ∃ (st : Status), Arrives s port pkt l p ∧
     pkt.ptype = .ack ∧ pkt.classT = false ∧ k.op.busy = false ∧ findRun k pkt.tag 2 = none ∧
     statusOf (pkt.word.toNat % 256) = st ∧ ∃ (r : MoveRun), findRun k pkt.tag 3 = some r ∧ pkt.row < r.rows ∧
     respOf r pkt.row = none ∧ (∀ i, i < r.rows → i ≠ pkt.row → respOf r i = some 0) ∧ r.poisoned = false) ∧
    (∃ (s : State) (port : Port) (pkt : Packet) (l p : Nat), let k := coreAt s p; ∃ (st : Status), Arrives s port pkt l p ∧
     pkt.ptype = .ack ∧ pkt.classT = false ∧ k.op.busy = false ∧ findRun k pkt.tag 2 = none ∧
     statusOf (pkt.word.toNat % 256) = st ∧ ∃ (r : MoveRun), findRun k pkt.tag 3 = some r ∧ pkt.row < r.rows ∧
     respOf r pkt.row = none ∧ ∃ (i : Nat), i < r.rows ∧ i ≠ pkt.row ∧ respOf r i = none) ∧
    (∃ (s : State) (port : Port) (pkt : Packet) (l p : Nat), let k := coreAt s p; ∃ (r : MoveRun), Arrives s port pkt l p ∧
     pkt.ptype = .deepData ∧ pkt.classT = false ∧ k.op.busy = false ∧ findRun k pkt.tag 2 = some r ∧ pkt.row < r.rows ∧
     respOf r pkt.row = none ∧ (∀ e, e ∈ r.image → e.1 ≠ pkt.row) ∧
     (∀ x, x ∈ k.mv.inb → x.own = true → x.q = 2 → x.tag = pkt.tag → x.pkt.row ≠ pkt.row) ∧
     (received port pkt).poison = false ∧ pkt.word.toNat % 256 = 0 ∧ r.whole = false) ∧
    (∃ (s : State) (port : Port) (pkt : Packet) (l p : Nat), let k := coreAt s p; ∃ (r : MoveRun), Arrives s port pkt l p ∧
     pkt.ptype = .deepData ∧ pkt.classT = false ∧ k.op.busy = false ∧ findRun k pkt.tag 2 = some r ∧ pkt.row < r.rows ∧
     respOf r pkt.row = none ∧ (∀ e, e ∈ r.image → e.1 ≠ pkt.row) ∧
     (∀ x, x ∈ k.mv.inb → x.own = true → x.q = 2 → x.tag = pkt.tag → x.pkt.row ≠ pkt.row) ∧
     (received port pkt).poison = true ∧ r.whole = false ∧ (∃ i, i < r.rows ∧ i ≠ pkt.row ∧ respOf r i = none)) ∧
    (∃ (s : State) (l p : Nat), let k := coreAt s p; ∃ (tag row q : _) (r : MoveRun), liveCore s l = some p ∧
     Current k (cycleOf s l) ∧ q = (if tag < 256 then 3 else 2) ∧ findRun k (tag % 256) q = some r ∧ ∃ dl, row < r.rows ∧
     Store.get 0 r.deadline row = dl + 1 ∧ dl < cycleOf s l ∧ respOf r row = none ∧ dataWaits k r row = false ∧
     (∀ i, i < r.rows → i ≠ row → respOf r i = some 0)) ∧
    (∃ (s : State) (l p : Nat), let k := coreAt s p; ∃ (tag row q : _) (r : MoveRun), liveCore s l = some p ∧
     Current k (cycleOf s l) ∧ q = (if tag < 256 then 3 else 2) ∧ findRun k (tag % 256) q = some r ∧
     (cycleOf s l < Store.get 0 r.deadline row ∨ Store.get 0 r.deadline row = 0 ∨ (respOf r row).isSome = true ∨ dataWaits
       k r row = true)) :=
  ⟨⟨wOn, .vein, { (wPkt .ack 0 8) with tag := 255, row := 1 }, 0, 0, _,
    ⟨by unfold NextIn; decide +kernel, by decide +kernel, by decide +kernel, by decide +kernel, .inl rfl⟩,
    by decide +kernel, by decide +kernel, by decide +kernel, by decide +kernel, rfl, by decide +kernel⟩,
   ⟨wCore (fun k => { k with mv := { k.mv with runs := [{ wRun with q := 3, op := 1, rows := 2, resp := [(0, 1)] }] } }),
    .vein, { (wPkt .ack 0 8) with tag := 255, row := 1 }, 0, 0, _,
    ⟨by unfold NextIn; decide +kernel, by decide +kernel, by decide +kernel, by decide +kernel, .inl rfl⟩,
    by decide +kernel, by decide +kernel, by decide +kernel, by decide +kernel, rfl,
    { wRun with q := 3, op := 1, rows := 2, resp := [(0, 1)] }, by decide +kernel⟩,
   ⟨wCore (fun k => { k with mv := { k.mv with runs := [{ wRun with q := 3, op := 1, rows := 2 }] } }), .vein,
    { (wPkt .ack 0 8) with tag := 255, row := 1 }, 0, 0, _,
    ⟨by unfold NextIn; decide +kernel, by decide +kernel, by decide +kernel, by decide +kernel, .inl rfl⟩,
    by decide +kernel, by decide +kernel, by decide +kernel, by decide +kernel, rfl,
    { wRun with q := 3, op := 1, rows := 2 }, by decide +kernel, by decide +kernel, by decide +kernel, 0,
    by decide +kernel⟩,
   ⟨wCore (fun k => { k with mv := { k.mv with runs := [{ wRun with q := 2, op := 5, dst := 496, rows := 16 }] } }),
    .sump 0 [], { (wPkt .deepData 0 0) with tag := 255, row := 15, data := { data := 7, side := 1 } }, 0, 0,
    { wRun with q := 2, op := 5, dst := 496, rows := 16 },
    ⟨by unfold NextIn; decide +kernel, by decide +kernel, by decide +kernel, by decide +kernel, .inr ⟨_, rfl⟩⟩,
    by decide +kernel⟩,
   ⟨wCore (fun k => { k with mv := { k.mv with runs := [{ wRun with q := 2, op := 5, dst := 496, rows := 16 }] } }),
    .sump 0 [(10, 3)], { (wPkt .deepData 0 0) with tag := 255, row := 15, data := { data := 7, side := 1 } }, 0, 0,
    { wRun with q := 2, op := 5, dst := 496, rows := 16 },
    ⟨by unfold NextIn; decide +kernel, by decide +kernel, by decide +kernel, by decide +kernel, .inr ⟨_, rfl⟩⟩,
    by decide +kernel⟩,
   ⟨wCore (fun k => { k with mv := { k.mv with runs := [{ wRun with q := 3, op := 1, rows := 2, resp := [(0, 1)], deadline := [(1, 10000)] }] } }),
    0, 0, 255, 1, _, { wRun with q := 3, op := 1, rows := 2, resp := [(0, 1)], deadline := [(1, 10000)] },
    by decide +kernel, by unfold Current; decide +kernel, rfl, by decide +kernel, 9999, by decide +kernel⟩,
   ⟨wCore (fun k => { k with mv := { k.mv with runs := [{ wRun with q := 3, op := 1, rows := 2, resp := [(0, 1)], deadline := [(1, 10001)] }] } }),
    0, 0, 255, 1, _, { wRun with q := 3, op := 1, rows := 2, resp := [(0, 1)], deadline := [(1, 10001)] },
    by decide +kernel, by unfold Current; decide +kernel, rfl, by decide +kernel⟩⟩

/-- States and operands that meet the hypotheses of CreditAndBounceRows, clause by clause. -/
theorem witness_CreditAndBounceRows :
    (∃ (s : State) (port : Port) (pkt : Packet) (l p : Nat), Arrives s port pkt l p ∧ pkt.classT = false ∧
     (coreAt s p).upsets.sync = [] ∧ let k := coreAt s p;
     let mine (x : Cred) : Bool := x.die == pkt.srcDie && x.core == pkt.srcCore && x.ring == pkt.ring; pkt.ptype = .grant ∧
     (∀ x, x ∈ k.mv.creds → mine x = false) ∧ k.mv.creds.length < 16) ∧
    (∃ (s : State) (port : Port) (pkt : Packet) (l p : Nat), Arrives s port pkt l p ∧ pkt.classT = false ∧
     (coreAt s p).upsets.sync = [] ∧ let k := coreAt s p;
     let mine (x : Cred) : Bool := x.die == pkt.srcDie && x.core == pkt.srcCore && x.ring == pkt.ring; pkt.ptype = .grant ∧
     (∀ x, x ∈ k.mv.creds → mine x = false) ∧ 16 ≤ k.mv.creds.length) ∧
    (∃ (s : State) (port : Port) (pkt : Packet) (l p : Nat), Arrives s port pkt l p ∧ pkt.classT = false ∧
     (coreAt s p).upsets.sync = [] ∧ let k := coreAt s p;
     let mine (x : Cred) : Bool := x.die == pkt.srcDie && x.core == pkt.srcCore && x.ring == pkt.ring;
     ∃ (i : Nat) (x : Cred), pkt.ptype = .grant ∧ findIdx mine k.mv.creds = some (i, x)) ∧
    (∃ (s : State) (port : Port) (pkt : Packet) (l p : Nat), Arrives s port pkt l p ∧ pkt.classT = false ∧
     (coreAt s p).upsets.sync = [] ∧ pkt.ptype = .revoke) ∧
    (∃ (s : State) (port : Port) (pkt : Packet) (l p : Nat), Arrives s port pkt l p ∧ pkt.classT = false ∧
     (coreAt s p).upsets.sync = [] ∧ let k := coreAt s p; pkt.ptype = .bounce ∧ Current k (cycleOf s l)) :=
  ⟨⟨wOn, .vein, { (wPkt .grant 0 0) with srcCore := 5, ring := 3, count := 2, size := 4 }, 0, 0,
    ⟨by unfold NextIn; decide +kernel, by decide +kernel, by decide +kernel, by decide +kernel, .inl rfl⟩,
    by decide +kernel, by decide +kernel, by decide +kernel⟩,
   ⟨wCore (fun k => { k with mv := { k.mv with creds := List.replicate 16 { die := 0, core := 6, ring := 3, base := 0, size := 4, count := 1 } } }),
    .vein, { (wPkt .grant 0 0) with srcCore := 5, ring := 3, count := 2, size := 4 }, 0, 0,
    ⟨by unfold NextIn; decide +kernel, by decide +kernel, by decide +kernel, by decide +kernel, .inl rfl⟩,
    by decide +kernel, by decide +kernel, by decide +kernel⟩,
   ⟨wCore (fun k => { k with mv := { k.mv with creds := [{ die := 0, core := 5, ring := 3, base := 0, size := 4, count := 1 }] } }),
    .vein, { (wPkt .grant 0 0) with srcCore := 5, ring := 3, count := 2, size := 4 }, 0, 0,
    ⟨by unfold NextIn; decide +kernel, by decide +kernel, by decide +kernel, by decide +kernel, .inl rfl⟩,
    by decide +kernel, by decide +kernel, 0, { die := 0, core := 5, ring := 3, base := 0, size := 4, count := 1 },
    by decide +kernel⟩,
   ⟨wCore (fun k => { k with mv := { k.mv with creds := [{ die := 0, core := 5, ring := 3, base := 0, size := 4, count := 1 }] } }),
    .vein, { (wPkt .revoke 0 0) with srcCore := 5, ring := 3, count := 2, size := 4 }, 0, 0,
    ⟨by unfold NextIn; decide +kernel, by decide +kernel, by decide +kernel, by decide +kernel, .inl rfl⟩,
    by decide +kernel⟩,
   ⟨wCore (fun k => { k with mv := { k.mv with outb := [{ tag := 0, row := 0, pkt := Packet.empty, held := false, bouncedEpoch := none }] } }),
    .vein, { (wPkt .bounce 0 0) with srcCore := 5, ring := 3, count := 2, size := 4 }, 0, 0,
    ⟨by unfold NextIn; decide +kernel, by decide +kernel, by decide +kernel, by decide +kernel, .inl rfl⟩,
    by decide +kernel, by decide +kernel, by decide +kernel, by unfold Current; decide +kernel⟩⟩

/-- States and operands that meet the hypotheses of InjectionSendsOneFlit, clause by clause. -/
theorem witness_InjectionSendsOneFlit :
    (∃ (s : State) (core side p : Nat), injCore s core = some p ∧ side ≤ 1 ∧
     (side = 0 → (cavAt s (p / 68 / 8)).running = true) ∧ (side = 1 → (bunAt s p).state = 2) ∧ let g := p / 68;
     let room (x : InjPkt) : Bool := decide (x.ready ≤ aNow s (g / 8)) && (decide (0 < x.sent) || (if side = 0 then
       bufferRoom s (32 + g) (p % 68) x.pkt else bundleRoom (bunAt s p) x.pkt));
     let pick := pickInj (coreAt s p) side (galAt s g).ageThresh ((injHeads s (injOf (coreAt s p) side)).filter fun x =>
       room x.2); pick = none) ∧
    (∃ (s : State) (core side p : Nat), injCore s core = some p ∧ side ≤ 1 ∧
     (side = 0 → (cavAt s (p / 68 / 8)).running = true) ∧ (side = 1 → (bunAt s p).state = 2) ∧ let g := p / 68;
     let room (x : InjPkt) : Bool := decide (x.ready ≤ aNow s (g / 8)) && (decide (0 < x.sent) || (if side = 0 then
       bufferRoom s (32 + g) (p % 68) x.pkt else bundleRoom (bunAt s p) x.pkt));
     let pick := pickInj (coreAt s p) side (galAt s g).ageThresh ((injHeads s (injOf (coreAt s p) side)).filter fun x =>
       room x.2); let lostRow (x : InjPkt) : Bool := badIn x.errs && x.src == 3 && x.pkt.ptype == .wr;
     ∃ (i : Nat) (x : InjPkt), pick = some (i, x) ∧ lostRow x = true) ∧
    (∃ (s : State) (core side p : Nat), injCore s core = some p ∧ side ≤ 1 ∧
     (side = 0 → (cavAt s (p / 68 / 8)).running = true) ∧ (side = 1 → (bunAt s p).state = 2) ∧ let g := p / 68;
     let room (x : InjPkt) : Bool := decide (x.ready ≤ aNow s (g / 8)) && (decide (0 < x.sent) || (if side = 0 then
       bufferRoom s (32 + g) (p % 68) x.pkt else bundleRoom (bunAt s p) x.pkt));
     let pick := pickInj (coreAt s p) side (galAt s g).ageThresh ((injHeads s (injOf (coreAt s p) side)).filter fun x =>
       room x.2); let lostRow (x : InjPkt) : Bool := badIn x.errs && x.src == 3 && x.pkt.ptype == .wr;
     ∃ (i : Nat) (x : InjPkt), pick = some (i, x) ∧ lostRow x = false) ∧
    (∃ (freed : List Nat), freed.length = 4 ∧ (∀ n, n ∈ freed → n < 2 ^ 16)) ∧
    (∃ (p : Packet), (∀ c, p.ptype ≠ .other c)) ∧
    (∃ (u : Nat) (l : _), u < 9 ∧ l < 64) ∧
    (∃ n j, n < 18 ∧ j < 32) :=
  ⟨⟨wOn, 0, 0, 0, by decide +kernel, by decide +kernel, by decide +kernel, by decide +kernel, by decide +kernel⟩,
   ⟨wCore (fun k => { k with mv := { k.mv with inj := [{ pkt := (wPkt .wr 0 0), ch := 0, src := 3, sent := 0, age := 0, moved := 0, ready := 0, errs := [(0, 3)] }] } }),
    0, 0, 0, by decide +kernel, by decide +kernel, by decide +kernel, by decide +kernel, 0,
    { pkt := (wPkt .wr 0 0), ch := 0, src := 3, sent := 0, age := 0, moved := 0, ready := 0, errs := [(0, 3)] },
    by decide +kernel⟩,
   ⟨wCore (fun k => { k with mv := { k.mv with inj := [{ pkt := (wPkt .sig 0x2000000003C0 1), ch := 2, src := 3, sent := 0, age := 0, moved := 0, ready := 0 }] } }),
    0, 0, 0, by decide +kernel, by decide +kernel, by decide +kernel, by decide +kernel, 0,
    { pkt := (wPkt .sig 0x2000000003C0 1), ch := 2, src := 3, sent := 0, age := 0, moved := 0, ready := 0 },
    by decide +kernel⟩,
   ⟨[0, 1, 2, 65535], by decide +kernel⟩,
   ⟨wPkt .wr 0 0, nofun⟩,
   ⟨8, 63, by decide +kernel⟩,
   ⟨17, 31, by decide +kernel⟩⟩

/-- States and operands that meet the hypotheses of NetworkEvents, clause by clause. -/
theorem witness_NetworkEvents :
    (∃ (s : State) (node output : Nat),
     let pick := pickOut s node output ((nodeHeads s.net.pkts [] 0 node).filter fun x => routeOut s node x.2.pkt == output
       && eligible s node output x.2); pick = none) ∧
    (∃ (s : State) (node output : Nat),
     let pick := pickOut s node output ((nodeHeads s.net.pkts [] 0 node).filter fun x => routeOut s node x.2.pkt == output
       && eligible s node output x.2); ∃ (i : Nat) (x : NetPkt), pick = some (i, x) ∧ x.sent + 1 < packetFlits x.pkt) ∧
    (∃ (s : State) (node output : Nat) (err : FlitErr),
     let pick := pickOut s node output ((nodeHeads s.net.pkts [] 0 node).filter fun x => routeOut s node x.2.pkt == output
       && eligible s node output x.2); ∃ (i : Nat) (x : NetPkt), pick = some (i, x) ∧
     let drops := (err.parity || ((x.sent == 0) && lostWord err.words)) && !x.bad; let bad := x.bad || drops;
     packetFlits x.pkt ≤ x.sent + 1 ∧ bad = true) ∧
    (∃ (s : State) (node output : Nat) (err : FlitErr),
     let pick := pickOut s node output ((nodeHeads s.net.pkts [] 0 node).filter fun x => routeOut s node x.2.pkt == output
       && eligible s node output x.2); ∃ (i : Nat) (x : NetPkt), pick = some (i, x) ∧
     let drops := (err.parity || ((x.sent == 0) && lostWord err.words)) && !x.bad; let bad := x.bad || drops; ∃ n j,
     packetFlits x.pkt ≤ x.sent + 1 ∧ bad = false ∧ nextHop node output = some (n, j)) ∧
    (∃ (s : State) (node output : Nat) (err : FlitErr),
     let pick := pickOut s node output ((nodeHeads s.net.pkts [] 0 node).filter fun x => routeOut s node x.2.pkt == output
       && eligible s node output x.2); ∃ (i : Nat) (x : NetPkt), pick = some (i, x) ∧
     let drops := (err.parity || ((x.sent == 0) && lostWord err.words)) && !x.bad; let bad := x.bad || drops; ∃ p,
     packetFlits x.pkt ≤ x.sent + 1 ∧ bad = false ∧ nextHop node output = none ∧ physOf s (packetDest x.pkt).2 = some p) ∧
    (∃ (s : State) (node input ch i : Nat) (x : NetPkt), node < 64 ∧ headAt s node input ch = some (i, x) ∧
     let g := galAt s (node % 32); x.boosted = false ∧ x.sent = 0 ∧ g.ageThresh ≤ x.age) ∧
    (∃ (s : State) (node input ch i : Nat) (x : NetPkt), node < 64 ∧ headAt s node input ch = some (i, x) ∧
     let g := galAt s (node % 32); (x.boosted = true ∨ 0 < x.sent ∨ x.age < g.ageThresh)) ∧
    (∃ (s : State) (node input ch i : Nat) (x : NetPkt), node < 64 ∧ headAt s node input ch = some (i, x) ∧
     let g := galAt s (node % 32); let stuck (y : Gal) : List Nat := if node < 32 then y.stuckIn else y.xbarStuck;
     4 * input + ch ∉ stuck g ∧ x.moved + 256 * g.wdogUnits ≤ fNow s (node % 32)) ∧
    (∃ (s : State) (node input ch i : Nat) (x : NetPkt), node < 64 ∧ headAt s node input ch = some (i, x) ∧
     let g := galAt s (node % 32); let stuck (y : Gal) : List Nat := if node < 32 then y.stuckIn else y.xbarStuck;
     (4 * input + ch ∈ stuck g ∨ fNow s (node % 32) < x.moved + 256 * g.wdogUnits)) ∧
    (∃ (s : State) (core side ch p i : Nat) (x : InjPkt), injCore s core = some p ∧ side < 2 ∧
     findIdx (fun (y : InjPkt) => y.ch == ch) (injOf (coreAt s p) side) = some (i, x) ∧ let k := coreAt s p;
     let stalls := side * 4 + ch ∉ k.stuck ∧ ¬(side = 1 ∧ (bunAt s p).state = 3) ∧ x.moved + 256 * (galAt s (p /
       68)).wdogUnits ≤ fNow s (p / 68); stalls) ∧
    (∃ (s : State) (core side ch p i : Nat) (x : InjPkt), injCore s core = some p ∧ side < 2 ∧
     findIdx (fun (y : InjPkt) => y.ch == ch) (injOf (coreAt s p) side) = some (i, x) ∧ let k := coreAt s p;
     let stalls := side * 4 + ch ∉ k.stuck ∧ ¬(side = 1 ∧ (bunAt s p).state = 3) ∧ x.moved + 256 * (galAt s (p /
       68)).wdogUnits ≤ fNow s (p / 68); ¬stalls) :=
  ⟨⟨wOn, 0, 0, by decide +kernel⟩,
   ⟨{ wOn with net := { wOn.net with pkts := [{ pkt := (wPkt .wr 0 0), node := 32, input := 68, ch := 0, sent := 0, age := 0, boosted := false, moved := 0 }] } },
    32, 0, 0,
    { pkt := (wPkt .wr 0 0), node := 32, input := 68, ch := 0, sent := 0, age := 0, boosted := false, moved := 0 },
    by decide +kernel⟩,
   ⟨{ wOn with net := { wOn.net with pkts := [{ pkt := (wPkt .wr 0 0), node := 32, input := 68, ch := 0, sent := 8, age := 0, boosted := false, moved := 0, bad := true }] } },
    32, 0, { parity := false, words := [] }, 0,
    { pkt := (wPkt .wr 0 0), node := 32, input := 68, ch := 0, sent := 8, age := 0, boosted := false, moved := 0, bad := true },
    by decide +kernel, by decide +kernel⟩,
   ⟨{ wOn with net := { wOn.net with pkts := [{ pkt := (wPkt .sig 0x20007FF00000 1), node := 0, input := 0, ch := 2, sent := 0, age := 0, boosted := false, moved := 0 }] } },
    0, 1, { parity := false, words := [] }, 0,
    { pkt := (wPkt .sig 0x20007FF00000 1), node := 0, input := 0, ch := 2, sent := 0, age := 0, boosted := false, moved := 0 },
    by decide +kernel, 1, 2, by decide +kernel⟩,
   ⟨{ wOn with net := { wOn.net with pkts := [{ pkt := (wPkt .sig 0x2000000003C0 1), node := 32, input := 68, ch := 2, sent := 0, age := 0, boosted := false, moved := 0 }] } },
    32, 0, { parity := false, words := [] }, 0,
    { pkt := (wPkt .sig 0x2000000003C0 1), node := 32, input := 68, ch := 2, sent := 0, age := 0, boosted := false, moved := 0 },
    by decide +kernel, 0, by decide +kernel⟩,
   ⟨{ wOn with net := { wOn.net with pkts := [{ pkt := (wPkt .sig 0x2000000003C0 1), node := 63, input := 68, ch := 2, sent := 0, age := 64, boosted := false, moved := 0 }] } },
    63, 68, 2, 0,
    { pkt := (wPkt .sig 0x2000000003C0 1), node := 63, input := 68, ch := 2, sent := 0, age := 64, boosted := false, moved := 0 },
    by decide +kernel, by decide +kernel, by decide +kernel⟩,
   ⟨{ wOn with net := { wOn.net with pkts := [{ pkt := (wPkt .sig 0x2000000003C0 1), node := 63, input := 68, ch := 2, sent := 0, age := 63, boosted := false, moved := 0 }] } },
    63, 68, 2, 0,
    { pkt := (wPkt .sig 0x2000000003C0 1), node := 63, input := 68, ch := 2, sent := 0, age := 63, boosted := false, moved := 0 },
    by decide +kernel, by decide +kernel, by decide +kernel⟩,
   ⟨updCav (updGal ({ wOn with net := { wOn.net with pkts := [{ pkt := (wPkt .sig 0x2000000003C0 1), node := 63, input := 68, ch := 2, sent := 0, age := 0, boosted := false, moved := 0 }] } }) 31 (fun x => { x with wdogUnits := 1 })) 3 (fun x => { x with running := true, fifths := 2560 }),
    63, 68, 2, 0,
    { pkt := (wPkt .sig 0x2000000003C0 1), node := 63, input := 68, ch := 2, sent := 0, age := 0, boosted := false, moved := 0 },
    by decide +kernel, by decide +kernel, by decide +kernel⟩,
   ⟨updGal ({ wOn with net := { wOn.net with pkts := [{ pkt := (wPkt .sig 0x2000000003C0 1), node := 63, input := 68, ch := 2, sent := 0, age := 0, boosted := false, moved := 0 }] } }) 31 (fun x => { x with xbarStuck := [274] }),
    63, 68, 2, 0,
    { pkt := (wPkt .sig 0x2000000003C0 1), node := 63, input := 68, ch := 2, sent := 0, age := 0, boosted := false, moved := 0 },
    by decide +kernel, by decide +kernel, by decide +kernel⟩,
   ⟨{ (wCore (fun k => { k with mv := { k.mv with inj := [{ pkt := (wPkt .sig 0x2000000003C0 1), ch := 2, src := 3, sent := 0, age := 0, moved := 0, ready := 0 }] } })) with gals := [(0, { Gal.init with wdogUnits := 1 })] },
    0, 0, 2, 0, 0, { pkt := (wPkt .sig 0x2000000003C0 1), ch := 2, src := 3, sent := 0, age := 0, moved := 0, ready := 0 },
    by decide +kernel, by decide +kernel, by decide +kernel, by decide +kernel⟩,
   ⟨{ (wCore (fun k => { k with mv := { k.mv with inj := [{ pkt := (wPkt .sig 0x2000000003C0 1), ch := 2, src := 3, sent := 0, age := 0, moved := 0, ready := 0 }] } })) with gals := [(0, { Gal.init with wdogUnits := 1000 })] },
    0, 0, 2, 0, 0, { pkt := (wPkt .sig 0x2000000003C0 1), ch := 2, src := 3, sent := 0, age := 0, moved := 0, ready := 0 },
    by decide +kernel, by decide +kernel, by decide +kernel, by decide +kernel⟩⟩

/-- States and operands that meet the hypotheses of FlagAndCounterCommands, clause by clause. -/
theorem witness_FlagAndCounterCommands :
    (∃ (s : State) (l q p c : Nat) (y : SyncCmd), Decodes s l q p (0x600 + y.sop) (.sync y) ∧ Quiet (coreAt s p) ∧
     c = decodedAt s l q p (0x600 + y.sop) ∧ let k := coreAt s p; y.sop = 1 ∧ y.flag ∉ k.sync.flags) ∧
    (∃ (s : State) (l q p c : Nat) (y : SyncCmd), Decodes s l q p (0x600 + y.sop) (.sync y) ∧ Quiet (coreAt s p) ∧
     c = decodedAt s l q p (0x600 + y.sop) ∧ let k := coreAt s p; y.sop = 1 ∧ y.flag ∈ k.sync.flags) ∧
    (∃ (s : State) (l q p c : Nat) (y : SyncCmd), Decodes s l q p (0x600 + y.sop) (.sync y) ∧ Quiet (coreAt s p) ∧
     c = decodedAt s l q p (0x600 + y.sop) ∧ y.sop = 2) ∧
    (∃ (s : State) (l q p c : Nat) (y : SyncCmd), Decodes s l q p (0x600 + y.sop) (.sync y) ∧ Quiet (coreAt s p) ∧
     c = decodedAt s l q p (0x600 + y.sop) ∧ let k := coreAt s p; y.sop = 3 ∧ y.flag ∈ k.sync.flags) ∧
    (∃ (s : State) (l q p c : Nat) (y : SyncCmd), Decodes s l q p (0x600 + y.sop) (.sync y) ∧ Quiet (coreAt s p) ∧
     c = decodedAt s l q p (0x600 + y.sop) ∧ let k := coreAt s p; y.sop = 3 ∧ y.flag ∉ k.sync.flags) ∧
    (∃ (s : State) (l q p c : Nat) (y : SyncCmd), Decodes s l q p (0x600 + y.sop) (.sync y) ∧ Quiet (coreAt s p) ∧
     c = decodedAt s l q p (0x600 + y.sop) ∧ let k := coreAt s p; ∃ (x : Counter) (new : Int), y.sop = 4 ∧
     x = cntAt k y.counter ∧ new = (x.value.toNat : Int) + y.delta ∧
     let mine := isProducer s l x.kind x.die x.core (ownSender s l); mine = false) ∧
    (∃ (s : State) (l q p c : Nat) (y : SyncCmd), Decodes s l q p (0x600 + y.sop) (.sync y) ∧ Quiet (coreAt s p) ∧
     c = decodedAt s l q p (0x600 + y.sop) ∧ let k := coreAt s p; ∃ (x : Counter) (new : Int), y.sop = 4 ∧
     x = cntAt k y.counter ∧ new = (x.value.toNat : Int) + y.delta ∧
     let mine := isProducer s l x.kind x.die x.core (ownSender s l); mine = true ∧ x.mono = true ∧ y.delta < 0) ∧
    (∃ (s : State) (l q p c : Nat) (y : SyncCmd), Decodes s l q p (0x600 + y.sop) (.sync y) ∧ Quiet (coreAt s p) ∧
     c = decodedAt s l q p (0x600 + y.sop) ∧ let k := coreAt s p; ∃ (x : Counter) (new : Int), y.sop = 4 ∧
     x = cntAt k y.counter ∧ new = (x.value.toNat : Int) + y.delta ∧
     let mine := isProducer s l x.kind x.die x.core (ownSender s l); mine = true ∧ (x.mono = true → 0 ≤ y.delta) ∧
     passesBound k x new = true) ∧
    (∃ (s : State) (l q p c : Nat) (y : SyncCmd), Decodes s l q p (0x600 + y.sop) (.sync y) ∧ Quiet (coreAt s p) ∧
     c = decodedAt s l q p (0x600 + y.sop) ∧ let k := coreAt s p; ∃ (x : Counter) (new : Int), y.sop = 4 ∧
     x = cntAt k y.counter ∧ new = (x.value.toNat : Int) + y.delta ∧
     let mine := isProducer s l x.kind x.die x.core (ownSender s l); mine = true ∧ (x.mono = true → 0 ≤ y.delta) ∧
     passesBound k x new = false) ∧
    (∃ (s : State) (l q p c : Nat) (y : SyncCmd), Decodes s l q p (0x600 + y.sop) (.sync y) ∧ Quiet (coreAt s p) ∧
     c = decodedAt s l q p (0x600 + y.sop) ∧ let k := coreAt s p; y.sop = 5 ∧ cntHolds k y = true) ∧
    (∃ (s : State) (l q p c : Nat) (y : SyncCmd), Decodes s l q p (0x600 + y.sop) (.sync y) ∧ Quiet (coreAt s p) ∧
     c = decodedAt s l q p (0x600 + y.sop) ∧ let k := coreAt s p; y.sop = 5 ∧ cntHolds k y = false) :=
  ⟨⟨wCore (fun k => setCtx (wQueue 3 0x1FF0000000FF10000000000000006 (k)) 0 { Ctx.init with state := 1, xlat := [(255, 0x80FF)] }),
    0, 3, 0, _, syncBuild (parseHeader 0x1FF0000000FF10000000000000006) 0x1FF0000000FF1 255 255,
    decodes_of (by decide +kernel), ⟨by decide +kernel, by decide +kernel, noSleep _ (by decide +kernel)⟩, rfl,
    by decide +kernel⟩,
   ⟨wCore (fun k => setCtx (wQueue 3 0xFF10000000000000006 ({ k with sync := { k.sync with flags := [255] } })) 0 { Ctx.init with state := 1, xlat := [(255, 0x80FF)] }),
    0, 3, 0, _, syncBuild (parseHeader 0xFF10000000000000006) 0xFF1 255 0, decodes_of (by decide +kernel),
    ⟨by decide +kernel, by decide +kernel, noSleep _ (by decide +kernel)⟩, rfl, by decide +kernel⟩,
   ⟨wCore (fun k => setCtx (wQueue 3 0xFF20000000000000006 ({ k with sync := { k.sync with flags := [255] } })) 0 { Ctx.init with state := 1, xlat := [(255, 0x80FF)] }),
    0, 3, 0, _, syncBuild (parseHeader 0xFF20000000000000006) 0xFF2 255 0, decodes_of (by decide +kernel),
    ⟨by decide +kernel, by decide +kernel, noSleep _ (by decide +kernel)⟩, rfl, by decide +kernel⟩,
   ⟨wCore (fun k => setCtx (wQueue 3 0x11FF30000000000000006 ({ k with sync := { k.sync with flags := [255] } })) 0 { Ctx.init with state := 1, xlat := [(255, 0x80FF)] }),
    0, 3, 0, _, syncBuild (parseHeader 0x11FF30000000000000006) 0x11FF3 255 0, decodes_of (by decide +kernel),
    ⟨by decide +kernel, by decide +kernel, noSleep _ (by decide +kernel)⟩, rfl, by decide +kernel⟩,
   ⟨wCore (fun k => setCtx (wQueue 3 0x10FF30000000000000006 (k)) 0 { Ctx.init with state := 1, xlat := [(255, 0x80FF)] }),
    0, 3, 0, _, syncBuild (parseHeader 0x10FF30000000000000006) 0x10FF3 255 0, decodes_of (by decide +kernel),
    ⟨by decide +kernel, by decide +kernel, noSleep _ (by decide +kernel)⟩, rfl, by decide +kernel⟩,
   ⟨wCore (fun k => setCtx (wQueue 3 0x503F40000000000000006 (setCnt k 63 { Counter.init with enable := true, kind := 3, bound := 5, value := 0 })) 0 { Ctx.init with state := 1, xlat := [(255, 0x80FF)] }),
    0, 3, 0, _, syncBuild (parseHeader 0x503F40000000000000006) 0x503F4 0 0, decodes_of (by decide +kernel),
    ⟨by decide +kernel, by decide +kernel, noSleep _ (by decide +kernel)⟩, rfl, _, _, by decide +kernel, rfl, rfl,
    by decide +kernel⟩,
   ⟨wCore (fun k => setCtx (wQueue 3 0xFFFFFFFF03F40000000000000006 (setCnt k 63 { Counter.init with enable := true, mono := true, bound := 5, value := 0 })) 0 { Ctx.init with state := 1, xlat := [(255, 0x80FF)] }),
    0, 3, 0, _, syncBuild (parseHeader 0xFFFFFFFF03F40000000000000006) 0xFFFFFFFF03F4 0 0, decodes_of (by decide +kernel),
    ⟨by decide +kernel, by decide +kernel, noSleep _ (by decide +kernel)⟩, rfl, _, _, by decide +kernel, rfl, rfl,
    by decide +kernel⟩,
   ⟨wCore (fun k => setCtx (wQueue 3 0x603F40000000000000006 (setCnt k 63 { Counter.init with enable := true, bound := 5, value := 0 })) 0 { Ctx.init with state := 1, xlat := [(255, 0x80FF)] }),
    0, 3, 0, _, syncBuild (parseHeader 0x603F40000000000000006) 0x603F4 0 0, decodes_of (by decide +kernel),
    ⟨by decide +kernel, by decide +kernel, noSleep _ (by decide +kernel)⟩, rfl, _, _, by decide +kernel, rfl, rfl,
    by decide +kernel⟩,
   ⟨wCore (fun k => setCtx (wQueue 3 0x503F40000000000000006 (setCnt k 63 { Counter.init with enable := true, bound := 5, value := 0 })) 0 { Ctx.init with state := 1, xlat := [(255, 0x80FF)] }),
    0, 3, 0, _, syncBuild (parseHeader 0x503F40000000000000006) 0x503F4 0 0, decodes_of (by decide +kernel),
    ⟨by decide +kernel, by decide +kernel, noSleep _ (by decide +kernel)⟩, rfl, _, _, by decide +kernel, rfl, rfl,
    by decide +kernel⟩,
   ⟨wCore (fun k => setCtx (wQueue 3 0x103F50000000000000006 (setCnt k 63 { Counter.init with enable := true, bound := 5, value := 0 })) 0 { Ctx.init with state := 1, xlat := [(255, 0x80FF)] }),
    0, 3, 0, _, syncBuild (parseHeader 0x103F50000000000000006) 0x103F5 0 0, decodes_of (by decide +kernel),
    ⟨by decide +kernel, by decide +kernel, noSleep _ (by decide +kernel)⟩, rfl, by decide +kernel⟩,
   ⟨wCore (fun k => setCtx (wQueue 3 0x600000001FFF50000000000000006 (setCnt k 63 { Counter.init with enable := true, bound := 5, value := 0 })) 0 { Ctx.init with state := 1, xlat := [(255, 0x80FF)] }),
    0, 3, 0, _, syncBuild (parseHeader 0x600000001FFF50000000000000006) 0x600000001FFF5 0 0, decodes_of (by decide +kernel),
    ⟨by decide +kernel, by decide +kernel, noSleep _ (by decide +kernel)⟩, rfl, by decide +kernel⟩⟩

/-- States and operands that meet the hypotheses of SlotAndFenceCommands, clause by clause. -/
theorem witness_SlotAndFenceCommands :
    (∃ (s : State) (l q p c cx : Nat) (y : SyncCmd), Decodes s l q p (0x600 + y.sop) (.sync y) ∧ Quiet (coreAt s p) ∧
     c = decodedAt s l q p (0x600 + y.sop) ∧ cx = (queueAt (coreAt s p) q).ctx ∧ Current (coreAt s p) c ∧
     let k := coreAt s p; let z := queueAt k q; let x := ctxAt k cx; y.sop = 6 ∧
     (∀ r, z.resumed = some r → r.arrived = false) ∧ (∀ a, a ∈ x.parts → a.slot ≠ y.slot)) ∧
    (∃ (s : State) (l q p c cx : Nat) (y : SyncCmd), Decodes s l q p (0x600 + y.sop) (.sync y) ∧ Quiet (coreAt s p) ∧
     c = decodedAt s l q p (0x600 + y.sop) ∧ cx = (queueAt (coreAt s p) q).ctx ∧ Current (coreAt s p) c ∧
     let k := coreAt s p; let z := queueAt k q; let x := ctxAt k cx; y.sop = 6 ∧
     (∀ r, z.resumed = some r → r.arrived = false) ∧ (∃ a, a ∈ x.parts ∧ a.slot = y.slot)) ∧
    (∃ (s : State) (l q p c cx : Nat) (y : SyncCmd), Decodes s l q p (0x600 + y.sop) (.sync y) ∧ Quiet (coreAt s p) ∧
     c = decodedAt s l q p (0x600 + y.sop) ∧ cx = (queueAt (coreAt s p) q).ctx ∧ Current (coreAt s p) c ∧
     let k := coreAt s p; let z := queueAt k q; let x := ctxAt k cx;
     let here := ∃ a, a ∈ x.parts ∧ a.slot = y.slot ∧ a.out = false; ∃ (i : Instr),
     ((i = .arrive l q ∧ y.sop = 6 ∧ ∃ r, z.resumed = some r ∧ r.arrived = true) ∨ (i = .waitSlot l q ∧ y.sop = 7)) ∧
     here) ∧
    (∃ (s : State) (l q p c cx : Nat) (y : SyncCmd), Decodes s l q p (0x600 + y.sop) (.sync y) ∧ Quiet (coreAt s p) ∧
     c = decodedAt s l q p (0x600 + y.sop) ∧ cx = (queueAt (coreAt s p) q).ctx ∧ Current (coreAt s p) c ∧
     let k := coreAt s p; let z := queueAt k q; let x := ctxAt k cx;
     let here := ∃ a, a ∈ x.parts ∧ a.slot = y.slot ∧ a.out = false; ∃ (i : Instr),
     ((i = .arrive l q ∧ y.sop = 6 ∧ ∃ r, z.resumed = some r ∧ r.arrived = true) ∨ (i = .waitSlot l q ∧ y.sop = 7)) ∧
     ¬here) ∧
    (∃ (s : State) (l q p c cx : Nat) (y : SyncCmd), Decodes s l q p (0x600 + y.sop) (.sync y) ∧ Quiet (coreAt s p) ∧
     c = decodedAt s l q p (0x600 + y.sop) ∧ cx = (queueAt (coreAt s p) q).ctx ∧ Current (coreAt s p) c ∧
     let k := coreAt s p; y.sop = 15 ∧ Current k (c + 1) ∧ fenceIds k q cx c y.scope = []) ∧
    (∃ (s : State) (l q p c cx : Nat) (y : SyncCmd), Decodes s l q p (0x600 + y.sop) (.sync y) ∧ Quiet (coreAt s p) ∧
     c = decodedAt s l q p (0x600 + y.sop) ∧ cx = (queueAt (coreAt s p) q).ctx ∧ Current (coreAt s p) c ∧
     let k := coreAt s p; y.sop = 15 ∧ Current k (c + 1) ∧ fenceIds k q cx c y.scope ≠ []) ∧
    (∃ (s : State) (l q p : Nat), liveCore s l = some p ∧ (coreAt s p).sync.due = [] ∧ let k := coreAt s p;
     let z := queueAt k q; let c := cycleOf s l; ∃ (f : FenceWait), z.fence = some f ∧ Current k (c + 1) ∧
     f.ids.all (fenceMet k c f.scope) = true) ∧
    (∃ (s : State) (l q p : Nat), liveCore s l = some p ∧ (coreAt s p).sync.due = [] ∧ let k := coreAt s p;
     let z := queueAt k q; let c := cycleOf s l; ∃ (f : FenceWait), z.fence = some f ∧ Current k (c + 1) ∧
     f.ids.all (fenceMet k c f.scope) = false) ∧
    (∃ (s : State) (l q p : Nat), liveCore s l = some p ∧ (coreAt s p).sync.due = [] ∧ let k := coreAt s p;
     let z := queueAt k q; let c := cycleOf s l; z.fence = none ∧ Current k (c + 1)) ∧
    (∃ (s : State) (l q p : Nat), liveCore s l = some p ∧ (coreAt s p).sync.due = [] ∧ let k := coreAt s p;
     let z := queueAt k q; z.sleep = none) ∧
    (∃ (s : State) (l q p : Nat), liveCore s l = some p ∧ (coreAt s p).sync.due = [] ∧ let k := coreAt s p;
     let z := queueAt k q; let c := cycleOf s l; ∃ (w : Sleep), z.sleep = some w ∧ c < w.deadline) ∧
    (∃ (s : State) (l q p : Nat), liveCore s l = some p ∧ (coreAt s p).sync.due = [] ∧ let k := coreAt s p;
     let z := queueAt k q; let c := cycleOf s l; ∃ (w : Sleep), z.sleep = some w ∧ w.deadline ≤ c ∧ w.cmd.sop = 6 ∧
     w.arrived = true) ∧
    (∃ (s : State) (l q p : Nat), liveCore s l = some p ∧ (coreAt s p).sync.due = [] ∧ let k := coreAt s p;
     let z := queueAt k q; let c := cycleOf s l; ∃ (w : Sleep), z.sleep = some w ∧ w.deadline ≤ c ∧
     (w.cmd.sop = 6 → w.arrived = false)) :=
  ⟨⟨wMember 127 (wCore (fun k => setCtx (wQueue 3 0xE0000000107F60000000000000006 (k)) 0 { Ctx.init with state := 1, parts := [], arrived := [], outcomes := [] })),
    0, 3, 0, _, _, syncBuild (parseHeader 0xE0000000107F60000000000000006) 0xE0000000107F6 0 0,
    decodes_of (by decide +kernel), ⟨by decide +kernel, by decide +kernel, noSleep _ (by decide +kernel)⟩, rfl, rfl,
    by unfold Current; decide +kernel, by decide +kernel⟩,
   ⟨wMember 127 (wCore (fun k => setCtx (wQueue 3 0xE0000000107F60000000000000006 (k)) 0 { Ctx.init with state := 1, parts := [{ slot := 127, parity := false, verdict := false, deadline := 0, out := false, frozen := false }], arrived := [127], outcomes := [] })),
    0, 3, 0, _, _, syncBuild (parseHeader 0xE0000000107F60000000000000006) 0xE0000000107F6 0 0,
    decodes_of (by decide +kernel), ⟨by decide +kernel, by decide +kernel, noSleep _ (by decide +kernel)⟩, rfl, rfl,
    by unfold Current; decide +kernel, by decide +kernel⟩,
   ⟨wMember 127 (wCore (fun k => setCtx (wQueue 3 0x107F70000000000000006 (k)) 0 { Ctx.init with state := 1, parts := [{ slot := 127, parity := false, verdict := false, deadline := 0, out := false, frozen := false }], arrived := [127], outcomes := [] })),
    0, 3, 0, _, _, syncBuild (parseHeader 0x107F70000000000000006) 0x107F7 0 0, decodes_of (by decide +kernel),
    ⟨by decide +kernel, by decide +kernel, noSleep _ (by decide +kernel)⟩, rfl, rfl, by unfold Current; decide +kernel,
    .waitSlot 0 3, .inr ⟨rfl, by decide +kernel⟩, by decide +kernel⟩,
   ⟨wMember 127 (wCore (fun k => setCtx (wQueue 3 0x107F70000000000000006 (k)) 0 { Ctx.init with state := 1, parts := [], arrived := [127], outcomes := [(127, 2)] })),
    0, 3, 0, _, _, syncBuild (parseHeader 0x107F70000000000000006) 0x107F7 0 0, decodes_of (by decide +kernel),
    ⟨by decide +kernel, by decide +kernel, noSleep _ (by decide +kernel)⟩, rfl, rfl, by unfold Current; decide +kernel,
    .waitSlot 0 3, .inr ⟨rfl, by decide +kernel⟩, by decide +kernel⟩,
   ⟨wMember 127 (wCore (fun k => setCtx (wQueue 3 0xF0000000000000006 (k)) 0 { Ctx.init with state := 1, parts := [], arrived := [], outcomes := [] })),
    0, 3, 0, _, _, syncBuild (parseHeader 0xF0000000000000006) 0xF 0 0, decodes_of (by decide +kernel),
    ⟨by decide +kernel, by decide +kernel, noSleep _ (by decide +kernel)⟩, rfl, rfl, by unfold Current; decide +kernel,
    by decide +kernel, by unfold Current; decide +kernel, by decide +kernel⟩,
   ⟨wMember 127 (wCore (fun k => setCtx (wQueue 3 0xF0000000000000006 ({ k with track := [{ id := 9, q := 3, ctx := 0, slot := 0, endAt := none, doneAt := none, status := none, overran := false }] })) 0 { Ctx.init with state := 1, parts := [], arrived := [], outcomes := [] })),
    0, 3, 0, _, _, syncBuild (parseHeader 0xF0000000000000006) 0xF 0 0, decodes_of (by decide +kernel),
    ⟨by decide +kernel, by decide +kernel, noSleep _ (by decide +kernel)⟩, rfl, rfl, by unfold Current; decide +kernel,
    by decide +kernel, by unfold Current; decide +kernel, by decide +kernel⟩,
   ⟨wCore (fun k => setQueue (setRing k 3 (wRing 3 0 4)) 3 { Queue.init with state := 1, fence := some wFence, bufs := [{ count := 0, row := Row.zero, bad := false, avail := 0 }] }),
    0, 3, 0, by decide +kernel, by decide +kernel, wFence, by decide +kernel, by unfold Current; decide +kernel,
    by decide +kernel⟩,
   ⟨wCore (fun k => setQueue { k with track := [{ id := 9, q := 3, ctx := 0, slot := 0, endAt := none, doneAt := none, status := none, overran := false }] } 3 { Queue.init with state := 1, fence := some wFence }),
    0, 3, 0, by decide +kernel, by decide +kernel, wFence, by decide +kernel, by unfold Current; decide +kernel,
    by decide +kernel⟩,
   ⟨wOn, 0, 3, 0, by decide +kernel, by decide +kernel, by decide +kernel, by unfold Current; decide +kernel⟩,
   ⟨wOn, 0, 3, 0, by decide +kernel, by decide +kernel, by decide +kernel⟩,
   ⟨wCore (fun k => setQueue k 3 { Queue.init with state := 1, sleep := some (wSleep 10001) }), 0, 3, 0, by decide +kernel,
    by decide +kernel, wSleep 10001, by decide +kernel⟩,
   ⟨wCore (fun k => setQueue k 3 { Queue.init with state := 1, sleep := some { (wSleep 10000) with cmd := syncBuild (parseHeader 6) 0x7F6 0 0, arrived := true } }),
    0, 3, 0, by decide +kernel, by decide +kernel,
    { (wSleep 10000) with cmd := syncBuild (parseHeader 6) 0x7F6 0 0, arrived := true }, by decide +kernel⟩,
   ⟨wCore (fun k => setQueue (setRing k 3 (wRing 3 0 4)) 3 { Queue.init with state := 1, sleep := some (wSleep 10000), bufs := [{ count := 0, row := Row.zero, bad := false, avail := 0 }] }),
    0, 3, 0, by decide +kernel, by decide +kernel, wSleep 10000, by decide +kernel⟩⟩

/-- States and operands that meet the hypotheses of CounterPackets, clause by clause. -/
theorem witness_CounterPackets :
    (∃ (s : State) (port : Port) (pkt : Packet) (l p : Nat) (i : Instr), Arrives s port pkt l p ∧ pkt.ptype = .sig ∧
     pkt.classT = false ∧ addrSpace pkt.addr.toNat = 2 ∧ doorPage pkt.addr.toNat = 1 ∧
     i = (if (counterPort pkt.addr.toNat).any (fun x => x.2) then .cntMax port pkt else .cntAdd port pkt) ∧
     let k := coreAt s p; respFull k = true) ∧
    (∃ (s : State) (port : Port) (pkt : Packet) (l p : Nat) (i : Instr), Arrives s port pkt l p ∧ pkt.ptype = .sig ∧
     pkt.classT = false ∧ addrSpace pkt.addr.toNat = 2 ∧ doorPage pkt.addr.toNat = 1 ∧
     i = (if (counterPort pkt.addr.toNat).any (fun x => x.2) then .cntMax port pkt else .cntAdd port pkt) ∧
     let k := coreAt s p; respFull k = false ∧ (offsetHigh pkt.addr.toNat = true ∨ counterPort pkt.addr.toNat = none)) ∧
    (∃ (s : State) (port : Port) (pkt : Packet) (l p : Nat) (i : Instr), Arrives s port pkt l p ∧ pkt.ptype = .sig ∧
     pkt.classT = false ∧ addrSpace pkt.addr.toNat = 2 ∧ doorPage pkt.addr.toNat = 1 ∧
     i = (if (counterPort pkt.addr.toNat).any (fun x => x.2) then .cntMax port pkt else .cntAdd port pkt) ∧
     let k := coreAt s p; ∃ (n : _) (isMax : Bool) (x : Counter) (v : Int), respFull k = false ∧ Quiet k ∧
     offsetHigh pkt.addr.toNat = false ∧ counterPort pkt.addr.toNat = some (n, isMax) ∧ x = cntAt k n ∧
     v = (if isMax then ((fieldN pkt.word.toNat 0 60 : Nat) : Int) else untwos 60 pkt.word.toNat) ∧ x.enable = false) ∧
    (∃ (s : State) (port : Port) (pkt : Packet) (l p : Nat) (i : Instr), Arrives s port pkt l p ∧ pkt.ptype = .sig ∧
     pkt.classT = false ∧ addrSpace pkt.addr.toNat = 2 ∧ doorPage pkt.addr.toNat = 1 ∧
     i = (if (counterPort pkt.addr.toNat).any (fun x => x.2) then .cntMax port pkt else .cntAdd port pkt) ∧
     let k := coreAt s p; ∃ (n : _) (isMax : Bool) (x : Counter) (v : Int), respFull k = false ∧ Quiet k ∧
     offsetHigh pkt.addr.toNat = false ∧ counterPort pkt.addr.toNat = some (n, isMax) ∧ x = cntAt k n ∧
     v = (if isMax then ((fieldN pkt.word.toNat 0 60 : Nat) : Int) else untwos 60 pkt.word.toNat) ∧
     let mine := isProducer s l x.kind x.die x.core (senderOf pkt); x.enable = true ∧ mine = false) ∧
    (∃ (s : State) (port : Port) (pkt : Packet) (l p : Nat) (i : Instr), Arrives s port pkt l p ∧ pkt.ptype = .sig ∧
     pkt.classT = false ∧ addrSpace pkt.addr.toNat = 2 ∧ doorPage pkt.addr.toNat = 1 ∧
     i = (if (counterPort pkt.addr.toNat).any (fun x => x.2) then .cntMax port pkt else .cntAdd port pkt) ∧
     let k := coreAt s p; ∃ (n : _) (isMax : Bool) (x : Counter) (v : Int), respFull k = false ∧ Quiet k ∧
     offsetHigh pkt.addr.toNat = false ∧ counterPort pkt.addr.toNat = some (n, isMax) ∧ x = cntAt k n ∧
     v = (if isMax then ((fieldN pkt.word.toNat 0 60 : Nat) : Int) else untwos 60 pkt.word.toNat) ∧
     let mine := isProducer s l x.kind x.die x.core (senderOf pkt); x.enable = true ∧ mine = true ∧ x.abandoned = true) ∧
    (∃ (s : State) (port : Port) (pkt : Packet) (l p : Nat) (i : Instr), Arrives s port pkt l p ∧ pkt.ptype = .sig ∧
     pkt.classT = false ∧ addrSpace pkt.addr.toNat = 2 ∧ doorPage pkt.addr.toNat = 1 ∧
     i = (if (counterPort pkt.addr.toNat).any (fun x => x.2) then .cntMax port pkt else .cntAdd port pkt) ∧
     let k := coreAt s p; ∃ (n : _) (isMax : Bool) (x : Counter) (v : Int), respFull k = false ∧ Quiet k ∧
     offsetHigh pkt.addr.toNat = false ∧ counterPort pkt.addr.toNat = some (n, isMax) ∧ x = cntAt k n ∧
     v = (if isMax then ((fieldN pkt.word.toNat 0 60 : Nat) : Int) else untwos 60 pkt.word.toNat) ∧
     let mine := isProducer s l x.kind x.die x.core (senderOf pkt); x.enable = true ∧ mine = true ∧ x.abandoned = false ∧
     breaksMode x isMax v = true) ∧
    (∃ (s : State) (port : Port) (pkt : Packet) (l p : Nat) (i : Instr), Arrives s port pkt l p ∧ pkt.ptype = .sig ∧
     pkt.classT = false ∧ addrSpace pkt.addr.toNat = 2 ∧ doorPage pkt.addr.toNat = 1 ∧
     i = (if (counterPort pkt.addr.toNat).any (fun x => x.2) then .cntMax port pkt else .cntAdd port pkt) ∧
     let k := coreAt s p; ∃ (n : _) (isMax : Bool) (x : Counter) (v : Int), respFull k = false ∧ Quiet k ∧
     offsetHigh pkt.addr.toNat = false ∧ counterPort pkt.addr.toNat = some (n, isMax) ∧ x = cntAt k n ∧
     v = (if isMax then ((fieldN pkt.word.toNat 0 60 : Nat) : Int) else untwos 60 pkt.word.toNat) ∧
     let mine := isProducer s l x.kind x.die x.core (senderOf pkt); let new := updateValue x isMax v;
     let stays := isMax = true ∧ new = (x.value.toNat : Int); x.enable = true ∧ mine = true ∧ x.abandoned = false ∧
     breaksMode x isMax v = false ∧ stays) ∧
    (∃ (s : State) (port : Port) (pkt : Packet) (l p : Nat) (i : Instr), Arrives s port pkt l p ∧ pkt.ptype = .sig ∧
     pkt.classT = false ∧ addrSpace pkt.addr.toNat = 2 ∧ doorPage pkt.addr.toNat = 1 ∧
     i = (if (counterPort pkt.addr.toNat).any (fun x => x.2) then .cntMax port pkt else .cntAdd port pkt) ∧
     let k := coreAt s p; ∃ (n : _) (isMax : Bool) (x : Counter) (v : Int), respFull k = false ∧ Quiet k ∧
     offsetHigh pkt.addr.toNat = false ∧ counterPort pkt.addr.toNat = some (n, isMax) ∧ x = cntAt k n ∧
     v = (if isMax then ((fieldN pkt.word.toNat 0 60 : Nat) : Int) else untwos 60 pkt.word.toNat) ∧
     let mine := isProducer s l x.kind x.die x.core (senderOf pkt); let new := updateValue x isMax v;
     let stays := isMax = true ∧ new = (x.value.toNat : Int); x.enable = true ∧ mine = true ∧ x.abandoned = false ∧
     breaksMode x isMax v = false ∧ ¬stays ∧ passesBound k x new = true) ∧
    (∃ (s : State) (port : Port) (pkt : Packet) (l p : Nat) (i : Instr), Arrives s port pkt l p ∧ pkt.ptype = .sig ∧
     pkt.classT = false ∧ addrSpace pkt.addr.toNat = 2 ∧ doorPage pkt.addr.toNat = 1 ∧
     i = (if (counterPort pkt.addr.toNat).any (fun x => x.2) then .cntMax port pkt else .cntAdd port pkt) ∧
     let k := coreAt s p; ∃ (n : _) (isMax : Bool) (x : Counter) (v : Int), respFull k = false ∧ Quiet k ∧
     offsetHigh pkt.addr.toNat = false ∧ counterPort pkt.addr.toNat = some (n, isMax) ∧ x = cntAt k n ∧
     v = (if isMax then ((fieldN pkt.word.toNat 0 60 : Nat) : Int) else untwos 60 pkt.word.toNat) ∧
     let mine := isProducer s l x.kind x.die x.core (senderOf pkt); let new := updateValue x isMax v;
     let stays := isMax = true ∧ new = (x.value.toNat : Int); x.enable = true ∧ mine = true ∧ x.abandoned = false ∧
     breaksMode x isMax v = false ∧ ¬stays ∧ passesBound k x new = false) :=
  ⟨⟨wCore (fun k => { k with mv := { k.mv with inj := List.replicate 32 { pkt := wPkt .ack 0 0, ch := 1, src := 5, sent := 0, age := 0, moved := 0, ready := 0 } } }),
    .vein, wPkt .sig 0x200000001000 1, 0, 0, _,
    ⟨by unfold NextIn; decide +kernel, by decide +kernel, by decide +kernel, by decide +kernel, .inl rfl⟩,
    by decide +kernel, by decide +kernel, by decide +kernel, by decide +kernel, rfl, by decide +kernel⟩,
   ⟨wOn, .vein, wPkt .sig 0x200000001004 1, 0, 0, _,
    ⟨by unfold NextIn; decide +kernel, by decide +kernel, by decide +kernel, by decide +kernel, .inl rfl⟩,
    by decide +kernel, by decide +kernel, by decide +kernel, by decide +kernel, rfl, by decide +kernel⟩,
   ⟨wCore (fun k => setCnt k 63 Counter.init), .vein, wPkt .sig 0x2000000013F0 0x3, 0, 0, _,
    ⟨by unfold NextIn; decide +kernel, by decide +kernel, by decide +kernel, by decide +kernel, .inl rfl⟩,
    by decide +kernel, by decide +kernel, by decide +kernel, by decide +kernel, rfl, 63, false, _, _, by decide +kernel,
    ⟨by decide +kernel, by decide +kernel, noSleep _ (by decide +kernel)⟩, by decide +kernel, by decide +kernel, rfl, rfl,
    by decide +kernel⟩,
   ⟨wCore (fun k => setCnt k 63 { Counter.init with enable := true, bound := 5, value := 2 }), .vein,
    { wPkt .sig 0x2000000013F0 0x3 with srcCore := 1 }, 0, 0, _,
    ⟨by unfold NextIn; decide +kernel, by decide +kernel, by decide +kernel, by decide +kernel, .inl rfl⟩,
    by decide +kernel, by decide +kernel, by decide +kernel, by decide +kernel, rfl, 63, false, _, _, by decide +kernel,
    ⟨by decide +kernel, by decide +kernel, noSleep _ (by decide +kernel)⟩, by decide +kernel, by decide +kernel, rfl, rfl,
    by decide +kernel⟩,
   ⟨wCore (fun k => setCnt k 63 { Counter.init with enable := true, bound := 5, value := 2, abandoned := true }), .vein,
    wPkt .sig 0x2000000013F0 0x3, 0, 0, _,
    ⟨by unfold NextIn; decide +kernel, by decide +kernel, by decide +kernel, by decide +kernel, .inl rfl⟩,
    by decide +kernel, by decide +kernel, by decide +kernel, by decide +kernel, rfl, 63, false, _, _, by decide +kernel,
    ⟨by decide +kernel, by decide +kernel, noSleep _ (by decide +kernel)⟩, by decide +kernel, by decide +kernel, rfl, rfl,
    by decide +kernel⟩,
   ⟨wCore (fun k => setCnt k 63 { Counter.init with enable := true, bound := 5, value := 2, mono := true }), .vein,
    wPkt .sig 0x2000000013F0 0xFFFFFFFFFFFFFFF, 0, 0, _,
    ⟨by unfold NextIn; decide +kernel, by decide +kernel, by decide +kernel, by decide +kernel, .inl rfl⟩,
    by decide +kernel, by decide +kernel, by decide +kernel, by decide +kernel, rfl, 63, false, _, _, by decide +kernel,
    ⟨by decide +kernel, by decide +kernel, noSleep _ (by decide +kernel)⟩, by decide +kernel, by decide +kernel, rfl, rfl,
    by decide +kernel⟩,
   ⟨wCore (fun k => setCnt k 63 { Counter.init with enable := true, bound := 5, value := 2, mono := true }), .vein,
    wPkt .sig 0x2000000013F8 0x1, 0, 0, _,
    ⟨by unfold NextIn; decide +kernel, by decide +kernel, by decide +kernel, by decide +kernel, .inl rfl⟩,
    by decide +kernel, by decide +kernel, by decide +kernel, by decide +kernel, rfl, 63, true, _, _, by decide +kernel,
    ⟨by decide +kernel, by decide +kernel, noSleep _ (by decide +kernel)⟩, by decide +kernel, by decide +kernel, rfl, rfl,
    by decide +kernel⟩,
   ⟨wCore (fun k => setCnt k 63 { Counter.init with enable := true, bound := 5, value := 2 }), .vein,
    wPkt .sig 0x2000000013F0 0x4, 0, 0, _,
    ⟨by unfold NextIn; decide +kernel, by decide +kernel, by decide +kernel, by decide +kernel, .inl rfl⟩,
    by decide +kernel, by decide +kernel, by decide +kernel, by decide +kernel, rfl, 63, false, _, _, by decide +kernel,
    ⟨by decide +kernel, by decide +kernel, noSleep _ (by decide +kernel)⟩, by decide +kernel, by decide +kernel, rfl, rfl,
    by decide +kernel⟩,
   ⟨wCore (fun k => setCnt k 63 { Counter.init with enable := true, bound := 5, value := 2, mono := true, partnerEn := true, partner := 62 }),
    .vein, wPkt .sig 0x2000000013F8 0x5, 0, 0, _,
    ⟨by unfold NextIn; decide +kernel, by decide +kernel, by decide +kernel, by decide +kernel, .inl rfl⟩,
    by decide +kernel, by decide +kernel, by decide +kernel, by decide +kernel, rfl, 63, true, _, _, by decide +kernel,
    ⟨by decide +kernel, by decide +kernel, noSleep _ (by decide +kernel)⟩, by decide +kernel, by decide +kernel, rfl, rfl,
    by decide +kernel⟩⟩

/-- States and operands that meet the hypotheses of SlotOutcomes, clause by clause. -/
theorem witness_SlotOutcomes :
    (∃ (s : State) (n par : Nat), par ≤ 1 ∧ let z := slotAt s n;
     let full := z.enable = true ∧ z.broken = false ∧ allArrived s n par = true; ¬full) ∧
    (∃ (s : State) (n par : Nat), par ≤ 1 ∧ let z := slotAt s n;
     let full := z.enable = true ∧ z.broken = false ∧ allArrived s n par = true; full ∧ z.offDie = false) ∧
    (∃ (s : State) (n par : Nat), par ≤ 1 ∧ let z := slotAt s n;
     let full := z.enable = true ∧ z.broken = false ∧ allArrived s n par = true; full ∧ z.offDie = true ∧
     z.sentUp.contains (decide (par = 1)) = true) ∧
    (∃ (s : State) (n par : Nat), par ≤ 1 ∧ let z := slotAt s n;
     let full := z.enable = true ∧ z.broken = false ∧ allArrived s n par = true;
     let up := (bunAt s 2176).state = 2 ∨ (bunAt s 2177).state = 2; full ∧ z.offDie = true ∧
     z.sentUp.contains (decide (par = 1)) = false ∧ ¬up) ∧
    (∃ (s : State) (n par : Nat), par ≤ 1 ∧ let z := slotAt s n;
     let full := z.enable = true ∧ z.broken = false ∧ allArrived s n par = true;
     let up := (bunAt s 2176).state = 2 ∨ (bunAt s 2177).state = 2; full ∧ z.offDie = true ∧
     z.sentUp.contains (decide (par = 1)) = false ∧ up) ∧
    (∃ (s : State) (par bundle : Nat), par ≤ 1 ∧ let heard := bundle < 2 ∧ (bunAt s (2176 + bundle)).state = 2; ¬heard) ∧
    (∃ (s : State) (n par bundle : Nat), par ≤ 1 ∧ let z := slotAt s n;
     let heard := bundle < 2 ∧ (bunAt s (2176 + bundle)).state = 2;
     let waits := z.enable = true ∧ z.broken = false ∧ z.offDie = true; heard ∧ ¬waits) ∧
    (∃ (s : State) (n par bundle : Nat) (m : RelMsg), par ≤ 1 ∧ let z := slotAt s n;
     let heard := bundle < 2 ∧ (bunAt s (2176 + bundle)).state = 2;
     let waits := z.enable = true ∧ z.broken = false ∧ z.offDie = true; ∃ (orp : _) (andp : Bool), heard ∧ waits ∧
     m = .release orp andp ∧ z.sentUp.contains z.parity = false) ∧
    (∃ (s : State) (n par bundle : Nat) (m : RelMsg), par ≤ 1 ∧ let z := slotAt s n;
     let heard := bundle < 2 ∧ (bunAt s (2176 + bundle)).state = 2;
     let waits := z.enable = true ∧ z.broken = false ∧ z.offDie = true; ∃ (orp : _) (andp : Bool), heard ∧ waits ∧
     m = .release orp andp ∧ z.sentUp.contains z.parity = true) ∧
    (∃ (s : State) (n par bundle : Nat) (m : RelMsg), par ≤ 1 ∧ let z := slotAt s n;
     let heard := bundle < 2 ∧ (bunAt s (2176 + bundle)).state = 2;
     let waits := z.enable = true ∧ z.broken = false ∧ z.offDie = true; ∃ die, heard ∧ waits ∧ m = .broken die) ∧
    (∃ (s : State) (n : Nat), let z := slotAt s n; let lost := ∃ m, m ∈ members s n ∧ physOf s m.1 = none;
     let unserved := (slotUnserved s n).isSome = true ∧ s.boot.released = true;
     let down := z.offDie = true ∧ (bunAt s 2176).state ≠ 2 ∧ (bunAt s 2177).state ≠ 2;
     let holds (cause : BreakCause) : Prop := (cause = .lostCore ∧ lost) ∨ (cause = .unserved ∧ unserved) ∨ (cause =
       .mgmtDown ∧ down); ∃ (cause : BreakCause), holds cause ∧ z.enable = true ∧ z.broken = false) ∧
    (∃ (s : State) (n : Nat), let z := slotAt s n; let lost := ∃ m, m ∈ members s n ∧ physOf s m.1 = none;
     let unserved := (slotUnserved s n).isSome = true ∧ s.boot.released = true;
     let down := z.offDie = true ∧ (bunAt s 2176).state ≠ 2 ∧ (bunAt s 2177).state ≠ 2;
     let holds (cause : BreakCause) : Prop := (cause = .lostCore ∧ lost) ∨ (cause = .unserved ∧ unserved) ∨ (cause =
       .mgmtDown ∧ down); ∃ (cause : BreakCause), cause ≠ .disabled ∧ ¬(holds cause ∧ z.enable = true ∧ z.broken = false)) :=
  ⟨⟨wSlot 127 (fun x => { x with arr1 := [] }) (wMember 127 wOn), 127, 1, by decide +kernel, by decide +kernel⟩,
   ⟨wSlot 127 (fun x => { x with arr0 := [(0, 5, true)] }) (wMember 127 wOn), 127, 0, by decide +kernel, by decide +kernel⟩,
   ⟨wSlot 127 (fun x => { x with arr0 := [(0, 5, true)], offDie := true, sentUp := [false] }) (wMember 127 wOn), 127, 0,
    by decide +kernel, by decide +kernel⟩,
   ⟨wSlot 127 (fun x => { x with arr0 := [(0, 5, true)], offDie := true }) (wMember 127 { wOn with bundles := [] }), 127, 0,
    by decide +kernel, by decide +kernel⟩,
   ⟨wSlot 127 (fun x => { x with arr0 := [(0, 5, true)], offDie := true }) (wMember 127 wOn), 127, 0, by decide +kernel,
    by decide +kernel⟩,
   ⟨wSlot 127 (fun x => { x with arr0 := [(0, 5, true)] }) (wMember 127 wOn), 0, 2, by decide +kernel, by decide +kernel⟩,
   ⟨wSlot 127 (fun x => { x with arr0 := [(0, 5, true)] }) (wMember 127 wOn), 127, 0, 0, by decide +kernel,
    by decide +kernel⟩,
   ⟨wSlot 127 (fun x => { x with offDie := true }) (wMember 127 wOn), 127, 0, 0, .release 5 true, by decide +kernel, 5,
    true, by decide +kernel⟩,
   ⟨wSlot 127 (fun x => { x with offDie := true, sentUp := [false] }) (wMember 127 wOn), 127, 0, 0, .release 5 true,
    by decide +kernel, 5, true, by decide +kernel⟩,
   ⟨wSlot 127 (fun x => { x with offDie := true }) (wMember 127 wOn), 127, 0, 0, .broken 9, by decide +kernel, 9,
    by decide +kernel⟩,
   ⟨{ (wSlot 127 (fun x => { x with arr0 := [(0, 5, true)] }) (wMember 127 wOn)) with boot := { wOn.boot with lostIds := [0] } },
    127, .lostCore, by decide +kernel⟩,
   ⟨wSlot 127 (fun x => { x with arr0 := [(0, 5, true)] }) (wMember 127 wOn), 127, .mgmtDown, by decide +kernel⟩⟩

/-- States and operands that meet the hypotheses of OutcomeReachesCore, clause by clause. -/
theorem witness_OutcomeReachesCore :
    (∃ (s : State) (l n : Nat), s.news.find? (fun x => x.slot == n && x.core == l) = none) ∧
    (∃ (s : State) (l n : Nat), ∃ (w : SlotNews), s.news.find? (fun x => x.slot == n && x.core == l) = some w ∧
     physOf s l = none) ∧
    (∃ (s : State) (l n : Nat), ∃ (w : SlotNews), s.news.find? (fun x => x.slot == n && x.core == l) = some w ∧ ∃ p,
     physOf s l = some p ∧ inReset s l = true) ∧
    (∃ (s : State) (l n : Nat), ∃ (w : SlotNews), s.news.find? (fun x => x.slot == n && x.core == l) = some w ∧ ∃ p,
     physOf s l = some p ∧ inReset s l = false ∧ (coreAt s p).sync.due = [] ∧ Current (coreAt s p) (cycleOf s l) ∧
     (∀ q, (queueAt (coreAt s p) q).sleep = none)) ∧
    (∃ (s : State) (l n p q : Nat) (w : SlotNews) (z : Sleep) (a : Part),
     s.news.find? (fun x => x.slot == n && x.core == l) = some w ∧ physOf s l = some p ∧ inReset s l = false ∧
     (coreAt s p).sync.due = [] ∧ Current (coreAt s p) (cycleOf s l) ∧ q < 4 ∧ (queueAt (coreAt s p) q).sleep = some z ∧
     (∀ r, r ≠ q → (queueAt (coreAt s p) r).sleep = none) ∧ (z.cmd.sop = 6 ∨ z.cmd.sop = 7) ∧ z.cmd.slot = n ∧ z.ctx < 4 ∧
     let k := coreAt s p; let x := ctxAt k z.ctx;
     x.parts.find? (fun b => b.slot == n && (w.how == 2 || b.parity == w.parity)) = some a ∧ a.out = false ∧ w.how = 2) ∧
    (∃ (s : State) (l n p q : Nat) (w : SlotNews) (z : Sleep) (a : Part),
     s.news.find? (fun x => x.slot == n && x.core == l) = some w ∧ physOf s l = some p ∧ inReset s l = false ∧
     (coreAt s p).sync.due = [] ∧ Current (coreAt s p) (cycleOf s l) ∧ q < 4 ∧ (queueAt (coreAt s p) q).sleep = some z ∧
     (∀ r, r ≠ q → (queueAt (coreAt s p) r).sleep = none) ∧ (z.cmd.sop = 6 ∨ z.cmd.sop = 7) ∧ z.cmd.slot = n ∧ z.ctx < 4 ∧
     let k := coreAt s p; let x := ctxAt k z.ctx;
     x.parts.find? (fun b => b.slot == n && (w.how == 2 || b.parity == w.parity)) = some a ∧ a.out = false ∧ w.how ≠ 2 ∧
     (z.cmd.sop = 7 ∨ z.arrived = true)) ∧
    (∃ (s : State) (l n p q : Nat) (w : SlotNews) (z : Sleep) (a : Part),
     s.news.find? (fun x => x.slot == n && x.core == l) = some w ∧ physOf s l = some p ∧ inReset s l = false ∧
     (coreAt s p).sync.due = [] ∧ Current (coreAt s p) (cycleOf s l) ∧ q < 4 ∧ (queueAt (coreAt s p) q).sleep = some z ∧
     (∀ r, r ≠ q → (queueAt (coreAt s p) r).sleep = none) ∧ (z.cmd.sop = 6 ∨ z.cmd.sop = 7) ∧ z.cmd.slot = n ∧ z.ctx < 4 ∧
     let k := coreAt s p; let x := ctxAt k z.ctx;
     x.parts.find? (fun b => b.slot == n && (w.how == 2 || b.parity == w.parity)) = some a ∧ a.out = false ∧ w.how ≠ 2 ∧
     z.cmd.sop = 6 ∧ z.arrived = false ∧ (∀ b, b ∈ x.parts.erase a → b.slot ≠ n)) ∧
    (∃ (s : State) (l n p cx : Nat), liveCore s l = some p ∧ (coreAt s p).sync.due = [] ∧ let k := coreAt s p;
     let x := ctxAt k cx;
     let due := x.parts.find? fun a => a.slot == n && !a.out && !a.frozen && decide (a.deadline ≤ cycleOf s l);
     due = none) ∧
    (∃ (s : State) (l n p cx : Nat), liveCore s l = some p ∧ (coreAt s p).sync.due = [] ∧ let k := coreAt s p;
     let x := ctxAt k cx;
     let due := x.parts.find? fun a => a.slot == n && !a.out && !a.frozen && decide (a.deadline ≤ cycleOf s l);
     ∃ (a : Part), due = some a) :=
  ⟨⟨wOn, 0, 127, by decide +kernel⟩,
   ⟨{ wOn with news := [{ slot := 127, core := 0, how := 1, orp := 5, andp := true, parity := false }], boot := { wOn.boot with lostIds := [0] } },
    0, 127, { slot := 127, core := 0, how := 1, orp := 5, andp := true, parity := false }, by decide +kernel⟩,
   ⟨{ ({ wOn with news := [{ slot := 127, core := 0, how := 1, orp := 5, andp := true, parity := false }] }) with resets := { wOn.resets with asserted := [(0, 0)] } },
    0, 127, { slot := 127, core := 0, how := 1, orp := 5, andp := true, parity := false }, by decide +kernel, 0,
    by decide +kernel⟩,
   ⟨{ (wCore (fun k => setCtx k 3 { Ctx.init with state := 1, parts := [{ slot := 127, parity := false, verdict := true, deadline := 20000, out := false, frozen := false }] })) with news := [{ slot := 127, core := 0, how := 1, orp := 5, andp := true, parity := false }] },
    0, 127, { slot := 127, core := 0, how := 1, orp := 5, andp := true, parity := false }, by decide +kernel, 0,
    by decide +kernel, by decide +kernel, by decide +kernel, by unfold Current; decide +kernel,
    noSleep _ (by decide +kernel)⟩,
   ⟨{ (wCore (fun k => setQueue (setRing (setCtx k 3 { Ctx.init with state := 1, parts := [{ slot := 127, parity := false, verdict := true, deadline := 20000, out := false, frozen := false }] }) 3 (wRing 3 0 4)) 3 { Queue.init with state := 1, ctx := 3, sleep := some { slot := 0, ctx := 3, cmd := syncBuild (parseHeader 6) 0x107F7 0 0, deadline := 20000, arrived := false, track := 0 }, bufs := [{ count := 0, row := Row.zero, bad := false, avail := 0 }] })) with news := [{ slot := 127, core := 0, how := 2, orp := 5, andp := true, parity := false }] },
    0, 127, 0, 3, { slot := 127, core := 0, how := 2, orp := 5, andp := true, parity := false },
    { slot := 0, ctx := 3, cmd := syncBuild (parseHeader 6) 0x107F7 0 0, deadline := 20000, arrived := false, track := 0 },
    { slot := 127, parity := false, verdict := true, deadline := 20000, out := false, frozen := false }, by decide +kernel,
    by decide +kernel, by decide +kernel, by decide +kernel, by unfold Current; decide +kernel, by decide +kernel,
    by decide +kernel, noSleepBut _ (by decide +kernel), by decide +kernel, by decide +kernel, by decide +kernel,
    by decide +kernel⟩,
   ⟨{ (wCore (fun k => setQueue (setRing (setCtx k 3 { Ctx.init with state := 1, parts := [{ slot := 127, parity := false, verdict := true, deadline := 20000, out := false, frozen := false }] }) 3 (wRing 3 0 4)) 3 { Queue.init with state := 1, ctx := 3, sleep := some { slot := 0, ctx := 3, cmd := syncBuild (parseHeader 6) 0x107F7 0 0, deadline := 20000, arrived := false, track := 0 }, bufs := [{ count := 0, row := Row.zero, bad := false, avail := 0 }] })) with news := [{ slot := 127, core := 0, how := 1, orp := 5, andp := true, parity := false }] },
    0, 127, 0, 3, { slot := 127, core := 0, how := 1, orp := 5, andp := true, parity := false },
    { slot := 0, ctx := 3, cmd := syncBuild (parseHeader 6) 0x107F7 0 0, deadline := 20000, arrived := false, track := 0 },
    { slot := 127, parity := false, verdict := true, deadline := 20000, out := false, frozen := false }, by decide +kernel,
    by decide +kernel, by decide +kernel, by decide +kernel, by unfold Current; decide +kernel, by decide +kernel,
    by decide +kernel, noSleepBut _ (by decide +kernel), by decide +kernel, by decide +kernel, by decide +kernel,
    by decide +kernel⟩,
   ⟨{ (wCore (fun k => setQueue (setRing (setCtx k 3 { Ctx.init with state := 1, parts := [{ slot := 127, parity := false, verdict := true, deadline := 20000, out := false, frozen := false }] }) 3 (wRing 3 0 4)) 3 { Queue.init with state := 1, ctx := 3, sleep := some { slot := 0, ctx := 3, cmd := syncBuild (parseHeader 6) 0x107F6 0 0, deadline := 20000, arrived := false, track := 0 }, bufs := [{ count := 0, row := Row.zero, bad := false, avail := 0 }] })) with news := [{ slot := 127, core := 0, how := 1, orp := 5, andp := true, parity := false }] },
    0, 127, 0, 3, { slot := 127, core := 0, how := 1, orp := 5, andp := true, parity := false },
    { slot := 0, ctx := 3, cmd := syncBuild (parseHeader 6) 0x107F6 0 0, deadline := 20000, arrived := false, track := 0 },
    { slot := 127, parity := false, verdict := true, deadline := 20000, out := false, frozen := false }, by decide +kernel,
    by decide +kernel, by decide +kernel, by decide +kernel, by unfold Current; decide +kernel, by decide +kernel,
    by decide +kernel, noSleepBut _ (by decide +kernel), by decide +kernel, by decide +kernel, by decide +kernel,
    by decide +kernel⟩,
   ⟨wCore (fun k => setCtx k 3 { Ctx.init with state := 1, parts := [{ slot := 127, parity := false, verdict := true, deadline := 10001, out := false, frozen := false }] }),
    0, 127, 0, 3, by decide +kernel, by decide +kernel, by decide +kernel⟩,
   ⟨wCore (fun k => setCtx k 3 { Ctx.init with state := 1, parts := [{ slot := 127, parity := false, verdict := true, deadline := 10000, out := false, frozen := false }] }),
    0, 127, 0, 3, by decide +kernel, by decide +kernel,
    { slot := 127, parity := false, verdict := true, deadline := 10000, out := false, frozen := false }, by decide +kernel⟩⟩

/-- States and operands that meet the hypotheses of ClockAndDroopEvents, clause by clause. -/
theorem witness_ClockAndDroopEvents :
    (∃ (s : State) (c : Nat), c < 4 ∧ let x := cavAt s c; ∃ e, x.seqEnd = some e ∧ e ≤ s.mNow) ∧
    (∃ (s : State) (c : Nat), c < 4 ∧ let x := cavAt s c; (∀ e, x.seqEnd = some e → s.mNow < e)) ∧
    (∃ (s : State) (c : Nat), c < 4 ∧ s.boot.powered = true) ∧
    (∃ (s : State) (c : Nat), c < 4 ∧ s.boot.powered = false) ∧
    (∃ (s : State) (c : Nat), c < 4 ∧ let x := cavAt s c; x.coasting = true ∧ x.glideAt + 5000 ≤ s.mNow) ∧
    (∃ (s : State) (c : Nat), c < 4 ∧ let x := cavAt s c; (x.coasting = false ∨ s.mNow < x.glideAt + 5000)) ∧
    (∃ (s : State) (g : Nat), let x := cavAt s (g / 8); x.running = true) ∧
    (∃ (s : State) (g : Nat), let x := cavAt s (g / 8); x.running = false) ∧
    (∃ (s : State) (g : Nat), let x := cavAt s (g / 8);
     let last := x.stretched = true ∧ x.stretchFrom = none ∧ ∀ h, h ∈ galsOf (g / 8) → h ≠ g → (galAt s h).tripped = false;
     last) ∧
    (∃ (s : State) (g : Nat), let x := cavAt s (g / 8);
     let last := x.stretched = true ∧ x.stretchFrom = none ∧ ∀ h, h ∈ galsOf (g / 8) → h ≠ g → (galAt s h).tripped = false;
     ¬last) ∧
    (∃ (s : State) (c : Nat), (cavAt s c).stretchFrom = none) ∧
    (∃ (s : State) (c : Nat), ∃ n, (cavAt s c).stretchFrom = some n ∧ n + 64 ≤ aNow s c) ∧
    (∃ (s : State) (c : Nat), ∃ n, (cavAt s c).stretchFrom = some n ∧ aNow s c < n + 64) :=
  ⟨⟨wCav (fun x => { x with seqEnd := some 10000, seqTo := 3, opTarget := 3 }), 0, by decide +kernel, 10000,
    by decide +kernel⟩,
   ⟨wCav (fun x => { x with seqEnd := some 10001 }), 0, by decide +kernel, by decide +kernel⟩,
   ⟨wOn, 3, by decide +kernel⟩,
   ⟨State.reset, 3, by decide +kernel⟩,
   ⟨wCav (fun x => { x with coasting := true, refLost := true, opTarget := 7, glideAt := 5000 }), 0, by decide +kernel,
    by decide +kernel⟩,
   ⟨wCav (fun x => { x with coasting := true, glideAt := 5001 }), 0, by decide +kernel, by decide +kernel⟩,
   ⟨wOn, 7, by decide +kernel⟩,
   ⟨State.reset, 7, by decide +kernel⟩,
   ⟨wCav (fun x => { x with stretched := true }), 7, by decide +kernel⟩,
   ⟨wOn, 7, by decide +kernel⟩,
   ⟨wOn, 0, by decide +kernel⟩,
   ⟨wCav (fun x => { x with stretched := true, stretchFrom := some 9936 }), 0, 9936, by decide +kernel⟩,
   ⟨wCav (fun x => { x with stretched := true, stretchFrom := some 9937 }), 0, 9937, by decide +kernel⟩⟩

/-- States and operands that meet the hypotheses of IssueAndPowerWindows, clause by clause. -/
theorem witness_IssueAndPowerWindows :
    (∃ (s : State) (g : Nat), (cavAt s (g / 8)).running = false) ∧
    (∃ (s : State) (g : Nat), (cavAt s (g / 8)).running = true ∧ let x := (galAt s g).lim; let w := aNow s (g / 8) / 256;
     w = x.window + 1) ∧
    (∃ (s : State) (g : Nat), (cavAt s (g / 8)).running = true ∧ let x := (galAt s g).lim; let w := aNow s (g / 8) / 256;
     x.window + 1 < w) ∧
    (∃ (s : State) (g : Nat), (cavAt s (g / 8)).running = true ∧ let x := (galAt s g).lim; let w := aNow s (g / 8) / 256;
     w ≤ x.window) ∧
    (∃ (s s1 : State) (b c m e : Nat), c < 4 ∧ s1 = bringCav s c ∧ m ≤ 0xFFF ∧
     e = min 0xFFF (Config.powerEstimate (opShown (cavAt s1 c) s.mNow) (activityCounts (cavAt s1 c)) (hottest s1 c)) ∧
     let x := cavAt s c; let heard := b < 8 ∧ (bunAt s (2176 + b)).state = 2;
     let hot (d : Nat) : Prop := ∃ g, g ∈ galsOf c ∧ d ≤ (galAt s g).temp; let agrees := 20 * ((e - m) + (m - e)) ≤ 3 * m;
     heard ∧ ¬hot s.fuse.critC ∧ x.crit = false ∧ x.mismatch = false ∧ agrees) ∧
    (∃ (s s1 : State) (b c m e : Nat), c < 4 ∧ s1 = bringCav s c ∧ m ≤ 0xFFF ∧
     e = min 0xFFF (Config.powerEstimate (opShown (cavAt s1 c) s.mNow) (activityCounts (cavAt s1 c)) (hottest s1 c)) ∧
     let x := cavAt s c; let heard := b < 8 ∧ (bunAt s (2176 + b)).state = 2;
     let hot (d : Nat) : Prop := ∃ g, g ∈ galsOf c ∧ d ≤ (galAt s g).temp; let agrees := 20 * ((e - m) + (m - e)) ≤ 3 * m;
     heard ∧ ¬hot s.fuse.critC ∧ x.crit = false ∧ x.mismatch = false ∧ ¬agrees ∧ x.runAgree = false ∧ 7 ≤ x.run) ∧
    (∃ (s s1 : State) (b c m e : Nat), c < 4 ∧ s1 = bringCav s c ∧ m ≤ 0xFFF ∧
     e = min 0xFFF (Config.powerEstimate (opShown (cavAt s1 c) s.mNow) (activityCounts (cavAt s1 c)) (hottest s1 c)) ∧
     let x := cavAt s c; let heard := b < 8 ∧ (bunAt s (2176 + b)).state = 2;
     let agrees := 20 * ((e - m) + (m - e)) ≤ 3 * m; heard ∧ x.mismatch = true ∧ agrees ∧ x.runAgree = true ∧ 7 ≤ x.run) ∧
    (∃ (s s1 : State) (b c m e : Nat), c < 4 ∧ s1 = bringCav s c ∧ m ≤ 0xFFF ∧
     e = min 0xFFF (Config.powerEstimate (opShown (cavAt s1 c) s.mNow) (activityCounts (cavAt s1 c)) (hottest s1 c)) ∧
     let x := cavAt s c; let heard := b < 8 ∧ (bunAt s (2176 + b)).state = 2;
     let hot (d : Nat) : Prop := ∃ g, g ∈ galsOf c ∧ d ≤ (galAt s g).temp; heard ∧ hot s.fuse.critC ∧ x.crit = false) ∧
    (∃ (s s1 : State) (b c m e : Nat), c < 4 ∧ s1 = bringCav s c ∧ m ≤ 0xFFF ∧
     e = min 0xFFF (Config.powerEstimate (opShown (cavAt s1 c) s.mNow) (activityCounts (cavAt s1 c)) (hottest s1 c)) ∧
     let x := cavAt s c; let heard := b < 8 ∧ (bunAt s (2176 + b)).state = 2;
     let hot (d : Nat) : Prop := ∃ g, g ∈ galsOf c ∧ d ≤ (galAt s g).temp; heard ∧ hot (s.fuse.critC - 10) ∧
     x.crit = true) ∧
    (∃ (s s1 : State) (b c m e : Nat), c < 4 ∧ s1 = bringCav s c ∧ m ≤ 0xFFF ∧
     e = min 0xFFF (Config.powerEstimate (opShown (cavAt s1 c) s.mNow) (activityCounts (cavAt s1 c)) (hottest s1 c)) ∧
     let x := cavAt s c; let heard := b < 8 ∧ (bunAt s (2176 + b)).state = 2;
     let hot (d : Nat) : Prop := ∃ g, g ∈ galsOf c ∧ d ≤ (galAt s g).temp; heard ∧ ¬hot (s.fuse.critC - 10) ∧
     x.crit = true) ∧
    (∃ (s s1 : State) (b c m e : Nat), c < 4 ∧ s1 = bringCav s c ∧ m ≤ 0xFFF ∧
     e = min 0xFFF (Config.powerEstimate (opShown (cavAt s1 c) s.mNow) (activityCounts (cavAt s1 c)) (hottest s1 c)) ∧
     let heard := b < 8 ∧ (bunAt s (2176 + b)).state = 2; ¬heard) ∧
    (∃ (s s1 : State) (c m e : Nat), c < 4 ∧ s1 = bringCav s c ∧ m ≤ 0xFFF ∧
     e = min 0xFFF (Config.powerEstimate (opShown (cavAt s1 c) s.mNow) (activityCounts (cavAt s1 c)) (hottest s1 c)) ∧
     let x := cavAt s c; s.boot.powered = true ∧ x.winStart + 5250 ≤ s.mNow) ∧
    (∃ (s s1 : State) (c m e : Nat), c < 4 ∧ s1 = bringCav s c ∧ m ≤ 0xFFF ∧
     e = min 0xFFF (Config.powerEstimate (opShown (cavAt s1 c) s.mNow) (activityCounts (cavAt s1 c)) (hottest s1 c)) ∧
     let x := cavAt s c; (s.boot.powered = false ∨ s.mNow < x.winStart + 5250)) :=
  ⟨⟨State.reset, 0, by decide +kernel⟩,
   ⟨wGal (fun x => { x with lim := { x.lim with window := 38, used := 700, demand := true, ceiling := 500 } }), 0,
    by decide +kernel, by decide +kernel⟩,
   ⟨wGal (fun x => { x with lim := { x.lim with window := 37 } }), 0, by decide +kernel, by decide +kernel⟩,
   ⟨wGal (fun x => { x with lim := { x.lim with window := 39 } }), 0, by decide +kernel, by decide +kernel⟩,
   ⟨wOn, _, 0, 0,
    (min 0xFFF (Config.powerEstimate (opShown (cavAt (bringCav (wOn) 0) 0) (wOn).mNow) (activityCounts (cavAt (bringCav (wOn) 0) 0)) (hottest (bringCav (wOn) 0) 0))),
    _, by decide +kernel, rfl, Nat.min_le_left _ _, rfl, by decide +kernel, by decide +kernel, by decide +kernel,
    by decide +kernel, same_agrees _⟩,
   ⟨wCav (fun x => { x with runAgree := false, run := 7 }), _, 0, 0,
    (if (min 0xFFF (Config.powerEstimate (opShown (cavAt (bringCav (wCav (fun x => { x with runAgree := false, run := 7 })) 0) 0) (wCav (fun x => { x with runAgree := false, run := 7 })).mNow) (activityCounts (cavAt (bringCav (wCav (fun x => { x with runAgree := false, run := 7 })) 0) 0)) (hottest (bringCav (wCav (fun x => { x with runAgree := false, run := 7 })) 0) 0))) < 2000 then 0xFFF else 0),
    _, by decide +kernel, rfl, by split <;> decide, rfl, by decide +kernel, by decide +kernel, by decide +kernel,
    by decide +kernel, far_disagrees (Nat.min_le_left _ _), by decide +kernel⟩,
   ⟨wCav (fun x => { x with mismatch := true, runAgree := true, run := 7 }), _, 0, 0,
    (min 0xFFF (Config.powerEstimate (opShown (cavAt (bringCav (wCav (fun x => { x with mismatch := true, runAgree := true, run := 7 })) 0) 0) (wCav (fun x => { x with mismatch := true, runAgree := true, run := 7 })).mNow) (activityCounts (cavAt (bringCav (wCav (fun x => { x with mismatch := true, runAgree := true, run := 7 })) 0) 0)) (hottest (bringCav (wCav (fun x => { x with mismatch := true, runAgree := true, run := 7 })) 0) 0))),
    _, by decide +kernel, rfl, Nat.min_le_left _ _, rfl, by decide +kernel, by decide +kernel, same_agrees _,
    by decide +kernel⟩,
   ⟨{ (wCav (fun x => { x with missing := 0 })) with gals := [(7, { Gal.init with temp := 255 })] }, _, 0, 0, 0, _,
    by decide +kernel, rfl, by decide +kernel, rfl, by decide +kernel⟩,
   ⟨{ (wCav (fun x => { x with crit := true })) with gals := [(7, { Gal.init with temp := 255 })] }, _, 0, 0, 0, _,
    by decide +kernel, rfl, by decide +kernel, rfl, by decide +kernel⟩,
   ⟨{ (wCav (fun x => { x with crit := true })) with gals := [(7, { Gal.init with temp := 0 })] }, _, 0, 0, 0, _,
    by decide +kernel, rfl, by decide +kernel, rfl, by decide +kernel⟩,
   ⟨{ wOn with bundles := [] }, _, 0, 0, 0, _, by decide +kernel, rfl, by decide +kernel, rfl, by decide +kernel⟩,
   ⟨wCav (fun x => { x with winStart := 4750 }), _, 0, 0, _, by decide +kernel, rfl, by decide +kernel, rfl,
    by decide +kernel⟩,
   ⟨wCav (fun x => { x with winStart := 4751 }), _, 0, 0, _, by decide +kernel, rfl, by decide +kernel, rfl,
    by decide +kernel⟩⟩

/-- States and operands that meet the hypotheses of BundleTraining, clause by clause. -/
theorem witness_BundleTraining :
    (∃ (s : State) (b : Nat) (o : TrainObs) (up down : Link) (dev : Bool), s.boot.powered = true ∧ b < 2184 ∧
     (up, down, dev) = trainLinks s b o false ∧ let x := bunAt s b; x.state = 1 ∧ stepsEnded o = true) ∧
    (∃ (s : State) (b : Nat) (o : TrainObs) (up down : Link) (dev : Bool), s.boot.powered = true ∧ b < 2184 ∧
     (up, down, dev) = trainLinks s b o false ∧ let x := bunAt s b; x.state = 1 ∧ stepsEnded o = false) ∧
    (∃ (s : State) (b : Nat) (o : TrainObs) (up down : Link) (dev : Bool), s.boot.powered = true ∧ b < 2184 ∧
     (up, down, dev) = trainLinks s b o false ∧ let x := bunAt s b; let ready := x.loop = false ∧ x.gateShort = false;
     x.state = 0 ∧ x.auto = true ∧ ready) ∧
    (∃ (s : State) (b : Nat) (o : TrainObs) (up down : Link) (dev : Bool), s.boot.powered = true ∧ b < 2184 ∧
     (up, down, dev) = trainLinks s b o false ∧ let x := bunAt s b; let ready := x.loop = false ∧ x.gateShort = false;
     x.state ≠ 1 ∧ ¬(x.state = 0 ∧ x.auto = true ∧ ready)) ∧
    (∃ (s : State) (b : Nat) (o : TrainObs) (v : Word) (up down : Link) (dev : Bool), s.boot.powered = true ∧ b < 2184 ∧
     (up, down, dev) = trainLinks s b o false ∧ let x := bunAt s b; Serves s ∧ Clean v 0xF ∧ wbit v 0 = true ∧
     wbit v 1 = false ∧ (x.state = 0 ∨ x.state = 4) ∧ x.loop = false ∧ (2176 ≤ b ∨ x.gateShort = false)) ∧
    (∃ (s : State) (b : Nat) (o : TrainObs) (v : Word) (up down : Link) (dev : Bool), s.boot.powered = true ∧ b < 2184 ∧
     (up, down, dev) = trainLinks s b o false ∧ let x := bunAt s b; Serves s ∧ Clean v 0xF ∧ wbit v 0 = true ∧
     wbit v 1 = false ∧ (¬((x.state = 0 ∨ x.state = 4) ∧ x.loop = false))) ∧
    (∃ (s : State) (b : Nat) (o : TrainObs) (v : Word) (up down : Link) (dev : Bool), s.boot.powered = true ∧ b < 2184 ∧
     (up, down, dev) = trainLinks s b o false ∧ let x := bunAt s b; Serves s ∧ Clean v 0xF ∧ wbit v 0 = true ∧
     wbit v 1 = false ∧ (x.state = 0 ∨ x.state = 4) ∧ x.loop = false ∧ b < 2176 ∧ x.gateShort = true) ∧
    (∃ (s : State) (b : Nat) (o : TrainObs) (up down : Link) (dev : Bool), s.boot.powered = true ∧ b < 2184 ∧
     (up, down, dev) = trainLinks s b o false ∧ let x := bunAt s b;
     let late := stepLate s b o.up = true ∧ stepLate s b o.down = true; x.state = 1 ∧ stepsEnded o = false ∧ late) ∧
    (∃ (s : State) (b : Nat) (o : TrainObs) (up down : Link) (dev : Bool), s.boot.powered = true ∧ b < 2184 ∧
     (up, down, dev) = trainLinks s b o false ∧ let x := bunAt s b;
     let late := stepLate s b o.up = true ∧ stepLate s b o.down = true;
     (stepsEnded o = true ∨ ¬late ∨ (x.state ≠ 1 ∧ x.state ≠ 3))) ∧
    (∃ (s : State) (b : Nat) (o : TrainObs) (up down : Link) (dev : Bool), s.boot.powered = true ∧ b < 2184 ∧
     (up, down, dev) = trainLinks s b o true ∧ let x := bunAt s b; (x.state = 3 ∨ (x.state = 2 ∧ x.spareAuto = true))) ∧
    (∃ (s : State) (b : Nat) (o : TrainObs) (up down : Link) (dev : Bool), s.boot.powered = true ∧ b < 2184 ∧
     (up, down, dev) = trainLinks s b o true ∧ let x := bunAt s b; x.state ≠ 3 ∧ ¬(x.state = 2 ∧ x.spareAuto = true)) ∧
    (∃ (s : State) (b : Nat) (o : TrainObs) (v : Word) (up down : Link) (dev : Bool), s.boot.powered = true ∧ b < 2184 ∧
     (up, down, dev) = trainLinks s b o true ∧ let x := bunAt s b; Serves s ∧ Clean v 0xF ∧ wbit v 0 = false ∧
     wbit v 1 = true ∧ x.state = 2 ∧ (2176 ≤ b ∨ x.gateShort = false)) ∧
    (∃ (s : State) (b : Nat) (o : TrainObs) (v : Word) (up down : Link) (dev : Bool), s.boot.powered = true ∧ b < 2184 ∧
     (up, down, dev) = trainLinks s b o true ∧ let x := bunAt s b; Serves s ∧ Clean v 0xF ∧ wbit v 0 = false ∧
     wbit v 1 = true ∧ x.state ≠ 2) ∧
    (∃ (s : State) (b : Nat) (o : TrainObs) (up down : Link) (dev : Bool), s.boot.powered = true ∧ b < 2184 ∧
     (up, down, dev) = trainLinks s b o true ∧ let x := bunAt s b; x.state = 3 ∧ stepsEnded o = false ∧
     stepLate s b o.up = true ∧ stepLate s b o.down = true ∧ o.up.overran ≠ some 1 ∧ o.down.overran ≠ some 1) ∧
    (∃ (s : State) (b : Nat) (o : TrainObs) (up down : Link) (dev : Bool), s.boot.powered = true ∧ b < 2184 ∧
     (up, down, dev) = trainLinks s b o true ∧ let x := bunAt s b; x.state = 2) ∧
    (∃ (s : State) (b : Nat) (o : TrainObs) (up down : Link) (dev : Bool), s.boot.powered = true ∧ b < 2184 ∧
     (up, down, dev) = trainLinks s b o true ∧ let x := bunAt s b; x.state ≠ 2) :=
  ⟨⟨wBun 2183 (fun x => { x with state := 1 }), 2183, wObs,
    (trainLinks (wBun 2183 (fun x => { x with state := 1 })) 2183 wObs false).1,
    (trainLinks (wBun 2183 (fun x => { x with state := 1 })) 2183 wObs false).2.1,
    (trainLinks (wBun 2183 (fun x => { x with state := 1 })) 2183 wObs false).2.2, by decide +kernel, by decide +kernel,
    by decide +kernel, by decide +kernel⟩,
   ⟨wBun 2183 (fun x => { x with state := 1 }), 2183, wLate,
    (trainLinks (wBun 2183 (fun x => { x with state := 1 })) 2183 wLate false).1,
    (trainLinks (wBun 2183 (fun x => { x with state := 1 })) 2183 wLate false).2.1,
    (trainLinks (wBun 2183 (fun x => { x with state := 1 })) 2183 wLate false).2.2, by decide +kernel, by decide +kernel,
    by decide +kernel, by decide +kernel⟩,
   ⟨wBun 2183 (fun x => { x with auto := true }), 2183, wObs,
    (trainLinks (wBun 2183 (fun x => { x with auto := true })) 2183 wObs false).1,
    (trainLinks (wBun 2183 (fun x => { x with auto := true })) 2183 wObs false).2.1,
    (trainLinks (wBun 2183 (fun x => { x with auto := true })) 2183 wObs false).2.2, by decide +kernel, by decide +kernel,
    by decide +kernel, by decide +kernel⟩,
   ⟨wBun 2183 (fun x => { x with state := 2 }), 2183, wObs,
    (trainLinks (wBun 2183 (fun x => { x with state := 2 })) 2183 wObs false).1,
    (trainLinks (wBun 2183 (fun x => { x with state := 2 })) 2183 wObs false).2.1,
    (trainLinks (wBun 2183 (fun x => { x with state := 2 })) 2183 wObs false).2.2, by decide +kernel, by decide +kernel,
    by decide +kernel, by decide +kernel⟩,
   ⟨wBun 2183 (fun x => { x with state := 4 }), 2183, wObs, 5,
    (trainLinks (wBun 2183 (fun x => { x with state := 4 })) 2183 wObs false).1,
    (trainLinks (wBun 2183 (fun x => { x with state := 4 })) 2183 wObs false).2.1,
    (trainLinks (wBun 2183 (fun x => { x with state := 4 })) 2183 wObs false).2.2, by decide +kernel, by decide +kernel,
    by decide +kernel, by unfold Serves; decide +kernel, by unfold Clean; decide +kernel, by decide +kernel⟩,
   ⟨wBun 2183 (fun x => { x with state := 2 }), 2183, wObs, 1,
    (trainLinks (wBun 2183 (fun x => { x with state := 2 })) 2183 wObs false).1,
    (trainLinks (wBun 2183 (fun x => { x with state := 2 })) 2183 wObs false).2.1,
    (trainLinks (wBun 2183 (fun x => { x with state := 2 })) 2183 wObs false).2.2, by decide +kernel, by decide +kernel,
    by decide +kernel, by unfold Serves; decide +kernel, by unfold Clean; decide +kernel, by decide +kernel⟩,
   ⟨wBun 5 (fun x => { x with state := 4, gateShort := true }), 5, wObs, 1,
    (trainLinks (wBun 5 (fun x => { x with state := 4, gateShort := true })) 5 wObs false).1,
    (trainLinks (wBun 5 (fun x => { x with state := 4, gateShort := true })) 5 wObs false).2.1,
    (trainLinks (wBun 5 (fun x => { x with state := 4, gateShort := true })) 5 wObs false).2.2, by decide +kernel,
    by decide +kernel, by decide +kernel, by unfold Serves; decide +kernel, by unfold Clean; decide +kernel,
    by decide +kernel⟩,
   ⟨{ (wBun 2183 (fun x => { x with state := 1 })) with mNow := 10 ^ 8 }, 2183, wLate,
    (trainLinks ({ (wBun 2183 (fun x => { x with state := 1 })) with mNow := 10 ^ 8 }) 2183 wLate false).1,
    (trainLinks ({ (wBun 2183 (fun x => { x with state := 1 })) with mNow := 10 ^ 8 }) 2183 wLate false).2.1,
    (trainLinks ({ (wBun 2183 (fun x => { x with state := 1 })) with mNow := 10 ^ 8 }) 2183 wLate false).2.2,
    by decide +kernel, by decide +kernel, by decide +kernel, by decide +kernel⟩,
   ⟨wOn, 2183, wObs, (trainLinks (wOn) 2183 wObs false).1, (trainLinks (wOn) 2183 wObs false).2.1,
    (trainLinks (wOn) 2183 wObs false).2.2, by decide +kernel, by decide +kernel, by decide +kernel, by decide +kernel⟩,
   ⟨wBun 2183 (fun x => { x with state := 3 }), 2183, wObs,
    (trainLinks (wBun 2183 (fun x => { x with state := 3 })) 2183 wObs true).1,
    (trainLinks (wBun 2183 (fun x => { x with state := 3 })) 2183 wObs true).2.1,
    (trainLinks (wBun 2183 (fun x => { x with state := 3 })) 2183 wObs true).2.2, by decide +kernel, by decide +kernel,
    by decide +kernel, by decide +kernel⟩,
   ⟨wOn, 2183, wObs, (trainLinks (wOn) 2183 wObs true).1, (trainLinks (wOn) 2183 wObs true).2.1,
    (trainLinks (wOn) 2183 wObs true).2.2, by decide +kernel, by decide +kernel, by decide +kernel, by decide +kernel⟩,
   ⟨wBun 2183 (fun x => { x with state := 2 }), 2183, wObs, 2,
    (trainLinks (wBun 2183 (fun x => { x with state := 2 })) 2183 wObs true).1,
    (trainLinks (wBun 2183 (fun x => { x with state := 2 })) 2183 wObs true).2.1,
    (trainLinks (wBun 2183 (fun x => { x with state := 2 })) 2183 wObs true).2.2, by decide +kernel, by decide +kernel,
    by decide +kernel, by unfold Serves; decide +kernel, by unfold Clean; decide +kernel, by decide +kernel⟩,
   ⟨wBun 2183 (fun x => { x with state := 4 }), 2183, wObs, 2,
    (trainLinks (wBun 2183 (fun x => { x with state := 4 })) 2183 wObs true).1,
    (trainLinks (wBun 2183 (fun x => { x with state := 4 })) 2183 wObs true).2.1,
    (trainLinks (wBun 2183 (fun x => { x with state := 4 })) 2183 wObs true).2.2, by decide +kernel, by decide +kernel,
    by decide +kernel, by unfold Serves; decide +kernel, by unfold Clean; decide +kernel, by decide +kernel⟩,
   ⟨{ (wBun 2183 (fun x => { x with state := 3 })) with mNow := 10 ^ 8 }, 2183, wLate,
    (trainLinks ({ (wBun 2183 (fun x => { x with state := 3 })) with mNow := 10 ^ 8 }) 2183 wLate true).1,
    (trainLinks ({ (wBun 2183 (fun x => { x with state := 3 })) with mNow := 10 ^ 8 }) 2183 wLate true).2.1,
    (trainLinks ({ (wBun 2183 (fun x => { x with state := 3 })) with mNow := 10 ^ 8 }) 2183 wLate true).2.2,
    by decide +kernel, by decide +kernel, by decide +kernel, by decide +kernel⟩,
   ⟨wBun 2183 (fun x => { x with state := 2 }), 2183, wObs,
    (trainLinks (wBun 2183 (fun x => { x with state := 2 })) 2183 wObs true).1,
    (trainLinks (wBun 2183 (fun x => { x with state := 2 })) 2183 wObs true).2.1,
    (trainLinks (wBun 2183 (fun x => { x with state := 2 })) 2183 wObs true).2.2, by decide +kernel, by decide +kernel,
    by decide +kernel, by decide +kernel⟩,
   ⟨wOn, 2183, wObs, (trainLinks (wOn) 2183 wObs true).1, (trainLinks (wOn) 2183 wObs true).2.1,
    (trainLinks (wOn) 2183 wObs true).2.2, by decide +kernel, by decide +kernel, by decide +kernel, by decide +kernel⟩⟩

/-- States and operands that meet the hypotheses of BundleEvents, clause by clause. -/
theorem witness_BundleEvents :
    (∃ (s : State) (b : Nat), let x := bunAt s b; let up := x.state = 2; ∃ (i more : Nat),
     let count := Store.get 0 x.laneErrs i + more; let due := up ∧ s.pwr.margin < count ∧ x.marginal.contains i = false;
     ¬due) ∧
    (∃ (s : State) (b : Nat), let x := bunAt s b; let up := x.state = 2; ∃ (i more : Nat),
     let count := Store.get 0 x.laneErrs i + more; let due := up ∧ s.pwr.margin < count ∧ x.marginal.contains i = false;
     due) ∧
    (∃ (s : State) (b : Nat), let x := bunAt s b; let up := x.state = 2; ∃ (f : BitVec 512), (¬up ∨ isLink f = false)) ∧
    (∃ (s : State) (b : Nat), let x := bunAt s b; let up := x.state = 2; ∃ (f : BitVec 512) (errs : List (Nat × Nat)), up ∧
     isLink f = true ∧ lostWord errs = true) ∧
    (∃ (s : State) (b : Nat), let x := bunAt s b; let up := x.state = 2; ∃ (f : BitVec 512) (errs : List (Nat × Nat)), up ∧
     isLink f = true ∧ lostWord errs = false) ∧
    (∃ (s : State) (b : Nat), let x := bunAt s b; (x.state = 2 ∨ x.state = 3)) ∧
    (∃ (s : State) (b : Nat), let x := bunAt s b; x.state ≠ 2 ∧ x.state ≠ 3) ∧
    (∃ (s : State) (b : Nat), let x := bunAt s b; let up := x.state = 2; ∃ (errs : List (Nat × Nat)), up ∧
     lostWord errs = true) ∧
    (∃ (s : State) (b : Nat), let x := bunAt s b; let up := x.state = 2; ∃ (errs : List (Nat × Nat)),
     (¬up ∨ lostWord errs = false)) :=
  ⟨⟨wBun 2183 (fun x => { x with state := 2 }), 2183, 40, 0, by decide +kernel⟩,
   ⟨wBun 2183 (fun x => { x with state := 2, spareAuto := true, laneErrs := [(40, 100000)] }), 2183, 40, 5,
    by decide +kernel⟩,
   ⟨wBun 2183 (fun x => { x with state := 2 }), 2183, headerFlit (wPkt .wr 0 0), by decide +kernel⟩,
   ⟨wBun 2183 (fun x => { x with state := 2, badHeaders := 6 }), 2183, linkFlit 2 [0, 1, 2, 65535], [(0, 3)],
    by decide +kernel⟩,
   ⟨wBun 2183 (fun x => { x with state := 2 }), 2183, linkFlit 2 [0, 1, 2, 65535], [(0, 1)], by decide +kernel⟩,
   ⟨wBun 0 (fun x => { x with state := 2 }), 0, by decide +kernel⟩,
   ⟨wBun 0 (fun x => { x with state := 0 }), 0, by decide +kernel⟩,
   ⟨wBun 0 (fun x => { x with state := 2, badHeaders := 7 }), 0, [(1, 3)], by decide +kernel⟩,
   ⟨wBun 2183 (fun x => { x with state := 2 }), 2183, [(1, 1)], by decide +kernel⟩⟩

/-- States and operands that meet the hypotheses of MessagesAndLoopTest, clause by clause. -/
theorem witness_MessagesAndLoopTest :
    (∃ (s : State), ∃ m, (bunAt s (2176 + m)).state ≠ 2) ∧
    (∃ (s : State), ∃ m, m < 8 ∧ (bunAt s (2176 + m)).state = 2) ∧
    (∃ (s : State), ∃ m code, ((bunAt s (2176 + m)).state ≠ 2 ∨ code ∉ [1, 3, 4, 6, 10])) ∧
    (∃ (s : State), ∃ m code, (bunAt s (2176 + m)).state = 2 ∧ code ∈ [1, 3, 4, 6, 10]) ∧
    (∃ (s : State), ∃ (b : Nat) (v : Word), Serves s ∧ b < 2184 ∧ Clean v 0xFFFF03 ∧ fieldN v.toNat 8 16 ≠ 0 ∧
     wbit v 0 = true ∧ wbit v 1 = false ∧ ((bunAt s b).loop = true ∨ (bunAt s b).state = 0 ∨ (bunAt s b).state = 4)) ∧
    (∃ (s : State), ∃ (b : Nat) (v : Word), Serves s ∧ b < 2184 ∧ Clean v 0xFFFF03 ∧ fieldN v.toNat 8 16 ≠ 0 ∧
     wbit v 0 = true ∧ wbit v 1 = false ∧ (bunAt s b).loop = false ∧ (bunAt s b).state ≠ 0 ∧ (bunAt s b).state ≠ 4) ∧
    (∃ (s : State), ∃ (b : Nat) (v : Word), Serves s ∧ b < 2184 ∧ Clean v 0xFFFF03 ∧ fieldN v.toNat 8 16 ≠ 0 ∧
     wbit v 0 = true ∧ wbit v 1 = true ∧
     let free := (bunAt s b).loopBusy = false ∧ ((bunAt s b).loop = true ∨ (bunAt s b).state = 0 ∨ (bunAt s b).state = 4);
     free) ∧
    (∃ (s : State), ∃ (b : Nat) (v : Word), Serves s ∧ b < 2184 ∧ Clean v 0xFFFF03 ∧ fieldN v.toNat 8 16 ≠ 0 ∧
     wbit v 0 = true ∧ wbit v 1 = true ∧
     let free := (bunAt s b).loopBusy = false ∧ ((bunAt s b).loop = true ∨ (bunAt s b).state = 0 ∨ (bunAt s b).state = 4);
     ¬free) ∧
    (∃ (s : State), ∃ (b : Nat), (bunAt s b).loopBusy = false) ∧
    (∃ (s : State), ∃ (b : Nat), (bunAt s b).loopBusy = true) :=
  ⟨⟨wOn, 5, by decide +kernel⟩,
   ⟨wOn, 0, by decide +kernel⟩,
   ⟨wOn, 7, 1, by decide +kernel⟩,
   ⟨wOn, 0, 1, by decide +kernel⟩,
   ⟨wBun 2183 (fun x => { x with state := 4 }), 2183, 0x100001, by unfold Serves; decide +kernel, by decide +kernel,
    by unfold Clean; decide +kernel, by decide +kernel⟩,
   ⟨wBun 2183 (fun x => { x with state := 2 }), 2183, 0x100001, by unfold Serves; decide +kernel, by decide +kernel,
    by unfold Clean; decide +kernel, by decide +kernel⟩,
   ⟨wBun 2183 (fun x => { x with loop := true }), 2183, 0x100003, by unfold Serves; decide +kernel, by decide +kernel,
    by unfold Clean; decide +kernel, by decide +kernel, by decide +kernel, by decide +kernel, by decide +kernel⟩,
   ⟨wBun 2183 (fun x => { x with loop := true, loopBusy := true }), 2183, 0x100003, by unfold Serves; decide +kernel,
    by decide +kernel, by unfold Clean; decide +kernel, by decide +kernel, by decide +kernel, by decide +kernel,
    by decide +kernel⟩,
   ⟨wOn, 2183, by decide +kernel⟩,
   ⟨wBun 2183 (fun x => { x with loop := true, loopBusy := true }), 2183, by decide +kernel⟩⟩

/-- States and operands that meet the hypotheses of TapInstructions, clause by clause. -/
theorem witness_TapInstructions :
    (∃ (s : State), s.boot.powered = true) ∧
    (∃ (s : State), s.boot.powered = true) ∧
    (∃ (s : State), s.boot.powered = true) ∧
    (∃ (s : State), s.boot.powered = true ∧ s.boot.stage = 0 ∧ s.tap.tapLock = false) ∧
    (∃ (s : State), s.boot.powered = true ∧ s.boot.stage = 0 ∧ s.tap.tapLock = false) ∧
    (∃ (s : State), s.boot.powered = true ∧ (s.boot.stage ≠ 0 ∨ s.tap.tapLock = true) ∧ ∃ (i : Instr),
     (i = .wrap1500 ∨ ∃ up, i = .extest up)) ∧
    (∃ (s : State), s.boot.powered = true) :=
  ⟨⟨wOn, by decide +kernel⟩,
   ⟨wOn, by decide +kernel⟩,
   ⟨wOn, by decide +kernel⟩,
   ⟨wStage 0, by decide +kernel⟩,
   ⟨wStage 0, by decide +kernel⟩,
   ⟨wOn, by decide +kernel, by decide +kernel, .wrap1500, .inl rfl⟩,
   ⟨wOn, by decide +kernel⟩⟩

end Sys2Proof.Tests
end

section
/-!
PROOFS. The error-log record of a discarded message, and when a management message is taken (R420).
-/

namespace Sys2Proof.Machine

theorem length_insertLog (l : List LogRec) (r : LogRec) : (insertLog l r).length = l.length + 1 := by
  induction l with
  | nil => rfl
  | cons x t ih =>
    unfold insertLog
    split
    · rfl
    · simp only [List.length_cons, ih]

/-- A record counts once, wherever in its M-cycle it stands (R508, R510). -/
@[simp] theorem recordsMade_logRecordAt (s : State) (cls status core gal cav cyc : Nat) (rep : Bool)
    (body : List (Nat × Nat)) :
    recordsMade (logRecordAt s cls status core gal cav cyc rep body) = (recordsMade s + 1) % 2 ^ 32 := by
  simp only [recordsMade, logRecordAt, length_insertLog]
  omega

@[simp] theorem recordsMade_logChip (s : State) (cls : Nat) (st : Status) (rep : Bool) (body : List (Nat × Nat)) :
    recordsMade (logChip s cls st rep body) = (recordsMade s + 1) % 2 ^ 32 :=
  recordsMade_logRecordAt ..

theorem onMsg_up {s : State} {m : Nat} (hm : m < 8) (hu : (bunAt s (2176 + m)).state = 2) (code : Nat)
    (f : State → State) : onMsg s m code f = f s := if_pos ⟨hm, hu⟩

theorem onMsg_down {s : State} {m : Nat} (hd : (bunAt s (2176 + m)).state ≠ 2) (code : Nat) (f : State → State) :
    onMsg s m code f = logChip s 7 .done false [(2, 2176 + m), (1, code)] := if_neg fun h => hd h.2

end Sys2Proof.Machine
end

section
/-!
PROOFS. Accesses of Echo: the answer to a request, the checks of a write and of a read in their order, and the register
requests that Echo takes, refuses and serves (R468, R530 to R534).
-/

namespace Sys2Proof.Machine

theorem reloading_iff {s : State} : reloading s = true ↔ s.boot.busy = true ∧ s.boot.cmd = 9 := by
  simp [reloading]

/-- What a REG_RSP changes: the answer, and the messages sent while a management bundle is in UP (R422, R530). -/
theorem respondReg_eq (s : State) (m : RegReq) (st : Status) (hand : Bool) (data : Nat) :
    respondReg s m st hand data = { s with
      answer := st, answerData := BitVec.ofNat 32 data,
      out := if mgmtUp s then s.out ++ [.message 2
        [(1, m.seq), (1, st.code), (1, b2n hand), (2, m.requester), (2, 0), (4, m.addr), (4, data)]] else s.out } := by
  have hu : mgmtUp { s with answer := st, answerData := BitVec.ofNat 32 data } = mgmtUp s := rfl
  simp only [respondReg, hu]
  split <;> rfl

/-! The checks of an access (R533, R534). -/

theorem hostWrite_reloading {s : State} (hl : reloading s = true) (a v : Nat) (hand : Bool) (rq : Nat) :
    hostWrite s a v hand rq = (.busy, s) := if_pos hl

theorem hostRead_reloading {s : State} (hl : reloading s = true) (a : Nat) : hostRead s a = (.busy, 0, s) := if_pos hl

/-- A write that fails steps 1 to 3 of R533, other than of CORE_HAND, changes nothing. -/
theorem hostWrite_rejected {s : State} {a v : Nat} {hand : Bool} {rq : Nat} {r : Reg} {st : Status} (hs : s.half = none)
    (hl : reloading s = false) (hr : regAt s a = r) (hh : isHandReg r = false) (hc : accessCheck s r true hand = st)
    (hd : st ≠ .done) : hostWrite s a v hand rq = (st, s) := by
  unfold hostWrite
  simp [hl, hr, dropHalf_none hs, hh, hc, hd]

theorem hostRead_ok {s : State} {a : Nat} {r : Reg} (hs : s.half = none) (hl : reloading s = false) (hr : regAt s a = r)
    (hc : accessCheck s r false false = .done) : hostRead s a = (.done, (regRead s r).1 % 2 ^ 32, (regRead s r).2) := by
  unfold hostRead
  simp [hl, hr, dropHalf_none hs, hc]

/-- Steps 4 and 5 of R533 for a core register that shows no status of its own: every one but CORE_CTX_OP. -/
theorem writeAccepted_core {s : State} {p l off : Nat} (ho : off ≠ 0x130) (v : Nat) :
    writeAccepted s (.core p l off) v = regWrite s (.core p l off) v := by
  simp [writeAccepted, noteStatus, ho]

/-- Steps 4 and 5 of R533 for the halves of DAY_NUMBER, which show no status of their own. -/
theorem writeAccepted_dayNumber {s : State} {off : Nat} (ho : off = 0x70C ∨ off = 0x710) (v : Nat) :
    writeAccepted s (.chip off) v = regWrite s (.chip off) v := by
  rcases ho with rfl | rfl <;> rfl

/-- DAY_PERIOD is read as it stands, and the read changes nothing. -/
theorem regRead_dayPeriod (s : State) : regRead s (.chip 0x700) = (s.day.period, s) := rfl

theorem accessCheck_dayPeriod {s : State} (he : s.boot.echo = true) : accessCheck s (.chip 0x700) false false = .done := by
  simp [accessCheck, regInfo, chipInfo, rwReg, he, unreachable]

/-! REG_REQ. -/

/-- A request on a management bundle in UP, by the checks of R530 and R531 in their order. -/
theorem exec_regReq_up {s : State} {m : RegReq} (hp : s.boot.powered = true) (hm : m.bundle < 8)
    (hu : (bunAt s (2176 + m.bundle)).state = 2) :
    exec (.regReq m) s = .next (
      if !reqFormOk m then respondReg s m .badValue false 0
      else if reloading s || decide (64 ≤ s.echoQ.length) then respondReg s m .busy false 0
      else { s with echoQ := s.echoQ ++ [m] }) := by
  change execRegReq m s = _
  simp only [execRegReq, hp, onMsg_up hm hu, Bool.not_true, Bool.false_eq_true, if_false]

/-- A well-formed request joins Echo's queue while that holds fewer than 64 and no ECHO_RELOAD runs (R531, R468). -/
theorem exec_regReq_held {s : State} {m : RegReq} (hp : s.boot.powered = true) (hm : m.bundle < 8)
    (hu : (bunAt s (2176 + m.bundle)).state = 2) (hf : reqFormOk m = true) (hq : s.echoQ.length < 64)
    (hl : s.boot.busy = true → s.boot.cmd ≠ 9) : exec (.regReq m) s = .next { s with echoQ := s.echoQ ++ [m] } := by
  have hr : reloading s = false := Bool.eq_false_iff.mpr fun h => hl (reloading_iff.mp h).1 (reloading_iff.mp h).2
  simp [exec_regReq_up hp hm hu, hf, hr, hq]

theorem exec_regReq_malformed {s : State} {m : RegReq} (hp : s.boot.powered = true) (hm : m.bundle < 8)
    (hu : (bunAt s (2176 + m.bundle)).state = 2) (hf : reqFormOk m = false) :
    exec (.regReq m) s = .next (respondReg s m .badValue false 0) := by
  simp [exec_regReq_up hp hm hu, hf]

/-- A well-formed request is answered BUSY with 64 held, or while ECHO_RELOAD runs (R531, R468). -/
theorem exec_regReq_busy {s : State} {m : RegReq} (hp : s.boot.powered = true) (hm : m.bundle < 8)
    (hu : (bunAt s (2176 + m.bundle)).state = 2) (hf : reqFormOk m = true)
    (hb : 64 ≤ s.echoQ.length ∨ (s.boot.busy = true ∧ s.boot.cmd = 9)) :
    exec (.regReq m) s = .next (respondReg s m .busy false 0) := by
  have hr : (reloading s || decide (64 ≤ s.echoQ.length)) = true := by
    simpa [reloading_iff, or_comm] using hb
  simp [exec_regReq_up hp hm hu, hf, hr]

/-- A request at a link that is not in UP is discarded with a record (R420). -/
theorem exec_regReq_down {s : State} {m : RegReq} (hp : s.boot.powered = true)
    (hd : (bunAt s (2176 + m.bundle)).state ≠ 2) :
    exec (.regReq m) s = .next (logChip s 7 .done false [(2, 2176 + m.bundle), (1, 1)]) := by
  change execRegReq m s = _
  simp only [execRegReq, hp, onMsg_down hd, Bool.not_true, Bool.false_eq_true, if_false]

/-! REG_ACCESS. -/

theorem exec_regAccess_none {s : State} (hq : s.echoQ = []) (policy : Bool) : exec (.regAccess policy) s = .next s := by
  change execRegAccess policy s = _
  simp only [execRegAccess, hq]

theorem exec_regAccess_write {s : State} {m : RegReq} {rest : List RegReq} (hq : s.echoQ = m :: rest) (ho : m.op = 1)
    (policy : Bool) {x : Status × State}
    (hx : hostWrite { s with echoQ := rest } m.addr m.data (s.boot.echo && m.hand == 1 && policy) m.requester = x) :
    exec (.regAccess policy) s = .next (respondReg x.2 m x.1 (s.boot.echo && m.hand == 1 && policy) 0) := by
  subst hx
  change execRegAccess policy s = _
  simp only [execRegAccess, hq, ho, if_true]

theorem exec_regAccess_read {s : State} {m : RegReq} {rest : List RegReq} (hq : s.echoQ = m :: rest) (ho : m.op ≠ 1)
    (policy : Bool) {x : Status × Nat × State} (hx : hostRead { s with echoQ := rest } m.addr = x) :
    exec (.regAccess policy) s = .next (respondReg x.2.2 m x.1 (s.boot.echo && m.hand == 1 && policy) x.2.1) := by
  subst hx
  change execRegAccess policy s = _
  simp only [execRegAccess, hq, ho, if_false]

/-- While ECHO_RELOAD runs, a held access is answered BUSY, whether it reads or writes (R468). -/
theorem exec_regAccess_reloading {s : State} {m : RegReq} {rest : List RegReq} (hq : s.echoQ = m :: rest)
    (hl : reloading s = true) (policy : Bool) :
    exec (.regAccess policy) s =
      .next (respondReg { s with echoQ := rest } m .busy (s.boot.echo && m.hand == 1 && policy) 0) := by
  have hl' : reloading { s with echoQ := rest } = true := hl
  by_cases ho : m.op = 1
  · exact exec_regAccess_write hq ho policy (hostWrite_reloading hl' ..)
  · exact exec_regAccess_read hq ho policy (hostRead_reloading hl' _)

/-- A held read of DAY_PERIOD is answered with the period, and changes nothing else. -/
theorem exec_regAccess_dayPeriod {s : State} {m : RegReq} {rest : List RegReq} (hq : s.echoQ = m :: rest) (ho : m.op = 0)
    (ha : m.addr = 0x700) (he : s.boot.echo = true) (hs : s.half = none) (hl : reloading s = false) (policy : Bool) :
    exec (.regAccess policy) s = .next (respondReg { s with echoQ := rest } m .done
      (s.boot.echo && m.hand == 1 && policy) (s.day.period % 2 ^ 32)) := by
  have hr : regAt { s with echoQ := rest } m.addr = .chip 0x700 := by
    rw [ha]
    exact regAt_chip (by decide)
  exact exec_regAccess_read hq (by omega) policy (hostRead_ok hs hl hr (accessCheck_dayPeriod he))

end Sys2Proof.Machine
end

section
/-!
PROOFS. The commands that are the write of one register: what such a row does, and that each named row is that write
(R9, R17, R533; log 14, 15).
-/

namespace Sys2Proof.Machine

/-- A write that passes steps 1 to 3 of R533, of a core register other than CORE_CTX_OP or of a half of DAY_NUMBER: BUSY
where its own checks pass and the part has changed the register in this M-cycle, else the register's own effect. -/
theorem hostWrite_effect {s : State} {a v : Nat} {hand : Bool} {rq : Nat} {r : Reg} (hs : s.half = none)
    (hl : reloading s = false) (hr : regAt s a = r) (hh : isHandReg r = false) (hc : accessCheck s r true hand = .done)
    (hk : (∃ p k off, r = .core p k off ∧ off ≠ 0x130) ∨ r = .chip 0x70C ∨ r = .chip 0x710) :
    hostWrite s a v hand rq =
      if (regEffect s r v).1 = .done ∧ hwHit s r = true then (.busy, s) else regEffect s r v := by
  have hw : writeAccepted s r v = regWrite s r v := by
    rcases hk with ⟨p, k, off, rfl, ho⟩ | rfl | rfl
    · exact writeAccepted_core ho v
    · exact writeAccepted_dayNumber (.inl rfl) v
    · exact writeAccepted_dayNumber (.inr rfl) v
  rw [hostWrite_ok hs hl hr hh hc, hw]
  rfl

theorem regRow_of_ok {s u : State} {a : Nat} {v : Word} {st : Status} (hp : s.boot.powered = true)
    (hx : hostWrite s a v.toNat false 0 = (st, u)) : regRow s true a v = { u with answer := st } := by
  simp [regRow, hp, hx, report]

/-- A word that is not the row's own leaves the state as it is (log 15). -/
theorem regRow_of_not_ok (s : State) (a : Nat) (v : Word) : regRow s false a v = s := by
  simp [regRow]

theorem handRow_of_act {s u : State} {act l rq : Nat} {v : Word} {st : Status} (hp : s.boot.powered = true)
    (ha : fieldN v.toNat 0 4 = act) (hx : hostWrite s (coreReg l 0x7E0) v.toNat true rq = (st, u)) :
    handRow s act l rq v = { u with answer := st } := by
  simp [handRow, hp, ha, hx, report]

/-- A word of another act than the row's leaves the state as it is (log 15). -/
theorem handRow_of_not_act {s : State} {act : Nat} {v : Word} (ha : fieldN v.toNat 0 4 ≠ act) (l rq : Nat) :
    handRow s act l rq v = s := by
  simp [handRow, ha]

/-- Every row of `registerRows` is the register write that stands beside it. -/
theorem exec_of_mem_registerRows {s : State} {l n : Nat} {v : Word} {i : Instr} {ok : Bool} {a : Nat} {w : Word}
    (h : (i, ok, a, w) ∈ registerRows s l n v) : exec i s = .next (regRow s ok a w) := by
  have rows : (registerRows s l n v).map (fun x => exec x.1 s) =
      (registerRows s l n v).map (fun x => .next (regRow s x.2.1 x.2.2.1 x.2.2.2)) := rfl
  exact List.map_inj_left.mp rows _ h

/-- Every row of `handRows` is the write of CORE_HAND with the act that stands beside it. -/
theorem exec_of_mem_handRows {l rq : Nat} {v : Word} {i : Instr} {act : Nat} (h : (i, act) ∈ handRows l rq v)
    (s : State) : exec i s = .next (handRow s act l rq v) := by
  have rows : (handRows l rq v).map (fun x => exec x.1 s) =
      (handRows l rq v).map (fun x => .next (handRow s x.2 l rq v)) := rfl
  exact List.map_inj_left.mp rows _ h

/-- Settles O31: the requests of Echo by the order of their checks, a register's write by the steps of R533, and the rows
of one register by the table that names them. -/
theorem registerRequestRows : Obligations.RegisterRequestRows := by
  refine ⟨fun s hp => ?requests, fun s l n v hp => ⟨?writes, ?rows, ?handActs⟩⟩
  case requests =>
    intro answered
    have hans : ∀ u m st hand data, respondReg u m st hand data = answered u m st hand data := respondReg_eq
    simp only [← hans]
    refine ⟨fun m hm hu => ⟨exec_regReq_held hp hm hu, exec_regReq_malformed hp hm hu, exec_regReq_busy hp hm hu⟩,
      fun m _ hd => ⟨_, exec_regReq_down hp hd, logChip_echoQ .., recordsMade_logChip ..⟩,
      fun m rest policy hq ho x => exec_regAccess_write hq ho policy,
      fun m rest policy x hq ho => exec_regAccess_read hq ho policy,
      fun m rest policy hq hl => exec_regAccess_reloading hq hl policy,
      fun m rest policy hq ho ha he hs hl hlt => ?_, fun policy hq => exec_regAccess_none hq policy⟩
    have hx := exec_regAccess_dayPeriod hq ho ha he hs hl policy
    rw [Nat.mod_eq_of_lt hlt] at hx
    exact ⟨_, hx, by simp [respondReg_eq]⟩
  case writes =>
    exact fun r a x hr hh hs hl => ⟨fun st hc hd => hostWrite_rejected hs hl hr hh hc hd,
      fun hk hc => hostWrite_effect hs hl hr hh hc hk⟩
  case rows =>
    intro i ok a w h
    rw [exec_of_mem_registerRows h]
    refine ⟨fun hok st u hx => ?_, fun hok => ?_⟩
    · rw [hok, regRow_of_ok hp hx]
    · rw [hok, regRow_of_not_ok]
  case handActs =>
    intro i act rq h
    rw [exec_of_mem_handRows h]
    exact ⟨fun ha st u hx => by rw [handRow_of_act hp ha hx], fun ha => by rw [handRow_of_not_act ha]⟩

end Sys2Proof.Machine
end

section
/-!
PROOFS. What a fold over the parts of the state leaves as it was, and what a write held for Dusk leaves of the Day (R24, R29).
-/

namespace Sys2Proof.Machine

/-- What no step of a fold changes, the fold does not change. -/
theorem foldl_kept {σ α β : Type} (g : σ → β) {f : σ → α → σ} (hf : ∀ s x, g (f s x) = g s) (l : List α) (s : σ) :
    g (l.foldl f s) = g s := by
  induction l generalizing s with
  | nil => rfl
  | cons x t ih => rw [List.foldl_cons, ih, hf]

/-- A CHIMNEY_ARR changes what has been sent and its count alone. -/
theorem sendArr_eq (s : State) (body : List (Nat × Nat)) :
    sendArr s body = { s with out := (sendArr s body).out, msgSeq := (sendArr s body).msgSeq } := by
  unfold sendArr sendMsg
  split
  · split <;> rfl
  · rfl

/-- A break of a slot changes the slots, the outcomes on their way, the log and what has been sent alone (R322). -/
theorem breakSlot_changes (s : State) (n : Nat) (who : Option Nat) (base : Bool) : ∃ slots news log out seq,
    breakSlot s n who base = { s with slots := slots, news := news, log := log, out := out, msgSeq := seq } := by
  unfold breakSlot
  dsimp only
  split
  · exact ⟨_, _, _, _, _, rfl⟩
  · split
    · rw [sendArr_eq]
      cases who with
      | none => exact ⟨_, _, _, _, _, rfl⟩
      | some m => cases base <;> exact ⟨_, _, _, _, _, rfl⟩
    · cases who with
      | none => exact ⟨_, _, _, _, _, rfl⟩
      | some m => cases base <;> exact ⟨_, _, _, _, _, rfl⟩

/-- What a Dusk goes by: the Day timer, the writes held for it, and the configuration with its pending reload. -/
def duskPart (s : State) : Day × List PendWrite × Cfg := (s.day, s.held, s.cfg)

@[simp] theorem duskPart_breakSlot (s : State) (n : Nat) (who : Option Nat) (base : Bool) :
    duskPart (breakSlot s n who base) = duskPart s := by
  obtain ⟨_, _, _, _, _, h⟩ := breakSlot_changes s n who base
  rw [h]
  rfl

@[simp] theorem duskPart_clearMembers (s : State) (n : Nat) : duskPart (clearMembers s n) = duskPart s := by
  refine foldl_kept duskPart (fun s m => ?_) _ _
  split
  · rfl
  · exact foldl_kept duskPart (fun s cx => by split <;> rfl) _ _

@[simp] theorem duskPart_breakIfUnserved (s : State) (n : Nat) : duskPart (breakIfUnserved s n) = duskPart s := by
  unfold breakIfUnserved
  split
  · rfl
  · split
    · exact duskPart_breakSlot ..
    · rfl

@[simp] theorem duskPart_updSlot (s : State) (n : Nat) (f : Slot → Slot) : duskPart (updSlot s n f) = duskPart s := rfl

@[simp] theorem duskPart_applySlotWord (s : State) (n v : Nat) : duskPart (applySlotWord s n v) = duskPart s := by
  unfold applySlotWord
  dsimp only
  split
  · rw [duskPart_updSlot]
    split
    · exact duskPart_breakSlot ..
    · rfl
  · split
    · simp
    · split <;> simp

@[simp] theorem duskPart_idleTarget (s : State) (c : Nat) : duskPart (idleTarget s c) = duskPart s := by
  unfold idleTarget startRise
  dsimp only
  split <;> rfl

theorem duskPart_applyOpLim (s : State) (c v : Nat) : duskPart (applyOpLim s c v) = duskPart s := by
  unfold applyOpLim
  dsimp only
  split
  · rfl
  · exact duskPart_idleTarget ..

theorem duskPart_applyPhaseOp (s : State) (h v : Nat) : duskPart (applyPhaseOp s h v) = duskPart s := by
  unfold applyPhaseOp
  dsimp only
  split
  · rfl
  · exact foldl_kept duskPart duskPart_idleTarget ..

/-- Of what a Dusk goes by, period_ns and twilight_ns alone may differ. -/
def DayKept (s t : State) : Prop := ∃ a b, duskPart t = ({ s.day with period := a, twilight := b }, s.held, s.cfg)

theorem DayKept.of_eq {s t : State} (h : duskPart t = duskPart s) : DayKept s t := ⟨s.day.period, s.day.twilight, h⟩

theorem DayKept.trans {s t u : State} (h : DayKept s t) (k : DayKept t u) : DayKept s u := by
  obtain ⟨a, b, h⟩ := h
  obtain ⟨a', b', k⟩ := k
  simp only [duskPart, Prod.mk.injEq] at h
  exact ⟨a', b', by rw [k, h.1, h.2.1, h.2.2]⟩

/-- A write held for Dusk changes period_ns and twilight_ns alone of what a Dusk goes by, whatever register it names. -/
theorem applyHeld_dayKept (s : State) (key v : Nat) : DayKept s (applyHeld s key v) :=
  iteInduction (motive := DayKept s) (fun _ => ⟨v, s.day.twilight, rfl⟩) fun _ =>
    iteInduction (motive := DayKept s) (fun _ => ⟨s.day.period, v, rfl⟩) fun _ =>
    iteInduction (motive := DayKept s) (fun _ => .of_eq (duskPart_applyPhaseOp ..)) fun _ =>
    iteInduction (motive := DayKept s) (fun _ => .of_eq (duskPart_applyPhaseOp ..)) fun _ =>
    iteInduction (motive := DayKept s) (fun _ => .of_eq (duskPart_applySlotWord ..)) fun _ =>
    iteInduction (motive := DayKept s) (fun _ => .of_eq (duskPart_applyOpLim ..)) fun _ =>
    iteInduction (motive := DayKept s) (fun _ => .of_eq rfl) fun _ => .of_eq rfl

theorem applyHelds_dayKept (ws : List PendWrite) (s : State) :
    DayKept s (ws.foldl (fun s w => applyHeld s w.addr w.value.toNat) s) := by
  induction ws generalizing s with
  | nil => exact .of_eq rfl
  | cons w ws ih => exact (applyHeld_dayKept ..).trans (ih _)

end Sys2Proof.Machine
end

section
/-!
PROOFS. DAY_RUN_START and DAY_RUN_STOP (R24, R26, R519, R552).
-/

namespace Sys2Proof.Machine

/-- DAY_CTRL's one-to-clear marks and its source, as a write of v leaves them. -/
def dayCtrlMarks (d : Day) (v : Word) : Day :=
  { d with markLost := d.markLost && !wbit v 8, overrun := d.overrun && !wbit v 9, source := wbit v 1 }

/-- The Day timer after a write that starts or stops it: no Day is in force (R26, R552). -/
def dayTurned (d : Day) (run : Bool) : Day :=
  { d with run := run, inForce := false, ns := 0, gate := false, breakCores := [], localDusk := false }

/-- The two rows of DAY_CTRL are the write of that register. -/
theorem exec_dayRun {s : State} {v : Word} {i : Instr} (hs : Serves s) (hv : Clean v 0x303)
    (hi : (i, wbit v 0) ∈ [(Instr.dayRunStart v, true), (.dayRunStop v, false)]) :
    exec i s = .next (report (writeDayCtrl s v.toNat).2 (writeDayCtrl s v.toNat).1) := by
  have row : exec i s = .next (regRow s true 0x708 v) := by
    simp only [List.mem_cons, Prod.mk.injEq, List.not_mem_nil, or_false] at hi
    obtain ⟨rfl, h0⟩ | ⟨rfl, h0⟩ := hi
    · change Host.Outcome.next (regRow s (wbit v 0) 0x708 v) = _
      rw [h0]
    · change Host.Outcome.next (regRow s (!wbit v 0) 0x708 v) = _
      rw [h0, Bool.not_false]
  rw [row, regRow_chip hs (by decide) (by decide) hv (by decide) (by decide) (by decide) rfl]
  rfl

/-- A write that changes source while run is 1, or sets it in a standalone part, is rejected (R26, R519). -/
theorem writeDayCtrl_rejected {s : State} {v : Word}
    (h : (s.day.run = true ∧ wbit v 1 ≠ s.day.source) ∨ (s.tap.standalone = true ∧ wbit v 1 = true)) :
    writeDayCtrl s v.toNat = (.badState, s) := by
  refine if_pos ?_
  simpa [wbit] using h

/-- Any other write, by the bit run: the marks cleared, then the Day timer started or stopped, or neither (R24, R26). -/
theorem writeDayCtrl_accepted {s : State} {v : Word} (hsrc : s.day.run = true → wbit v 1 = s.day.source)
    (hsa : s.tap.standalone = true → wbit v 1 = false) :
    writeDayCtrl s v.toNat = (.done,
      if wbit v 0 = s.day.run then { s with day := dayCtrlMarks s.day v }
      else if wbit v 0 = true then { s with day := dayTurned (dayCtrlMarks s.day v) true }
      else takeHeld { s with day := dayTurned (dayCtrlMarks s.day v) false }) := by
  have ok : ¬ ((s.day.run && bitN v.toNat 1 != s.day.source) || (s.tap.standalone && bitN v.toNat 1)) = true := by
    simp only [Bool.or_eq_true, Bool.and_eq_true, bne_iff_ne]
    rintro (⟨hr, hn⟩ | ⟨ht, hb⟩)
    · exact hn (hsrc hr)
    · exact absurd hb (by simpa [wbit] using hsa ht)
  unfold writeDayCtrl
  dsimp only
  rw [if_neg ok]
  change _ = (Status.done, if bitN v.toNat 0 = s.day.run then _ else if bitN v.toNat 0 = true then _ else _)
  cases h0 : bitN v.toNat 0 <;> cases hr : s.day.run <;> simp [dayCtrlMarks, dayTurned, wbit, hr]

/-- The only held write, of DAY_PERIOD, leaves its word in period_ns. -/
theorem takeHeld_dayPeriod {s : State} {w : PendWrite} (h : s.held = [w]) (ha : w.addr = 0x700) :
    (takeHeld s).day.period = w.value.toNat := by
  unfold takeHeld applyHeld
  simp [h, ha]

/-- Settles O21: both rows are the write of DAY_CTRL, which rejects, or clears the marks and starts or stops the timer. -/
theorem dayRunRows : Obligations.DayRunRows := by
  intro s v i d hs hv hi hd
  rw [exec_dayRun hs hv hi]
  refine ⟨fun hbad => by rw [writeDayCtrl_rejected hbad]; rfl, fun hsrc hsa => ?_⟩
  rw [writeDayCtrl_accepted hsrc hsa]
  have hmarks : d = dayCtrlMarks s.day v := hd
  subst hmarks
  refine ⟨fun hr => by rw [if_pos hr]; rfl, fun h1 hr => ?_, fun h0 hr => ?_⟩
  · rw [if_neg (by rw [h1, hr]; decide), if_pos h1]
    rfl
  · rw [if_neg (by rw [h0, hr]; decide), if_neg (by rw [h0]; decide)]
    obtain ⟨a, b, hp⟩ := applyHelds_dayKept s.held { s with held := [], day := dayTurned (dayCtrlMarks s.day v) false }
    simp only [duskPart, Prod.mk.injEq] at hp
    obtain ⟨hday, hheld, hcfg⟩ := hp
    refine ⟨_, rfl, rfl, rfl, hheld, congrArg Day.run hday, congrArg Day.inForce hday,
      (congrArg Day.number hday :), (congrArg Cfg.pending hcfg :), fun w hw ha => ?_⟩
    exact takeHeld_dayPeriod (s := { s with day := dayTurned (dayCtrlMarks s.day v) false }) hw ha

end Sys2Proof.Machine
end

section
/-!
PROOFS. What reset leaves (R23 to R25, R125, R130, R252, R253, R287, R427, R460, R495, R524; the TAP: log 8).
-/

namespace Sys2Proof.Machine

/-- Settles O4: reset lists no core, Gallery or bundle, so each reads as one at its reset values. -/
theorem resetValues : Obligations.ResetValues :=
  ⟨rfl, rfl, rfl, rfl, rfl, rfl, fun _ _ => ⟨rfl, decide_eq_true_iff⟩, fun _ _ => ⟨rfl, rfl⟩, fun _ => ⟨rfl, rfl⟩,
    fun _ => ⟨rfl, decide_eq_true_iff⟩, fun _ => ⟨rfl, rfl⟩, rfl, rfl⟩

end Sys2Proof.Machine
end

section
/-!
PROOFS. The ECC counters that a Dusk latches (R29 step 1, R31, R189).
-/

namespace Sys2Proof.Machine

/-- The shadow of a core's ECC counters takes in what is found in the A-cycles begun before the Dusk (R31, R189). -/
theorem eccDay_latchCore (s : State) (p : Nat) :
    (coreAt (latchCore s p) p).eccDay = (coreAt (catchUp (useCensus s p) p (nextCycle s p)) p).ecc := by
  simp [latchCore]

/-- A part in A-cycle 1 of Cavern 0, in which physical core 0 finds one corrected Pool codeword: the count still stands among
the effects of that cycle (log 13). -/
def findingInCycle : State :=
  { State.reset with
    cores := [(0, { Core.init with late := [{ cycle := 1, act := .poolErr 1 0 }] })],
    cavs := [(0, { Cav.init with running := true, fifths := 6 })] }

theorem findingInCycle_inv : Inv findingInCycle := ⟨by decide, by decide, .nil⟩

theorem eccDay_findingInCycle : (coreAt (duskLatch findingInCycle) 0).eccDay.poolCorr = 1 := by
  have latched : coreAt (duskLatch findingInCycle) 0 = coreAt (latchCore findingInCycle 0) 0 := rfl
  rw [latched, eccDay_latchCore]
  rfl

/-- Refutes O23: the statement lets the ECC shadow be the counters as they stand in the state, but the latch of a Dusk first counts
what the present A-cycle finds (`eccDay_latchCore`). In `findingInCycle` the counters stand at 0 and the shadow becomes 1. -/
theorem not_duskEndsDay : ¬ Obligations.DuskEndsDay := by
  rintro ⟨_, latch, _⟩
  obtain ⟨ecc, _⟩ := latch findingInCycle findingInCycle_inv
  have shadow : (coreAt (duskLatch findingInCycle) 0).eccDay.poolCorr = 0 := congrArg Ecc.poolCorr (ecc 0 rfl).1
  rw [eccDay_findingInCycle] at shadow
  exact absurd shadow (by decide)

end Sys2Proof.Machine
end

section
/-!
PROOFS. The Day's gates, marks before their time, and the first Dawn (R26 to R30, R352, R385, R420, R438, R553).
-/

namespace Sys2Proof.Machine

/-- A key that a table does not list reads as the default. -/
theorem Store.get_of_not_mem {α : Type} (d : α) {m : Store α} {i : Nat} (h : i ∉ m.map (·.1)) : Store.get d m i = d := by
  induction m with
  | nil => rfl
  | cons e t ih =>
    rw [List.map_cons, List.mem_cons, not_or] at h
    rw [Store.get, if_neg h.1, ih h.2]

/-! The reload of the allotments at Dawn (R385). -/

/-- An allotment as a Dawn reloads it: its register's counts, nothing issued or spent. -/
def Allot.reloaded (a : Allot) : Allot :=
  { a with remV := a.vein, remS := a.sump, remD := a.deep, issued := 0, spentV := false, spentS := false, spentD := false }

theorem allotAt_reloadAllots (k : Core) {q : Nat} (hq : q = 2 ∨ q = 3) :
    allotAt (reloadAllots k) q = (allotAt k q).reloaded := by
  have two : reloadAllots k = setAllot (setAllot k 2 (allotAt k 2).reloaded) 3
      (allotAt (setAllot k 2 (allotAt k 2).reloaded) 3).reloaded := rfl
  rw [two]
  rcases hq with rfl | rfl <;> simp [allotAt_setAllot]

/-- The reload at a list of cores: each core of it has its allotments reloaded, however often it is listed. -/
theorem allotAt_reloadCores (ps : List Nat) (s : State) (p : Nat) {q : Nat} (hq : q = 2 ∨ q = 3) :
    allotAt (coreAt (ps.foldl (fun s p => updCore s p reloadAllots) s) p) q =
      if p ∈ ps then (allotAt (coreAt s p) q).reloaded else allotAt (coreAt s p) q := by
  induction ps generalizing s with
  | nil => rfl
  | cons x ps ih =>
    rw [List.foldl_cons, ih, coreAt_updCore]
    by_cases hx : p = x
    · subst hx
      simp only [if_true, List.mem_cons_self, allotAt_reloadAllots _ hq]
      exact ite_self _
    · simp only [hx, if_false, List.mem_cons, false_or]

/-- The Pool and Flowstone of a core. -/
def storesAt (p : Nat) (s : State) : Pool × Flow := ((coreAt s p).pool, (coreAt s p).flow)

theorem storesAt_reloadAllots (p : Nat) (s : State) (i : Nat) : storesAt p (updCore s i reloadAllots) = storesAt p s := by
  unfold storesAt
  rw [coreAt_updCore]
  split
  · next h => subst h; rfl
  · rfl

theorem memoryKept_of_storesAt {s t : State} {p : Nat} (h : storesAt p t = storesAt p s) : MemoryKept s t p := by
  simp only [storesAt, Prod.mk.injEq] at h
  exact ⟨fun r => by simp only [rowAt, h.1], fun u => by simp only [trowAt, h.2]⟩

/-! Dawn. -/

/-- What the targets of the Caverns do not depend on: everything but the Caverns. -/
theorem dawnTargets_changes (cs : List Nat) (s : State) : ∃ cavs, cs.foldl dawnTarget s = { s with cavs := cavs } := by
  induction cs generalizing s with
  | nil => exact ⟨s.cavs, rfl⟩
  | cons c cs ih =>
    obtain ⟨cavs, h⟩ := ih (dawnTarget s c)
    exact ⟨cavs, h.trans rfl⟩

/-- The reload at Dawn changes the cores alone. -/
theorem reloadCores_changes (ps : List Nat) (s : State) :
    ps.foldl (fun s p => updCore s p reloadAllots) s =
      { s with cores := (ps.foldl (fun s p => updCore s p reloadAllots) s).cores } := by
  induction ps generalizing s with
  | nil => rfl
  | cons p ps ih => exact (ih _).trans rfl

theorem dawn_changes (s : State) : ∃ cavs, dawn s = { s with
    cores := ((s.cores.map (·.1)).foldl (fun s p => updCore s p reloadAllots) s).cores, cavs := cavs,
    day := { s.day with inForce := s.day.run, ns := 0, gate := false } } := by
  unfold dawn
  dsimp only
  rw [reloadCores_changes]
  exact dawnTargets_changes ..

theorem allotAt_dawn (s : State) (p : Nat) {q : Nat} (hq : q = 2 ∨ q = 3) :
    allotAt (coreAt (dawn s) p) q = (allotAt (coreAt s p) q).reloaded := by
  obtain ⟨cavs, h⟩ := dawn_changes s
  have cores : coreAt (dawn s) p = coreAt ((s.cores.map (·.1)).foldl (fun s p => updCore s p reloadAllots) s) p := by
    rw [h]
    rfl
  rw [cores, allotAt_reloadCores _ _ _ hq]
  split
  · rfl
  · next hp =>
    have fresh : coreAt s p = Core.init := Store.get_of_not_mem _ hp
    rw [fresh]
    rfl

theorem memoryKept_dawn (s : State) (p : Nat) : MemoryKept s (dawn s) p := by
  obtain ⟨cavs, h⟩ := dawn_changes s
  refine memoryKept_of_storesAt ?_
  rw [h]
  exact foldl_kept (storesAt p) (storesAt_reloadAllots p) (s.cores.map (·.1)) s

/-! The log. -/

/-- A record of the chip block stands among those of its M-cycle, with the Day and its ns (R508). -/
theorem mem_fresh_logChip (s : State) (cls : Nat) (st : Status) (rep : Bool) (body : List (Nat × Nat)) :
    ∃ r, r ∈ (logChip s cls st rep body).log.fresh ∧ r.reported = rep ∧ r.day = s.day.number :=
  ⟨_, mem_insertLog.mpr (.inl rfl), rfl, rfl⟩

/-! The rows. -/

theorem exec_daybreakEnd (s : State) : exec .daybreakEnd s = .next (
    if s.day.inForce = true ∧ s.day.ns < 128 then s else { s with day := { s.day with breakCores := [] } }) := rfl

theorem exec_twilightBegin (s : State) : exec .twilightBegin s = .next (
    if (!s.day.inForce || decide (s.day.ns < s.day.period - s.day.twilight)) = true then s
    else { s with day := { s.day with gate := true } }) := rfl

/-- FIRST_DAWN at its time is a Dawn, with mark_lost where it stands for a mark (R26). -/
theorem exec_firstDawn (s : State) : exec .firstDawn s = .next (
    if (!s.day.run || s.day.inForce) = true then s
    else if s.day.ns < (if s.day.source then s.day.period + 64 else 128) then s
    else dawn (if s.day.source then noteMarkLost s else s)) := by
  change execFirstDawn s = _
  unfold execFirstDawn
  cases s.day.source <;> rfl

theorem exec_firstDawn_early {s : State}
    (h : s.day.run = false ∨ s.day.inForce = true ∨ s.day.ns < (if s.day.source then s.day.period + 64 else 128)) :
    exec .firstDawn s = .next s := by
  rw [exec_firstDawn]
  rcases h with hr | hf | ht
  · rw [if_pos (by simp [hr])]
  · rw [if_pos (by simp [hf])]
  · rw [if_pos ht, ite_self]

/-- LOCAL_DUSK at its time is a Dusk, with mark_lost where it stands for a mark (R27). DEDUCED (log 30). -/
theorem exec_localDusk (s : State) : exec .localDusk s = .next (
    if (!s.day.run || !s.day.inForce) = true then s
    else if s.day.ns < (if s.day.source then s.day.period + 64 else s.day.period) then s
    else dusk (if s.day.source then noteMarkLost s else s)) := by
  change execLocalDusk s = _
  unfold execLocalDusk
  dsimp only
  cases s.day.source <;> rfl

theorem exec_localDusk_early {s : State}
    (h : s.day.run = false ∨ s.day.inForce = false ∨ s.day.ns < (if s.day.source then s.day.period + 64 else s.day.period)) :
    exec .localDusk s = .next s := by
  rw [exec_localDusk]
  rcases h with hr | hf | ht
  · rw [if_pos (by simp [hr])]
  · rw [if_pos (by simp [hf])]
  · rw [if_pos ht, ite_self]

theorem exec_duskMark_down {s : State} {m : Nat} (h : (bunAt s (2176 + m)).state ≠ 2) :
    exec (.duskMark m) s = .next (logChip s 7 .done false [(2, 2176 + m), (1, 3)]) :=
  congrArg Host.Outcome.next (onMsg_down h ..)

/-- A mark on a link in UP (R26, R27). -/
theorem exec_duskMark_up {s : State} {m : Nat} (hm : m < 8) (h : (bunAt s (2176 + m)).state = 2) :
    exec (.duskMark m) s = .next (
      if (!s.day.run || !s.day.source) = true then s
      else if (!s.day.inForce) = true then dawn { s with day := { s.day with localDusk := false } }
      else if s.day.ns ≤ 64 then { s with day := { s.day with localDusk := false } }
      else if s.day.ns + 64 < s.day.period then
        dusk (logChip { s with day := { s.day with localDusk := false } } 8 .done true [])
      else dusk { s with day := { s.day with localDusk := false } }) :=
  congrArg Host.Outcome.next (onMsg_up hm h ..)

/-- What a first Dawn leaves (R26, R385, R553); `lost` where it is taken for want of a mark. -/
def FirstDawnLeaves (s t : State) (lost : Bool) : Prop :=
  t.day.inForce = true ∧ t.day.ns = 0 ∧
     t.day.gate = false ∧ t.day.number = s.day.number ∧ t.day.shadowDay = s.day.shadowDay ∧ t.held = s.held ∧
     t.day.markLost = (s.day.markLost || lost) ∧
     (lost = true → ∃ r, r ∈ t.log.fresh ∧ r.reported = true ∧ r.day = s.day.number) ∧
     (∀ p q, q = 2 ∨ q = 3 → allotAt (coreAt t p) q = (allotAt (coreAt s p) q).reloaded) ∧
     ∀ p, MemoryKept s t p

theorem firstDawnLeaves_dawn {s u : State} {lost : Bool} (hr : u.day.run = true) (hn : u.day.number = s.day.number)
    (hd : u.day.shadowDay = s.day.shadowDay) (hh : u.held = s.held) (hl : u.day.markLost = (s.day.markLost || lost))
    (hlog : lost = true → ∃ r, r ∈ u.log.fresh ∧ r.reported = true ∧ r.day = s.day.number) (hc : u.cores = s.cores) :
    FirstDawnLeaves s (dawn u) lost := by
  have core (p : Nat) : coreAt u p = coreAt s p := by simp only [coreAt, hc]
  have allots (p q : Nat) (hq : q = 2 ∨ q = 3) : allotAt (coreAt (dawn u) p) q = (allotAt (coreAt s p) q).reloaded := by
    rw [allotAt_dawn _ _ hq, core]
  have memory (p : Nat) : MemoryKept s (dawn u) p := by
    have h := memoryKept_dawn u p
    simp only [MemoryKept, core] at h ⊢
    exact h
  obtain ⟨cavs, h⟩ := dawn_changes u
  rw [h] at allots memory ⊢
  exact ⟨hr, rfl, rfl, hn, hd, hh, hl, hlog, allots, memory⟩

theorem exec_firstDawn_dawns {s : State} (hr : s.day.run = true) (hf : s.day.inForce = false)
    (ht : (if s.day.source then s.day.period + 64 else 128) ≤ s.day.ns) :
    ∃ t, exec .firstDawn s = .next t ∧ FirstDawnLeaves s t s.day.source := by
  refine ⟨_, exec_firstDawn s, ?_⟩
  rw [if_neg (by simp [hr, hf]), if_neg (Nat.not_lt.mpr ht)]
  cases hs : s.day.source with
  | false => exact firstDawnLeaves_dawn hr rfl rfl rfl (by simp) (by simp) rfl
  | true => exact firstDawnLeaves_dawn hr rfl rfl rfl (by simp [noteMarkLost]) (fun _ => mem_fresh_logChip ..) rfl

theorem exec_duskMark_dawns {s : State} {m : Nat} (hr : s.day.run = true) (hf : s.day.inForce = false) (hm : m < 8)
    (hu : (bunAt s (2176 + m)).state = 2) (hs : s.day.source = true) :
    ∃ t, exec (.duskMark m) s = .next t ∧ FirstDawnLeaves s t false := by
  refine ⟨_, exec_duskMark_up hm hu, ?_⟩
  rw [if_neg (by simp [hr, hs]), if_pos (by simp [hf])]
  exact firstDawnLeaves_dawn hr rfl rfl rfl (by simp) (by simp) rfl

/-- Settles O22: the gates and marks by the conditions of their rows; both rows of a first Dawn by what `dawn` leaves. -/
theorem dayGatesAndFirstDawn : Obligations.DayGatesAndFirstDawn := by
  refine ⟨fun s m => ⟨fun h => ?lift, fun hf hn => ?stay, fun hf hn => ?set, fun h => ?unset, exec_firstDawn_early,
    exec_localDusk_early, fun hm hu h => ?unheard, fun hm hu hr hs hf hn => ?late,
    fun _ hd => ⟨_, exec_duskMark_down hd, rfl, rfl, rfl, recordsMade_logChip ..⟩⟩,
    fun s hr hf => ⟨exec_firstDawn_dawns hr hf, fun m hm hu hs => exec_duskMark_dawns hr hf hm hu hs⟩⟩
  case lift => rw [exec_daybreakEnd, if_neg fun ⟨hf, hn⟩ => h.elim (by simp [hf]) (by omega)]
  case stay => rw [exec_daybreakEnd, if_pos ⟨hf, hn⟩]
  case set => rw [exec_twilightBegin, if_neg (by simpa [hf] using hn)]
  case unset => rw [exec_twilightBegin, if_pos (by simpa using h)]
  case unheard => rw [exec_duskMark_up hm hu, if_pos (by simpa using h)]
  case late => rw [exec_duskMark_up hm hu, if_neg (by simp [hr, hs]), if_neg (by simp [hf]), if_pos hn]

end Sys2Proof.Machine
end

section
/-!
PROOFS. The map from logical to physical cores, and what a core's reset leaves in the core (R19, R363, R490).
-/

namespace Sys2Proof.Machine

/-- A physical core serves one logical id (R19). -/
theorem physOf_inj {s : State} {l m p : Nat} (hl : physOf s l = some p) (hm : physOf s m = some p) : l = m := by
  have core {l : Nat} (h : physOf s l = some p) : l < 2048 ∧ mapCore s l = p := by
    unfold physOf at h
    split_ifs at h
    exact ⟨by omega, Option.some.inj h⟩
  obtain ⟨hl, el⟩ := core hl
  obtain ⟨hm, em⟩ := core hm
  simp only [mapCore, galOf, if_pos hl] at el
  simp only [mapCore, galOf, if_pos hm] at em
  have place : l / 64 = m / 64 ∧ l / 16 % 4 = m / 16 % 4 := by split at el <;> split at em <;> omega
  rw [place.1, place.2] at el
  split at el <;> split at em <;> omega

/-- The state inside a core that its reset clears, with the rows that started commands have still to write. -/
def resetPart (k : Core) :=
  (k.queues, k.ctxs, k.sync.flags, k.sync.counters, k.sync.due, k.flow.desc, k.pool.marks, k.pool.was, k.mv.outb, k.mv.runs,
    k.mv.creds, k.mv.inb, k.late, k.outp.pend, k.outp.run, k.vec.runEnd, k.op.busy)

/-- A core in which all of that is as in a core never used. -/
def Cleared (k : Core) : Prop := resetPart k = resetPart Core.init

theorem Cleared.fields {k : Core} (h : Cleared k) :
    k.queues = [] ∧ k.ctxs = [] ∧ k.sync.flags = [] ∧ k.sync.counters = [] ∧ k.sync.due = [] ∧ k.flow.desc = [] ∧
    k.pool.marks = [] ∧ k.pool.was = [] ∧ k.mv.outb = [] ∧ k.mv.runs = [] ∧ k.mv.creds = [] ∧ k.mv.inb = [] ∧ k.late = [] ∧
    k.outp.pend = none ∧ k.outp.run = none ∧ k.vec.runEnd = none ∧ k.op.busy = false := by
  simpa only [Cleared, resetPart, Core.init, Prod.mk.injEq] using h

/-- A cleared core has no command at a queue's head, asleep, or pending in its output path, and no counter enabled. -/
theorem Cleared.idle {k : Core} (h : Cleared k) :
    (∀ q, (queueAt k q).head = none ∧ (queueAt k q).sleep = none) ∧ k.outp.pend = none ∧ ∀ n, (cntAt k n).enable = false := by
  obtain ⟨hq, _, _, hc, _, _, _, _, _, _, _, _, _, hp, _⟩ := h.fields
  refine ⟨fun q => ?_, hp, fun n => ?_⟩
  · rw [queueAt, hq]
    exact ⟨rfl, rfl⟩
  · rw [cntAt, hc]
    rfl

/-- What a reset left at a core stands in a later one: its cleared state, its Pool rows, and no ring enabled anew. -/
structure StillReset (k k' : Core) : Prop where
  part : resetPart k' = resetPart k
  rows : ∀ r, rowAt k' r = rowAt k r
  rings : ∀ n, (ringAt k' n).enable = true → (ringAt k n).enable = true

theorem StillReset.trans {a b c : Core} (h : StillReset a b) (k : StillReset b c) : StillReset a c :=
  ⟨k.part.trans h.part, fun r => (k.rows r).trans (h.rows r), fun n e => h.rings n (k.rings n e)⟩

theorem StillReset.cleared {k k' : Core} (h : StillReset k k') (c : Cleared k) : Cleared k' := h.part.trans c

/-- A core that differs in other fields only. -/
theorem StillReset.of_eq {k k' : Core} (part : resetPart k' = resetPart k) (rows : k'.pool.rows = k.pool.rows)
    (rings : k'.pool.rings = k.pool.rings) : StillReset k k' :=
  ⟨part, fun r => by rw [rowAt, rowAt, rows], fun n e => by rwa [ringAt, rings] at e⟩

/-- A ring that is not enabled by its change. -/
theorem StillReset.setRing {k : Core} {n : Nat} {r : Ring} (h : r.enable = true → (ringAt k n).enable = true) :
    StillReset k (setRing k n r) := by
  refine ⟨rfl, fun _ => rfl, fun i e => ?_⟩
  rw [ringAt_setRing] at e
  split at e
  · next hi => rw [hi]; exact h e
  · exact e

/-- The checker of a core that is reset drops comparisons, and keeps what a reset left in it (R102). -/
theorem dropCompare_stillReset {k : Core} (h : Cleared k) (c : Nat) : StillReset k (dropCompare k c) := by
  obtain ⟨_, _, _, _, _, hd, _, _, _, _, _, _, hl, _⟩ := h.fields
  unfold dropCompare
  split
  · exact .of_eq rfl rfl rfl
  · exact .of_eq (by simp [resetPart, hd, hl]) rfl rfl

/-- A credit that returns to a ring or window of a core enables neither (R244). -/
theorem recredit_stillReset (k : Core) (e : InEntry) : StillReset k (recredit k e) := by
  have same : StillReset k k := .of_eq rfl rfl rfl
  unfold recredit
  dsimp only
  split
  · split
    · next he => exact .setRing fun _ => he
    · exact same
  · split
    · split
      · exact .of_eq rfl rfl rfl
      · exact same
    · exact same

/-! The rows that a running command had still to write (R165, R187, R363). -/

/-- The Pool of a core as far as its rows and rings go. -/
def rowPart (k : Core) := (k.pool.rows, k.pool.was, k.pool.rings)

theorem rowPart_makeLate (k : Core) (c : Nat) (a : LateAct) : rowPart (makeLate k c a) = rowPart k := by
  cases a with
  | count cx tag n =>
    unfold makeLate makeCount
    dsimp only
    split <;> rfl
  | passEnd id t =>
    unfold makeLate
    dsimp only
    split <;> rfl
  | _ => rfl

theorem rowPart_settleLate (k : Core) (c : Nat) : rowPart (settleLate k c) = rowPart k :=
  foldl_kept rowPart (fun k (x : Late) => rowPart_makeLate k x.cycle x.act) _ _

theorem rowPart_dropCompare (k : Core) (c : Nat) : rowPart (dropCompare k c) = rowPart k := by
  unfold dropCompare
  split <;> rfl

theorem rowAt_of_rowPart {k k' : Core} (h : rowPart k' = rowPart k) (r : Nat) : rowAt k' r = rowAt k r := by
  simp only [rowPart, Prod.mk.injEq] at h
  rw [rowAt, rowAt, h.1]

/-- The first write of a row that a started command had still to make in cycle c. -/
def undoneWrite (k : Core) (c r : Nat) : Option RowWas :=
  (k.pool.was.filter fun w => decide (c ≤ w.cycle ∧ w.row = r)).head?

theorem rowAt_putBack (k : Core) (w : RowWas) (r : Nat) : rowAt (putBack k w) r = if r = w.row then w.data else rowAt k r :=
  rowAt_setRow k w.row r w.data

theorem rowAt_putBacks (ws : List RowWas) (k : Core) (r : Nat) : rowAt (ws.foldr (fun w k => putBack k w) k) r =
    (((ws.filter fun w => decide (w.row = r)).head?).map (·.data)).getD (rowAt k r) := by
  induction ws with
  | nil => rfl
  | cons w ws ih =>
    rw [List.foldr_cons, rowAt_putBack, ih, List.filter_cons]
    by_cases h : w.row = r
    · simp [h]
    · simp [h, Ne.symm h]

/-- A row with a write undone holds what it held before the first such write; any other holds what it held. -/
theorem rowAt_undoRows (k : Core) (c r : Nat) :
    rowAt (undoRows k c) r = ((undoneWrite k c r).map (·.data)).getD (rowAt k r) := by
  refine (rowAt_putBacks _ k r).trans ?_
  rw [List.filter_filter, undoneWrite]
  simp only [Bool.decide_and, Bool.and_comm]

theorem rings_undoRows (k : Core) (c : Nat) : (undoRows k c).pool.rings = k.pool.rings := by
  have kept (ws : List RowWas) : (ws.foldr (fun w k => putBack k w) k).pool.rings = k.pool.rings := by
    induction ws with
    | nil => rfl
    | cons w ws ih => exact ih
  exact kept _

/-- A core as its reset in cycle c leaves it, its traffic and its rings 0 to 3 apart. -/
def clearedCore (k : Core) (c : Nat) : Core :=
  { resetInside (cancelOutbound k).2 c with mv := { (cancelOutbound k).2.mv with inb := [] } }

theorem clearedCore_cleared (k : Core) (c : Nat) : Cleared (clearedCore k c) := rfl

theorem rowAt_clearedCore (k : Core) (c r : Nat) :
    rowAt (clearedCore k c) r = ((undoneWrite k c r).map (·.data)).getD (rowAt k r) := by
  have settled : rowPart (settleLate (cancelOutbound k).2 c) = rowPart k := rowPart_settleLate ..
  have h := rowAt_undoRows (settleLate (cancelOutbound k).2 c) c r
  rw [rowAt_of_rowPart settled, undoneWrite, (Prod.mk.inj (Prod.mk.inj settled).2).1] at h
  exact h

theorem rings_clearedCore (k : Core) (c : Nat) : (clearedCore k c).pool.rings = k.pool.rings := by
  have settled : rowPart (settleLate (cancelOutbound k).2 c) = rowPart k := rowPart_settleLate ..
  exact (rings_undoRows (settleLate (cancelOutbound k).2 c) c).trans (Prod.mk.inj (Prod.mk.inj settled).2).2

/-- A core that stands reset is not changed in that by another reset. -/
theorem clearedCore_stillReset {k : Core} (h : Cleared k) (c : Nat) : StillReset k (clearedCore k c) := by
  obtain ⟨_, _, _, _, _, _, _, hw, _⟩ := h.fields
  refine ⟨(clearedCore_cleared k c).trans h.symm, fun r => ?_, fun n e => ?_⟩
  · rw [rowAt_clearedCore, undoneWrite, hw]
    rfl
  · rwa [ringAt, rings_clearedCore] at e

end Sys2Proof.Machine
end

section
/-!
PROOFS. What the rest of a reset keeps once it has taken effect at a core: one lemma for each operation of R490 to R492 and
of the ends of commands it brings about (R102, R112, R122, R244, R245, R322, R327).
-/

namespace Sys2Proof.Machine

/-- From z to t: the resets under way, the boot record and the map as they were, every id reset in the Day still noted, and
what a reset left at physical core p standing. -/
structure ResetStands (p : Nat) (z t : State) : Prop where
  resets : t.resets = z.resets
  boot : t.boot = z.boot
  outCol : ∀ g, (galAt t g).outCol = (galAt z g).outCol
  offline : ∀ c, (cavAt t c).offline = (cavAt z c).offline
  noted : ∀ l, l ∈ z.day.resetCores → l ∈ t.day.resetCores
  core : Cleared (coreAt z p) → StillReset (coreAt z p) (coreAt t p)

theorem ResetStands.refl (p : Nat) (z : State) : ResetStands p z z :=
  ⟨rfl, rfl, fun _ => rfl, fun _ => rfl, fun _ h => h, fun _ => .of_eq rfl rfl rfl⟩

section
variable {p : Nat} {z s : State} (h : ResetStands p z s)
include h

theorem ResetStands.trans {t : State} (k : ResetStands p s t) : ResetStands p z t :=
  ⟨k.resets.trans h.resets, k.boot.trans h.boot, fun g => (k.outCol g).trans (h.outCol g),
    fun c => (k.offline c).trans (h.offline c), fun l hl => k.noted l (h.noted l hl),
    fun c => (h.core c).trans (k.core ((h.core c).cleared c))⟩

/-- The core still stands cleared. -/
theorem ResetStands.cleared (c : Cleared (coreAt z p)) : Cleared (coreAt s p) := (h.core c).cleared c

theorem ResetStands.physOf_eq (l : Nat) : physOf s l = physOf z l := by
  simp only [physOf, mapCore, h.outCol, h.offline, h.boot]

/-- A state that differs in other fields only. -/
theorem ResetStands.same {t : State}
    (e : (t.resets, t.boot, t.gals, t.cavs, t.cores, t.day) = (s.resets, s.boot, s.gals, s.cavs, s.cores, s.day)) :
    ResetStands p z t := by
  simp only [Prod.mk.injEq] at e
  obtain ⟨er, eb, eg, ec, ek, ed⟩ := e
  refine h.trans ⟨er, eb, fun g => by rw [galAt, eg]; rfl, fun c => by rw [cavAt, ec]; rfl, fun l hl => by rwa [ed],
    fun _ => ?_⟩
  have core : coreAt t p = coreAt s p := by simp only [coreAt, ek]
  rw [core]
  exact .of_eq rfl rfl rfl

theorem ResetStands.foldl {α : Type} {f : State → α → State} (hf : ∀ t x, ResetStands p z t → ResetStands p z (f t x))
    (l : List α) : ResetStands p z (l.foldl f s) := by
  induction l generalizing s with
  | nil => exact h
  | cons x t ih => exact ih (hf s x h)

theorem ResetStands.setCore {i : Nat} {k : Core}
    (hk : Cleared (coreAt z p) → i = p → StillReset (coreAt s p) k) : ResetStands p z (setCore s i k) := by
  refine ⟨h.resets, h.boot, h.outCol, h.offline, h.noted, fun c => (h.core c).trans ?_⟩
  rw [coreAt_setCore]
  split
  · next e => exact hk c e.symm
  · exact .of_eq rfl rfl rfl

theorem ResetStands.updCore {i : Nat} {f : Core → Core}
    (hf : Cleared (coreAt z p) → i = p → StillReset (coreAt s p) (f (coreAt s p))) : ResetStands p z (updCore s i f) :=
  h.setCore fun c e => by subst e; exact hf c rfl

theorem ResetStands.updGal {g : Nat} {f : Gal → Gal} (hf : (f (galAt s g)).outCol = (galAt s g).outCol) :
    ResetStands p z (updGal s g f) := by
  refine ⟨h.resets, h.boot, fun i => ?_, h.offline, h.noted, h.core⟩
  rw [galAt_updGal]
  split
  · next e => rw [hf, e, h.outCol]
  · exact h.outCol i

theorem ResetStands.updCav {c : Nat} {f : Cav → Cav} (hf : (f (cavAt s c)).offline = (cavAt s c).offline) :
    ResetStands p z (updCav s c f) := by
  refine ⟨h.resets, h.boot, h.outCol, fun i => ?_, h.noted, h.core⟩
  rw [cavAt_updCav]
  split
  · next e => rw [hf, e, h.offline]
  · exact h.offline i

/-! Records and answers, packets sent, credits and rings. -/

theorem logCore_stands (cls : Nat) (st : Status) (l : Nat) (rep : Bool) (body : List (Nat × Nat)) :
    ResetStands p z (logCore s cls st l rep body) := h.same rfl

theorem report_stands (st : Status) : ResetStands p z (report s st) := h.same rfl

theorem inject_stands (i src : Nat) (pkt : Packet) : ResetStands p z (inject s i src pkt) := by
  unfold inject injectFrom
  dsimp only
  split
  · exact h.updCore fun _ _ => .of_eq rfl rfl rfl
  · exact h.updCore fun _ _ => .of_eq rfl rfl rfl

theorem answerPkt_stands (i l : Nat) (port : Port) (pkt : Packet) (st : Status) :
    ResetStands p z (answerPkt s i l port pkt st) := by
  have told : ResetStands p z { s with answer := st } := h.same rfl
  unfold answerPkt
  cases port with
  | vein => exact inject_stands told ..
  | sump b errs => exact told.updCore fun _ _ => .of_eq rfl rfl rfl

theorem absorbInbound_stands (i l : Nat) (e : InEntry) : ResetStands p z (absorbInbound s i l e) := by
  unfold absorbInbound
  split
  · exact h
  · exact answerPkt_stands (h.updCore fun _ _ => recredit_stillReset ..) ..

theorem disableRing_stands (i l n : Nat) : ResetStands p z (disableRing s i l n) := by
  have off : ResetStands p z (setCore s i (setRing (coreAt s i) n
      { ringAt (coreAt s i) n with enable := false, outst := 0, withheld := 0 })) :=
    h.setCore fun _ e => by subst e; exact .setRing fun he => nomatch he
  unfold disableRing
  dsimp only
  split
  · exact inject_stands off ..
  · exact off

theorem grantRing_stands (i l n count : Nat) : ResetStands p z (grantRing s i l n count) := by
  unfold grantRing
  dsimp only
  split
  · exact h
  · split
    · exact h.setCore fun _ e => by subst e; exact .setRing fun he => he
    · exact inject_stands (h.setCore fun _ e => by subst e; exact .setRing fun he => he) ..

/-! Effects that come about before the reset. -/

theorem recordLate_stands (i c : Nat) (a : LateAct) : ResetStands p z (recordLate s i c a) := by
  cases a <;> exact h.same rfl

theorem catchUp_stands (i c : Nat) : ResetStands p z (catchUp s i c) := by
  unfold catchUp
  dsimp only
  split
  · exact h
  · next hd =>
    refine ResetStands.foldl (h.updCore fun hc e => ?_) (fun t x ht => recordLate_stands ht ..) _
    obtain ⟨_, _, _, _, _, _, _, _, _, _, _, _, hl, _⟩ := (h.cleared hc).fields
    subst e
    simp [hl] at hd

theorem resetChecker_stands (l : Nat) : ResetStands p z (resetChecker s l) := by
  unfold resetChecker
  split
  · exact h
  · exact h.updCore fun hc _ => dropCompare_stillReset (h.cleared hc) _

/-! The end of a command at another core. -/

section
variable {i : Nat} (hne : Cleared (coreAt z p) → i ≠ p)
include hne

theorem setCore_stands (k : Core) : ResetStands p z (setCore s i k) := h.setCore fun hc e => absurd e (hne hc)

theorem updCore_stands (f : Core → Core) : ResetStands p z (updCore s i f) := h.updCore fun hc e => absurd e (hne hc)

theorem updQueue_stands (q : Nat) (f : Queue → Queue) : ResetStands p z (updQueue s i q f) := updCore_stands h hne _

theorem markHw_stands (off : Nat) : ResetStands p z (markHw s i off) := updCore_stands h hne _

theorem endTrack_stands (id e d : Nat) (st : Status) : ResetStands p z (endTrack s i id e d st) := by
  unfold endTrack updTrack
  exact updCore_stands h hne _

theorem retire_stands (l q slot kind : Nat) (st : Status) : ResetStands p z (retire s i l q slot kind st) := by
  unfold retire
  exact updQueue_stands (logCore_stands h ..) hne ..

theorem stopBadRow_stands (l q : Nat) : ResetStands p z (stopBadRow s i l q) := by
  unfold stopBadRow
  dsimp only
  split
  · exact h
  · split
    · exact logCore_stands (updQueue_stands (updCore_stands h hne _) hne ..) ..
    · exact h

theorem leaveHead_stands (l q ready : Nat) : ResetStands p z (leaveHead s i l q ready) := by
  unfold leaveHead
  dsimp only
  split
  · exact stopBadRow_stands (grantRing_stands (markHw_stands (setCore_stands h hne _) hne _) ..) hne ..
  · exact setCore_stands h hne _

theorem dueDone_stands (c : Nat) (en : Bool) (flag setter ctx slot track : Nat) :
    ResetStands p z (dueDone s i c en flag setter ctx slot track) := by
  unfold dueDone
  split
  · exact updCore_stands h hne _
  · exact h

theorem retireDecoded_stands (l q c : Nat) (d : Decoded) (kind : Nat) (st : Status) :
    ResetStands p z (retireDecoded s i l q c d kind st) := by
  unfold retireDecoded
  exact report_stands (leaveHead_stands (retire_stands (updCore_stands (endTrack_stands h hne ..) hne _) hne ..) hne ..) _

theorem endPend_stands (l : Nat) (d : Decoded) (st : Status) : ResetStands p z (endPend s i l d st) := by
  unfold endPend
  exact report_stands (endTrack_stands (retire_stands (updCore_stands h hne _) hne ..) hne ..) _

end

theorem endSleep_stands (i l q c : Nat) (st : Status) (woken : Bool) : ResetStands p z (endSleep s i l q c st woken) := by
  unfold endSleep
  split
  · exact h
  · next w hw =>
    have hne : Cleared (coreAt z p) → i ≠ p := fun hc e => by
      rw [e, ((h.cleared hc).idle.1 q).2] at hw
      cases hw
    dsimp only
    refine leaveHead_stands ?_ hne ..
    split
    · exact dueDone_stands (report_stands (endTrack_stands (updQueue_stands h hne ..) hne ..) _) hne ..
    · exact retire_stands (report_stands (endTrack_stands (updQueue_stands h hne ..) hne ..) _) hne ..

/-! Gang passes, and the objects of a producer that was reset. -/

theorem failRendezvous_stands (g : Nat) (st : Status) (owe : Bool) : ResetStands p z (failRendezvous s g st owe) := by
  refine ResetStands.foldl (h.updGal rfl) (fun t a ht => ?_) _
  dsimp only
  split
  · exact ht
  · next i hi =>
    split
    · exact ht
    · next d hd =>
      refine retireDecoded_stands ht (fun hc e => ?_) ..
      rw [e, ((ht.cleared hc).idle.1 0).1] at hd
      cases hd

theorem resetRendezvous_stands (g : Nat) (hit : Nat → Bool) : ResetStands p z (resetRendezvous s g hit) := by
  have owed := h.updGal (g := g) (f := fun x => { x with owed := x.owed.filter fun i => !hit (memberOf g i) }) rfl
  unfold resetRendezvous
  dsimp only
  split
  · exact owed
  · split
    · exact owed.updGal rfl
    · exact failRendezvous_stands (owed.updGal rfl) ..

/-- A member of a Gallery that the reset misses is another core than p. -/
theorem poisonWriter_stands (g i tile slot id : Nat) (hmiss : physOf z (memberOf g i) ≠ some p) :
    ResetStands p z (poisonWriter s g i tile slot id) := by
  unfold poisonWriter
  split
  · exact h
  · next q hq =>
    refine logCore_stands (updCore_stands h (fun _ e => hmiss ?_) _) ..
    rw [← h.physOf_eq, hq, e]

theorem resetGangs_stands (g : Nat) {hit : Nat → Bool} (hmiss : ∀ l, hit l = false → physOf z l ≠ some p) :
    ResetStands p z (resetGangs s g hit) := by
  unfold resetGangs
  dsimp only
  split
  · exact h
  · refine ResetStands.foldl (h.updGal rfl) (fun t r ht => ?_) _
    have poisoned := ResetStands.foldl ht (f := fun s (w : Nat × Nat × Nat × Nat) =>
      if hit (memberOf g w.1) then s else poisonWriter s g w.1 w.2.1 w.2.2.1 w.2.2.2) (fun u w hu => by
        split
        · exact hu
        · next hw => exact poisonWriter_stands hu _ _ _ _ _ (hmiss _ (by simpa using hw))) r.writers
    split
    · exact poisoned
    · exact logCore_stands poisoned ..

theorem wakeAbandoned_stands (i l c : Nat) : ResetStands p z (wakeAbandoned s i l c) := by
  refine ResetStands.foldl h (fun t q ht => ?_) _
  dsimp only
  split
  · exact ht
  · split
    · exact endSleep_stands ht ..
    · exact ht

theorem abandonRing_stands (i l n : Nat) : ResetStands p z (abandonRing s i l n) := by
  have turned (k : Core) : StillReset k (setRing k n { ringAt k n with abandoned := true, outst := 0, withheld := 0 }) :=
    .setRing fun he => he
  unfold abandonRing
  dsimp only
  split
  · refine iteInduction (motive := ResetStands p z) (fun _ => wakeAbandoned_stands ?_ ..) fun _ => ?_
    all_goals
      refine (logCore_stands (h.setCore fun _ e => ?_) ..).updCore fun _ _ => .of_eq rfl rfl rfl
      subst e
      exact ⟨rfl, fun _ => rfl, (turned _).rings⟩
  · exact h

theorem abandonCounter_stands (i l n : Nat) : ResetStands p z (abandonCounter s i l n) := by
  unfold abandonCounter
  dsimp only
  split
  · next he =>
    have hne : Cleared (coreAt z p) → i ≠ p := fun hc e => by
      rw [e, (h.cleared hc).idle.2.2 n] at he
      exact absurd he.1 (by decide)
    exact wakeAbandoned_stands (logCore_stands (setCore_stands h hne _) ..) ..
  · exact h

theorem abandonWhere_stands (i l : Nat) (f : Nat → Nat → Nat → Bool) : ResetStands p z (abandonWhere s i l f) := by
  refine ResetStands.foldl (ResetStands.foldl h (fun t n ht => ?_) _) (fun t n ht => ?_) _
  · dsimp only
    split
    · exact abandonRing_stands ht ..
    · exact ht
  · dsimp only
    split
    · exact abandonCounter_stands ht ..
    · exact ht

theorem endHead_stands {i : Nat} (hne : Cleared (coreAt z p) → i ≠ p) (l q : Nat) (d : Decoded) (st : Status) :
    ResetStands p z (endHead s i l q d st) := by
  have retired := retireDecoded_stands h hne l q (cycleOf s l) d (cmdKind d.cmd) st
  unfold endHead
  dsimp only
  split
  · split
    · exact retired
    · refine report_stands (failRendezvous_stands (retired.updGal ?_) ..) _
      rfl
  · exact retired

theorem endAbandonedHead_stands (i l q : Nat) : ResetStands p z (endAbandonedHead s i l q) := by
  unfold endAbandonedHead
  split
  · exact h
  · next d hd =>
    split
    · refine endHead_stands h (fun hc e => ?_) ..
      rw [e, ((h.cleared hc).idle.1 q).1] at hd
      cases hd
    · exact h

theorem endAbandonedPend_stands (i l : Nat) : ResetStands p z (endAbandonedPend s i l) := by
  unfold endAbandonedPend
  split
  · exact h
  · next d hd =>
    split
    · refine endPend_stands h (fun hc e => ?_) ..
      rw [e, (h.cleared hc).idle.2.1] at hd
      cases hd
    · exact h

theorem abandonAll_stands (i l : Nat) (f : Nat → Nat → Nat → Bool) : ResetStands p z (abandonAll s i l f) := by
  unfold abandonAll endAbandoned
  refine endAbandonedPend_stands (ResetStands.foldl (abandonWhere_stands h ..) (fun t q ht => ?_) _) ..
  exact endAbandonedHead_stands ht ..

theorem abandonReset_stands (hit : Nat → Bool) : ResetStands p z (abandonReset s hit) := by
  refine ResetStands.foldl h (fun t i ht => ?_) _
  split
  · exact ht
  · exact abandonAll_stands ht ..

theorem breakSlotsOf_stands (l : Nat) : ResetStands p z (breakSlotsOf s l) := by
  refine ResetStands.foldl h (fun t n ht => ?_) _
  split
  · obtain ⟨_, _, _, _, _, hb⟩ := breakSlot_changes t n (some l) false
    rw [hb]
    exact ht.same rfl
  · exact ht

theorem logReset_stands (d : Nat × Nat) : ResetStands p z (logReset s d) := by
  unfold logReset
  split <;> exact h.same rfl

theorem restartGal_stands (g : Nat) : ResetStands p z (restartGal s g) := h.updGal rfl

end

end Sys2Proof.Machine
end

section
/-!
PROOFS. The reset of a core, and what a reset of its domain leaves of it (R363, R489 to R491).
-/

namespace Sys2Proof.Machine

/-! The reset of one core. -/

theorem mem_setInsert {l : List Nat} {x y : Nat} : y ∈ setInsert l x ↔ y = x ∨ y ∈ l := by
  induction l with
  | nil => simp [setInsert]
  | cons a t ih =>
    unfold setInsert
    split_ifs with hlt heq
    · simp
    · simp [heq]
    · simp only [List.mem_cons, ih]
      tauto

/-- A core's reset up to its own state: earlier effects, its checker and its record (R102, R161). -/
def beforeReset (s : State) (l p : Nat) : State :=
  logCore (resetChecker (catchUp s p (cycleOf s l)) l) 2 .poisoned l false [(4, 0), (1, 0xFF), (1, 7)]

/-- A core's reset up to its traffic: then its cleared state (R363). -/
def clearAt (s : State) (l p : Nat) : State :=
  setCore (beforeReset s l p) p (clearedCore (coreAt (beforeReset s l p) p) (cycleOf s l))

/-- The rings 0 to 3 of a core that its reset disables. -/
def disableCommandRings (s : State) (p l : Nat) : State :=
  (List.range 4).foldl (fun s q => if (ringAt (coreAt s p) q).enable then disableRing s p l q else s) s

/-- A reset id is noted for the Day (R191). -/
def noteReset (s : State) (l : Nat) : State := { s with day := { s.day with resetCores := setInsert s.day.resetCores l } }

/-- A core's reset from its traffic on: inbound rows absorbed, rings 0 to 3 disabled, the id noted (R491). -/
def resetTraffic (s : State) (l p : Nat) (inb : List InEntry) : State :=
  noteReset (disableCommandRings (inb.foldl (fun s e => absorbInbound s p l e) s) p l) l

theorem resetCore_none {s : State} {l : Nat} (h : physOf s l = none) : resetCore s l = s := by
  simp only [resetCore, h]

/-- The reset of a core; the last record counts the rows cancelled (R491). -/
theorem resetCore_some {s : State} {l p : Nat} (h : physOf s l = some p) : ∃ inb n,
    resetCore s l = if n = 0 then resetTraffic (clearAt s l p) l p inb
      else logCore (resetTraffic (clearAt s l p) l p inb) 10 .done l false [(4, n)] := by
  obtain ⟨⟨n, k⟩, hk⟩ : ∃ x, cancelOutbound (coreAt (beforeReset s l p) p) = x := ⟨_, rfl⟩
  refine ⟨k.mv.inb, n, ?_⟩
  unfold beforeReset at hk
  simp only [resetCore, h, hk, resetTraffic, clearAt, clearedCore, beforeReset, disableCommandRings, noteReset]

theorem clearAt_stands {p : Nat} {z s : State} (h : ResetStands p z s) (l i : Nat) : ResetStands p z (clearAt s l i) := by
  have logged := logCore_stands (resetChecker_stands (catchUp_stands h i (cycleOf s l)) l) 2 .poisoned l false
    [(4, 0), (1, 0xFF), (1, 7)]
  refine logged.setCore fun hc e => ?_
  subst e
  exact clearedCore_stillReset (logged.cleared hc) _

theorem disableCommandRings_stands {p : Nat} {z s : State} (h : ResetStands p z s) (i l : Nat) :
    ResetStands p z (disableCommandRings s i l) := by
  refine ResetStands.foldl h (fun t q ht => ?_) _
  split
  · exact disableRing_stands ht ..
  · exact ht

theorem noteReset_stands {p : Nat} {z s : State} (h : ResetStands p z s) (l : Nat) : ResetStands p z (noteReset s l) :=
  h.trans ⟨rfl, rfl, fun _ => rfl, fun _ => rfl, fun _ hm => mem_setInsert.mpr (.inr hm), fun _ => .of_eq rfl rfl rfl⟩

theorem resetTraffic_stands {p : Nat} {z s : State} (h : ResetStands p z s) (l i : Nat) (inb : List InEntry) :
    ResetStands p z (resetTraffic s l i inb) :=
  noteReset_stands (disableCommandRings_stands (ResetStands.foldl h (fun _ e ht => absorbInbound_stands ht i l e) inb) i l) l

theorem resetCore_stands {p : Nat} {z s : State} (h : ResetStands p z s) (l : Nat) : ResetStands p z (resetCore s l) := by
  cases hp : physOf s l with
  | none => rw [resetCore_none hp]; exact h
  | some i =>
    obtain ⟨inb, n, e⟩ := resetCore_some hp
    have reset := resetTraffic_stands (clearAt_stands h l i) l i inb
    rw [e]
    exact iteInduction (fun _ => reset) fun _ => logCore_stands reset ..

theorem clearAt_cleared (s : State) (l p : Nat) : Cleared (coreAt (clearAt s l p) p) := by
  rw [clearAt, coreAt_setCore_same]
  exact clearedCore_cleared ..

/-- What comes about before a core's reset changes none of its rows, and none that it has still to write. -/
theorem rowPart_beforeReset (s : State) (l p c : Nat) : rowPart (coreAt (resetChecker (catchUp s p c) l) p) = rowPart (coreAt s p) := by
  have caught : rowPart (coreAt (catchUp s p c) p) = rowPart (coreAt s p) := by
    unfold catchUp
    dsimp only
    split
    · rfl
    · have logged := foldl_kept (fun t => rowPart (coreAt t p)) (f := fun s (x : Late) => recordLate s p x.cycle x.act)
        (fun t x => by cases x.act <;> rfl)
      refine (logged _ _).trans ?_
      simp only [coreAt_updCore_same, rowPart_settleLate]
  refine Eq.trans ?_ caught
  unfold resetChecker
  split
  · rfl
  · rw [coreAt_updCore]
    split
    · next e => rw [rowPart_dropCompare, e]
    · rfl

theorem rowAt_clearAt (s : State) (l p r : Nat) : rowAt (coreAt (clearAt s l p) p) r =
    ((undoneWrite (coreAt s p) (cycleOf s l) r).map (·.data)).getD (rowAt (coreAt s p) r) := by
  have before := rowPart_beforeReset s l p (cycleOf s l)
  rw [clearAt, coreAt_setCore_same, rowAt_clearedCore, undoneWrite, undoneWrite, beforeReset, coreAt_logCore, rowAt_of_rowPart before,
    (Prod.mk.inj (Prod.mk.inj before).2).1]

theorem enable_disableRing (s : State) (p l q n : Nat) : (ringAt (coreAt (disableRing s p l q) p) n).enable =
    if n = q then false else (ringAt (coreAt s p) n).enable := by
  have sent (t : State) (src : Nat) (pkt : Packet) : (coreAt (inject t p src pkt) p).pool = (coreAt t p).pool := by
    unfold inject injectFrom
    dsimp only
    split <;> simp
  unfold disableRing
  dsimp only
  split
  · rw [ringAt, sent, ← ringAt, coreAt_setCore_same, ringAt_setRing]
    split <;> rfl
  · rw [coreAt_setCore_same, ringAt_setRing]
    split <;> rfl

theorem enable_disableRings (qs : List Nat) (s : State) (p l n : Nat) :
    (ringAt (coreAt (qs.foldl (fun s q => if (ringAt (coreAt s p) q).enable then disableRing s p l q else s) s) p) n).enable =
      (decide (n ∉ qs) && (ringAt (coreAt s p) n).enable) := by
  induction qs generalizing s with
  | nil => simp
  | cons q qs ih =>
    have one : (ringAt (coreAt (if (ringAt (coreAt s p) q).enable then disableRing s p l q else s) p) n).enable =
        (decide (n ≠ q) && (ringAt (coreAt s p) n).enable) := by
      split
      · rw [enable_disableRing]
        split <;> simp [*]
      · next off =>
        by_cases e : n = q
        · simp [e, off]
        · simp [e]
    rw [List.foldl_cons, ih, one, ← Bool.and_assoc]
    congr 1
    simp [Bool.and_comm]

theorem coreAt_noteReset (s : State) (l p : Nat) : coreAt (noteReset s l) p = coreAt s p := rfl

theorem resetTraffic_rings (s : State) (l p : Nat) (inb : List InEntry) {q : Nat} (hq : q < 4) :
    (ringAt (coreAt (resetTraffic s l p inb) p) q).enable = false := by
  rw [resetTraffic, coreAt_noteReset, disableCommandRings, enable_disableRings, decide_eq_false (by simpa using hq), Bool.false_and]

theorem mem_resetCores_noteReset (s : State) (l : Nat) : l ∈ (noteReset s l).day.resetCores := mem_setInsert.mpr (.inl rfl)

theorem resetTraffic_noted (s : State) (l p : Nat) (inb : List InEntry) : l ∈ (resetTraffic s l p inb).day.resetCores := by
  rw [resetTraffic]
  exact mem_resetCores_noteReset ..

/-- What the reset of core l leaves at its physical core p: the core cleared, its rows with the writes to come undone, its
rings 0 to 3 disabled, and its id noted for the Day (R191, R363, R490). -/
structure ResetLeaves (s t : State) (l p : Nat) : Prop where
  cleared : Cleared (coreAt t p)
  rows : ∀ r, rowAt (coreAt t p) r = ((undoneWrite (coreAt s p) (cycleOf s l) r).map (·.data)).getD (rowAt (coreAt s p) r)
  rings : ∀ n, n < 4 → (ringAt (coreAt t p) n).enable = false
  noted : l ∈ t.day.resetCores

/-- What a reset has left at a core, the rest of it keeps. -/
theorem ResetLeaves.stands {s t u : State} {l p : Nat} (h : ResetLeaves s t l p) (k : ResetStands p t u) :
    ResetLeaves s u l p := by
  have still := k.core h.cleared
  exact ⟨still.cleared h.cleared, fun r => (still.rows r).trans (h.rows r),
    fun n hn => Bool.eq_false_iff.mpr fun e => absurd (still.rings n e) (by simp [h.rings n hn]), k.noted l h.noted⟩

theorem resetTraffic_leaves (s : State) (l p : Nat) (inb : List InEntry) :
    ResetLeaves s (resetTraffic (clearAt s l p) l p inb) l p := by
  have cleared := clearAt_cleared s l p
  have stands := resetTraffic_stands (.refl p (clearAt s l p)) l p inb
  have still := stands.core cleared
  refine ⟨stands.cleared cleared, fun r => ?_, fun _ hq => resetTraffic_rings _ _ _ _ hq, resetTraffic_noted ..⟩
  rw [still.rows, rowAt_clearAt]

theorem resetCore_leaves {s : State} {l p : Nat} (h : physOf s l = some p) : ResetLeaves s (resetCore s l) l p := by
  obtain ⟨inb, n, e⟩ := resetCore_some h
  have leaves := resetTraffic_leaves s l p inb
  by_cases hn : n = 0
  · rw [e, if_pos hn]
    exact leaves
  · rw [e, if_neg hn]
    exact leaves.stands (logCore_stands (.refl p _) ..)

/-- A row with no write to come keeps what it holds, and one with such writes gets what it held before the first. -/
theorem ResetLeaves.pool {s t : State} {l p : Nat} (h : ResetLeaves s t l p) :
    (∀ r, (∀ w, w ∈ (coreAt s p).pool.was → w.row = r → w.cycle < cycleOf s l) →
      rowAt (coreAt t p) r = rowAt (coreAt s p) r) ∧
    (∀ w ws, (coreAt s p).pool.was.filter (fun x => decide (cycleOf s l ≤ x.cycle ∧ x.row = w.row)) = w :: ws →
      rowAt (coreAt t p) w.row = w.data) := by
  refine ⟨fun r hw => ?_, fun w ws hw => ?_⟩
  · have none : undoneWrite (coreAt s p) (cycleOf s l) r = none := by
      rw [undoneWrite, List.head?_eq_none_iff, List.filter_eq_nil_iff]
      intro w hm hu
      obtain ⟨hc, hr⟩ := of_decide_eq_true hu
      exact absurd (hw w hm hr) (by omega)
    rw [h.rows, none]
    rfl
  · rw [h.rows, undoneWrite, hw]
    rfl

/-! The reset of a domain. -/

/-- The logical ids that a domain's reset hits. -/
def resetHits (d : Nat × Nat) (l : Nat) : Bool := domainHolds d l && decide (l < 2048)

/-- The reset of a domain once it has taken effect at each of its cores: gang passes, and the record (R112, R122, R491). -/
def resetShared (s : State) (d : Nat × Nat) : State :=
  logReset ((if d.1 = 0 then [galOf d.2] else domainGals d).foldl
    (fun s g => resetGangs (resetRendezvous s g (resetHits d)) g (resetHits d)) s) d

/-- What follows for a domain that is not the die: its slots break, its producers' rings are abandoned, its counts restart. -/
def resetOutside (s : State) (d : Nat × Nat) : State :=
  let s := (domainGals d).foldl restartGal (abandonReset ((domainCores d).foldl breakSlotsOf s) (resetHits d))
  if d.1 = 2 then updCav s d.2 fun x => { x with energy := 0 } else s

theorem resetDomain_eq (s : State) (d : Nat × Nat) : resetDomain s d =
    if d.1 = 3 then dieReset (resetShared ((domainCores d).foldl resetCore s) d)
    else resetOutside (resetShared ((domainCores d).foldl resetCore s) d) d := rfl

theorem resetShared_stands {p : Nat} {z s : State} (h : ResetStands p z s) {d : Nat × Nat}
    (hmiss : ∀ l, resetHits d l = false → physOf z l ≠ some p) : ResetStands p z (resetShared s d) := by
  refine logReset_stands (ResetStands.foldl h (fun t g ht => ?_) _) d
  exact resetGangs_stands (resetRendezvous_stands ht ..) g hmiss

theorem resetOutside_stands {p : Nat} {z s : State} (h : ResetStands p z s) (d : Nat × Nat) :
    ResetStands p z (resetOutside s d) := by
  have restarted := ResetStands.foldl (abandonReset_stands
    (ResetStands.foldl h (fun _ l ht => breakSlotsOf_stands ht l) (domainCores d)) (resetHits d))
    (fun _ g ht => restartGal_stands ht g) (domainGals d)
  unfold resetOutside
  dsimp only
  split
  · exact restarted.updCav rfl
  · exact restarted

/-- A domain's reset misses every other id than those of its cores, so none that serves the physical core of one of them. -/
theorem missed_of_holds {s : State} {d : Nat × Nat} {l p : Nat} (hold : domainHolds d l = true) (hp : physOf s l = some p)
    (m : Nat) (hm : resetHits d m = false) : physOf s m ≠ some p := by
  intro he
  rw [← physOf_inj hp he, resetHits, hold, decide_eq_true (physOf_lt hp)] at hm
  cases hm

/-- The whole of a domain's reset but the die's, from any point of it on, keeps what has been reset. -/
theorem resetRest_stands {p : Nat} {z s : State} (h : ResetStands p z s) {d : Nat × Nat} {l : Nat}
    (hold : domainHolds d l = true) (hp : physOf z l = some p) (ls : List Nat) :
    ResetStands p z (resetOutside (resetShared (ls.foldl resetCore s) d) d) :=
  resetOutside_stands (resetShared_stands (ResetStands.foldl h (fun _ m ht => resetCore_stands ht m) ls)
    (missed_of_holds hold hp)) d

theorem mem_domainCores {d : Nat × Nat} {l : Nat} (hd : d.1 = 1 ∨ d.1 = 2) (hold : domainHolds d l = true) (hl : l < 2048) :
    l ∈ domainCores d := by
  obtain ⟨x, i⟩ := d
  rcases hd with rfl | rfl
  · simp only [domainHolds, galOf, if_pos hl, beq_iff_eq] at hold
    simp only [domainCores, List.mem_map, List.mem_range]
    exact ⟨l % 64, by omega, by omega⟩
  · simp only [domainHolds, cavOf, galOf, if_pos hl, beq_iff_eq] at hold
    simp only [domainCores, List.mem_map, List.mem_range]
    exact ⟨l % 512, by omega, by omega⟩

/-- A core of a Gallery or Cavern that is reset is left as by its own reset, whatever came before in that of the domain. -/
theorem resetDomain_core {s : State} {d : Nat × Nat} {l p : Nat} (hd : d.1 = 1 ∨ d.1 = 2) (hold : domainHolds d l = true)
    (hp : physOf s l = some p) : ∃ u, ResetLeaves u (resetDomain s d) l p := by
  obtain ⟨before, after, hls⟩ := List.append_of_mem (mem_domainCores hd hold (physOf_lt hp))
  rw [resetDomain_eq, if_neg (by omega), hls, List.foldl_append, List.foldl_cons]
  have reached := ResetStands.foldl (.refl p s) (fun _ m ht => resetCore_stands ht m) before
  have hp' := (reached.physOf_eq l).trans hp
  have done := resetCore_stands (.refl p (before.foldl resetCore s)) l
  exact ⟨_, (resetCore_leaves hp').stands (resetRest_stands (.refl p _) hold ((done.physOf_eq l).trans hp') after)⟩

/-- The reset of one core, whole. -/
theorem resetDomain_ofCore {s : State} {l p : Nat} (hp : physOf s l = some p) :
    ResetStands p s (resetDomain s (0, l)) ∧ ResetLeaves s (resetDomain s (0, l)) l p := by
  have reset := resetCore_stands (.refl p s) l
  have rest := resetRest_stands (.refl p (resetCore s l)) (d := (0, l)) (beq_self_eq_true l) ((reset.physOf_eq l).trans hp) []
  have whole : resetDomain s (0, l) = resetOutside (resetShared (([] : List Nat).foldl resetCore (resetCore s l)) (0, l)) (0, l) := by
    rw [resetDomain_eq, if_neg (Nat.zero_ne_add_one 2), show domainCores (0, l) = [l] from rfl, List.foldl_cons]
  rw [← whole] at rest
  exact ⟨reset.trans rest, (resetCore_leaves hp).stands rest⟩

/-- Physical core 2,176 and above serve no id (R19): a place at which a reset changes nothing. -/
theorem physOf_lt_cores {s : State} {l p : Nat} (h : physOf s l = some p) : p < 2176 := by
  have hl := physOf_lt h
  unfold physOf at h
  split_ifs at h
  have core : mapCore s l = p := Option.some.inj h
  simp only [mapCore, galOf, if_pos hl] at core
  split at core <;> omega

/-- A domain's reset up to what the die's adds keeps the boot record and the resets that wait. -/
theorem resetShared_frame (s : State) (d : Nat × Nat) :
    ResetStands 2176 s (resetShared ((domainCores d).foldl resetCore s) d) :=
  resetShared_stands (ResetStands.foldl (.refl 2176 s) (fun _ m ht => resetCore_stands ht m) _)
    fun _ _ h => absurd (physOf_lt_cores h) (by decide)

theorem resets_foldl_updCore (g : Core → Core) (xs : List Nat) (t : State) :
    (xs.foldl (fun s p => updCore s p g) t).resets = t.resets :=
  foldl_kept (f := fun s p => updCore s p g) State.resets (fun _ _ => rfl) xs t

theorem resets_foldl_updGal (f : Gal → Gal) (xs : List Nat) (t : State) :
    (xs.foldl (fun s g => updGal s g f) t).resets = t.resets :=
  foldl_kept (f := fun s g => updGal s g f) State.resets (fun _ _ => rfl) xs t

theorem resets_resetCells (s : State) : (resetCells s).resets = s.resets := by
  have bundles (g : Nat → Bundle → Bundle) (xs : List Nat) (t : State) :
      (xs.foldl (fun s b => updBun s b (g b)) t).resets = t.resets :=
    foldl_kept (f := fun s b => updBun s b (g b)) State.resets (fun _ _ => rfl) xs t
  have cavs (g : Cav → Cav) (xs : List Nat) (t : State) : (xs.foldl (fun s c => updCav s c g) t).resets = t.resets :=
    foldl_kept (f := fun s c => updCav s c g) State.resets (fun _ _ => rfl) xs t
  simp only [resetCells, cavs, bundles, resets_foldl_updGal, resets_foldl_updCore]

theorem resets_dieReset (s : State) : (dieReset s).resets = s.resets := by
  have broken (xs : List Nat) (t : State) : (xs.foldl (fun s n => breakSlot s n none false) t).resets = t.resets :=
    foldl_kept State.resets (fun t n => by
      obtain ⟨_, _, _, _, _, h⟩ := breakSlot_changes t n none false
      rw [h]) ..
  have cavs (xs : List Nat) (t : State) :
      (xs.foldl (fun s c => startSequence (updCav s c dieResetCav) c) t).resets = t.resets :=
    foldl_kept (f := fun s c => startSequence (updCav s c dieResetCav) c) State.resets (fun _ _ => rfl) xs t
  simp only [dieReset, resets_resetCells, cavs, resets_foldl_updGal, resets_foldl_updCore, broken]

/-- What the die's reset leaves of the part (R490). DEDUCED (log 33). -/
theorem dieReset_leaves (s : State) : (dieReset s).boot.released = false ∧ (dieReset s).boot.gatesOn = false ∧
    (dieReset s).boot.stage ≤ 1 ∧ (dieReset s).day.run = false ∧ (dieReset s).cfg.staging = [] ∧ (dieReset s).cfg.shadow = [] ∧
    ∀ n, (slotAt (dieReset s) n).enable = false :=
  ⟨rfl, rfl, Nat.min_le_right .., rfl, rfl, rfl, fun _ => rfl⟩

/-- The die's own part of its reset comes last, and what comes before it keeps the resets that wait (R490, R491). -/
theorem resetDomain_die (s : State) {d : Nat × Nat} (hd : d.1 = 3) :
    ∃ t, t.resets = s.resets ∧ resetDomain s d = dieReset t :=
  ⟨_, (resetShared_frame s d).resets, (resetDomain_eq s d).trans (if_pos hd)⟩

/-! RESET_EFFECT. -/

theorem exec_resetEffect_early {s : State} (h : s.mNow ≤ s.resets.since) : exec .resetEffect s = .next s := by
  change execResetEffect s = _
  unfold execResetEffect
  split
  · rfl
  · rw [if_pos h]

theorem exec_resetEffect {s : State} {d : Nat × Nat} {rest : List (Nat × Nat)} (ht : s.resets.taking = d :: rest)
    (hm : s.resets.since < s.mNow) :
    exec .resetEffect s = .next (resetDomain { s with resets := { s.resets with taking := rest } } d) := by
  change execResetEffect s = _
  unfold execResetEffect
  rw [ht]
  dsimp only
  rw [if_neg (by omega)]

/-- Settles O19: `resetCore_leaves` says what the reset of a core leaves of it, and `ResetStands` that the rest of a reset, at this
core and at others, keeps that; the die's reset writes its own part last. -/
theorem coreResetTakesEffect : Obligations.CoreResetTakesEffect := by
  refine ⟨fun s l p rest ht hp => ⟨exec_resetEffect_early, fun hm => ⟨_, exec_resetEffect ht hm, ?core⟩⟩,
    fun s d rest ht hm => ⟨fun hd => ⟨_, exec_resetEffect ht hm, ?scope⟩, fun hd => ⟨_, exec_resetEffect ht hm, ?die⟩⟩⟩
  case core =>
    obtain ⟨stands, leaves⟩ := resetDomain_ofCore (s := { s with resets := { s.resets with taking := rest } }) hp
    obtain ⟨hq, hc, hf, hn, hd, hfd, hpm, _, ho, hr, hcr, hi, hl, hop, hor, hv, hb⟩ := leaves.cleared.fields
    obtain ⟨untouched, undone⟩ := leaves.pool
    exact ⟨congrArg Resets.taking stands.resets, hq, hc, hf, hn, hd, hfd, hpm, ho, hr, hcr, hi, hl, hop, hor, hv, hb,
      leaves.rings, untouched, undone, leaves.noted⟩
  case scope =>
    have stands := resetOutside_stands (resetShared_frame { s with resets := { s.resets with taking := rest } } d) d
    rw [← (resetDomain_eq _ d).trans (if_neg (by omega))] at stands
    refine ⟨congrArg Resets.taking stands.resets, stands.boot, fun l p hold hp => ?_⟩
    obtain ⟨_, leaves⟩ := resetDomain_core (s := { s with resets := { s.resets with taking := rest } }) hd hold hp
    obtain ⟨hq, hc, hf, hn, _, hfd, _, _, ho, _, hcr, _⟩ := leaves.cleared.fields
    exact ⟨hq, hc, hf, hn, hfd, ho, hcr, leaves.noted⟩
  case die =>
    obtain ⟨u, hu, e⟩ := resetDomain_die { s with resets := { s.resets with taking := rest } } hd
    rw [e]
    exact ⟨congrArg Resets.taking ((resets_dieReset u).trans hu), dieReset_leaves u⟩

end Sys2Proof.Machine
end

section
/-!
PROOFS. The head of a queue: the decode of a command that waits there, and what leaving the head changes of a core (R344, R347,
R351).
-/

namespace Sys2Proof.Machine

/-! What happens at one core alone. -/

theorem OthersKept.refl (s : State) (p : Nat) : OthersKept s s p := fun _ _ => rfl

theorem OthersKept.trans {s t u : State} {p : Nat} (h : OthersKept s t p) (k : OthersKept t u p) : OthersKept s u p :=
  fun i hi => (k i hi).trans (h i hi)

theorem OthersKept.of_cores {s t : State} (h : t.cores = s.cores) (p : Nat) : OthersKept s t p := fun i _ => by
  rw [coreAt, coreAt, h]

theorem othersKept_setCore (s : State) (p : Nat) (k : Core) : OthersKept s (setCore s p k) p := fun i hi => by
  rw [coreAt_setCore, if_neg hi]

theorem othersKept_updCore (s : State) (p : Nat) (f : Core → Core) : OthersKept s (updCore s p f) p :=
  othersKept_setCore s p _

/-! Leaving the head. -/

/-- What the head of queue q is read from, with what no command that leaves it changes. -/
def headPart (k : Core) (q : Nat) :=
  (k.outp, k.flow, k.pool.rows, k.sync, (queueAt k q).head, (queueAt k q).nextSlot, (ringAt k q).head)

/-- From s to t, the core p alone changes, it keeps `headPart`, and nothing is reported. -/
structure HeadKept (s t : State) (p q : Nat) : Prop where
  part : headPart (coreAt t p) q = headPart (coreAt s p) q
  others : OthersKept s t p
  answer : t.answer = s.answer

theorem HeadKept.refl (s : State) (p q : Nat) : HeadKept s s p q := ⟨rfl, .refl s p, rfl⟩

theorem HeadKept.trans {s t u : State} {p q : Nat} (h : HeadKept s t p q) (k : HeadKept t u p q) : HeadKept s u p q :=
  ⟨k.part.trans h.part, h.others.trans k.others, k.answer.trans h.answer⟩

theorem setCore_headKept {s : State} {p q : Nat} {k : Core} (h : headPart k q = headPart (coreAt s p) q) :
    HeadKept s (setCore s p k) p q := ⟨by rw [coreAt_setCore_same, h], othersKept_setCore s p k, rfl⟩

theorem updCore_headKept {s : State} {p q : Nat} {f : Core → Core} (h : headPart (f (coreAt s p)) q = headPart (coreAt s p) q) :
    HeadKept s (updCore s p f) p q := setCore_headKept h

theorem inject_headKept (s : State) (p q src : Nat) (pkt : Packet) : HeadKept s (inject s p src pkt) p q := by
  unfold inject injectFrom
  dsimp only
  split
  · exact updCore_headKept rfl
  · exact updCore_headKept rfl

theorem headPart_setQueue (k : Core) (q : Nat) (x : Queue) :
    headPart (setQueue k q x) q = (k.outp, k.flow, k.pool.rows, k.sync, x.head, x.nextSlot, (ringAt k q).head) := by
  simp [headPart]

theorem headPart_setRing_same (k : Core) (q : Nat) (r : Ring) : headPart (setRing k q r) q =
    (k.outp, k.flow, k.pool.rows, k.sync, (queueAt k q).head, (queueAt k q).nextSlot, r.head) := by
  simp [headPart]

theorem headPart_setRing {k : Core} {n : Nat} {r : Ring} (h : r.head = (ringAt k n).head) (q : Nat) :
    headPart (setRing k n r) q = headPart k q := by
  by_cases e : q = n
  · rw [e, headPart_setRing_same, h]
    rfl
  · simp [headPart, ringAt_setRing, e]

theorem grantRing_headKept (s : State) (p l n count q : Nat) : HeadKept s (grantRing s p l n count) p q := by
  unfold grantRing
  dsimp only
  split
  · exact .refl s p q
  · split
    · exact setCore_headKept (headPart_setRing (by rfl) q)
    · refine (setCore_headKept ?_).trans (inject_headKept ..)
      exact headPart_setRing (by rfl) q

theorem countBuf_changes (k : Core) (es : Store Nat) : ∃ ecc, countBuf k es = { k with ecc := ecc } := by
  unfold countBuf
  split
  · exact ⟨_, rfl⟩
  · exact ⟨_, rfl⟩

theorem headPart_countBuf (k : Core) (es : Store Nat) (q : Nat) : headPart (countBuf k es) q = headPart k q := by
  obtain ⟨ecc, h⟩ := countBuf_changes k es
  rw [h]
  rfl

theorem noteFail_keeps_head (x : Queue) (slot kind : Nat) (st : Status) :
    (noteFail x slot kind st).head = x.head ∧ (noteFail x slot kind st).nextSlot = x.nextSlot := by
  unfold noteFail
  split <;> exact ⟨rfl, rfl⟩

theorem stopBadRow_headKept (s : State) (p l q : Nat) : HeadKept s (stopBadRow s p l q) p q := by
  have told (t : State) (slot : Nat) : HeadKept t (logCore t 4 .poisoned l false [(1, q), (4, slot), (1, 0)]) p q :=
    ⟨rfl, .of_cores rfl p, rfl⟩
  unfold stopBadRow
  dsimp only
  split
  · exact .refl s p q
  · next b _ _ =>
    split
    · have counted : HeadKept s (updCore s p fun k => countBuf k b.errs) p q := updCore_headKept (headPart_countBuf ..)
      refine (counted.trans (updCore_headKept ?_)).trans (told ..)
      obtain ⟨hh, hn⟩ := noteFail_keeps_head (queueAt (coreAt (updCore s p fun k => countBuf k b.errs) p) q)
        (headSlotNo (coreAt s p) q) 0 .poisoned
      rw [headPart_setQueue, hh, hn]
      rfl
    · exact .refl s p q

/-- The command at the head leaves it (R344, R347). -/
theorem leaveHead_leaves (s : State) (p l q ready : Nat) :
    headPart (coreAt (leaveHead s p l q ready) p) q = ((coreAt s p).outp, (coreAt s p).flow, (coreAt s p).pool.rows,
      (coreAt s p).sync, none, if (queueAt (coreAt s p) q).nextSlot = 15 then 0 else (queueAt (coreAt s p) q).nextSlot + 1,
      if (queueAt (coreAt s p) q).nextSlot = 15 then ((ringAt (coreAt s p) q).head + 1) % 2 ^ 32
      else (ringAt (coreAt s p) q).head) ∧
    OthersKept s (leaveHead s p l q ready) p ∧ (leaveHead s p l q ready).answer = s.answer := by
  obtain ⟨ecc, counted⟩ := countBuf_changes (coreAt s p) (((queueAt (coreAt s p) q).bufs.take 1).flatMap
    fun b => b.errs.filter fun e => e.1 / 4 == (queueAt (coreAt s p) q).nextSlot)
  unfold leaveHead
  dsimp only
  rw [counted]
  split
  · have left (k : Core) : HeadKept (setCore s p k) (stopBadRow (grantRing (markHw (setCore s p k) p (0x408 + 16 * q)) p l q 1) p l q)
        p q :=
      ((updCore_headKept rfl).trans (grantRing_headKept ..)).trans (stopBadRow_headKept ..)
    refine ⟨?_, (othersKept_setCore s p _).trans (left _).others, (left _).answer⟩
    rw [(left _).part, coreAt_setCore_same, headPart_setRing_same, queueAt_setQueue_same]
    rfl
  · refine ⟨?_, othersKept_setCore s p _, rfl⟩
    rw [coreAt_setCore_same, headPart_setQueue]
    rfl

/-! The decode of a command (R351). -/

theorem useWords_clean {s : State} {p : Nat} (h : (coreAt s p).upsets.sync = []) (l : Nat) (ws : List (Nat × Nat)) :
    useWords s p l ws = (false, s) := by
  have one (w : Nat × Nat) : useWord s p l w.1 w.2 = (false, s) := by
    have clean : eccGrade (Store.get 0 ([] : Store Nat) (w.1 * 1024 + w.2)) = 0 := by
      rw [show Store.get 0 ([] : Store Nat) (w.1 * 1024 + w.2) = 0 from rfl]
      decide +kernel
    simp only [useWord, h, clean]
  unfold useWords
  induction ws with
  | nil => rfl
  | cons w ws ih => rw [List.foldl_cons, one]; exact ih

theorem settleTo_none_due {s : State} {p : Nat} (h : (coreAt s p).sync.due = []) (l n : Nat) : settleTo s p l n = s := by
  simp only [settleTo, h, List.length_nil, if_true]

/-- Only the sync commands have a turn among the events on a flag or counter (R297, R314). -/
theorem syncTurns_none {key : Nat} (h : key / 256 ≠ 6) (x : Ctx) (q cx b : Nat) : syncTurns x q cx key b = [] := by
  unfold syncTurns
  dsimp only
  split
  case h_6 => rfl
  all_goals exact absurd rfl h

/-- From s to t, the Caverns alone change, and no count of cycles. -/
def PaceChanged (s t : State) : Prop :=
  ∃ cavs, t = { s with cavs := cavs } ∧ ∀ c, (Store.get Cav.init cavs c).fifths = (cavAt s c).fifths

theorem PaceChanged.refl (s : State) : PaceChanged s s := ⟨s.cavs, rfl, fun _ => rfl⟩

theorem PaceChanged.trans {s t u : State} (h : PaceChanged s t) (k : PaceChanged t u) : PaceChanged s u := by
  obtain ⟨_, rfl, hc⟩ := h
  obtain ⟨cavs, rfl, kc⟩ := k
  exact ⟨cavs, rfl, fun c => (kc c).trans (hc c)⟩

theorem PaceChanged.cycleOf_eq {s t : State} (h : PaceChanged s t) (l : Nat) : cycleOf t l = cycleOf s l := by
  obtain ⟨_, rfl, hc⟩ := h
  exact congrArg (· / 5) (hc _)

theorem updCav_paceChanged {s : State} {c : Nat} {f : Cav → Cav} (h : (f (cavAt s c)).fifths = (cavAt s c).fifths) :
    PaceChanged s (updCav s c f) := by
  refine ⟨_, rfl, fun i => ?_⟩
  rw [Store.get_set]
  split
  · next e => rw [h, e]
  · rfl

theorem startRise_paceChanged (s : State) (cav : Nat) : PaceChanged s (startRise s cav) := by
  unfold startRise startSequence
  split
  · refine updCav_paceChanged ?_
    split <;> rfl
  · exact .refl s

/-- A phase noted may set a Cavern's operating point on its way (R350, R438). -/
theorem notePhase_paceChanged (s : State) (l phase : Nat) : PaceChanged s (notePhase s l phase) := by
  have active : PaceChanged s (updCav s (cavOf l) fun c => { c with active := setInsert c.active phase }) :=
    updCav_paceChanged rfl
  unfold notePhase
  dsimp only
  split
  · exact .refl s
  · split
    · exact (active.trans (updCav_paceChanged rfl)).trans (startRise_paceChanged ..)
    · exact active

/-- The command that a slot decodes to is the one its words spell, with its flags translated. -/
theorem decodeSlot_ok {s : State} {p l q key b : Nat} {c : Cmd} (h : decodeSlot s p l q key b = .ok c) :
    ∃ vf df, c = buildCmd (ctxAt (coreAt s p) (queueAt (coreAt s p) q).ctx) key b vf df := by
  unfold decodeSlot at h
  dsimp only at h
  iterate 4
    split at h
    · cases h
  split at h
  · next vf df _ _ =>
    split_ifs at h
    exact ⟨vf, df, (DecodeOut.ok.inj h).symm⟩
  · cases h

/-- A command of an engine that decodes goes to it, its phase noted (R351 step 7). -/
theorem onHead_of_decodes {s : State} {l q p key : Nat} {c : Cmd} (h : Decodes s l q p key c) (hk : key / 256 ≠ 6)
    {want : Nat → Bool} (hw : want key = true) (go : State → Nat → Nat → Header → Cmd → State) :
    ∃ hd : Header, onHead s l q want go = go (notePhase s l hd.phase) p (decodeCycle s l (queueAt (coreAt s p) q)) hd c := by
  obtain ⟨b, ⟨hl, hf, hb, hkey, hbad, hd, hu⟩, hc⟩ := h
  have turns := syncTurns_none hk (ctxAt (coreAt s p) (queueAt (coreAt s p) q).ctx) q (queueAt (coreAt s p) q).ctx b
  refine ⟨parseHeader b, ?_⟩
  simp [onHead, onHeadFail, withLive, hl, hf, hb, hkey, hw, settleTo_none_due hd, hbad, useWords_clean hu, hc, headCycle, turns]

end Sys2Proof.Machine
end

section
/-!
PROOFS. A command that waits decoded at its queue's head, and its entry into the output path (R131, R139, R245).
-/

namespace Sys2Proof.Machine

/-! The verdict on a decoded command. -/

/-- What the scoreboard and the rings say of a command is read from the Pool. -/
theorem issueVerdict_of_pool {k k' : Core} (h : k'.pool = k.pool) (c : Nat) (rs ws : List Nat) :
    issueVerdict k' c rs ws = issueVerdict k c rs ws := by
  have rings : ringOfRow k' = ringOfRow k := by
    funext row
    simp only [ringOfRow, ringAt, h]
  have reads : produced k' c = produced k c := by
    funext row
    simp only [produced, readBlocker, rings, h]
  have writes : drained k' c = drained k c := by
    funext row
    simp only [drained, writeBlocker, rings, h]
  have abandoned : readAbandoned k' = readAbandoned k := by
    funext row
    simp only [readAbandoned, rings]
  simp only [issueVerdict, reads, writes, abandoned]

theorem cmdVerdict_of_pool {s t : State} {p : Nat} (hb : t.boot = s.boot) (hp : (coreAt t p).pool = (coreAt s p).pool)
    (l c : Nat) (d : Decoded) : cmdVerdict t p l c d = cmdVerdict s p l c d := by
  have own : isOwnPool t l = isOwnPool s l := by
    funext a
    simp only [isOwnPool, hb]
  have writes : cmdWrites t l d = cmdWrites s l d := by
    simp only [cmdWrites, moveWrites, own]
  rw [cmdVerdict, cmdVerdict, writes, issueVerdict_of_pool hp]

/-! A command that waits. -/

/-- From s to u, a command d has decoded at the head of queue q of core p, where it waits. -/
structure WaitsAt (s u : State) (p q : Nat) (d : Decoded) : Prop where
  core : coreAt u p = setQueue { coreAt s p with track := (coreAt u p).track, nextTrack := (coreAt u p).nextTrack } q
    { queueAt (coreAt s p) q with head := some d }
  others : OthersKept s u p
  boot : u.boot = s.boot
  cycle : ∀ l, cycleOf u l = cycleOf s l
  answer : u.answer = .done

theorem WaitsAt.head {s u : State} {p q : Nat} {d : Decoded} (h : WaitsAt s u p q d) :
    (queueAt (coreAt u p) q).head = some d := by
  rw [h.core, queueAt_setQueue_same]

/-- The command that `waitHead` leaves at the head, with the wait limits in force (R234, R252, R269). -/
def waiting (s : State) (p q c : Nat) (hd : Header) (cmd : Cmd) : Decoded :=
  { slot := headSlotNo (coreAt s p) q, ctx := (queueAt (coreAt s p) q).ctx, tag := if hd.tagEn then some hd.tag else none,
    cmd := cmd, since := c, limit := 256 * (coreAt s p).mv.units, sbFrom := c, sbLimit := 256 * (coreAt s p).pool.sbUnits,
    idx := none, track := (coreAt s p).nextTrack }

theorem waitHead_waits (s : State) (p q c : Nat) (hd : Header) (cmd : Cmd) :
    WaitsAt s (waitHead s p q c hd cmd) p q (waiting s p q c hd cmd) := by
  refine ⟨?_, ?_, rfl, fun _ => rfl, rfl⟩
  · simp only [waitHead, coreAt_report, coreAt_updQueue_same, newTrack, coreAt_setCore_same]
    rfl
  · intro i hi
    simp only [waitHead, coreAt_report, coreAt_updQueue, newTrack, coreAt_setCore, if_neg hi]

/-- A command that waits on no row of an abandoned ring stays at the head (R245). -/
theorem endAbandonedHead_of_waits {s u : State} {l p q : Nat} {d : Decoded} (h : WaitsAt s u p q d)
    (ha : cmdVerdict s p l (cycleOf s l) d ≠ .abandoned) : endAbandonedHead u p l q = u := by
  have pool : (coreAt u p).pool = (coreAt s p).pool := by
    rw [h.core]
    rfl
  rw [endAbandonedHead, h.head]
  dsimp only
  rw [h.cycle, cmdVerdict_of_pool h.boot pool, if_neg ha]

theorem WaitsAt.of_paceChanged {s t u : State} {p q : Nat} {d : Decoded} (h : PaceChanged s t) (k : WaitsAt t u p q d) :
    WaitsAt s u p q d := by
  have cycle := h.cycleOf_eq
  obtain ⟨_, rfl, _⟩ := h
  exact ⟨k.core, k.others, k.boot, fun l => (k.cycle l).trans (cycle l), k.answer⟩

/-! The output path's pending slot (R139). -/

/-- A command of the output path (R142, R152). -/
def OutCmd (c : Cmd) : Prop := (∃ x, c = .drain x) ∨ ∃ x, c = .desc x

/-- From s to t, the command d has left the head of the matrix queue for the output path's pending slot in cycle n, and holds its
tile (R131, R139). -/
def EntersOut (s t : State) (p : Nat) (d : Decoded) (n : Nat) : Prop :=
  (coreAt t p).outp.pend = some d ∧ d.sbFrom = n + 1 ∧ (queueAt (coreAt t p) 0).head = none ∧
  (queueAt (coreAt t p) 0).nextSlot =
    (if (queueAt (coreAt s p) 0).nextSlot = 15 then 0 else (queueAt (coreAt s p) 0).nextSlot + 1) ∧
  ((queueAt (coreAt s p) 0).nextSlot = 15 → (ringAt (coreAt t p) 0).head = ((ringAt (coreAt s p) 0).head + 1) % 2 ^ 32) ∧
  descAt (coreAt t p) (outTile d.cmd) = { heldDesc (coreAt s p) n (outTile d.cmd) with pendHeld := true } ∧
  (∀ i, i ≠ outTile d.cmd → descAt (coreAt t p) i = descAt (coreAt s p) i) ∧
  MemoryKept s t p ∧ (coreAt t p).sync.flags = (coreAt s p).sync.flags ∧ OthersKept s t p

/-- A command that has just decoded enters from the state before its decode. -/
theorem EntersOut.of_waits {s u t : State} {p n : Nat} {d e : Decoded} (h : WaitsAt s u p 0 d) (k : EntersOut u t p e n) :
    EntersOut s t p e n := by
  have hc := h.core
  generalize (coreAt u p).track = track, (coreAt u p).nextTrack = next at hc
  obtain ⟨hp, hn, hh, hs, hr, hd, ho, ⟨hm, hu⟩, hf, hk⟩ := k
  rw [hc, queueAt_setQueue_same] at hs hr
  simp only [hc] at hd ho hm hu hf
  exact ⟨hp, hn, hh, hs, hr, hd, ho, ⟨hm, hu⟩, hf, h.others.trans hk⟩

theorem enterOut_enters {s : State} {p l : Nat} {d : Decoded} (hd : (queueAt (coreAt s p) 0).head = some d)
    (hp : (coreAt s p).outp.pend = none) (hc : OutCmd d.cmd) :
    EntersOut s (enterOut s p l) p (freshWait (coreAt s p) (max (cycleOf s l) d.since) d) (max (cycleOf s l) d.since) ∧
    (enterOut s p l).answer = s.answer := by
  obtain ⟨k, hk⟩ : ∃ k, k = setDesc { coreAt s p with outp := { (coreAt s p).outp with
      pend := some (freshWait (coreAt s p) (max (cycleOf s l) d.since) d) } } (outTile d.cmd)
    { heldDesc (coreAt s p) (max (cycleOf s l) d.since) (outTile d.cmd) with pendHeld := true } := ⟨_, rfl⟩
  have entered : enterOut s p l = leaveHead (setCore s p k) p l 0 (max (cycleOf s l) d.since + 1) := by
    rw [hk]
    rcases hc with ⟨x, hc⟩ | ⟨x, hc⟩ <;> simp only [enterOut, hd, hp, hc]
  obtain ⟨part, others, told⟩ := leaveHead_leaves (setCore s p k) p l 0 (max (cycleOf s l) d.since + 1)
  rw [← entered, coreAt_setCore_same] at part
  rw [← entered] at others told
  simp only [headPart, Prod.mk.injEq] at part
  obtain ⟨ho, hf, hr, hs, hh, hn, hg⟩ := part
  have descs (i : Nat) : descAt (coreAt (enterOut s p l) p) i = descAt k i := by rw [descAt, hf, ← descAt]
  refine ⟨⟨?_, rfl, hh, ?_, fun h15 => ?_, ?_, fun i hi => ?_, ⟨fun r => ?_, fun u => ?_⟩, ?_,
    (othersKept_setCore s p k).trans others⟩, told⟩
  · rw [ho, hk]; rfl
  · rw [hn, hk]; rfl
  · rw [hg, hk]; exact if_pos h15
  · rw [descs, hk]; exact descAt_setDesc_same ..
  · rw [descs, hk, descAt_setDesc]; exact if_neg hi
  · rw [rowAt, hr, hk]; rfl
  · rw [trowAt, hf, hk]; rfl
  · rw [hs, hk]; rfl

theorem enterOut_full {s : State} {p l : Nat} (hp : (coreAt s p).outp.pend.isSome = true) : enterOut s p l = s := by
  obtain ⟨d, hp⟩ := Option.isSome_iff_exists.mp hp
  unfold enterOut
  dsimp only
  split
  · rfl
  · simp only [hp]

/-! The rows of the output path (R142, R153). -/

/-- A command whose row names it decodes to one of the output path. -/
theorem outCmd_of_decodes {s : State} {l p key : Nat} {i : Instr} {c : Cmd} (hi : (i, key) ∈ outputRows l)
    (h : Decodes s l 0 p key c) : OutCmd c ∧ key / 256 ≠ 6 := by
  obtain ⟨b, _, hc⟩ := h
  obtain ⟨vf, df, rfl⟩ := decodeSlot_ok hc
  simp only [outputRows, List.mem_cons, Prod.mk.injEq, List.not_mem_nil, or_false] at hi
  rcases hi with ⟨_, rfl⟩ | ⟨_, rfl⟩ | ⟨_, rfl⟩ | ⟨_, rfl⟩
  · exact ⟨.inl ⟨_, rfl⟩, by decide⟩
  all_goals exact ⟨.inr ⟨_, rfl⟩, by decide⟩

theorem exec_outputRow {s : State} {l key : Nat} {i : Instr} (hi : (i, key) ∈ outputRows l) :
    ∃ f, exec i s = .next (outRow s l key f) := by
  simp only [outputRows, List.mem_cons, Prod.mk.injEq, List.not_mem_nil, or_false] at hi
  rcases hi with ⟨rfl, rfl⟩ | ⟨rfl, rfl⟩ | ⟨rfl, rfl⟩ | ⟨rfl, rfl⟩
  all_goals exact ⟨_, rfl⟩

/-- A command that decodes waits at the head, and is offered to the pending slot at once (R139). -/
theorem exec_outputRow_decodes {s : State} {l p key : Nat} {i : Instr} {c : Cmd} (hi : (i, key) ∈ outputRows l)
    (h : Decodes s l 0 p key c) (ha : NotAbandoned s l p c) : ∃ u d, WaitsAt s u p 0 d ∧ d.cmd = c ∧
      d.since = decodeCycle s l (queueAt (coreAt s p) 0) ∧ exec i s = .next (enterOut u p l) := by
  obtain ⟨hd, went⟩ := onHead_of_decodes h (outCmd_of_decodes hi h).2 (want := fun k => k == key) (by simp)
    fun s p c h cmd =>
      let s := endAbandonedHead (waitHead s p 0 c h cmd) p l 0
      if (queueAt (coreAt s p) 0).head.isSome then enterOut s p l else s
  have noted := notePhase_paceChanged s l hd.phase
  have waits := (waitHead_waits (notePhase s l hd.phase) p 0 (decodeCycle s l (queueAt (coreAt s p) 0)) hd c).of_paceChanged noted
  have stays := endAbandonedHead_of_waits waits (ha _ rfl rfl)
  obtain ⟨f, run⟩ := exec_outputRow (s := s) hi
  obtain ⟨b, ⟨hl, hf, _⟩, _⟩ := h
  have empty : (queueAt (coreAt s p) 0).head = none := by
    simp only [queueFree, Bool.and_eq_true] at hf
    exact Option.isNone_iff_eq_none.mp hf.1.1.2
  refine ⟨_, _, waits, rfl, rfl, ?_⟩
  have fresh : headIsOut s l f = false := by simp only [headIsOut, hl, empty]
  rw [run, outRow, fresh, if_neg Bool.false_ne_true, went, stays]
  dsimp only
  rw [waits.head]
  rfl

/-- A command already decoded at the head is offered to the pending slot again. -/
theorem exec_outputRow_again {s : State} {l p : Nat} {i : Instr} {d : Decoded} (hl : liveCore s l = some p)
    (hd : (queueAt (coreAt s p) 0).head = some d)
    (hi : (i = .drain l ∧ ∃ c, d.cmd = .drain c) ∨ ∃ c, d.cmd = .desc c ∧ (i, 0x300 + c.op) ∈ outputRows l) :
    OutCmd d.cmd ∧ exec i s = .next (enterOut s p l) := by
  have offered {key : Nat} {f : Cmd → Bool} (hf : f d.cmd = true) : outRow s l key f = enterOut s p l := by
    simp [outRow, headIsOut, withLive, hl, hd, hf]
  rcases hi with ⟨rfl, c, hc⟩ | ⟨c, hc, hm⟩
  · exact ⟨.inl ⟨c, hc⟩, congrArg Host.Outcome.next (offered (by rw [hc]))⟩
  · refine ⟨.inr ⟨c, hc⟩, ?_⟩
    simp only [outputRows, List.mem_cons, Prod.mk.injEq, List.not_mem_nil, or_false] at hm
    rcases hm with ⟨_, ho⟩ | ⟨rfl, ho⟩ | ⟨rfl, ho⟩ | ⟨rfl, ho⟩
    · omega
    all_goals exact congrArg Host.Outcome.next (offered (by simp only [hc, beq_iff_eq]; omega))

end Sys2Proof.Machine
end

section
/-!
PROOFS. What the start of an output-path command leaves of its core, and how a tile's words and fields are written (R127, R128, R132,
R139, R154, R160).
-/

namespace Sys2Proof.Machine

/-! What a start leaves, apart from the command's own results. -/

/-- A descriptor but for its hold. -/
def SameTile (d d' : Desc) : Prop := d' = { d with heldEnd := d'.heldEnd }

theorem SameTile.trans {a b c : Desc} (h : SameTile a b) (k : SameTile b c) : SameTile a c := by
  rw [SameTile] at h k ⊢
  rw [k, h]

/-- What the start of an output-path command keeps of its core, apart from the command's own results: the pending slot, the Pool, the
tile rows, the flags, and the descriptors but for the ends of their holds. -/
structure OutKept (k k' : Core) : Prop where
  pend : k'.outp.pend = k.outp.pend
  pool : k'.pool = k.pool
  rows : k'.flow.rows = k.flow.rows
  flags : k'.sync.flags = k.sync.flags
  descs : ∀ n, SameTile (descAt k n) (descAt k' n)

theorem OutKept.trans {a b c : Core} (h : OutKept a b) (k : OutKept b c) : OutKept a c :=
  ⟨k.pend.trans h.pend, k.pool.trans h.pool, k.rows.trans h.rows, k.flags.trans h.flags, fun n => (h.descs n).trans (k.descs n)⟩

theorem OutKept.of_eq {k k' : Core} (ho : k'.outp.pend = k.outp.pend) (hp : k'.pool = k.pool) (hf : k'.flow = k.flow)
    (hs : k'.sync.flags = k.sync.flags) : OutKept k k' :=
  ⟨ho, hp, by rw [hf], hs, fun n => by rw [descAt, descAt, hf]; rfl⟩

theorem OutKept.setDesc {k : Core} {t : Nat} {d : Desc} (h : SameTile (descAt k t) d) : OutKept k (setDesc k t d) := by
  refine ⟨rfl, rfl, rfl, rfl, fun n => ?_⟩
  rw [descAt_setDesc]
  split
  · next e => rw [e]; exact h
  · rfl

theorem OutKept.foldl {α : Type} {f : Core → α → Core} (hf : ∀ k x, OutKept k (f k x)) (l : List α) (k : Core) :
    OutKept k (l.foldl f k) := by
  induction l generalizing k with
  | nil => exact .of_eq rfl rfl rfl rfl
  | cons x t ih => exact (hf k x).trans (ih _)

/-- The same of a state in which the core p alone changes. -/
structure OutKeptAt (s t : State) (p : Nat) : Prop where
  core : OutKept (coreAt s p) (coreAt t p)
  others : OthersKept s t p

theorem OutKeptAt.trans {s t u : State} {p : Nat} (h : OutKeptAt s t p) (k : OutKeptAt t u p) : OutKeptAt s u p :=
  ⟨h.core.trans k.core, h.others.trans k.others⟩

theorem OutKeptAt.of_cores {s t : State} (h : t.cores = s.cores) (p : Nat) : OutKeptAt s t p := by
  refine ⟨?_, .of_cores h p⟩
  rw [coreAt, coreAt, h]
  exact .of_eq rfl rfl rfl rfl

theorem setCore_outKept {s : State} {p : Nat} {k : Core} (h : OutKept (coreAt s p) k) : OutKeptAt s (setCore s p k) p := by
  refine ⟨?_, othersKept_setCore s p k⟩
  rwa [coreAt_setCore_same]

theorem updCore_outKept {s : State} {p : Nat} {f : Core → Core} (h : OutKept (coreAt s p) (f (coreAt s p))) :
    OutKeptAt s (updCore s p f) p := setCore_outKept h

theorem shiftTrack_outKept (s : State) (p id old n : Nat) : OutKeptAt s (shiftTrack s p id old n) p :=
  updCore_outKept (.of_eq rfl rfl rfl rfl)

/-- A tile read that gives way to a drain ends later, and the holds on its tiles with it (R128, R129). -/
theorem noteDrain_outKept (s : State) (p e : Nat) : OutKeptAt s (noteDrain s p e) p := by
  have noted (ds : List Nat) :
      OutKeptAt s (setCore s p { coreAt s p with outp := { (coreAt s p).outp with drains := ds } }) p :=
    setCore_outKept (.of_eq rfl rfl rfl rfl)
  unfold noteDrain
  dsimp only
  split
  · refine iteInduction (motive := fun t => OutKeptAt s t p) (fun _ => noted _) fun _ => ?_
    refine ((noted _).trans (setCore_outKept ?_)).trans (shiftTrack_outKept ..)
    rw [coreAt_setCore_same]
    refine OutKept.trans ?_ (OutKept.foldl (fun k t => ?_) ..)
    · exact .of_eq rfl rfl rfl rfl
    · split
      · exact .of_eq rfl rfl rfl rfl
      · exact .setDesc rfl
  · exact noted _

theorem endTrack_outKept (s : State) (p id e d : Nat) (st : Status) : OutKeptAt s (endTrack s p id e d st) p := by
  unfold endTrack updTrack
  exact updCore_outKept (.of_eq rfl rfl rfl rfl)

theorem dueDone_outKept (s : State) (p c : Nat) (en : Bool) (flag setter ctx slot track : Nat) :
    OutKeptAt s (dueDone s p c en flag setter ctx slot track) p := by
  unfold dueDone
  split
  · exact updCore_outKept (.of_eq rfl rfl rfl rfl)
  · exact .of_cores rfl p

/-- A core whose pending output-path command, on a tile, has started: the slot is empty, the tile let go (R139, R154). -/
def letGo (k : Core) (tile : Nat) : Core :=
  setDesc { k with outp := { k.outp with pend := none } } tile { descAt k tile with pendHeld := false }

theorem descAt_letGo (k : Core) (tile n : Nat) :
    descAt (letGo k tile) n = if n = tile then { descAt k tile with pendHeld := false } else descAt k n := by
  rw [letGo, descAt_setDesc]
  rfl

theorem OutKept.letGo {k k' : Core} (h : OutKept k k') (tile : Nat) : OutKept (letGo k tile) (letGo k' tile) := by
  refine ⟨rfl, h.pool, h.rows, h.flags, fun n => ?_⟩
  rw [descAt_letGo, descAt_letGo]
  split
  · rw [h.descs tile]
    rfl
  · exact h.descs n

/-- From s to t, an output-path command on a tile has started with a status (R12, R139, R154). -/
structure OutStarted (s t : State) (p tile : Nat) (st : Status) : Prop where
  answer : t.answer = st
  kept : OutKept (letGo (coreAt s p) tile) (coreAt t p)
  others : OthersKept s t p

theorem OutStarted.of_kept {s u t : State} {p tile : Nat} {st : Status} (h : OutKeptAt s u p) (k : OutStarted u t p tile st) :
    OutStarted s t p tile st :=
  ⟨k.answer, (h.core.letGo tile).trans k.kept, h.others.trans k.others⟩

theorem startOut_started (s : State) (p : Nat) (d : Decoded) (tile e ends held fill : Nat) (en : Bool) (flag setter : Nat)
    (st : Status) : OutStarted s (startOut s p d tile e ends held fill en flag setter st) p tile st := by
  have rest (u : State) (x y : Nat) : OutKeptAt u (dueDone (endTrack u p d.track x y st) p ends en flag setter d.ctx d.slot d.track) p :=
    (endTrack_outKept ..).trans (dueDone_outKept ..)
  have held (k : Core) (h : Nat) (hk : OutKept { coreAt s p with outp := { (coreAt s p).outp with pend := none } } k) :
      OutKept (letGo (coreAt s p) tile) (setDesc k tile { descAt k tile with pendHeld := false, heldEnd := h }) := by
    refine ⟨hk.pend, hk.pool, hk.rows, hk.flags, fun n => ?_⟩
    rw [descAt_letGo, descAt_setDesc]
    split
    · rw [hk.descs tile]
      rfl
    · exact hk.descs n
  refine ⟨rfl, OutKept.trans ?_ (rest _ _ _).core, (othersKept_updCore s p _).trans (rest _ _ _).others⟩
  rw [coreAt_updCore_same]
  dsimp only
  split
  · exact held _ _ (.of_eq rfl rfl rfl rfl)
  · exact held _ _ (.of_eq rfl rfl rfl rfl)

/-! What a tile's words and fields are after a command. -/

theorem foldl_setTrow_changes (l : List (Nat × TileRow)) (k : Core) :
    ∃ rows, l.foldl (fun k x => setTrow k x.1 x.2) k = { k with flow := { k.flow with rows := rows } } := by
  induction l generalizing k with
  | nil => exact ⟨_, rfl⟩
  | cons x t ih => exact ih (setTrow k x.1 x.2)

/-- Tile rows written change the tile rows, and what is kept of their codewords (R126, R127). -/
theorem writeTrows_changes (k : Core) (first : Nat) (rows : List TileRow) : ∃ stored fs wb, writeTrows k first rows =
    { k with flow := { k.flow with rows := stored, wb := wb }, upsets := { k.upsets with fs := fs } } := by
  obtain ⟨stored, h⟩ := foldl_setTrow_changes (rows.mapIdx fun i r => (first + i, r)) k
  unfold writeTrows
  rw [h]
  exact ⟨_, _, _, rfl⟩

theorem trowAt_writeTrows (k : Core) (first : Nat) (rows : List TileRow) (u : Nat) :
    trowAt (writeTrows k first rows) u = if first ≤ u then (rows[u - first]?).getD (trowAt k u) else trowAt k u := by
  change trowAt ((rows.mapIdx fun i r => (first + i, r)).foldl (fun k x => setTrow k x.1 x.2) k) u = _
  induction rows generalizing k first with
  | nil => simp
  | cons r rows ih =>
    have shift : (rows.mapIdx fun i r => (first + (i + 1), r)) = rows.mapIdx fun i r => (first + 1 + i, r) := by
      simp only [Nat.add_assoc, Nat.add_comm 1]
    rw [List.mapIdx_cons, List.foldl_cons, shift, ih, trowAt_setTrow]
    rcases Nat.lt_trichotomy u first with h | h | h
    · rw [if_neg (by omega), if_neg (by omega), if_neg (by omega)]
    · subst h
      simp
    · obtain ⟨n, rfl⟩ := Nat.exists_eq_add_of_lt h
      rw [if_pos (by omega), if_neg (by omega), if_pos (by omega), show first + n + 1 - (first + 1) = n by omega,
        show first + n + 1 - first = n + 1 by omega, List.getElem?_cons_succ]

/-- The row of 32 rows written from a first row on. -/
theorem trowAt_writeTrows_of_some {k : Core} {first u : Nat} {rows : List TileRow} {r : TileRow} (h : rows[u]? = some r) :
    trowAt (writeTrows k first rows) (first + u) = r := by
  rw [trowAt_writeTrows, if_pos (by omega), Nat.add_sub_cancel_left, h]
  rfl

theorem trowAt_writeTrows_outside {k : Core} {first u : Nat} {rows : List TileRow} (h : u < first ∨ first + rows.length ≤ u) :
    trowAt (writeTrows k first rows) u = trowAt k u := by
  rw [trowAt_writeTrows]
  split
  · rw [List.getElem?_eq_none (by omega)]
    rfl
  · rfl

/-- Where no word is in error, a read of a tile finds no fault but the tile's own (R127, R160). -/
theorem tileReadFault_clean {s : State} {p : Nat} (h : (coreAt s p).upsets.fs = []) (l slot id t first n : Nat) (cy : Nat → Nat) :
    tileReadFault s p l slot id t first n cy =
      (if (shownMarks (descAt (coreAt s p) t) (cy 0 + 1)).poisoned then some 0 else none, s) := by
  have counted : countFsReads s p l first n cy = s := by simp [countFsReads, h]
  have sound : badWord (coreAt s p) first n = none := by simp [badWord, h]
  unfold tileReadFault
  dsimp only
  rw [counted, sound]
  split <;> rfl

theorem length_unpackN (w x n : Nat) : (unpackN w x n).length = n := by
  induction n generalizing x with
  | zero => rfl
  | succ n ih => rw [unpackN, List.length_cons, ih]

theorem length_tileWords (r : TileRow) : (tileWords r).length = 32 := by rw [tileWords, List.length_map, length_unpackN]

/-- Words of a tile none of which is in error: those stored, or NaR throughout (R160). -/
theorem readWords_clean (k : Core) (t : Nat) (bad : Bool) : readWords k t (if bad then some 0 else none) =
    if bad then List.replicate 32 (List.replicate 32 A64.nar) else (tileRowsOf k t).map tileWords := by
  cases bad with
  | false => rfl
  | true =>
    have nar (r : List A64) (u : Nat) (h : r.length = 32) :
        (r.mapIdx fun w x => if 0 ≤ u * 32 + w then A64.nar else x) = List.replicate 32 A64.nar := by
      rw [List.eq_replicate_iff, List.length_mapIdx]
      exact ⟨h, fun b hb => by
        obtain ⟨i, hi, rfl⟩ := List.mem_mapIdx.mp hb
        exact if_pos (Nat.zero_le _)⟩
    rw [if_pos rfl, if_pos rfl, readWords, narFrom, List.eq_replicate_iff, List.length_mapIdx, List.length_map, tileRowsOf]
    refine ⟨by simp, fun b hb => ?_⟩
    obtain ⟨i, hi, rfl⟩ := List.mem_mapIdx.mp hb
    refine nar _ i ?_
    rw [List.getElem_map]
    exact length_tileWords _

theorem seenTrow_clean {k : Core} (h : k.upsets.fs = []) (u : Nat) : seenTrow k u = trowAt k u := by simp [seenTrow, h]

/-! The fields of a descriptor (R132, R154). -/

theorem insertEv_perm (l : List (Nat × DescEv)) (x : Nat × DescEv) : (insertEv l x).Perm (x :: l) := by
  induction l with
  | nil => exact .refl _
  | cons y t ih =>
    unfold insertEv
    split
    · exact .refl _
    · exact (List.Perm.cons y ih).trans (.swap x y t)

theorem foldl_insertEv_perm (es l : List (Nat × DescEv)) : (es.foldl insertEv l).Perm (es ++ l) := by
  induction es generalizing l with
  | nil => exact .refl _
  | cons x es ih => exact ((ih _).trans (List.Perm.append_left es (insertEv_perm l x))).trans List.perm_middle

/-- In a tile that no started command still changes, the changes of a command follow on the fields as they stand. -/
theorem finalMarks_addEvs {d : Desc} {c : Nat} (h : FieldsStand d c) (es : List (Nat × DescEv)) :
    finalMarks (addEvs d c es) = (es.foldl insertEv []).foldl (fun m x => stepEv m x.2) (finalMarks d) := by
  have past : d.evs.filter (fun x => decide (x.1 < c)) = d.evs := List.filter_eq_self.mpr fun x hx => by simpa using h x hx
  have rest : d.evs.filter (fun x => decide (c ≤ x.1)) = [] := List.filter_eq_nil_iff.mpr fun x hx => by simpa using h x hx
  simp only [finalMarks, addEvs, withMarks, marksOf, shownMarks, past, rest]

/-- Rows written and a new exponent leave the exponent and whether the tile is POISONED, in whatever order they come. -/
theorem foldl_rescaleEvs (code : BitVec 8) (es : List (Nat × DescEv)) (m : Marks)
    (h : ∀ x, x ∈ es → (∃ id u inf nar acc, x.2 = .row id u inf nar acc) ∨ x.2 = .exp code false) :
    (es.foldl (fun m x => stepEv m x.2) m).poisoned = m.poisoned ∧
    (m.exp = code ∨ (∃ x, x ∈ es ∧ x.2 = .exp code false) → (es.foldl (fun m x => stepEv m x.2) m).exp = code) := by
  induction es generalizing m with
  | nil => exact ⟨rfl, fun hx => hx.elim id fun ⟨_, hx, _⟩ => nomatch hx⟩
  | cons y es ih =>
    obtain ⟨poisoned, exp⟩ := ih (stepEv m y.2) fun x hx => h x (.tail _ hx)
    rcases h y (.head _) with ⟨id, u, inf, nar, acc, hy⟩ | hy
    · have step : (stepEv m y.2).poisoned = m.poisoned ∧ (stepEv m y.2).exp = m.exp := by
        rw [hy, stepEv]
        split <;> exact ⟨rfl, rfl⟩
      refine ⟨poisoned.trans step.1, fun hx => exp ?_⟩
      rcases hx with hx | ⟨x, hx, hc⟩
      · exact .inl (step.2.trans hx)
      · rcases List.mem_cons.mp hx with rfl | hx
        · rw [hy] at hc
          cases hc
        · exact .inr ⟨x, hx, hc⟩
    · refine ⟨poisoned.trans (by rw [hy]; rfl), fun _ => exp (.inl (by rw [hy]; rfl))⟩

theorem finalMarks_rescale {d : Desc} {now : Nat} (h : FieldsStand d now) (claims : List (Nat × Nat)) (id first ends : Nat)
    (code : BitVec 8) (rows : List (List A64)) :
    (finalMarks (addEvs d now (rescaleEvs claims id first ends code rows))).exp = code ∧
    (finalMarks (addEvs d now (rescaleEvs claims id first ends code rows))).poisoned = (finalMarks d).poisoned := by
  have perm := foldl_insertEv_perm (rescaleEvs claims id first ends code rows) []
  rw [List.append_nil] at perm
  obtain ⟨poisoned, exp⟩ := foldl_rescaleEvs code ((rescaleEvs claims id first ends code rows).foldl insertEv []) (finalMarks d)
    fun x hx => by
      rcases List.mem_append.mp (perm.mem_iff.mp hx) with hx | hx
      · obtain ⟨u, _, rfl⟩ := List.mem_mapIdx.mp hx
        exact .inl ⟨_, _, _, _, _, rfl⟩
      · rw [List.mem_singleton.mp hx]
        exact .inr rfl
  rw [finalMarks_addEvs h]
  exact ⟨exp (.inr ⟨_, perm.mem_iff.mpr (List.mem_append_right _ (List.mem_singleton.mpr rfl)), rfl⟩), poisoned⟩

end Sys2Proof.Machine
end

section
/-!
PROOFS. The descriptor commands: SET, RESCALE and ZERO (R132, R153 to R155, R160).
-/

namespace Sys2Proof.Machine

/-- Two cores that differ in the words of a tile, and in what is kept of its codewords. -/
structure TileWritten (k k' : Core) (tile : Nat) : Prop where
  pool : k'.pool = k.pool
  sync : k'.sync = k.sync
  descs : ∀ n, descAt k' n = descAt k n
  outside : ∀ u, (u < 32 * tile ∨ 32 * tile + 32 ≤ u) → trowAt k' u = trowAt k u

theorem TileWritten.refl (k : Core) (tile : Nat) : TileWritten k k tile := ⟨rfl, rfl, fun _ => rfl, fun _ _ => rfl⟩

theorem writeTrows_written (k : Core) (tile : Nat) {rows : List TileRow} (h : rows.length = 32) :
    TileWritten k (writeTrows k (32 * tile) rows) tile := by
  obtain ⟨stored, fs, wb, e⟩ := writeTrows_changes k (32 * tile) rows
  exact ⟨by rw [e], by rw [e], fun n => by rw [e]; rfl, fun u hu => trowAt_writeTrows_outside (by rwa [h])⟩

/-- From s to t, a descriptor command on a tile has run with a status: its words are those of core k', and the changes es of its fields
are under way from cycle now on. -/
structure DescRan (s t : State) (p tile now : Nat) (es : List (Nat × DescEv)) (k' : Core) (st : Status) : Prop where
  answer : t.answer = st
  pend : (coreAt t p).outp.pend = none
  held : (descAt (coreAt t p) tile).pendHeld = false
  marks : finalMarks (descAt (coreAt t p) tile) = finalMarks (addEvs (descAt (coreAt s p) tile) now es)
  words : ∀ u, trowAt (coreAt t p) u = trowAt k' u
  outside : ∀ u, (u < 32 * tile ∨ 32 * tile + 32 ≤ u) → trowAt (coreAt t p) u = trowAt (coreAt s p) u
  descs : ∀ n, n ≠ tile → SameTile (descAt (coreAt s p) n) (descAt (coreAt t p) n)
  pool : (coreAt t p).pool = (coreAt s p).pool
  flags : (coreAt t p).sync.flags = (coreAt s p).sync.flags
  others : OthersKept s t p

theorem finalMarks_sameTile {d d' : Desc} (h : SameTile d d') : finalMarks d' = finalMarks d := by
  rw [h]
  rfl

theorem descRan_of_started {s t : State} {p tile now : Nat} {es : List (Nat × DescEv)} {k : Core} {st : Status}
    (hk : TileWritten (coreAt s p) k tile)
    (h : OutStarted (setCore s p (setDesc k tile (addEvs (descAt k tile) now es))) t p tile st) :
    DescRan s t p tile now es k st := by
  obtain ⟨answer, ⟨pend, pool, rows, flags, descs⟩, others⟩ := h
  rw [coreAt_setCore_same] at pend pool rows flags descs
  have own := descs tile
  rw [descAt_letGo, if_pos rfl, descAt_setDesc_same, hk.descs] at own
  have words (u : Nat) : trowAt (coreAt t p) u = trowAt k u := by
    rw [trowAt, rows]
    rfl
  refine ⟨answer, pend, by rw [own], (finalMarks_sameTile own).trans rfl, words,
    fun u hu => (words u).trans (hk.outside u hu), fun n hn => ?_, pool.trans hk.pool, ?_, (othersKept_setCore s p _).trans others⟩
  · have other := descs n
    rwa [descAt_letGo, if_neg hn, descAt_setDesc, if_neg hn, hk.descs] at other
  · rw [flags]
    exact congrArg Sync.flags hk.sync

/-! The three commands. -/

theorem runDesc_set {c : DescCmd} (hc : c.op = 0) (s : State) (p l e : Nat) (d : Decoded) :
    DescRan s (runDesc s p l e d c) p c.tile (cycleOf s l) [(e, .exp (BitVec.ofInt 8 c.exp) c.clear)] (coreAt s p) .done := by
  unfold runDesc
  rw [hc]
  exact descRan_of_started (.refl _ _) (startOut_started ..)

/-- The words that a RESCALE writes (R154, R160). -/
def rescaledRows (k : Core) (c : DescCmd) (bad : Bool) : List (List A64) :=
  (readWords k c.tile (if bad then some 0 else none)).map fun r =>
    r.map (rescaleA64 (signed8 (finalMarks (descAt k c.tile)).exp.toNat) c.exp)

theorem length_rescaledRows (k : Core) (c : DescCmd) (bad : Bool) : (rescaledRows k c bad).length = 32 := by
  rw [rescaledRows, readWords_clean, List.length_map]
  cases bad <;> simp [tileRowsOf]

theorem countAct_outKept (s : State) (p l kind n : Nat) : OutKeptAt s (countAct s l kind n) p :=
  .of_cores (s := s) (t := countAct s l kind n) rfl p

theorem runDesc_rescale {c : DescCmd} (hc : c.op = 1) {s : State} {p : Nat} (hu : (coreAt s p).upsets.fs = []) (l e : Nat)
    (d : Decoded) {bad : Bool} (hb : bad = (shownMarks (descAt (coreAt s p) c.tile) (e + 9)).poisoned) :
    DescRan s (runDesc s p l e d c) p c.tile (cycleOf s l)
      (rescaleEvs (coreAt s p).tile.claims d.track (e + 10) (fillPortEnd (e + 10) 32 (coreAt s p).tile.claims)
        (BitVec.ofInt 8 c.exp) (rescaledRows (coreAt s p) c bad))
      (writeTrows (coreAt s p) (32 * c.tile) ((rescaledRows (coreAt s p) c bad).map mkTileRow))
      (if bad then .poisoned else .done) := by
  unfold runDesc
  rw [hc]
  dsimp only
  rw [tileReadFault_clean hu, ← hb]
  have status : (if (if bad then some 0 else none : Option Nat).isSome then Status.poisoned else .done) =
      if bad then .poisoned else .done := by
    cases bad <;> rfl
  dsimp only
  rw [status]
  exact descRan_of_started (writeTrows_written _ _ (by rw [List.length_map, length_rescaledRows]))
    (OutStarted.of_kept ((noteDrain_outKept ..).trans (countAct_outKept ..)) (startOut_started ..))

theorem runDesc_zero {c : DescCmd} (hc : c.op = 2) (s : State) (p l e : Nat) (d : Decoded) :
    DescRan s (runDesc s p l e d c) p c.tile (cycleOf s l)
      [(fillPortEnd (e + 8) 32 (coreAt s p).tile.claims, .zero (BitVec.ofInt 8 c.exp))]
      (writeTrows (coreAt s p) (32 * c.tile) (List.replicate 32 0)) .done := by
  unfold runDesc
  rw [hc]
  exact descRan_of_started (writeTrows_written _ _ List.length_replicate)
    (OutStarted.of_kept (countAct_outKept ..) (startOut_started ..))

/-! OUTPUT_PATH_START (R140). -/

theorem catchUp_of_current {s : State} {p c : Nat} (h : Current (coreAt s p) c) : catchUp s p c = s := by
  have overdue : (coreAt s p).late.filter (fun x => decide (x.cycle < c)) = [] :=
    List.filter_eq_nil_iff.mpr fun x hx => by simpa using h x hx
  simp only [catchUp, overdue, List.isEmpty_nil, if_true]

theorem withIssue_of_mayIssue {s : State} {l p : Nat} (h : MayIssue s l p) (f : State → Nat → State) :
    withIssue s l f = f s p := by
  obtain ⟨hl, hb, hc⟩ := h
  rw [withIssue, hb, if_neg Bool.false_ne_true, withLive, hl]
  dsimp only
  rw [catchUp_of_current hc]

/-- No access is put right where none had been planned before, or the plan is as it was (R227). -/
theorem mendCore_none_met {s t : State} {p : Nat} (ho : OthersKept s t p)
    (h : (coreAt s p).pool.plan = [] ∨ (coreAt t p).pool.plan = (coreAt s p).pool.plan) (l : Nat) : mendCore s t l = t := by
  have same (as : List Access) : newlyFailed as as = [] :=
    List.filter_eq_nil_iff.mpr fun a ha => by simp [ha]
  have unmet (i : Nat) : newlyFailed (coreAt s i).pool.plan (coreAt t i).pool.plan = [] := by
    by_cases e : i = p
    · subst e
      rcases h with h | h <;> rw [h]
      · rfl
      · exact same _
    · rw [ho i e]
      exact same _
  unfold mendCore
  split
  · rfl
  · rw [mendMeets, unmet]
    rfl

section
variable {s : State} {l p e : Nat} {d : Decoded} (h : MayIssue s l p) (hp : (coreAt s p).outp.pend = some d)
  (he : e = nextPhase (max (cycleOf s l) (d.since + 1)) 0 32) (hv : cmdVerdict s p l e d = .go)
  (hf : tileFree (coreAt s p) e (outTile d.cmd) = true) (hi : outIdle (coreAt s p) e = true)
include h hp he hv hf hi

/-- A descriptor command in the pending slot starts (R140, R154). -/
theorem exec_start_desc {c : DescCmd} (hc : d.cmd = .desc c) :
    exec (.outputPathStart l []) s = .next (mendCore s (runDesc s p l e d c) l) := by
  subst he
  change Host.Outcome.next (mendCore s (startPending s l []) l) = _
  rw [startPending, withIssue_of_mayIssue h]
  rw [hc] at hf
  simp only [hp, hv, hc, hf, hi, Bool.and_self, Bool.not_true, Bool.false_eq_true, if_false]

/-- A drain in the pending slot starts (R140, R143). -/
theorem exec_start_drain {c : DrainCmd} (hc : d.cmd = .drain c) :
    exec (.outputPathStart l []) s = .next (mendCore s (runDrain s p l e d c []) l) := by
  subst he
  change Host.Outcome.next (mendCore s (startPending s l []) l) = _
  rw [startPending, withIssue_of_mayIssue h]
  rw [hc] at hf
  simp only [hp, hv, hc, hf, hi, Bool.and_self, Bool.not_true, Bool.false_eq_true, if_false]

end

/-- A descriptor command touches no Pool row, so that no ring or mark holds it. -/
theorem cmdVerdict_desc {d : Decoded} {c : DescCmd} (hc : d.cmd = .desc c) (s : State) (p l e : Nat) :
    cmdVerdict s p l e d = .go := by
  simp [cmdVerdict, cmdReads, cmdWrites, hc, issueVerdict]

end Sys2Proof.Machine
end

section
/-!
PROOFS. A drain (R143 to R151): its reads, its result rows, and what they leave as it was.
-/

namespace Sys2Proof.Machine

/-- Core k' is k with accesses planned before cycle c, and their marks. -/
def PlansBefore (c : Nat) (k k' : Core) : Prop :=
  k' = { k with pool := { k.pool with plan := k'.pool.plan, marks := k'.pool.marks } } ∧ ∀ a, a ∈ k'.pool.plan → a.cycle < c

/-- From s to t, accesses of core p have been planned, all before cycle c. -/
structure Planned (s t : State) (p c : Nat) : Prop where
  core : PlansBefore c (coreAt s p) (coreAt t p)
  others : OthersKept s t p

/-- An access outside its bank's reserved slot, in a cycle behind those planned, is made (R226). -/
theorem foreCase_none {k : Core} {f : Fore} (ho : k.pool.off = []) (hr : f.cycle % 32 ≠ reservedPhase (bankOf f.row))
    (hp : ∀ a, a ∈ k.pool.plan → a.cycle < f.cycle) (i : Nat) : foreCase k [] i f = none := by
  have off : bankOff k (bankOf f.row) f.cycle = false := by simp [bankOff, ho]
  have met : k.pool.plan.any (fun a => a.cycle == f.cycle && bankOf a.row == bankOf f.row) = false :=
    List.any_eq_false.mpr fun a ha => by simp [Nat.ne_of_lt (hp a ha)]
  simp only [foreCase, if_neg hr, off, met, List.any_nil, Bool.or_self, Bool.false_eq_true, if_false]

/-- Accesses none of which meets anything are planned, and made (R226). -/
theorem doFore_none {s : State} {p c : Nat} {fs : List Fore} (h : ∀ f, f ∈ fs → ∀ i, foreCase (coreAt s p) [] i f = none)
    (hp : ∀ a, a ∈ (coreAt s p).pool.plan → a.cycle < c) (hf : ∀ f, f ∈ fs → f.cycle < c) (l engine slot : Nat) :
    ∃ t, doFore s p l engine slot [] fs = (fs.map fun _ => none, t) ∧ Planned s t p c := by
  have made : (fs.mapIdx fun i f => foreCase (coreAt s p) [] i f) = fs.map fun _ => none :=
    List.ext_getElem (by simp) fun i _ _ => by simp [h _ (List.getElem_mem _)]
  unfold doFore
  dsimp only
  rw [made]
  refine ⟨_, rfl, ?_⟩
  rw [List.foldlRecOn (motive := fun t => t = s) _ _ rfl fun t ht x hx => ?_]
  · refine ⟨?_, othersKept_updCore s p _⟩
    rw [coreAt_updCore_same]
    refine ⟨rfl, fun a ha => ?_⟩
    rcases List.mem_append.mp ha with ha | ha
    · exact hp a (List.mem_filter.mp ha).1
    · obtain ⟨x, hx, rfl⟩ := List.mem_map.mp ha
      exact hf _ (List.of_mem_zip hx).1
  · obtain ⟨i, hi, rfl⟩ := List.mem_mapIdx.mp hx
    rw [h _ (List.getElem_mem hi), ht]

theorem usePoolRow_clean {s : State} {p : Nat} (h : (coreAt s p).upsets.pool = []) (l row c : Nat) (ecc : Bool) :
    usePoolRow s p l row c ecc = s := by
  simp [usePoolRow, rowErrs, h]

theorem seenRow_clean {k : Core} (h : k.upsets.pool = []) (row : Nat) : seenRow k row = rowAt k row := by
  simp [seenRow, rowErrs, fixRow, h]

theorem rowBad_clean {k : Core} (h : k.upsets.pool = []) (row : Nat) : rowBad k row = false := by
  simp [rowBad, rowErrs, badIn, h]

theorem PlansBefore.upsets {c : Nat} {k k' : Core} (h : PlansBefore c k k') : k'.upsets = k.upsets := by rw [h.1]

theorem Planned.trans {s t u : State} {p b c : Nat} (h : Planned s t p b) (k : Planned t u p c) : Planned s u p c := by
  refine ⟨⟨?_, k.core.2⟩, h.others.trans k.others⟩
  rw [k.core.1, h.core.1]

/-- Marks of accesses change nothing else (R229). -/
theorem addMarks_planned (s : State) (p now c : Nat) (ms : List Mark) (h : ∀ a, a ∈ (coreAt s p).pool.plan → a.cycle < c) :
    Planned s (updCore s p fun k => addMarks k now ms) p c := by
  refine ⟨?_, othersKept_updCore s p _⟩
  rw [coreAt_updCore_same]
  exact ⟨rfl, h⟩

/-- A factor or bias row whose read meets nothing is read as it stands (R143, R144). -/
theorem readFactor_clean {s : State} {p row e : Nat} {en : Bool} (ho : (coreAt s p).pool.off = [])
    (hu : (coreAt s p).upsets.pool = []) (hp : ∀ a, a ∈ (coreAt s p).pool.plan → a.cycle < e)
    (hr : en = true → e % 32 ≠ reservedPhase (bankOf row)) (l slot ends track : Nat) (use : Use) :
    ∃ t, readFactor s p l slot [] en row e ends track use =
      (if en then some (rowAt (coreAt s p) row) else none, none, t) ∧ Planned s t p (e + 1) := by
  cases en with
  | false => exact ⟨s, rfl, ⟨rfl, fun a ha => Nat.lt_succ_of_lt (hp a ha)⟩, .refl s p⟩
  | true =>
    obtain ⟨t, made, planned⟩ := doFore_none (c := e + 1)
      (fs := [{ row := row, cycle := e, write := false, track := track, use := use }])
      (fun f hf i => by rw [List.mem_singleton.mp hf]; exact foreCase_none ho (hr rfl) hp i)
      (fun a ha => Nat.lt_succ_of_lt (hp a ha)) (fun f hf => by rw [List.mem_singleton.mp hf]; exact Nat.lt_succ_self e) l 1 slot
    have clean : (coreAt t p).upsets.pool = [] := by rw [planned.core.upsets, hu]
    refine ⟨_, ?_, planned.trans (addMarks_planned t p (cycleOf t l) (e + 1)
      [{ row := row, write := false, till := some e, engine := 1, slot := slot }] planned.core.2)⟩
    simp only [readFactor, readRows, made, Bool.not_true, Bool.false_eq_true, if_false, List.map_cons, List.map_nil,
      List.zip_cons_cons, List.zip_nil_left, List.foldl_cons, List.foldl_nil, usePoolRow_clean clean, seenRow_clean hu, rowBad_clean hu]
    rfl

/-! Result rows (R147, R149, R150). -/

theorem rowAt_laterRow (k : Core) (now c r i : Nat) (x : Row) :
    rowAt (laterRow k now c r x) i = if i = r then x else rowAt k i :=
  rowAt_setRow k r i x

/-- What writes of result rows leave of a core, its Pool and its counts apart. -/
def beyondRows (k : Core) := (k.outp, k.flow, k.sync, k.upsets.sync)

/-- From s to t, Pool rows of core p have been written, and nothing that `beyondRows` names. -/
structure RowsWritten (s t : State) (p : Nat) (ws : List (Nat × Row)) : Prop where
  written : ∀ w, w ∈ ws → rowAt (coreAt t p) w.1 = w.2
  kept : ∀ r, (∀ w, w ∈ ws → w.1 ≠ r) → rowAt (coreAt t p) r = rowAt (coreAt s p) r
  rest : beyondRows (coreAt t p) = beyondRows (coreAt s p)
  others : OthersKept s t p

theorem RowsWritten.refl (s : State) (p : Nat) : RowsWritten s s p [] := ⟨by simp, fun _ _ => rfl, rfl, .refl s p⟩

theorem RowsWritten.trans {s t u : State} {p : Nat} {vs ws : List (Nat × Row)} (h : RowsWritten s t p vs) (k : RowsWritten t u p ws)
    (hd : ∀ v, v ∈ vs → ∀ w, w ∈ ws → w.1 ≠ v.1) : RowsWritten s u p (vs ++ ws) := by
  refine ⟨fun x hx => ?_, fun r hr => ?_, k.rest.trans h.rest, h.others.trans k.others⟩
  · rcases List.mem_append.mp hx with hx | hx
    · rw [k.kept _ (hd x hx), h.written x hx]
    · exact k.written x hx
  · rw [k.kept r fun w hw => hr w (List.mem_append_right _ hw), h.kept r fun v hv => hr v (List.mem_append_left _ hv)]

theorem RowsWritten.of_planned {s t u : State} {p c : Nat} {ws : List (Nat × Row)} (h : Planned s t p c) (k : RowsWritten t u p ws) :
    RowsWritten s u p ws := by
  refine RowsWritten.trans (vs := []) ⟨by simp, fun r _ => ?_, ?_, h.others⟩ k (by simp) <;> rw [h.core.1] <;> rfl

/-- Rows that a fold writes, each another one. -/
theorem RowsWritten.foldl {α : Type} {p : Nat} {f : State → α → State} {g : α → Nat × Row} {l : List α}
    (hf : ∀ s x, x ∈ l → (coreAt s p).upsets.sync = [] → RowsWritten s (f s x) p [g x]) (hn : (l.map fun x => (g x).1).Nodup)
    {s : State} (hs : (coreAt s p).upsets.sync = []) : RowsWritten s (l.foldl f s) p (l.map g) := by
  induction l generalizing s with
  | nil => exact .refl s p
  | cons x l ih =>
    have first := hf s x (.head _) hs
    rw [List.map_cons, List.nodup_cons] at hn
    obtain ⟨hx, hn⟩ := hn
    refine first.trans (ih (fun s y hy => hf s y (.tail _ hy)) hn ?_) fun v hv w hw e => hx ?_
    · exact (congrArg (fun y => y.2.2.2) first.rest).trans hs
    · obtain ⟨y, hy, rfl⟩ := List.mem_map.mp hw
      rw [List.mem_singleton.mp hv] at e
      exact List.mem_map.mpr ⟨y, hy, e⟩

/-- The counts of a row change what is to come of the core alone (R148, R188). -/
theorem countOpt_rowsWritten {s : State} {p : Nat} (h : (coreAt s p).upsets.sync = []) (l c cx : Nat) (tag : Option Nat) (n : Counts)
    (track i : Nat) : RowsWritten s (countOpt s p l c cx tag n track i) p [] := by
  unfold countOpt countTag
  split
  · exact .refl s p
  · split
    · exact .refl s p
    · rw [useWords_clean h]
      refine ⟨by simp, fun r _ => ?_, ?_, othersKept_updCore s p _⟩ <;> rw [coreAt_updCore_same] <;> rfl

theorem laterRow_rowsWritten (s : State) (p now c r : Nat) (x : Row) :
    RowsWritten s (updCore s p fun k => laterRow k now c r x) p [(r, x)] := by
  refine ⟨fun w hw => ?_, fun i hi => ?_, ?_, othersKept_updCore s p _⟩
  · rw [List.mem_singleton.mp hw, coreAt_updCore_same, rowAt_laterRow, if_pos rfl]
  · rw [coreAt_updCore_same, rowAt_laterRow, if_neg (Ne.symm (hi _ (.head _)))]
  · rw [coreAt_updCore_same]
    rfl

/-! The result rows' places. -/

theorem mem_drainRows {c : DrainCmd} {w : Int} {t : List (List A64)} {o : DrainOut} (h : o ∈ drainRows c w t) :
    ∃ q, q < ofmtRows c.ofmt ∧ o.at_ = c.dstRow + q ∧ o.cycle = ofmtCycle c.ofmt q := by
  obtain ⟨q, hq, rfl⟩ := List.mem_map.mp h
  exact ⟨q, List.mem_range.mp hq, rfl, rfl⟩

theorem ofmtCycle_bounds {ofmt q : Nat} (h : q < ofmtRows ofmt) : 15 ≤ ofmtCycle ofmt q ∧ ofmtCycle ofmt q ≤ 30 := by
  rcases ofmt with _ | _ | _ | _ | n
  all_goals
    simp only [ofmtRows, ofmtCycle] at h ⊢
    omega

/-- The result rows are written in cycles 15 to 30 of a drain (R147, R149). -/
theorem cycle_of_mem_drainOuts {c : DrainCmd} {w : Int} {t : List (List A64)} {o : DrainOut} (h : o ∈ drainOuts c w t) :
    15 ≤ o.cycle ∧ o.cycle ≤ 30 := by
  rcases List.mem_append.mp h with h | h
  · obtain ⟨q, hq, _, hc⟩ := mem_drainRows h
    rw [hc]
    exact ofmtCycle_bounds hq
  · split at h
    · cases h
    · rw [List.mem_singleton.mp h]
      simp

/-- Each result row is another Pool row, where the top-k row lies outside the others (R149). -/
theorem nodup_drainOuts {c : DrainCmd} (h : c.topk = 0 ∨ c.topkRow < c.dstRow ∨ c.dstRow + ofmtRows c.ofmt ≤ c.topkRow)
    (w : Int) (t : List (List A64)) : ((drainOuts c w t).map (·.at_)).Nodup := by
  have rows : ((drainRows c w t).map (·.at_)).Nodup := by
    simp only [drainRows, List.map_map, Function.comp_def]
    exact List.Nodup.map (fun a b e => Nat.add_left_cancel e) List.nodup_range
  unfold drainOuts
  rw [List.map_append]
  split
  · simpa using rows
  · next ht =>
    refine List.Nodup.append rows (List.nodup_singleton _) ?_
    refine List.disjoint_singleton.mpr fun hm => ?_
    obtain ⟨o, ho, e⟩ := List.mem_map.mp hm
    obtain ⟨q, hq, ha, _⟩ := mem_drainRows ho
    dsimp only at e
    omega

/-! The drain. -/

/-- The working exponent of a drain (R141, R143). -/
def drainExp (k : Core) (c : DrainCmd) : Int := c.wexp.getD (signed8 (finalMarks (descAt k c.tile)).exp.toNat)

/-- The result rows of a drain none of whose accesses fails, its tile POISONED or not (R143 to R149, R160). -/
def drainResult (k : Core) (c : DrainCmd) (bad : Bool) : List DrainOut :=
  drainOuts c (drainExp k c) (drainStages c (signed8 (finalMarks (descAt k c.tile)).exp.toNat) (drainExp k c)
    (if c.scEn then some (rowAt k c.scRow) else none) (if c.biasEn then some (rowAt k c.biasRow) else none)
    (if bad then List.replicate 32 (List.replicate 32 A64.nar) else (tileRowsOf k c.tile).map tileWords))

/-- The accesses of a drain that starts at cycle e (R143, R144, R147, R149). -/
def drainFores (k : Core) (c : DrainCmd) (e : Nat) (bad : Bool) : List Fore :=
  (if c.scEn then [{ row := c.scRow, cycle := e, write := false }] else []) ++
  (if c.biasEn then [{ row := c.biasRow, cycle := e + 1, write := false }] else []) ++
  (drainResult k c bad).map fun o => { row := o.at_, cycle := e + o.cycle, write := true }

/-- The writes of a drain that starts at cycle e, as `runDrain` plans them for its command (R147, R149). -/
def drainWrites (k : Core) (c : DrainCmd) (e track : Nat) (bad : Bool) : List Fore :=
  (drainResult k c bad).map fun o => { row := o.at_, cycle := e + o.cycle, write := true, track := track, use := .outRow }

/-- Result rows none of whose accesses meets anything are written, each in its place (R147, R150). -/
theorem rowsWritten_results {p : Nat} {f : State → Nat × DrainOut × Option Nat → State}
    (hf : ∀ s i o, (coreAt s p).upsets.sync = [] → RowsWritten s (f s (i, o, none)) p [(o.at_, o.row)]) {outs : List DrainOut}
    (hn : (outs.map (·.at_)).Nodup) {s : State} (hs : (coreAt s p).upsets.sync = []) (g : DrainOut → Fore) :
    RowsWritten s (((outs.zip ((outs.map g).map fun _ => none)).mapIdx fun i x => (i, x)).foldl f s) p
      (outs.map fun o => (o.at_, o.row)) := by
  have made : outs.zip ((outs.map g).map fun _ => none) = outs.map fun o => (o, (none : Option Nat)) := by
    simpa [Function.comp_def] using List.zip_map' (l := outs) (f := id) (g := fun _ => (none : Option Nat))
  have each {α : Type} (h : DrainOut → α) : ((outs.map fun o => (o, (none : Option Nat))).mapIdx fun i x => (i, x)).map
      (fun y => h y.2.1) = outs.map h :=
    List.ext_getElem (by simp) (by simp)
  rw [made, ← each fun o => (o.at_, o.row)]
  refine RowsWritten.foldl (g := fun y : Nat × DrainOut × Option Nat => (y.2.1.at_, y.2.1.row)) (fun s y hy clean => ?_)
    (by rwa [each fun o => o.at_]) hs
  obtain ⟨i, hi, rfl⟩ := List.mem_mapIdx.mp hy
  rw [List.getElem_map]
  exact hf s i _ clean


section
variable {s : State} {p e : Nat} {c : DrainCmd} (ho : (coreAt s p).pool.off = [])
include ho

/-- The two rows a drain reads, where neither read meets anything (R143, R144). -/
theorem readFactors_clean (hu : (coreAt s p).upsets.pool = []) (hp : (coreAt s p).pool.plan = [])
    (hs : c.scEn = true → e % 32 ≠ reservedPhase (bankOf c.scRow))
    (hb : c.biasEn = true → (e + 1) % 32 ≠ reservedPhase (bankOf c.biasRow)) (l slot ends track : Nat) (use : Use) :
    ∃ t u, readFactor s p l slot [] c.scEn c.scRow e ends track use =
        (if c.scEn then some (rowAt (coreAt s p) c.scRow) else none, none, t) ∧
      readFactor t p l slot [] c.biasEn c.biasRow (e + 1) ends track use =
        (if c.biasEn then some (rowAt (coreAt s p) c.biasRow) else none, none, u) ∧ Planned s u p (e + 1 + 1) := by
  obtain ⟨t, read1, plan1⟩ := readFactor_clean ho hu (by rw [hp]; simp) hs l slot ends track use
  obtain ⟨u, read2, plan2⟩ := readFactor_clean (s := t) (p := p) (by rw [plan1.core.1]; exact ho) (by rw [plan1.core.upsets, hu])
    plan1.core.2 hb l slot ends track use
  have row : rowAt (coreAt t p) c.biasRow = rowAt (coreAt s p) c.biasRow := by
    rw [plan1.core.1]
    rfl
  rw [row] at read2
  exact ⟨t, u, read1, read2, plan1.trans plan2⟩

/-- The writes of a drain, where none meets anything (R147, R149). -/
theorem drainWrites_made {k : Core} {bad : Bool} (hp : ∀ a, a ∈ (coreAt s p).pool.plan → a.cycle < e + 1 + 1)
    (hr : ∀ o, o ∈ drainResult k c bad → (e + o.cycle) % 32 ≠ reservedPhase (bankOf o.at_)) (l track slot : Nat) :
    ∃ t, doFore s p l 1 slot [] (drainWrites k c e track bad) = ((drainWrites k c e track bad).map fun _ => none, t) ∧
      Planned s t p (e + 31) := by
  refine doFore_none (fun f hf i => ?_) (fun a ha => by have := hp a ha; omega) (fun f hf => ?_) l 1 slot
  all_goals
    obtain ⟨o, hm, rfl⟩ := List.mem_map.mp hf
    obtain ⟨early, late⟩ := cycle_of_mem_drainOuts hm
  · exact foreCase_none ho (hr o hm) (fun a ha => by have := hp a ha; dsimp only; omega) i
  · dsimp only
    omega

end

/-- What none of a drain's accesses failing says of each (R226). -/
theorem reserved_of_drainFores {k : Core} {c : DrainCmd} {e : Nat} {bad : Bool}
    (h : ∀ f, f ∈ drainFores k c e bad → f.cycle % 32 ≠ reservedPhase (bankOf f.row)) :
    (c.scEn = true → e % 32 ≠ reservedPhase (bankOf c.scRow)) ∧
    (c.biasEn = true → (e + 1) % 32 ≠ reservedPhase (bankOf c.biasRow)) ∧
    ∀ o, o ∈ drainResult k c bad → (e + o.cycle) % 32 ≠ reservedPhase (bankOf o.at_) := by
  refine ⟨fun en => ?_, fun en => ?_, fun o ho => ?_⟩
  · exact h { row := c.scRow, cycle := e, write := false } (by simp [drainFores, en])
  · exact h { row := c.biasRow, cycle := e + 1, write := false } (by simp [drainFores, en])
  · exact h { row := o.at_, cycle := e + o.cycle, write := true } (List.mem_append_right _ (List.mem_map.mpr ⟨o, ho, rfl⟩))

/-- What a drain converts, where none of its accesses fails (R143, R160). -/
theorem drainOuts_readWords (k : Core) (c : DrainCmd) (bad : Bool) :
    drainOuts c (drainExp k c) (drainStages c (signed8 (finalMarks (descAt k c.tile)).exp.toNat) (drainExp k c)
      (if c.scEn then some (rowAt k c.scRow) else none) (if c.biasEn then some (rowAt k c.biasRow) else none)
      (readWords k c.tile (if bad then some 0 else none))) = drainResult k c bad := by
  rw [readWords_clean]
  rfl

/-- The status of a drain none of whose accesses fails is that of its tile (R151, R160). -/
theorem worseOf_made {α : Type} (bad : Bool) (fs : List α) :
    worseOf ((if bad then some 0 else none : Option Nat).isSome || (none : Option Nat) == some 3 || (none : Option Nat) == some 3)
      ((fs.map fun _ => (none : Option Nat)).any (·.isSome) || (none : Option Nat).any (· != 3) || (none : Option Nat).any (· != 3)) =
    if bad then .poisoned else .done := by
  cases bad <;> simp [worseOf]

/-- A drain none of whose accesses fails writes its result rows, and starts (R143 to R151, R160). -/
theorem runDrain_started {s : State} {p e : Nat} {c : DrainCmd} {bad : Bool}
    (ht : c.topk = 0 ∨ c.topkRow < c.dstRow ∨ c.dstRow + ofmtRows c.ofmt ≤ c.topkRow)
    (hb : bad = (shownMarks (descAt (coreAt s p) c.tile) (e + 9)).poisoned)
    (hc : Clear (coreAt s p) (drainFores (coreAt s p) c e bad)) (l : Nat) (d : Decoded) :
    ∃ u, RowsWritten s u p ((drainResult (coreAt s p) c bad).map fun o => (o.at_, o.row)) ∧
      OutStarted u (runDrain s p l e d c []) p c.tile (if bad then .poisoned else .done) := by
  obtain ⟨hplan, hoff, hups, hres⟩ := hc
  obtain ⟨scale, bias, result⟩ := reserved_of_drainFores hres
  obtain ⟨s1, s2, read1, read2, plan2⟩ := readFactors_clean hoff (by rw [hups]) hplan scale bias l d.slot
    (e + (if c.topk = 0 then 29 else 30)) d.track (.factor c (drainExp (coreAt s p) c) d.ctx (if c.censusEn then d.tag else none))
  obtain ⟨s3, write, plan3⟩ := drainWrites_made (by rw [plan2.core.1]; exact hoff) plan2.core.2 result l d.track d.slot
  have sound : (coreAt s2 p).upsets = { pool := [], fs := [], sync := [] } := plan2.core.upsets.trans hups
  have words : readWords (coreAt s2 p) c.tile = readWords (coreAt s p) c.tile := by
    rw [plan2.core.1]
    rfl
  have desc : descAt (coreAt s2 p) c.tile = descAt (coreAt s p) c.tile := by
    rw [plan2.core.1]
    rfl
  have plan4 := plan3.trans (addMarks_planned s3 p (cycleOf s l) (e + 31) ((drainWrites (coreAt s p) c e d.track bad).map fun f =>
    { row := f.row, write := true, till := some f.cycle, engine := 1, slot := d.slot }) plan3.core.2)
  have fores : ((drainResult (coreAt s p) c bad).map fun o =>
      ({ row := o.at_, cycle := e + o.cycle, write := true, track := d.track, use := .outRow } : Fore)) =
    drainWrites (coreAt s p) c e d.track bad := rfl
  unfold runDrain
  dsimp only
  rw [List.filter_nil, List.filter_nil, List.map_nil,
    show c.wexp.getD (signed8 (finalMarks (descAt (coreAt s p) c.tile)).exp.toNat) = drainExp (coreAt s p) c from rfl, read1]
  dsimp only
  rw [read2]
  dsimp only
  rw [tileReadFault_clean (by rw [sound]), desc, ← hb]
  dsimp only
  rw [words, drainOuts_readWords, show runDrain.meetsOf [] = [] from rfl, fores, write]
  dsimp only
  rw [worseOf_made]
  refine ⟨_, .of_planned (plan2.trans plan4) (rowsWritten_results (fun t i o clean => ?_) (nodup_drainOuts ht ..) ?_ _),
    .of_kept (((countAct_outKept ..).trans (countAct_outKept ..)).trans (noteDrain_outKept ..)) (startOut_started ..)⟩
  · have made := laterRow_rowsWritten t p (cycleOf s l) (e + o.cycle) o.at_ o.row
    dsimp only
    split
    · exact made.trans (countOpt_rowsWritten ((congrArg (fun y => y.2.2.2) made.rest).trans clean) ..) (by simp)
    · exact made
  · rw [plan4.core.upsets, sound]

end Sys2Proof.Machine
end

section
/-!
PROOFS. What a descriptor command and a drain leave (R131, R139 to R155, R160): OutputPathResult.
-/

namespace Sys2Proof.Machine

/-! A command enters the pending slot. -/

section
variable {s : State} {l p : Nat} {i : Instr} {key : Nat} {c : Cmd} (hi : (i, key) ∈ outputRows l) (hd : Decodes s l 0 p key c)
  (ha : NotAbandoned s l p c)
include hi hd ha

theorem exec_outputRow_enters (he : (coreAt s p).outp.pend = none) : ∃ t d, exec i s = .next t ∧ t.answer = .done ∧ d.cmd = c ∧
    EntersOut s t p d (decodeCycle s l (queueAt (coreAt s p) 0)) := by
  obtain ⟨u, d, waits, rfl, since, run⟩ := exec_outputRow_decodes hi hd ha
  obtain ⟨entered, answer⟩ := enterOut_enters (l := l) waits.head (by rw [waits.core]; exact he) (outCmd_of_decodes hi hd).1
  have when : max (cycleOf u l) d.since = decodeCycle s l (queueAt (coreAt s p) 0) := by
    rw [waits.cycle, since, decodeCycle]
    omega
  rw [when] at entered
  exact ⟨_, freshWait (coreAt u p) (decodeCycle s l (queueAt (coreAt s p) 0)) d, run, answer.trans waits.answer, rfl,
    entered.of_waits waits⟩

theorem exec_outputRow_waits (he : (coreAt s p).outp.pend.isSome = true) : ∃ t d, exec i s = .next t ∧
    (coreAt t p).outp.pend = (coreAt s p).outp.pend ∧ (queueAt (coreAt t p) 0).head = some d ∧ d.cmd = c ∧
    (coreAt t p).pool = (coreAt s p).pool ∧ (coreAt t p).flow = (coreAt s p).flow ∧ OthersKept s t p := by
  obtain ⟨u, d, waits, cmd, since, run⟩ := exec_outputRow_decodes hi hd ha
  rw [enterOut_full (by rw [waits.core]; exact he)] at run
  exact ⟨u, d, run, by rw [waits.core]; rfl, waits.head, cmd, by rw [waits.core]; rfl, by rw [waits.core]; rfl, waits.others⟩

end

/-! A descriptor command runs. -/

/-- From s to t, what a descriptor command of any kind leaves: its tile let go and at the new exponent, and all but that tile kept (R139,
R154). -/
def DescKept (s t : State) (p now : Nat) (c : DescCmd) : Prop :=
  (coreAt t p).outp.pend = none ∧ (descAt (coreAt t p) c.tile).pendHeld = false ∧
  (FieldsStand (descAt (coreAt s p) c.tile) now → (finalMarks (descAt (coreAt t p) c.tile)).exp = BitVec.ofInt 8 c.exp) ∧
  (∀ u, (u < 32 * c.tile ∨ 32 * c.tile + 32 ≤ u) → trowAt (coreAt t p) u = trowAt (coreAt s p) u) ∧
  (∀ n, n ≠ c.tile → SameTile (descAt (coreAt s p) n) (descAt (coreAt t p) n)) ∧
  (coreAt t p).pool = (coreAt s p).pool ∧ (coreAt t p).sync.flags = (coreAt s p).sync.flags ∧ OthersKept s t p

theorem DescRan.kept {s t : State} {p now : Nat} {c : DescCmd} {es : List (Nat × DescEv)} {k : Core} {st : Status}
    (h : DescRan s t p c.tile now es k st) (he : FieldsStand (descAt (coreAt s p) c.tile) now →
      (finalMarks (addEvs (descAt (coreAt s p) c.tile) now es)).exp = BitVec.ofInt 8 c.exp) : DescKept s t p now c :=
  ⟨h.pend, h.held, fun stand => by rw [h.marks, he stand], h.outside, h.descs, h.pool, h.flags, h.others⟩

/-- A row that a RESCALE writes (R154, R160). -/
theorem rescaledRows_getElem? {k : Core} (hu : k.upsets.fs = []) (c : DescCmd) (bad : Bool) {u : Nat} (h : u < 32) :
    (rescaledRows k c bad)[u]? = some (if bad then List.replicate 32 A64.nar
      else (tileWords (trowAt k (32 * c.tile + u))).map (rescaleA64 (signed8 (finalMarks (descAt k c.tile)).exp.toNat) c.exp)) := by
  rw [rescaledRows, readWords_clean]
  cases bad with
  | false => simp [tileRowsOf, h, seenTrow_clean hu]
  | true => simp only [if_true, List.map_replicate, List.getElem?_replicate, h, rescaleA64]

section
variable {s : State} {l p e : Nat} {d : Decoded} (h : MayIssue s l p) (hp : (coreAt s p).outp.pend = some d)
  (he : e = nextPhase (max (cycleOf s l) (d.since + 1)) 0 32)
include h hp he

section
variable {c : DescCmd} (hc : d.cmd = .desc c) (hf : tileFree (coreAt s p) e c.tile = true) (hi : outIdle (coreAt s p) e = true)
include hc hf hi

/-- A descriptor command that starts changes no plan, so that no access is put right after it (R140, R227). -/
theorem exec_desc_ran {es : List (Nat × DescEv)} {k : Core} {st : Status}
    (ran : DescRan s (runDesc s p l e d c) p c.tile (cycleOf s l) es k st) :
    exec (.outputPathStart l []) s = .next (runDesc s p l e d c) := by
  rw [exec_start_desc h hp he (cmdVerdict_desc hc ..) (by rw [hc]; exact hf) hi hc,
    mendCore_none_met ran.others (.inr (congrArg Pool.plan ran.pool))]

/-- SET writes the exponent and, with clear, the marks (R132, R154). -/
theorem set_leaves (ho : c.op = 0) : ∃ t, exec (.outputPathStart l []) s = .next t ∧ t.answer = .done ∧
    DescKept s t p (cycleOf s l) c ∧ (∀ u, trowAt (coreAt t p) u = trowAt (coreAt s p) u) ∧
    (FieldsStand (descAt (coreAt s p) c.tile) (cycleOf s l) → finalMarks (descAt (coreAt t p) c.tile) =
      stepEv (finalMarks (descAt (coreAt s p) c.tile)) (.exp (BitVec.ofInt 8 c.exp) c.clear)) := by
  have ran := runDesc_set ho s p l e d
  have marks (stand : FieldsStand (descAt (coreAt s p) c.tile) (cycleOf s l)) := finalMarks_addEvs stand
    [(e, .exp (BitVec.ofInt 8 c.exp) c.clear)]
  exact ⟨_, exec_desc_ran h hp he hc hf hi ran, ran.answer, ran.kept fun stand => by rw [marks stand]; rfl, ran.words,
    fun stand => ran.marks.trans (marks stand)⟩

/-- RESCALE writes each word at the new exponent (R154, R155, R160). -/
theorem rescale_leaves (ho : c.op = 1) (hu : (coreAt s p).upsets.fs = []) {bad : Bool}
    (hb : bad = (shownMarks (descAt (coreAt s p) c.tile) (e + 9)).poisoned) :
    ∃ t, exec (.outputPathStart l []) s = .next t ∧ t.answer = (if bad then .poisoned else .done) ∧
      DescKept s t p (cycleOf s l) c ∧
      (∀ u, u < 32 → trowAt (coreAt t p) (32 * c.tile + u) = mkTileRow (if bad then List.replicate 32 A64.nar
        else (tileWords (trowAt (coreAt s p) (32 * c.tile + u))).map
          (rescaleA64 (signed8 (finalMarks (descAt (coreAt s p) c.tile)).exp.toNat) c.exp))) ∧
      (FieldsStand (descAt (coreAt s p) c.tile) (cycleOf s l) →
        (finalMarks (descAt (coreAt t p) c.tile)).poisoned = (finalMarks (descAt (coreAt s p) c.tile)).poisoned) := by
  have ran := runDesc_rescale ho hu l e d hb
  refine ⟨_, exec_desc_ran h hp he hc hf hi ran, ran.answer, ran.kept fun stand => (finalMarks_rescale stand ..).1,
    fun u hr => ?_, fun stand => by rw [ran.marks, (finalMarks_rescale stand ..).2]⟩
  rw [ran.words]
  refine trowAt_writeTrows_of_some ?_
  rw [List.getElem?_map, rescaledRows_getElem? hu c bad hr]
  rfl

/-- ZERO writes zero words, and clears POISONED with the other marks (R154). -/
theorem zero_leaves (ho : c.op = 2) : ∃ t, exec (.outputPathStart l []) s = .next t ∧ t.answer = .done ∧
    DescKept s t p (cycleOf s l) c ∧ (∀ u, u < 32 → trowAt (coreAt t p) (32 * c.tile + u) = 0) ∧
    (FieldsStand (descAt (coreAt s p) c.tile) (cycleOf s l) → finalMarks (descAt (coreAt t p) c.tile) =
      stepEv (finalMarks (descAt (coreAt s p) c.tile)) (.zero (BitVec.ofInt 8 c.exp))) := by
  have ran := runDesc_zero ho s p l e d
  have marks (stand : FieldsStand (descAt (coreAt s p) c.tile) (cycleOf s l)) := finalMarks_addEvs stand
    [(fillPortEnd (e + 8) 32 (coreAt s p).tile.claims, .zero (BitVec.ofInt 8 c.exp))]
  refine ⟨_, exec_desc_ran h hp he hc hf hi ran, ran.answer, ran.kept fun stand => by rw [marks stand]; rfl,
    fun u hr => ?_, fun stand => ran.marks.trans (marks stand)⟩
  rw [ran.words]
  exact trowAt_writeTrows_of_some (by rw [List.getElem?_replicate, if_pos hr])

end

/-- A drain none of whose accesses fails leaves its result rows, and its tile as it was (R143 to R151, R160). -/
theorem drain_leaves {c : DrainCmd} (hc : d.cmd = .drain c) (hf : tileFree (coreAt s p) e c.tile = true)
    (hi : outIdle (coreAt s p) e = true) (hv : cmdVerdict s p l e d = .go)
    (ht : c.topk = 0 ∨ c.topkRow < c.dstRow ∨ c.dstRow + ofmtRows c.ofmt ≤ c.topkRow) {bad : Bool}
    (hb : bad = (shownMarks (descAt (coreAt s p) c.tile) (e + 9)).poisoned)
    (ha : Clear (coreAt s p) (drainFores (coreAt s p) c e bad)) :
    ∃ t, exec (.outputPathStart l []) s = .next t ∧ t.answer = (if bad then .poisoned else .done) ∧
      (coreAt t p).outp.pend = none ∧ (∀ o, o ∈ drainResult (coreAt s p) c bad → rowAt (coreAt t p) o.at_ = o.row) ∧
      (∀ r, (∀ o, o ∈ drainResult (coreAt s p) c bad → o.at_ ≠ r) → rowAt (coreAt t p) r = rowAt (coreAt s p) r) ∧
      (∀ u, trowAt (coreAt t p) u = trowAt (coreAt s p) u) ∧
      finalMarks (descAt (coreAt t p) c.tile) = finalMarks (descAt (coreAt s p) c.tile) ∧
      (coreAt t p).sync.flags = (coreAt s p).sync.flags ∧ OthersKept s t p := by
  obtain ⟨u, wrote, started⟩ := runDrain_started ht hb ha l d
  have run := exec_start_drain h hp he hv (by rw [hc]; exact hf) hi hc
  rw [mendCore_none_met (wrote.others.trans started.others) (.inl ha.1)] at run
  have rest := wrote.rest
  simp only [beyondRows, Prod.mk.injEq] at rest
  obtain ⟨_, flow, sync, _⟩ := rest
  have row (r : Nat) : rowAt (coreAt (runDrain s p l e d c []) p) r = rowAt (coreAt u p) r := by
    rw [rowAt, started.kept.pool]
    rfl
  refine ⟨_, run, started.answer, started.kept.pend, fun o ho => ?_, fun r hr => ?_, fun v => ?_, ?_, ?_,
    wrote.others.trans started.others⟩
  · exact (row _).trans (wrote.written (o.at_, o.row) (List.mem_map.mpr ⟨o, ho, rfl⟩))
  · refine (row r).trans (wrote.kept r fun w hw => ?_)
    obtain ⟨o, ho, rfl⟩ := List.mem_map.mp hw
    exact hr o ho
  · rw [trowAt, trowAt, started.kept.rows, ← flow]
    rfl
  · rw [finalMarks_sameTile (started.kept.descs c.tile), descAt_letGo, if_pos rfl, descAt, descAt, flow]
    rfl
  · rw [started.kept.flags]
    exact congrArg Sync.flags sync

end

/-- Settles O38: a command that enters the pending slot leaves the head; one that starts from it is run by `runDesc` or `runDrain`,
each of which keeps all but its own results. -/
theorem outputPathResult : Obligations.OutputPathResult := by
  refine ⟨fun s l p => ⟨fun key i c hi hd ha => ⟨?_, ?_⟩, fun d i hl hd hi => ⟨fun he => ?_, fun he => ?_⟩⟩,
    fun s l p e d c h hp hc he hf hi hu => ⟨fun ho => ?_, fun ho => ?_, fun ho => ?_⟩,
    fun s l p e d c h hp hc ht he hv hf hi ha => ?_⟩
  · exact exec_outputRow_enters hi hd ha
  · exact exec_outputRow_waits hi hd ha
  · obtain ⟨out, run⟩ := exec_outputRow_again hl hd hi
    exact ⟨_, run, (enterOut_enters hd he out).1⟩
  · obtain ⟨_, run⟩ := exec_outputRow_again hl hd hi
    rw [run, enterOut_full he]
  · obtain ⟨t, run, answer, kept, words, marks⟩ := set_leaves h hp he hc hf hi ho
    exact ⟨t, run, answer, kept, words, fun stand => by dsimp only; rw [marks stand]; exact ⟨rfl, rfl, rfl, rfl⟩⟩
  · exact rescale_leaves h hp he hc hf hi ho hu rfl
  · obtain ⟨t, run, answer, kept, words, marks⟩ := zero_leaves h hp he hc hf hi ho
    exact ⟨t, run, answer, kept, words, fun stand => by dsimp only; rw [marks stand]; exact ⟨rfl, rfl, rfl, rfl⟩⟩
  · exact drain_leaves h hp he hc hf hi hv ht rfl ha

end Sys2Proof.Machine
end

section
/-!
PROOFS. What leaving its head changes of a core, besides the queue (R243, R344 to R347).
-/

namespace Sys2Proof.Machine

/-- From core k to k', as much as a command that leaves its queue's head may change: queues, rings, packets to send, counts of errors
and register changes of the part's own (R9, R243, R344 to R347). -/
def HeadLeft (k k' : Core) : Prop :=
  k' = { k with queues := k'.queues, pool := { k.pool with rings := k'.pool.rings }, mv := k'.mv, ecc := k'.ecc, hw := k'.hw }

theorem HeadLeft.refl (k : Core) : HeadLeft k k := rfl

theorem HeadLeft.trans {a b c : Core} (h : HeadLeft a b) (k : HeadLeft b c) : HeadLeft a c := by
  rw [HeadLeft] at h k ⊢
  rw [k, h]

theorem countBuf_headLeft (k : Core) (es : Store Nat) : HeadLeft k (countBuf k es) := by
  obtain ⟨ecc, h⟩ := countBuf_changes k es
  rw [h]
  rfl

theorem updCore_headLeft {s t : State} {p : Nat} {f : Core → Core} (h : HeadLeft (coreAt s p) (coreAt t p))
    (hf : HeadLeft (coreAt t p) (f (coreAt t p))) : HeadLeft (coreAt s p) (coreAt (updCore t p f) p) := by
  rw [coreAt_updCore_same]
  exact h.trans hf

theorem inject_headLeft (s : State) (p src : Nat) (pkt : Packet) : HeadLeft (coreAt s p) (coreAt (inject s p src pkt) p) := by
  unfold inject injectFrom
  dsimp only
  split <;> exact updCore_headLeft (.refl _) rfl

theorem grantRing_headLeft (s : State) (p l n count : Nat) : HeadLeft (coreAt s p) (coreAt (grantRing s p l n count) p) := by
  unfold grantRing
  dsimp only
  split
  · exact .refl _
  · split
    · rw [coreAt_setCore_same]
      rfl
    · refine HeadLeft.trans ?_ (inject_headLeft ..)
      rw [coreAt_setCore_same]
      rfl

theorem stopBadRow_headLeft (s : State) (p l q : Nat) : HeadLeft (coreAt s p) (coreAt (stopBadRow s p l q) p) := by
  unfold stopBadRow
  dsimp only
  split
  · exact .refl _
  · next b _ _ =>
    split
    · have counted : HeadLeft (coreAt s p) (coreAt (updCore s p fun k => countBuf k b.errs) p) :=
        updCore_headLeft (.refl _) (countBuf_headLeft _ _)
      rw [coreAt_logCore, coreAt_updQueue_same]
      exact counted.trans rfl
    · exact .refl _

theorem leaveHead_headLeft (s : State) (p l q ready : Nat) : HeadLeft (coreAt s p) (coreAt (leaveHead s p l q ready) p) := by
  unfold leaveHead
  dsimp only
  split
  · refine ((HeadLeft.trans ?_ (grantRing_headLeft _ p l q 1))).trans (stopBadRow_headLeft ..)
    refine updCore_headLeft ?_ rfl
    rw [coreAt_setCore_same]
    exact (countBuf_headLeft _ _).trans rfl
  · rw [coreAt_setCore_same]
    exact (countBuf_headLeft _ _).trans rfl

end Sys2Proof.Machine
end

section
/-!
PROOFS. Foreground accesses that are all made, and those of a vector instruction (R172, R183, R226).
-/

namespace Sys2Proof.Machine

/-! Accesses that are all made. -/

/-- A core whose plan of accesses is another. -/
def withPlan (k : Core) (plan : List Access) : Core := { k with pool := { k.pool with plan := plan } }

/-- An access outside its bank's reserved slot, in another cycle than those planned, is made (R226). -/
theorem foreCase_unmet {k : Core} {f : Fore} (ho : k.pool.off = []) (hr : f.cycle % 32 ≠ reservedPhase (bankOf f.row))
    (hp : ∀ a, a ∈ k.pool.plan → a.cycle ≠ f.cycle) (i : Nat) : foreCase k [] i f = none := by
  have off : bankOff k (bankOf f.row) f.cycle = false := by simp [bankOff, ho]
  have met : k.pool.plan.any (fun a => a.cycle == f.cycle && bankOf a.row == bankOf f.row) = false :=
    List.any_eq_false.mpr fun a ha => by simp [hp a ha]
  simp only [foreCase, if_neg hr, off, met, List.any_nil, Bool.or_self, Bool.false_eq_true, if_false]

/-- Accesses that are all made enter the plan, each in its cycle, and nothing else changes (R226). -/
theorem doFore_made {s : State} {p : Nat} {fs : List Fore} (h : ∀ f, f ∈ fs → ∀ i, foreCase (coreAt s p) [] i f = none)
    (l engine slot : Nat) : ∃ plan, doFore s p l engine slot [] fs = (fs.map fun _ => none, updCore s p (withPlan · plan)) ∧
      ∀ a, a ∈ plan → a ∈ (coreAt s p).pool.plan ∨ ∃ f, f ∈ fs ∧ a.cycle = f.cycle := by
  have made : (fs.mapIdx fun i f => foreCase (coreAt s p) [] i f) = fs.map fun _ => none :=
    List.ext_getElem (by simp) fun i _ _ => by simp [h _ (List.getElem_mem _)]
  unfold doFore
  dsimp only
  rw [made, List.foldlRecOn (motive := fun t => t = s) _ _ rfl fun t ht x hx => ?_]
  · refine ⟨_, rfl, fun a ha => ?_⟩
    rcases List.mem_append.mp ha with ha | ha
    · exact .inl (List.mem_filter.mp ha).1
    · obtain ⟨x, hx, rfl⟩ := List.mem_map.mp ha
      exact .inr ⟨x.1, (List.of_mem_zip hx).1, rfl⟩
  · obtain ⟨i, hi, rfl⟩ := List.mem_mapIdx.mp hx
    rw [h _ (List.getElem_mem hi), ht]

/-- Rows whose reads are all made, none in error, are read as they stand (R220, R226). -/
theorem readRows_made {s : State} {p : Nat} {fs : List Fore} (h : ∀ f, f ∈ fs → ∀ i, foreCase (coreAt s p) [] i f = none)
    (hu : (coreAt s p).upsets.pool = []) (l engine slot : Nat) :
    ∃ plan, readRows s p l engine slot [] fs =
        (fs.map fun f => (rowAt (coreAt s p) f.row, none), updCore s p (withPlan · plan)) ∧
      ∀ a, a ∈ plan → a ∈ (coreAt s p).pool.plan ∨ ∃ f, f ∈ fs ∧ a.cycle = f.cycle := by
  obtain ⟨plan, made, planned⟩ := doFore_made h l engine slot
  have clean : (coreAt (updCore s p (withPlan · plan)) p).upsets.pool = [] := by rw [coreAt_updCore_same]; exact hu
  have zipped : fs.zip (fs.map fun _ => (none : Option Nat)) = fs.map fun f => (f, none) := by
    simpa using List.zip_map' (l := fs) (f := id) (g := fun _ => (none : Option Nat))
  refine ⟨plan, ?_, planned⟩
  unfold readRows
  dsimp only
  rw [made]
  dsimp only
  rw [zipped, List.foldlRecOn (motive := fun t => t = updCore s p (withPlan · plan)) _ _ rfl fun t ht x _ => ?_]
  · rw [List.map_map]
    congr 2
    funext f
    simp [seenRow_clean hu, rowBad_clean hu]
  · subst ht
    rw [usePoolRow_clean clean, ite_self]

/-! The accesses of a vector instruction. -/

/-- The accesses of one kind in each sweep of an instruction, access q of sweep j given by g (R172, R183). -/
def sweepFores (sweeps count : Nat) (g : Nat → Nat → Fore) : List Fore :=
  (List.range sweeps).flatMap fun j => (List.range count).map fun q => g j q

theorem mem_sweepFores {sweeps count : Nat} {g : Nat → Nat → Fore} {f : Fore} :
    f ∈ sweepFores sweeps count g ↔ ∃ j, j < sweeps ∧ ∃ q, q < count ∧ g j q = f := by
  simp [sweepFores]

theorem length_sweepFores (sweeps count : Nat) (g : Nat → Nat → Fore) : (sweepFores sweeps count g).length = sweeps * count := by
  simp [sweepFores]

/-- The rows of the first sweep come first. -/
theorem take_sweepFores {sweeps : Nat} (h : 0 < sweeps) (count : Nat) (g : Nat → Nat → Fore) :
    (sweepFores sweeps count g).take count = (List.range count).map (g 0) := by
  obtain ⟨n, rfl⟩ := Nat.exists_eq_add_of_lt h
  rw [sweepFores, Nat.zero_add, List.range_succ_eq_map, List.flatMap_cons, List.take_left' (by simp)]

theorem vecSweeps_pos (op : Nat) : 0 < vecSweeps op := by
  unfold vecSweeps
  split <;> decide

/-- Access q of sweep j among the A reads of an instruction that starts at cycle e (R172, R183). -/
def foreA (i : VecIns) (e j q : Nat) : Fore :=
  { row := i.aRow + q, cycle := e + j * (4 * vecN i + 8) + (if i.op = 0x20 then 4 * wideFactor i.bRow else 4) * q, write := false }

/-- Access q of sweep j among its B reads. -/
def foreB (i : VecIns) (e j q : Nat) : Fore :=
  { row := i.bRow + q, cycle := e + j * (4 * vecN i + 8) + 4 * q + 1, write := false }

/-- Its q-th mask read. -/
def foreM (i : VecIns) (e q : Nat) : Fore := { row := i.dRow + q, cycle := e + 4 * q + 3, write := false }

/-- Its q-th row write. -/
def foreD (i : VecIns) (e q : Nat) : Fore :=
  { row := i.dRow + q, write := true, use := .vecRow,
    cycle := e + (vecSweeps i.op - 1) * (4 * vecN i + 8) +
      (if i.op = 0x21 then 4 * (wideFactor i.bRow * q + wideFactor i.bRow - 1) else 4 * q) + 14 }

theorem vecFores_eq (i : VecIns) (e : Nat) : vecFores i e =
    (sweepFores (vecSweeps i.op) (vecARows i.op i.bRow i.n) (foreA i e),
     sweepFores (vecSweeps i.op) (vecBRows i.op i.n i.bsrc) (foreB i e),
     (List.range (if opHasMask i.op then i.n + 1 else 0)).map (foreM i e),
     (List.range (vecDRows i.op i.bRow i.n)).map (foreD i e)) := rfl

theorem foreA_phase (i : VecIns) (e j q : Nat) : (foreA i e j q).cycle % 4 = e % 4 := by
  have period : j * (4 * vecN i + 8) = 4 * (j * (vecN i + 2)) := by ring
  have step : (if i.op = 0x20 then 4 * wideFactor i.bRow else 4) * q = 
      4 * ((if i.op = 0x20 then wideFactor i.bRow else 1) * q) := by
    split <;> ring
  simp only [foreA, period, step]
  omega

theorem foreB_phase (i : VecIns) (e j q : Nat) : (foreB i e j q).cycle % 4 = (e + 1) % 4 := by
  have period : j * (4 * vecN i + 8) = 4 * (j * (vecN i + 2)) := by ring
  simp only [foreB, period]
  omega

theorem foreD_phase (i : VecIns) (e q : Nat) : (foreD i e q).cycle % 4 = (e + 2) % 4 := by
  have period : (vecSweeps i.op - 1) * (4 * vecN i + 8) = 4 * ((vecSweeps i.op - 1) * (vecN i + 2)) := by ring
  simp only [foreD, period]
  split <;> omega

/-- The reads and the row writes of an instruction fall in different cycles of every four (R172). -/
theorem vecRead_ne_write {i : VecIns} {e : Nat} {r w : Fore}
    (hr : r ∈ (vecFores i e).1 ++ (vecFores i e).2.1 ++ (vecFores i e).2.2.1) (hw : w ∈ (vecFores i e).2.2.2) :
    r.cycle ≠ w.cycle := by
  rw [vecFores_eq] at hr hw
  obtain ⟨n, _, rfl⟩ := List.mem_map.mp hw
  have write := foreD_phase i e n
  simp only [List.mem_append, mem_sweepFores, List.mem_map] at hr
  rcases hr with (⟨j, _, q, _, rfl⟩ | ⟨j, _, q, _, rfl⟩) | ⟨q, _, rfl⟩
  · have := foreA_phase i e j q
    omega
  · have := foreB_phase i e j q
    omega
  · simp only [foreM]
    omega

end Sys2Proof.Machine
end

section
/-!
PROOFS. The run of a vector instruction none of whose accesses fails, in its stages (R171 to R174, R187 to R190).
-/

namespace Sys2Proof.Machine

/-! The run of an instruction, in its stages. -/

/-- The scalar result of an instruction, if it has one, is written to its context's register and counted (R169, R174). -/
def writeScalar (s : State) (p l ends : Nat) (d : Decoded) (x : Option (Nat × Scalar × Counts)) : State :=
  match x with
  | none => s
  | some (r, v, n) =>
    countOpt (updCtx s p d.ctx fun x => { x with sc := Store.set Scalar.zero x.sc r v }) p l ends d.ctx d.tag n d.track 0

/-- The census commands: CSCNT counts the A rows, CSCLR clears nar_seen (R188, R190). -/
def censusVec (s : State) (p l e : Nat) (d : Decoded) (i : VecIns) (as : List Row) : State :=
  if i.op = 0x38 then countRows s p l e d.ctx d.tag i.bRow as d.track
  else if i.op = 0x39 then updCore s p fun k => addLate k e .clearNar
  else s

/-- An instruction starts at cycle e, the engine's state being f of its core, n rows accessed (R171, R193, R304, R445). -/
def noteVec (s : State) (p l e : Nat) (d : Decoded) (i : VecIns) (f : Core → VecEng) (n : Nat) : State :=
  let s := updCore s p fun k => { k with vec := f k }
  let s := countAct (countAct s l 1 (4 * vecN i)) l 2 n
  let s := endTrack s p d.track (if i.doneEn then e + vecEnd i + 1 else e + vecEnd i) (e + vecEnd i + 1) .done
  dueDone s p (e + vecEnd i) i.doneEn i.doneFlag 2 d.ctx d.slot d.track

theorem logVecs_made (s : State) (p l slot : Nat) (fs : List Fore) : logVecs s p l slot fs (fs.map fun _ => none) = s := by
  unfold logVecs
  refine List.foldlRecOn (motive := fun t => t = s) _ _ rfl fun t ht x hx => ?_
  obtain ⟨f, c⟩ := x
  obtain ⟨_, _, rfl⟩ := List.mem_map.mp (List.of_mem_zip hx).2
  exact ht

theorem deliverRows_made (s : State) (fmt : Nat) (rs : List Row) : deliverRows s fmt (rs.map fun r => (r, none)) = (rs, s) := by
  have appended (acc : List Row) : rs.foldl (fun acc r => (acc.1 ++ [r], acc.2)) (acc, s) = (acc ++ rs, s) := by
    induction rs generalizing acc with
    | nil => simp
    | cons r rs ih => simpa using ih (acc ++ [r])
  rw [deliverRows, List.foldl_map]
  exact appended []

/-- From s to t, accesses of core p have been planned with their marks, and nothing else. -/
structure PlanOnly (s t : State) (p : Nat) : Prop where
  core : coreAt t p =
    { coreAt s p with pool := { (coreAt s p).pool with plan := (coreAt t p).pool.plan, marks := (coreAt t p).pool.marks } }
  others : OthersKept s t p

theorem PlanOnly.rowsWritten {s t : State} {p : Nat} (h : PlanOnly s t p) : RowsWritten s t p [] :=
  ⟨by simp, fun r _ => by rw [h.core]; rfl, by rw [h.core]; rfl, h.others⟩

/-! The rows an instruction reads, and what it makes of them. -/

/-- The rows that an instruction reads, as they stand (R169, R172). -/
def vecRowsA (k : Core) (i : VecIns) : List Row := (rowsFrom i.aRow (vecARows i.op i.bRow i.n)).map (rowAt k)
def vecRowsB (k : Core) (i : VecIns) : List Row := (rowsFrom i.bRow (vecBRows i.op i.n i.bsrc)).map (rowAt k)
def vecRowsM (k : Core) (i : VecIns) : List Row := (rowsFrom i.dRow (if opHasMask i.op then i.n + 1 else 0)).map (rowAt k)

/-- What an instruction of context cx makes of them (R174). -/
def vecMakes (k : Core) (cx : Nat) (i : VecIns) : VecOut :=
  vecResult i (vecRowsA k i) (vecRowsB k i) (vecRowsM k i) (scalarsOf (ctxAt k cx))

/-- The reads of an instruction that starts at cycle e, in their order. -/
def vecReadFores (i : VecIns) (e : Nat) : List Fore := (vecFores i e).1 ++ (vecFores i e).2.1 ++ (vecFores i e).2.2.1

/-- The reads of an instruction that starts at cycle e, for its tracked command. -/
def vecReads (i : VecIns) (e track : Nat) : List Fore :=
  (vecReadFores i e).mapIdx fun j f => { f with track := track, use := .vecRead j }

/-- The writes of an instruction that starts at cycle e, for its tracked command. -/
def vecWrites (i : VecIns) (e track : Nat) : List Fore := (vecFores i e).2.2.2.map fun f => { f with track := track }

/-- The rows read, sweep after sweep. -/
def vecRowsRead (k : Core) (i : VecIns) (e : Nat) : List Row := (vecReadFores i e).map fun f => rowAt k f.row

/-- The rows that the first sweep of some accesses reads. -/
theorem rows_first_sweep {sweeps : Nat} (h : 0 < sweeps) (k : Core) (count first : Nat) {g : Nat → Nat → Fore}
    (hg : ∀ q, (g 0 q).row = first + q) (rest : List Fore) :
    (((sweepFores sweeps count g ++ rest).map fun f => rowAt k f.row).take ((sweepFores sweeps count g).length / sweeps)) =
      (rowsFrom first count).map (rowAt k) := by
  rw [length_sweepFores, Nat.mul_div_cancel_left _ h, ← List.map_take, List.take_append_of_le_length, take_sweepFores h]
  · simp [rowsFrom, hg, Function.comp_def]
  · rw [length_sweepFores]
    exact Nat.le_mul_of_pos_left _ h

theorem vecRowsRead_take (k : Core) (i : VecIns) (e : Nat) :
    (vecRowsRead k i e).take ((vecFores i e).1.length / vecSweeps i.op) = vecRowsA k i := by
  rw [vecRowsRead, vecReadFores, List.append_assoc]
  exact rows_first_sweep (vecSweeps_pos i.op) k _ i.aRow (fun _ => rfl) _

theorem vecRowsRead_slice (k : Core) (i : VecIns) (e : Nat) :
    sliceL (vecRowsRead k i e) (vecFores i e).1.length ((vecFores i e).2.1.length / vecSweeps i.op) = vecRowsB k i := by
  rw [vecRowsRead, vecReadFores, List.append_assoc, sliceL, ← List.map_drop, List.drop_left]
  exact rows_first_sweep (vecSweeps_pos i.op) k _ i.bRow (fun _ => rfl) _

theorem vecRowsRead_drop (k : Core) (i : VecIns) (e : Nat) :
    (vecRowsRead k i e).drop ((vecFores i e).1.length + (vecFores i e).2.1.length) = vecRowsM k i := by
  rw [vecRowsRead, vecReadFores, ← List.map_drop, ← List.length_append, List.drop_left, vecFores_eq, vecRowsM, rowsFrom]
  simp [foreM, Function.comp_def]

theorem mem_vecReads {i : VecIns} {e track : Nat} {f : Fore} (h : f ∈ vecReads i e track) :
    ∃ g, g ∈ vecReadFores i e ∧ f.row = g.row ∧ f.cycle = g.cycle := by
  obtain ⟨j, hj, rfl⟩ := List.mem_mapIdx.mp h
  exact ⟨_, List.getElem_mem hj, rfl, rfl⟩

section
variable {s : State} {p e : Nat} {i : VecIns} (hc : Clear (coreAt s p)
  ((vecFores i e).1 ++ (vecFores i e).2.1 ++ (vecFores i e).2.2.1 ++ (vecFores i e).2.2.2))
include hc

/-- The reads of an instruction none of whose accesses fails (R172, R226). -/
theorem vecReads_made (l slot track : Nat) : ∃ plan, readRows s p l 2 slot [] (vecReads i e track) =
      ((vecRowsRead (coreAt s p) i e).map fun r => (r, none), updCore s p (withPlan · plan)) ∧
    ∀ a, a ∈ plan → ∃ f, f ∈ vecReadFores i e ∧ a.cycle = f.cycle := by
  obtain ⟨hplan, hoff, hups, hres⟩ := hc
  obtain ⟨plan, read, planned⟩ := readRows_made (fs := vecReads i e track) (fun f hf j => by
    obtain ⟨g, hg, row, cycle⟩ := mem_vecReads hf
    refine foreCase_unmet hoff ?_ (by simp [hplan]) j
    rw [row, cycle]
    exact hres g (List.mem_append_left _ hg)) (by rw [hups]) l 2 slot
  refine ⟨plan, ?_, fun a ha => ?_⟩
  · have rows : (vecReads i e track).map (fun f => rowAt (coreAt s p) f.row) = vecRowsRead (coreAt s p) i e :=
      List.ext_getElem (by simp [vecReads, vecRowsRead]) (by simp [vecReads, vecRowsRead])
    rw [read, ← rows, List.map_map]
    rfl
  · rcases planned a ha with ha | ⟨f, hf, cycle⟩
    · rw [hplan] at ha
      cases ha
    · obtain ⟨g, hg, _, cycle'⟩ := mem_vecReads hf
      exact ⟨g, hg, cycle.trans cycle'⟩

/-- Its row writes, in other cycles than its reads (R172, R226). -/
theorem vecWrites_made {plan : List Access} (hp : ∀ a, a ∈ plan → ∃ f, f ∈ vecReadFores i e ∧ a.cycle = f.cycle)
    (l slot track : Nat) : ∃ plan', doFore (updCore s p (withPlan · plan)) p l 2 slot [] (vecWrites i e track) =
      ((vecWrites i e track).map fun _ => none, updCore (updCore s p (withPlan · plan)) p (withPlan · plan')) := by
  obtain ⟨_, hoff, _, hres⟩ := hc
  obtain ⟨plan', made, _⟩ := doFore_made (s := updCore s p (withPlan · plan)) (p := p) (fs := vecWrites i e track)
    (fun f hf j => by
      obtain ⟨g, hg, rfl⟩ := List.mem_map.mp hf
      rw [coreAt_updCore_same]
      refine foreCase_unmet (k := withPlan (coreAt s p) plan) (f := { g with track := track }) hoff
        (hres g (List.mem_append_right _ hg)) (fun a ha => ?_) j
      obtain ⟨f, hf, cycle⟩ := hp a ha
      rw [cycle]
      exact vecRead_ne_write (w := g) hf hg) l 2 slot
  exact ⟨plan', made⟩

/-- An instruction none of whose accesses fails, in its stages (R171 to R174, R187). -/
theorem runVec_made (l : Nat) (d : Decoded) : ∃ u f n, PlanOnly s u p ∧
    (∀ k : Core, (f k).op = i.op ∧ (f k).runEnd = some (max (e + vecEnd i) (k.vec.runEnd.getD 0))) ∧
    runVec s p l e d i [] = report (leaveHead (noteVec (censusVec (writeScalar
      (writeVecRows u p l d.ctx d.tag (vecWrites i e d.track) (vecMakes (coreAt s p) d.ctx i).rows
        ((vecWrites i e d.track).map fun _ => none))
      p l (e + vecEnd i) d (vecMakes (coreAt s p) d.ctx i).scalar) p l e d i (vecRowsA (coreAt s p) i)) p l e d i f n)
      p l 1 (e + 1)) .done := by
  obtain ⟨plan, read, planned⟩ := vecReads_made hc l d.slot d.track
  obtain ⟨plan', write⟩ := vecWrites_made hc planned l d.slot d.track
  have marked (ms : List Mark) : PlanOnly s (updCore (updCore (updCore s p (withPlan · plan)) p (withPlan · plan')) p
      fun k => addMarks k (cycleOf s l) ms) p := by
    refine ⟨?_, ((othersKept_updCore s p _).trans (othersKept_updCore _ p _)).trans (othersKept_updCore _ p _)⟩
    simp only [coreAt_updCore_same]
    rfl
  have causes : ((vecRowsRead (coreAt s p) i e).map fun r => (r, (none : Option Nat))).map (fun x => x.2) =
      (vecReads i e d.track).map fun _ => none :=
    List.ext_getElem (by simp [vecReads, vecRowsRead]) (by simp)
  have sound (f : Option Nat → Bool) (hf : f none = false) :
      ((vecRowsRead (coreAt s p) i e).map fun r => (r, (none : Option Nat))).any (fun r => f r.2) = false := by simp [hf]
  have unwritten : ((vecWrites i e d.track).map fun _ => (none : Option Nat)).any (·.isSome) = false := by simp
  have ctx : ctxAt (coreAt (updCore s p (withPlan · plan)) p) d.ctx = ctxAt (coreAt s p) d.ctx := by
    rw [coreAt_updCore_same]
    rfl
  unfold runVec
  rw [show vecFores i e = ((vecFores i e).1, (vecFores i e).2.1, (vecFores i e).2.2.1, (vecFores i e).2.2.2) from rfl]
  dsimp only
  rw [show ((vecFores i e).1 ++ (vecFores i e).2.1 ++ (vecFores i e).2.2.1).mapIdx
    (fun j f => ({ f with track := d.track, use := .vecRead j } : Fore)) = vecReads i e d.track from rfl, read]
  dsimp only
  rw [causes, logVecs_made]
  rw [← List.map_take, deliverRows_made]
  dsimp only
  rw [sliceL, ← List.map_drop, ← List.map_take, deliverRows_made]
  dsimp only
  rw [← List.map_drop, deliverRows_made]
  dsimp only
  rw [vecRowsRead_take, vecRowsRead_drop, ← sliceL, vecRowsRead_slice, ctx]
  rw [show (vecFores i e).2.2.2.map (fun f => ({ f with track := d.track } : Fore)) = vecWrites i e d.track from rfl,
    List.filter_nil, List.map_nil, write]
  dsimp only
  rw [logVecs_made, sound (·.isSome) rfl, sound (· == some 3) rfl, sound (fun c => c.isSome && c != some 3) rfl, unwritten]
  exact ⟨_, _, _, marked _, fun _ => ⟨rfl, rfl⟩, rfl⟩

end

/-! What the stages change. -/

/-- From s to t, effects still to come of core p have been added, and nothing else has changed. -/
structure LateOnly (s t : State) (p : Nat) : Prop where
  core : coreAt t p = { coreAt s p with late := (coreAt t p).late }
  others : OthersKept s t p

theorem LateOnly.refl (s : State) (p : Nat) : LateOnly s s p := ⟨rfl, .refl s p⟩

theorem LateOnly.trans {s t u : State} {p : Nat} (h : LateOnly s t p) (k : LateOnly t u p) : LateOnly s u p :=
  ⟨by rw [k.core, h.core], h.others.trans k.others⟩

theorem LateOnly.clean {s t : State} {p : Nat} (h : LateOnly s t p) (hu : (coreAt s p).upsets.sync = []) :
    (coreAt t p).upsets.sync = [] := by
  rw [h.core]
  exact hu

theorem addLate_lateOnly (s : State) (p c : Nat) (a : LateAct) : LateOnly s (updCore s p fun k => addLate k c a) p := by
  refine ⟨?_, othersKept_updCore s p _⟩
  rw [coreAt_updCore_same]
  rfl

section
variable {s : State} {p : Nat} (hu : (coreAt s p).upsets.sync = [])
include hu

/-- The counts of a row come about later (R189). -/
theorem countOpt_lateOnly (l c cx : Nat) (tag : Option Nat) (n : Counts) (track i : Nat) :
    LateOnly s (countOpt s p l c cx tag n track i) p := by
  unfold countOpt countTag
  split
  · exact .refl s p
  · split
    · exact .refl s p
    · rw [useWords_clean hu]
      exact addLate_lateOnly ..

theorem countRows_lateOnly (l e cx : Nat) (tag : Option Nat) (fmt : Nat) (rows : List Row) (track : Nat) :
    LateOnly s (countRows s p l e cx tag fmt rows track) p :=
  List.foldlRecOn (motive := fun t => LateOnly s t p) _ _ (.refl s p) fun _ ht _ _ =>
    ht.trans (countOpt_lateOnly (ht.clean hu) ..)

theorem censusVec_lateOnly (l e : Nat) (d : Decoded) (i : VecIns) (as : List Row) : LateOnly s (censusVec s p l e d i as) p := by
  unfold censusVec
  split
  · exact countRows_lateOnly hu ..
  · split
    · exact addLate_lateOnly ..
    · exact .refl s p

end

theorem mem_insertLate (l : List Late) (x : Late) : x ∈ insertLate l x := by
  induction l with
  | nil => exact .head _
  | cons y t ih =>
    unfold insertLate
    split
    · exact .head _
    · exact .tail _ ih

theorem mem_late_censusVec (s : State) (p l e : Nat) (d : Decoded) {i : VecIns} (h : i.op = 0x39) (as : List Row) :
    { cycle := e, act := .clearNar } ∈ (coreAt (censusVec s p l e d i as) p).late := by
  rw [censusVec, h, if_neg (by decide), if_pos rfl, coreAt_updCore_same]
  exact mem_insertLate ..

/-- The scalar result enters its register, and its counts come about later (R174, R189). -/
theorem writeScalar_leaves {s : State} {p : Nat} (hu : (coreAt s p).upsets.sync = []) (l ends : Nat) (d : Decoded)
    (x : Option (Nat × Scalar × Counts)) : ∃ ctxs late, coreAt (writeScalar s p l ends d x) p =
      { coreAt s p with ctxs := ctxs, late := late } ∧ OthersKept s (writeScalar s p l ends d x) p ∧
    (∀ r v n, x = some (r, v, n) → Store.get Scalar.zero (ctxAt (coreAt (writeScalar s p l ends d x) p) d.ctx).sc r = v) ∧
    (x = none → (coreAt (writeScalar s p l ends d x) p).ctxs = (coreAt s p).ctxs) := by
  cases x with
  | none => exact ⟨_, _, rfl, .refl s p, nofun, fun _ => rfl⟩
  | some x =>
    obtain ⟨r, v, n⟩ := x
    obtain ⟨core, others⟩ := countOpt_lateOnly (s := updCtx s p d.ctx fun x => { x with sc := Store.set Scalar.zero x.sc r v }) (p := p)
      (by rw [coreAt_updCtx_same]; exact hu) l ends d.ctx d.tag n d.track 0
    rw [coreAt_updCtx_same] at core
    refine ⟨_, _, core, (othersKept_updCore s p _).trans others, fun r' v' n' e => ?_, nofun⟩
    obtain ⟨rfl, rfl, rfl⟩ := e
    rw [writeScalar, core]
    exact (congrArg (fun x : Ctx => Store.get Scalar.zero x.sc r) (ctxAt_setCtx_same ..)).trans (Store.get_set_same ..)

/-- What the writes of result rows keep of a core, besides what `RowsWritten` names. -/
def besideRows (k : Core) := (k.ctxs, k.vec)

/-- Result rows all of whose writes are made stand in their places (R174, R187). -/
theorem writeVecRows_made {s : State} {p : Nat} (hu : (coreAt s p).upsets.sync = []) {fs : List Fore}
    (hn : (fs.map (·.row)).Nodup) (l cx : Nat) (tag : Option Nat) (rows : List OutRow) :
    RowsWritten s (writeVecRows s p l cx tag fs rows (fs.map fun _ => none)) p ((rows.zip fs).map fun x => (x.2.row, x.1.row)) ∧
    besideRows (coreAt (writeVecRows s p l cx tag fs rows (fs.map fun _ => none)) p) = besideRows (coreAt s p) := by
  have made : ((rows.zip fs).zip (fs.map fun _ => (none : Option Nat))) = (rows.zip fs).map fun x => (x, none) :=
    List.ext_getElem (by simp) (by simp)
  have places : (((rows.zip fs).map fun x => (x, (none : Option Nat))).mapIdx fun i x => (i, x)).map
      (fun y => (y.2.1.2.row, y.2.1.1.row)) = (rows.zip fs).map fun x => (x.2.row, x.1.row) :=
    List.ext_getElem (by simp) (by simp)
  have nodup : (((rows.zip fs).map fun x => (x.2.row, x.1.row)).map (·.1)).Nodup := by
    have first : ((rows.zip fs).map fun x => (x.2.row, x.1.row)).map (·.1) = (fs.map (·.row)).take rows.length :=
      List.ext_getElem (by simp) (by simp)
    rw [first]
    exact hn.sublist (List.take_sublist ..)
  have one {y : Nat × (OutRow × Fore) × Option Nat}
      (hy : y ∈ (((rows.zip fs).map fun x => (x, (none : Option Nat))).mapIdx fun i x => (i, x))) : y.2.2 = none := by
    obtain ⟨i, hi, rfl⟩ := List.mem_mapIdx.mp hy
    simp
  unfold writeVecRows
  rw [made]
  refine ⟨?_, ?_⟩
  · rw [← places] at nodup ⊢
    refine RowsWritten.foldl (g := fun y : Nat × (OutRow × Fore) × Option Nat => (y.2.1.2.row, y.2.1.1.row)) (fun t y hy clean => ?_)
      (by rwa [List.map_map] at nodup) hu
    dsimp only
    rw [one hy]
    have wrote := laterRow_rowsWritten t p (cycleOf t l) y.2.1.2.cycle y.2.1.2.row y.2.1.1.row
    exact wrote.trans (countOpt_rowsWritten ((congrArg (fun x => x.2.2.2) wrote.rest).trans clean) ..) (by simp)
  · refine (List.foldlRecOn (motive := fun t => (coreAt t p).upsets.sync = [] ∧ besideRows (coreAt t p) = besideRows (coreAt s p))
      _ _ ⟨hu, rfl⟩ fun t ht y hy => ?_).2
    obtain ⟨clean, beside⟩ := ht
    dsimp only
    rw [one hy]
    have clean' : (coreAt (updCore t p fun k => laterRow k (cycleOf t l) y.2.1.2.cycle y.2.1.2.row y.2.1.1.row)
        p).upsets.sync = [] := by
      rw [coreAt_updCore_same]
      exact clean
    have counted := countOpt_lateOnly clean' l y.2.1.2.cycle cx tag y.2.1.1.counts y.2.1.2.track y.1
    refine ⟨counted.clean clean', ?_⟩
    dsimp only
    rw [counted.core, coreAt_updCore_same]
    exact beside

theorem coreAt_countAct (s : State) (l kind n i : Nat) : coreAt (countAct s l kind n) i = coreAt s i := rfl

/-- What the end of an instruction keeps of its core. -/
def endPart (k : Core) := (k.pool.rows, k.flow, k.sync.flags, k.ctxs, k.late)

theorem noteVec_leaves (s : State) (p l e : Nat) (d : Decoded) (i : VecIns) (f : Core → VecEng) (n : Nat) :
    endPart (coreAt (noteVec s p l e d i f n) p) = endPart (coreAt s p) ∧
    (coreAt (noteVec s p l e d i f n) p).vec = f (coreAt s p) ∧ OthersKept s (noteVec s p l e d i f n) p := by
  obtain ⟨u, hu⟩ : ∃ u, u = countAct (countAct (updCore s p fun k => { k with vec := f k }) l 1 (4 * vecN i)) l 2 n := ⟨_, rfl⟩
  have core : coreAt u p = { coreAt s p with vec := f (coreAt s p) } := by
    rw [hu, coreAt_countAct, coreAt_countAct, coreAt_updCore_same]
  have others : OthersKept s u p := by
    rw [hu]
    exact (othersKept_updCore s p _).trans ((countAct_outKept ..).trans (countAct_outKept ..)).others
  unfold noteVec
  dsimp only
  rw [← hu]
  refine ⟨?_, ?_, (others.trans (endTrack_outKept ..).others).trans (dueDone_outKept ..).others⟩
  all_goals
    unfold dueDone addDue endTrack updTrack
    split <;> simp [core, endPart]

/-- An instruction that has started leaves the head with DONE (R171, R347). -/
theorem noteVec_leaveHead (s : State) (p l e ready : Nat) (d : Decoded) (i : VecIns) (f : Core → VecEng) (n : Nat) :
    (queueAt (coreAt (leaveHead (noteVec s p l e d i f n) p l 1 ready) p) 1).head = none ∧
    endPart (coreAt (leaveHead (noteVec s p l e d i f n) p l 1 ready) p) = endPart (coreAt s p) ∧
    (coreAt (leaveHead (noteVec s p l e d i f n) p l 1 ready) p).vec = f (coreAt s p) ∧
    OthersKept s (leaveHead (noteVec s p l e d i f n) p l 1 ready) p := by
  obtain ⟨kept, vec, others⟩ := noteVec_leaves s p l e d i f n
  obtain ⟨part, rest, _⟩ := leaveHead_leaves (noteVec s p l e d i f n) p l 1 ready
  have left := leaveHead_headLeft (noteVec s p l e d i f n) p l 1 ready
  refine ⟨congrArg (fun x => x.2.2.2.2.1) part, ?_, ?_, others.trans rest⟩
  · rw [left]
    exact kept
  · rw [left]
    exact vec

end Sys2Proof.Machine
end

section
/-!
PROOFS. VEC_START (R171, R172, R174, R190): VectorInstructionResult.
-/

namespace Sys2Proof.Machine

/-- The instruction decoded at the head of the vector queue starts (R171). -/
theorem exec_vecStart {s : State} {l p e : Nat} {d : Decoded} {i : VecIns} (h : MayIssue s l p)
    (hd : (queueAt (coreAt s p) 1).head = some d) (hi : d.cmd = .vec i) (he : e = nextPhase (max (cycleOf s l) d.since) 0 4)
    (hv : cmdVerdict s p l e d = .go) (hr : vecIdle (coreAt s p) d.ctx e i = true) :
    exec (.vecStart l []) s = .next (mendCore s (runVec s p l e d i []) l) := by
  subst he
  change Host.Outcome.next (mendCore s (startVec s l []) l) = _
  rw [startVec, withIssue_of_mayIssue h]
  simp only [hd, hi, hv, hr, if_true]

/-- The rows that an instruction writes are consecutive (R172). -/
theorem rows_vecWrites (i : VecIns) (e track : Nat) :
    (vecWrites i e track).map (·.row) = (List.range (vecDRows i.op i.bRow i.n)).map (i.dRow + ·) := by
  rw [vecWrites, vecFores_eq]
  simp [foreD, Function.comp_def]

/-- Result row n is written to the n-th row from dRow on (R172, R174). -/
theorem mem_vecPlaces {i : VecIns} {rows : List OutRow} {n : Nat} {o : OutRow} (hn : n < vecDRows i.op i.bRow i.n)
    (ho : rows[n]? = some o) {e track : Nat} :
    (i.dRow + n, o.row) ∈ (rows.zip (vecWrites i e track)).map fun x => (x.2.row, x.1.row) := by
  refine List.mem_map.mpr ⟨(o, { foreD i e n with track := track }), List.mem_iff_getElem?.mpr ⟨n, ?_⟩, rfl⟩
  rw [List.getElem?_zip_eq_some]
  exact ⟨ho, by simp [vecWrites, vecFores_eq, hn]⟩

/-- The rows written lie from dRow on. -/
theorem vecPlaces_bounds {i : VecIns} {rows : List OutRow} {e track : Nat} {x : Nat × Row}
    (hx : x ∈ (rows.zip (vecWrites i e track)).map fun x => (x.2.row, x.1.row)) :
    i.dRow ≤ x.1 ∧ x.1 < i.dRow + vecDRows i.op i.bRow i.n := by
  obtain ⟨y, hy, rfl⟩ := List.mem_map.mp hx
  have row : y.2.row ∈ (vecWrites i e track).map (·.row) := List.mem_map.mpr ⟨y.2, (List.of_mem_zip hy).2, rfl⟩
  rw [rows_vecWrites] at row
  obtain ⟨q, hq, at_⟩ := List.mem_map.mp row
  have := List.mem_range.mp hq
  dsimp only
  omega

/-- What an instruction of context cx at cycle e leaves of its core: its results, and else but its own marks what stood (R171 to
R174, R190, R193). -/
structure VecLeaves (s t : State) (p e cx : Nat) (i : VecIns) : Prop where
  head : (queueAt (coreAt t p) 1).head = none
  written : ∀ n o, n < vecDRows i.op i.bRow i.n → (vecMakes (coreAt s p) cx i).rows[n]? = some o →
    rowAt (coreAt t p) (i.dRow + n) = o.row
  kept : ∀ r, (r < i.dRow ∨ i.dRow + vecDRows i.op i.bRow i.n ≤ r) → rowAt (coreAt t p) r = rowAt (coreAt s p) r
  scalar : ∀ r v n, (vecMakes (coreAt s p) cx i).scalar = some (r, v, n) →
    Store.get Scalar.zero (ctxAt (coreAt t p) cx).sc r = v
  ctxs : (vecMakes (coreAt s p) cx i).scalar = none → (coreAt t p).ctxs = (coreAt s p).ctxs
  op : (coreAt t p).vec.op = i.op
  runEnd : (coreAt t p).vec.runEnd = some (max (e + vecEnd i) ((coreAt s p).vec.runEnd.getD 0))
  clear : i.op = 0x39 → { cycle := e, act := .clearNar } ∈ (coreAt t p).late
  flow : (coreAt t p).flow = (coreAt s p).flow
  flags : (coreAt t p).sync.flags = (coreAt s p).sync.flags
  others : OthersKept s t p

/-- The run of an instruction none of whose accesses fails goes through its stages, of which one writes the result rows, one the
scalar, and the others neither. -/
theorem runVec_leaves {s : State} {p e : Nat} {i : VecIns}
    (hc : Clear (coreAt s p) ((vecFores i e).1 ++ (vecFores i e).2.1 ++ (vecFores i e).2.2.1 ++ (vecFores i e).2.2.2)) (l : Nat)
    (d : Decoded) : (runVec s p l e d i []).answer = .done ∧ VecLeaves s (runVec s p l e d i []) p e d.ctx i := by
  obtain ⟨u, f, n, planned, hf, run⟩ := runVec_made hc l d
  have clean : (coreAt u p).upsets.sync = [] := by rw [planned.core, hc.2.2.1]
  obtain ⟨wrote, beside⟩ := writeVecRows_made clean (fs := vecWrites i e d.track) (by
    rw [rows_vecWrites]
    exact List.Nodup.map (fun a b e => Nat.add_left_cancel e) List.nodup_range) l d.ctx d.tag (vecMakes (coreAt s p) d.ctx i).rows
  rw [run]
  generalize writeVecRows u p l d.ctx d.tag (vecWrites i e d.track) (vecMakes (coreAt s p) d.ctx i).rows
    ((vecWrites i e d.track).map fun _ => none) = w at *
  have cleanW : (coreAt w p).upsets.sync = [] := (congrArg (fun x => x.2.2.2) wrote.rest).trans clean
  obtain ⟨_, _, scalar, others1, got, none⟩ := writeScalar_leaves cleanW l (e + vecEnd i) d (vecMakes (coreAt s p) d.ctx i).scalar
  generalize writeScalar w p l (e + vecEnd i) d (vecMakes (coreAt s p) d.ctx i).scalar = a at *
  have census := censusVec_lateOnly (s := a) (p := p) (by rw [scalar]; exact cleanW) l e d i (vecRowsA (coreAt s p) i)
  have clear (h : i.op = 0x39) := mem_late_censusVec a p l e d h (vecRowsA (coreAt s p) i)
  generalize censusVec a p l e d i (vecRowsA (coreAt s p) i) = b at *
  obtain ⟨head, ended, vec, others2⟩ := noteVec_leaveHead b p l e (e + 1) d i f n
  generalize leaveHead (noteVec b p l e d i f n) p l 1 (e + 1) = t at *
  simp only [endPart, Prod.mk.injEq] at ended
  obtain ⟨rows, flow, flags, ctxs, late⟩ := ended
  obtain ⟨op, runEnd⟩ := hf (coreAt b p)
  have whole := planned.rowsWritten.trans wrote (by simp)
  have besideS : besideRows (coreAt w p) = besideRows (coreAt s p) := beside.trans (by rw [planned.core]; rfl)
  have rest := whole.rest
  simp only [besideRows, beyondRows, Prod.mk.injEq] at besideS rest
  obtain ⟨ctxsW, vecW⟩ := besideS
  obtain ⟨_, flowW, syncW, _⟩ := rest
  have row (r : Nat) : rowAt (coreAt t p) r = rowAt (coreAt w p) r := by
    rw [rowAt, rows, census.core, scalar]
    rfl
  have ctxsA : (coreAt t p).ctxs = (coreAt a p).ctxs := by rw [ctxs, census.core]
  refine ⟨rfl, head, fun m o hm ho => ?_, fun r hr => ?_, fun r v m h => ?_, fun h => ?_, ?_, ?_, fun h => ?_, ?_, ?_,
    ((whole.others.trans others1).trans census.others).trans others2⟩
  · rw [coreAt_report, row]
    exact whole.written _ (mem_vecPlaces hm ho)
  · rw [coreAt_report, row]
    refine whole.kept r fun x hx e => ?_
    have := vecPlaces_bounds hx
    omega
  · rw [coreAt_report, ctxAt, ctxsA]
    exact got r v m h
  · rw [coreAt_report, ctxsA, none h, ctxsW]
  · rw [coreAt_report, vec, op]
  · rw [coreAt_report, vec, runEnd, census.core, scalar, vecW]
  · rw [coreAt_report, late]
    exact clear h
  · rw [coreAt_report, flow, census.core, scalar, flowW]
  · rw [coreAt_report, flags, census.core, scalar, syncW]

/-- Settles O34: `runVec_leaves` says what the instruction leaves, and as no access had been planned before none is put
right (R227). -/
theorem vectorInstructionResult : Obligations.VectorInstructionResult := by
  intro s l p e d i hl hb hcur hd hi he hv hr hc
  have run := exec_vecStart ⟨hl, hb, hcur⟩ hd hi he hv hr
  obtain ⟨answer, leaves⟩ := runVec_leaves hc l d
  rw [mendCore_none_met leaves.others (.inl hc.1)] at run
  refine ⟨_, run, answer, leaves.head, leaves.written, leaves.kept, leaves.scalar, fun h r => ?_, leaves.op, leaves.runEnd,
    leaves.clear, leaves.flags, fun u => ?_, leaves.others⟩
  · rw [ctxAt, leaves.ctxs h]
    rfl
  · rw [trowAt, leaves.flow]
    rfl

end Sys2Proof.Machine
end

section
/-!
PROOFS. The rows of the commands that wait at their queue's head: vector, move-out and move-in (R170, R245, R267).
-/

namespace Sys2Proof.Machine

/-- The row of a command that waits decodes it, and leaves it at the head unless it waits on an abandoned ring (R170, R245,
R267). -/
theorem exec_waitingRow {s : State} {l q key : Nat} {i : Instr} (h : WaitingRow l i q key) :
    exec i s = .next (moveRow s l q key) := by
  rcases h with ⟨h, rfl⟩ | ⟨h, rfl⟩ | ⟨rfl, rfl, rfl⟩
  · have rows : (vectorRows l).map (fun x => exec x.1 s) = (vectorRows l).map (fun x => .next (moveRow s l 1 x.2)) := rfl
    exact List.map_inj_left.mp rows _ h
  · have rows : (moveOutRows l).map (fun x => exec x.1 s) = (moveOutRows l).map (fun x => .next (moveRow s l 3 x.2)) := rfl
    exact List.map_inj_left.mp rows _ h
  · rfl

/-- No waiting command is a sync command. -/
theorem waitingRow_kind {l q key : Nat} {i : Instr} (h : WaitingRow l i q key) : key / 256 ≠ 6 := by
  rcases h with ⟨h, _⟩ | ⟨h, _⟩ | ⟨_, _, rfl⟩
  · have keys : ∀ x, x ∈ vectorRows l → x.2 / 256 ≠ 6 := by simp [vectorRows]
    exact keys _ h
  · have keys : ∀ x, x ∈ moveOutRows l → x.2 / 256 ≠ 6 := by simp [moveOutRows]
    exact keys _ h
  · decide

/-- What `waitHead` leaves of a state beside the core (R351). -/
theorem waitHead_log (s : State) (p q c : Nat) (hd : Header) (cmd : Cmd) : (waitHead s p q c hd cmd).log = s.log := rfl

theorem notePhase_log (s : State) (l phase : Nat) : (notePhase s l phase).log = s.log := by
  obtain ⟨_, h, _⟩ := notePhase_paceChanged s l phase
  rw [h]

/-- A command that decodes waits at the head (R170, R245, R267). -/
theorem exec_waitingRow_decodes {s : State} {l q p key : Nat} {i : Instr} {c : Cmd} (hi : WaitingRow l i q key)
    (h : Decodes s l q p key c) (ha : NotAbandoned s l p c) : ∃ u d hd, exec i s = .next u ∧ WaitsAt s u p q d ∧ u.log = s.log ∧
      d = waiting s p q (decodeCycle s l (queueAt (coreAt s p) q)) hd c := by
  obtain ⟨hd, went⟩ := onHead_of_decodes h (waitingRow_kind hi) (want := fun k => k == key) (by simp)
    fun s p c h cmd => endAbandonedHead (waitHead s p q c h cmd) p l q
  have noted := notePhase_paceChanged s l hd.phase
  have waits := waitHead_waits (notePhase s l hd.phase) p q (decodeCycle s l (queueAt (coreAt s p) q)) hd c
  have core : coreAt (notePhase s l hd.phase) p = coreAt s p := by
    obtain ⟨_, e, _⟩ := noted
    rw [e]
    rfl
  have same : waiting (notePhase s l hd.phase) p q (decodeCycle s l (queueAt (coreAt s p) q)) hd c =
      waiting s p q (decodeCycle s l (queueAt (coreAt s p) q)) hd c := by simp only [waiting, core]
  have waits := waits.of_paceChanged noted
  have stays := endAbandonedHead_of_waits waits (ha _ rfl rfl)
  refine ⟨_, _, hd, ?_, waits, (waitHead_log ..).trans (notePhase_log ..), same⟩
  rw [exec_waitingRow hi, moveRow, went, stays]

end Sys2Proof.Machine
end

section
/-!
PROOFS. A command retired from the head of its queue (R346, R347, R355).
-/

namespace Sys2Proof.Machine

/-! What leaving the head keeps of the queue's failure and of the log. -/

/-- A failure shown in a queue stays, and a stopped queue stays so (R355, R376). -/
structure FailKept (x y : Queue) : Prop where
  shown : x.failValid = true → y.failValid = true ∧ y.failSlot = x.failSlot ∧ y.failStatus = x.failStatus
  stopped : x.state = 2 → y.state = 2

theorem FailKept.trans {x y z : Queue} (h : FailKept x y) (k : FailKept y z) : FailKept x z := by
  refine ⟨fun v => ?_, fun e => k.stopped (h.stopped e)⟩
  obtain ⟨vy, sy, ty⟩ := h.shown v
  obtain ⟨vz, sz, tz⟩ := k.shown vy
  exact ⟨vz, sz.trans sy, tz.trans ty⟩

theorem FailKept.of_eq {x y : Queue}
    (h : (y.failValid, y.failSlot, y.failStatus, y.state) = (x.failValid, x.failSlot, x.failStatus, x.state)) :
    FailKept x y := by
  simp only [Prod.mk.injEq] at h
  obtain ⟨hv, hs, ht, he⟩ := h
  exact ⟨fun v => ⟨hv.trans v, hs, ht⟩, fun e => he.trans e⟩

/-- From s to t, queue q of core p keeps its failure, and no record of the M-cycle is lost. -/
structure QueueKept (s t : State) (p q : Nat) : Prop where
  fail : FailKept (queueAt (coreAt s p) q) (queueAt (coreAt t p) q)
  records : ∀ r, r ∈ s.log.fresh → r ∈ t.log.fresh

theorem QueueKept.trans {s t u : State} {p q : Nat} (h : QueueKept s t p q) (k : QueueKept t u p q) : QueueKept s u p q :=
  ⟨h.fail.trans k.fail, fun r hr => k.records r (h.records r hr)⟩

theorem QueueKept.of_queue {s t : State} {p q : Nat} (h : queueAt (coreAt t p) q = queueAt (coreAt s p) q) (hl : t.log = s.log) :
    QueueKept s t p q := ⟨.of_eq (by rw [h]), fun r hr => by rwa [hl]⟩

theorem mem_fresh_logCore (s : State) (cls : Nat) (st : Status) (l : Nat) (rep : Bool) (body : List (Nat × Nat)) (r : LogRec)
    (h : r ∈ s.log.fresh) : r ∈ (logCore s cls st l rep body).log.fresh := mem_insertLog.mpr (.inr h)

theorem inject_queueKept (s : State) (p q src : Nat) (pkt : Packet) : QueueKept s (inject s p src pkt) p q := by
  unfold inject injectFrom
  dsimp only
  split
  · exact .of_queue (by rw [coreAt_updCore_same]; rfl) rfl
  · exact .of_queue (by rw [coreAt_updCore_same]; rfl) rfl

theorem grantRing_queueKept (s : State) (p l n count q : Nat) : QueueKept s (grantRing s p l n count) p q := by
  have turned (r : Ring) : QueueKept s (setCore s p (setRing (coreAt s p) n r)) p q :=
    .of_queue (by rw [coreAt_setCore_same, queueAt_setRing]) rfl
  unfold grantRing
  dsimp only
  split
  · exact .of_queue rfl rfl
  · split
    · exact turned _
    · exact (turned _).trans (inject_queueKept ..)

theorem noteFail_failKept (x : Queue) (slot kind : Nat) (st : Status) : FailKept x (noteFail x slot kind st) := by
  unfold noteFail
  split
  · exact .of_eq rfl
  · next h => exact ⟨fun v => absurd v h, id⟩

theorem queueAt_countBuf (k : Core) (es : Store Nat) (q : Nat) : queueAt (countBuf k es) q = queueAt k q := by
  obtain ⟨ecc, h⟩ := countBuf_changes k es
  rw [h]
  rfl

theorem stopBadRow_queueKept (s : State) (p l q : Nat) : QueueKept s (stopBadRow s p l q) p q := by
  unfold stopBadRow
  dsimp only
  split
  · exact .of_queue rfl rfl
  · next b _ _ =>
    split
    · refine ⟨?_, fun r hr => mem_fresh_logCore _ _ _ _ _ _ r hr⟩
      rw [coreAt_logCore, coreAt_updQueue_same, queueAt_setQueue_same, coreAt_updCore_same, queueAt_countBuf]
      exact ⟨(noteFail_failKept (queueAt (coreAt s p) q) (headSlotNo (coreAt s p) q) 0 .poisoned).shown, fun _ => rfl⟩
    · exact .of_queue rfl rfl

theorem queueAt_setQueue_ecc (k : Core) (q : Nat) (x : Queue) (ecc : Ecc) :
    queueAt { setQueue k q x with ecc := ecc } q = x := queueAt_setQueue_same k q x

/-- Before slot 15 the next slot comes to the head, and nothing else changes but the counts of errors (R347, R502). -/
theorem leaveHead_next {s : State} {p q : Nat} (h : (queueAt (coreAt s p) q).nextSlot ≠ 15) (l ready : Nat) : ∃ ecc,
    leaveHead s p l q ready = setCore s p { setQueue (coreAt s p) q { queueAt (coreAt s p) q with
      head := none, ready := ready, resumed := none, nextSlot := (queueAt (coreAt s p) q).nextSlot + 1 } with ecc := ecc } := by
  obtain ⟨ecc, counted⟩ := countBuf_changes (coreAt s p) (((queueAt (coreAt s p) q).bufs.take 1).flatMap
    fun b => b.errs.filter fun e => e.1 / 4 == (queueAt (coreAt s p) q).nextSlot)
  refine ⟨ecc, ?_⟩
  unfold leaveHead
  dsimp only
  rw [counted, if_neg h]
  rfl

theorem leaveHead_queueKept (s : State) (p l q ready : Nat) : QueueKept s (leaveHead s p l q ready) p q := by
  by_cases h : (queueAt (coreAt s p) q).nextSlot = 15
  · unfold leaveHead
    dsimp only
    rw [if_pos h]
    refine QueueKept.trans ?_ ((grantRing_queueKept _ p l q 1 q).trans (stopBadRow_queueKept ..))
    refine ⟨.of_eq ?_, fun r hr => hr⟩
    rw [markHw, coreAt_updCore_same, coreAt_setCore_same]
    simp [queueAt, setQueue, setRing]
  · obtain ⟨ecc, left⟩ := leaveHead_next h l ready
    rw [left]
    refine ⟨.of_eq ?_, fun r hr => hr⟩
    rw [coreAt_setCore_same, queueAt_setQueue_ecc]

/-! A command that fails at its decode. -/

/-- A queue from whose head a command has been retired (R355). -/
def failedQueue (x : Queue) (slot kind : Nat) (st : Status) : Queue :=
  let x := noteFail x slot kind st
  if x.state = 1 ∧ !x.onFail then { x with state := 2 } else x

theorem noteFail_fields (x : Queue) (slot kind : Nat) (st : Status) :
    (noteFail x slot kind st).failValid = true ∧ (noteFail x slot kind st).state = x.state ∧
    (noteFail x slot kind st).onFail = x.onFail ∧ (x.failValid = false →
      (noteFail x slot kind st).failSlot = slot ∧ (noteFail x slot kind st).failStatus = st.code) := by
  unfold noteFail
  split
  · next h => exact ⟨h, rfl, rfl, fun e => absurd h (by simp [e])⟩
  · exact ⟨rfl, rfl, rfl, fun _ => ⟨rfl, rfl⟩⟩

/-- A queue at work stops unless its on_fail is 1, and shows the failure unless it shows another. -/
theorem failedQueue_fields {x : Queue} (h : x.state = 1) (slot kind : Nat) (st : Status) :
    (failedQueue x slot kind st).failValid = true ∧ (failedQueue x slot kind st).state = (if x.onFail then 1 else 2) ∧
    (x.failValid = false → (failedQueue x slot kind st).failSlot = slot ∧ (failedQueue x slot kind st).failStatus = st.code) ∧
    (failedQueue x slot kind st).nextSlot = x.nextSlot := by
  obtain ⟨valid, state, onFail, shown⟩ := noteFail_fields x slot kind st
  obtain ⟨_, next⟩ := noteFail_keeps_head x slot kind st
  unfold failedQueue
  dsimp only
  rw [state, onFail, h]
  cases x.onFail with
  | false => exact ⟨valid, rfl, shown, next⟩
  | true => exact ⟨valid, state.trans h, shown, next⟩

theorem coreAt_retire (s : State) (p l q slot kind : Nat) (st : Status) : coreAt (retire s p l q slot kind st) p =
    setQueue (coreAt s p) q (failedQueue (queueAt (coreAt s p) q) slot kind st) := by
  rw [retire, coreAt_updQueue_same, coreAt_logCore]
  rfl

theorem retire_log (s : State) (p l q slot kind : Nat) (st : Status) : (retire s p l q slot kind st).log =
    (logCore s 4 st l false [(1, q), (4, slot), (1, kind)]).log := rfl

/-- From s to t, the command at the head of queue q of core p, a queue at work, has been retired with a status (R355). -/
structure Retired (s t : State) (l p q : Nat) (st : Status) : Prop where
  head : (queueAt (coreAt t p) q).head = none
  stopped : (queueAt (coreAt s p) q).onFail = false → (queueAt (coreAt t p) q).state = 2
  shown : (queueAt (coreAt s p) q).failValid = false → (queueAt (coreAt t p) q).failValid = true ∧
    (queueAt (coreAt t p) q).failStatus = st.code ∧ (queueAt (coreAt t p) q).failSlot = headSlotNo (coreAt s p) q
  record : ∃ r, r ∈ t.log.fresh ∧ r.cls = 4 ∧ r.status = st.code ∧ r.core = l
  next : (queueAt (coreAt s p) q).nextSlot ≠ 15 →
    (queueAt (coreAt t p) q).nextSlot = (queueAt (coreAt s p) q).nextSlot + 1 ∧
    ((queueAt (coreAt t p) q).state = if (queueAt (coreAt s p) q).onFail then 1 else 2) ∧
    recordsMade t = (recordsMade s + 1) % 2 ^ 32 ∧ (coreAt t p).pool = (coreAt s p).pool ∧ (coreAt t p).sync = (coreAt s p).sync
  last : (queueAt (coreAt s p) q).nextSlot = 15 → (queueAt (coreAt t p) q).nextSlot = 0 ∧
    (ringAt (coreAt t p) q).head = ((ringAt (coreAt s p) q).head + 1) % 2 ^ 32
  flow : (coreAt t p).flow = (coreAt s p).flow
  memory : MemoryKept s t p
  others : OthersKept s t p

theorem retireHead_retired {s : State} {l p q : Nat} (hl : l < 2048) (hs : (queueAt (coreAt s p) q).state = 1) (kind c : Nat)
    (st : Status) : Retired s (retireHead s p l q kind c st) l p q st := by
  obtain ⟨u, hu⟩ : ∃ u, u = retire s p l q (headSlotNo (coreAt s p) q) kind st := ⟨_, rfl⟩
  have core : coreAt u p = setQueue (coreAt s p) q (failedQueue (queueAt (coreAt s p) q) (headSlotNo (coreAt s p) q) kind st) := by
    rw [hu, coreAt_retire]
  have queue : queueAt (coreAt u p) q = failedQueue (queueAt (coreAt s p) q) (headSlotNo (coreAt s p) q) kind st := by
    rw [core, queueAt_setQueue_same]
  have log : u.log = (logCore s 4 st l false [(1, q), (4, headSlotNo (coreAt s p) q), (1, kind)]).log := by rw [hu, retire_log]
  have others : OthersKept s u p := by
    rw [hu]
    exact OthersKept.trans (.of_cores rfl p) (othersKept_updCore _ p _)
  obtain ⟨valid, state, shown, next⟩ := failedQueue_fields hs (headSlotNo (coreAt s p) q) kind st
  rw [← queue] at valid state shown next
  obtain ⟨part, rest, _⟩ := leaveHead_leaves u p l q (c + 1)
  obtain ⟨fail, records⟩ := leaveHead_queueKept u p l q (c + 1)
  rw [show retireHead s p l q kind c st = leaveHead u p l q (c + 1) by rw [hu]; rfl]
  simp only [headPart, Prod.mk.injEq] at part
  obtain ⟨_, flow, rows, _, head, slot, ring⟩ := part
  obtain ⟨validT, slotT, statusT⟩ := fail.shown valid
  refine ⟨head, fun h => ?_, fun h => ?_, ?_, fun h => ?_, fun h => ?_, ?_, ⟨fun r => ?_, fun r => ?_⟩, others.trans rest⟩
  · exact fail.stopped (by rw [state, h]; rfl)
  · obtain ⟨slotU, statusU⟩ := shown h
    exact ⟨validT, statusT.trans statusU, slotT.trans slotU⟩
  · refine ⟨_, records _ (by rw [log]; exact mem_insertLog.mpr (.inl rfl)), rfl, rfl, if_pos hl⟩
  · obtain ⟨ecc, left⟩ := leaveHead_next (s := u) (p := p) (q := q) (by rwa [next]) l (c + 1)
    have made : recordsMade u = (recordsMade s + 1) % 2 ^ 32 := by
      rw [recordsMade, log]
      exact recordsMade_logRecordAt ..
    rw [left, coreAt_setCore_same]
    rw [queueAt_setQueue_ecc]
    exact ⟨congrArg (· + 1) next, state, made, by rw [core]; rfl, by rw [core]; rfl⟩
  · rw [slot, ring, next, if_pos h, if_pos h, core]
    exact ⟨rfl, rfl⟩
  · rw [flow, core]; rfl
  · rw [rowAt, rows, core]; rfl
  · rw [trowAt, flow, core]; rfl

end Sys2Proof.Machine
end

section
/-!
PROOFS. The decode of the slot at a queue's head, by its outcome (R205, R351, R352, R355).
-/

namespace Sys2Proof.Machine

/-- A conditional command skipped in cycle c is tracked as done, its done flag due (R205). -/
def skipped (s : State) (p q c : Nat) (en : Bool) (f setter : Nat) : State :=
  let cx := (queueAt (coreAt s p) q).ctx
  let slot := headSlotNo (coreAt s p) q
  let (id, s) := newTrack s p q cx slot c
  dueDone (endTrack s p id (c + 1) (c + 1) .done) p c en f setter cx slot id

/-- What a skipped command keeps of its core. -/
def skippedPart (k : Core) := (k.queues, k.flow, k.pool)

theorem skipped_keeps (s : State) (p q c : Nat) (en : Bool) (f setter : Nat) :
    skippedPart (coreAt (skipped s p q c en f setter) p) = skippedPart (coreAt s p) ∧
    OthersKept s (skipped s p q c en f setter) p := by
  refine ⟨?_, ((othersKept_setCore s p _).trans (endTrack_outKept ..).others).trans (dueDone_outKept ..).others⟩
  unfold skipped newTrack endTrack updTrack dueDone addDue
  dsimp only
  split <;> simp [skippedPart]

/-- A skipped command leaves the head (R205, R347). -/
theorem skipped_leaveHead (s : State) (p q c : Nat) (en : Bool) (f setter l phase ready : Nat) :
    (queueAt (coreAt (leaveHead (notePhase (skipped s p q c en f setter) l phase) p l q ready) p) q).head = none ∧
    (queueAt (coreAt (leaveHead (notePhase (skipped s p q c en f setter) l phase) p l q ready) p) q).nextSlot =
      (if (queueAt (coreAt s p) q).nextSlot = 15 then 0 else (queueAt (coreAt s p) q).nextSlot + 1) ∧
    MemoryKept s (leaveHead (notePhase (skipped s p q c en f setter) l phase) p l q ready) p ∧
    OthersKept s (leaveHead (notePhase (skipped s p q c en f setter) l phase) p l q ready) p := by
  obtain ⟨kept, others⟩ := skipped_keeps s p q c en f setter
  obtain ⟨u, hu⟩ : ∃ u, u = notePhase (skipped s p q c en f setter) l phase := ⟨_, rfl⟩
  have cores : u.cores = (skipped s p q c en f setter).cores := by
    obtain ⟨_, e, _⟩ := notePhase_paceChanged (skipped s p q c en f setter) l phase
    rw [hu, e]
  have core : skippedPart (coreAt u p) = skippedPart (coreAt s p) := by rw [coreAt, cores]; exact kept
  obtain ⟨part, rest, _⟩ := leaveHead_leaves u p l q ready
  rw [← hu]
  simp only [headPart, skippedPart, Prod.mk.injEq] at part core
  obtain ⟨_, flow, rows, _, head, slot, _⟩ := part
  obtain ⟨queues, flowU, pool⟩ := core
  have queue : queueAt (coreAt u p) q = queueAt (coreAt s p) q := by rw [queueAt, queues]; rfl
  refine ⟨head, by rw [slot, queue], ⟨fun r => ?_, fun r => ?_⟩, (others.trans (.of_cores cores p)).trans rest⟩
  · rw [rowAt, rows, pool]; rfl
  · rw [trowAt, flow, flowU]; rfl

section
variable {s : State} {l p q key b : Nat} {want : Nat → Bool} {fail : State → Nat → State}
  {go : State → Nat → Nat → Header → Cmd → State} (hl : liveCore s l = some p) (hf : queueFree (coreAt s p) q = true)
  (hb : headBits (queueAt (coreAt s p) q) = some b) (hkey : slotKey q b = key) (hw : want key = true)
  (hd : (coreAt s p).sync.due = []) (hu : (coreAt s p).upsets.sync = [])
include hl hf hb hkey hw hd

/-- A slot that fails step 1 of R351 is retired with BAD_VALUE. -/
theorem onHeadFail_bad (hbad : slotBad q b = true) : ∃ kind c, onHeadFail s l q want fail go =
    fail (report (retireHead s p l q kind c .badValue) .badValue) b := by
  refine ⟨fieldN b 0 4, headCycle s p l q key b, ?_⟩
  simp [onHeadFail, withLive, hl, hf, hb, hkey, hw, settleTo_none_due hd, hbad]

include hu

/-- One that fails a later step is retired with that step's status. -/
theorem onHeadFail_fails (hbad : slotBad q b = false) {st : Status} (h : decodeSlot s p l q key b = .fail st) :
    ∃ kind c, onHeadFail s l q want fail go = fail (report (retireHead s p l q kind c st) st) b := by
  refine ⟨fieldN b 0 4, headCycle s p l q key b, ?_⟩
  simp [onHeadFail, withLive, hl, hf, hb, hkey, hw, settleTo_none_due hd, hbad, useWords_clean hu, h]

/-- One that a gate or a pending verdict holds stays (R205, R352). -/
theorem onHeadFail_held (hbad : slotBad q b = false)
    (h : decodeSlot s p l q key b = .hold ∨ decodeSlot s p l q key b = .verdictGate) :
    onHeadFail s l q want fail go = s := by
  rcases h with h | h <;>
    simp [onHeadFail, withLive, hl, hf, hb, hkey, hw, settleTo_none_due hd, hbad, useWords_clean hu, h]

/-- One that is skipped completes with DONE (R205). -/
theorem onHeadFail_skipped (hbad : slotBad q b = false) {en : Bool} {f : Nat} (h : decodeSlot s p l q key b = .noop en f) :
    ∃ c, onHeadFail s l q want fail go =
      report (leaveHead (notePhase (skipped s p q c en f (slotSetter q key)) l (parseHeader b).phase) p l q (c + 2)) .done := by
  refine ⟨headCycle s p l q key b, ?_⟩
  unfold skipped
  simp [onHeadFail, withLive, hl, hf, hb, hkey, hw, settleTo_none_due hd, hbad, useWords_clean hu, h]

end

/-- A row of a sync command decodes it (R305, R351). -/
theorem exec_syncRow {s : State} {l q key : Nat} {i : Instr} (h : (i, key) ∈ syncRows l q) :
    ∃ go, exec i s = .next (onHead s l q (fun k => k == key) go) := by
  simp only [syncRows, List.mem_cons, Prod.mk.injEq, List.not_mem_nil, or_false] at h
  rcases h with ⟨rfl, rfl⟩ | ⟨rfl, rfl⟩ | ⟨rfl, rfl⟩ | ⟨rfl, rfl⟩ | ⟨rfl, rfl⟩ | ⟨rfl, rfl⟩ | ⟨rfl, rfl⟩ | ⟨rfl, rfl⟩
  all_goals exact ⟨_, rfl⟩

/-- A row that decodes a slot at the head does so as `onHeadFail` says, and does nothing more when it fails (R351). -/
theorem exec_decodeRow {s : State} {l q p key b : Nat} {i : Instr} (h : DecodeRow l i q key b) (hl : liveCore s l = some p)
    (hf : queueFree (coreAt s p) q = true) (hb : headBits (queueAt (coreAt s p) q) = some b) :
    ∃ fail go, (∀ t, fail t b = t) ∧ exec i s = .next (onHeadFail s l q (fun k => k == key) fail go) := by
  have plain (hg : ∃ go, exec i s = .next (onHead s l q (fun k => k == key) go)) :
      ∃ fail go, (∀ t, fail t b = t) ∧ exec i s = .next (onHeadFail s l q (fun k => k == key) fail go) := by
    obtain ⟨go, run⟩ := hg
    exact ⟨fun s _ => s, go, fun _ => rfl, run⟩
  rcases h with h | ⟨h, rfl⟩ | h | ⟨rfl, rfl, hn⟩ | ⟨rfl, rfl, rfl, hshape⟩
  · exact plain ⟨_, exec_waitingRow h⟩
  · obtain ⟨f, run⟩ := exec_outputRow (s := s) h
    have empty : (queueAt (coreAt s p) 0).head = none := by
      simp only [queueFree, Bool.and_eq_true] at hf
      exact Option.isNone_iff_eq_none.mp hf.1.1.2
    have fresh : headIsOut s l f = false := by simp only [headIsOut, hl, empty]
    rw [outRow, fresh, if_neg Bool.false_ne_true] at run
    exact plain ⟨_, run⟩
  · exact plain (exec_syncRow h)
  · refine plain ⟨fun s _ _ _ _ => s, ?_⟩
    change execNop l q s = _
    simp [execNop, withLive, hl, hf, hb, hn, onHead, onHeadFail]
  · exact ⟨fun t b => if fieldN (slotWord b 1) 28 2 ≠ 0 then refuseGang t l else t, _, fun t => if_neg (by simp [hshape]), rfl⟩

end Sys2Proof.Machine
end

section
/-!
PROOFS. The decode of vector and move commands (R170, R205, R267, R351, R352, R355): DecodedCommandsWait.
-/

namespace Sys2Proof.Machine

theorem lt_of_liveCore {s : State} {l p : Nat} (h : liveCore s l = some p) : l < 2048 := by
  unfold liveCore at h
  split at h
  · cases h
  · next hp => exact physOf_lt hp

/-- Settles O33: a command that decodes waits at the head (`exec_waitingRow_decodes`); one that fails is retired
(`retireHead_retired`), and one that is held or skipped goes as `onHeadFail` says. -/
theorem decodedCommandsWait : Obligations.DecodedCommandsWait := by
  refine ⟨fun s l q p key i c hi h ha => ?_, fun s l q p key b i hi hl hf hb hkey hd hu => ?_⟩
  · obtain ⟨u, d, hd, run, waits, log, rfl⟩ := exec_waitingRow_decodes hi h ha
    have core := waits.core
    refine ⟨u, _, run, waits.answer, waits.head, rfl, rfl, rfl, rfl, rfl, rfl, rfl, rfl, ?_, fun r hr => ?_, ?_, ?_, ?_, log,
      waits.others⟩
    · rw [core, queueAt_setQueue_same]
    · rw [core, queueAt_setQueue, if_neg hr]
      rfl
    all_goals
      rw [core]
      rfl
  · obtain ⟨fail, go, told, run⟩ := exec_decodeRow hi hl hf hb
    have wanted : (fun k : Nat => k == key) key = true := beq_self_eq_true key
    have works : (queueAt (coreAt s p) q).state = 1 := by
      simp only [queueFree, Bool.and_eq_true, beq_iff_eq] at hf
      exact hf.1.1.1.2
    refine ⟨fun st h => ?_, fun hbad h => ?_, fun en f hbad h => ?_⟩
    · obtain ⟨kind, c, fails⟩ : ∃ kind c, onHeadFail s l q (fun k => k == key) fail go =
          fail (report (retireHead s p l q kind c st) st) b := by
        rcases h with ⟨hbad, rfl⟩ | ⟨hbad, h⟩
        · exact onHeadFail_bad (want := fun k => k == key) hl hf hb hkey wanted hd hbad
        · exact onHeadFail_fails (want := fun k => k == key) hl hf hb hkey wanted hd hu hbad h
      rw [fails, told] at run
      obtain ⟨head, stopped, shown, record, next, last, flow, memory, others⟩ :=
        retireHead_retired (lt_of_liveCore hl) works kind c st
      generalize retireHead s p l q kind c st = t at *
      exact ⟨_, run, rfl, head, stopped, shown, record, next, last, flow, memory, others⟩
    · rw [run, onHeadFail_held (want := fun k => k == key) hl hf hb hkey wanted hd hu hbad h]
    · obtain ⟨c, skip⟩ := onHeadFail_skipped (want := fun k => k == key) (fail := fail) (go := go) hl hf hb hkey wanted hd hu hbad h
      rw [skip] at run
      obtain ⟨head, slot, memory, others⟩ := skipped_leaveHead s p q c en f (slotSetter q key) l (parseHeader b).phase (c + 2)
      generalize leaveHead (notePhase (skipped s p q c en f (slotSetter q key)) l (parseHeader b).phase) p l q (c + 2) = t at *
      exact ⟨_, run, rfl, head, slot, memory, others⟩

end Sys2Proof.Machine
end

section
/-!
PROOFS. No census is touched by what a core's reset does outside the core's own state (R191, R252, R253, R489, R491).
-/

namespace Sys2Proof.Machine

/-- The census of every physical core (R188 to R191). -/
def censuses (s : State) (p : Nat) : Census := (coreAt s p).census

theorem censuses_setCore {s : State} {p : Nat} {k : Core} (h : k.census = (coreAt s p).census) :
    censuses (setCore s p k) = censuses s := by
  funext i
  rw [censuses, censuses, coreAt_setCore]
  split
  · next e => rw [h, e]
  · rfl

theorem censuses_updCore {s : State} {p : Nat} {f : Core → Core} (h : (f (coreAt s p)).census = (coreAt s p).census) :
    censuses (updCore s p f) = censuses s := censuses_setCore h

@[simp] theorem censuses_updQueue (s : State) (p q : Nat) (f : Queue → Queue) : censuses (updQueue s p q f) = censuses s :=
  censuses_updCore rfl

@[simp] theorem censuses_updGal (s : State) (g : Nat) (f : Gal → Gal) : censuses (updGal s g f) = censuses s := rfl
@[simp] theorem censuses_updCav (s : State) (g : Nat) (f : Cav → Cav) : censuses (updCav s g f) = censuses s := rfl
@[simp] theorem censuses_logCore (s : State) (cls : Nat) (st : Status) (l : Nat) (rep : Bool) (body : List (Nat × Nat)) :
    censuses (logCore s cls st l rep body) = censuses s := rfl
@[simp] theorem censuses_report (s : State) (st : Status) : censuses (report s st) = censuses s := rfl
@[simp] theorem censuses_markHw (s : State) (p off : Nat) : censuses (markHw s p off) = censuses s := censuses_updCore rfl

@[simp] theorem censuses_inject (s : State) (p src : Nat) (pkt : Packet) : censuses (inject s p src pkt) = censuses s := by
  unfold inject injectFrom
  dsimp only
  split <;> exact censuses_updCore rfl

@[simp] theorem censuses_answerPkt (s : State) (p l : Nat) (port : Port) (pkt : Packet) (st : Status) :
    censuses (answerPkt s p l port pkt st) = censuses s := by
  unfold answerPkt
  cases port with
  | vein => exact censuses_inject ..
  | sump b errs => exact censuses_updCore rfl

theorem census_recredit (k : Core) (e : InEntry) : (recredit k e).census = k.census := by
  unfold recredit
  dsimp only
  repeat' split
  all_goals rfl

@[simp] theorem censuses_absorbInbound (s : State) (p l : Nat) (e : InEntry) : censuses (absorbInbound s p l e) = censuses s := by
  unfold absorbInbound
  split
  · rfl
  · rw [censuses_answerPkt, censuses_updCore (census_recredit ..)]

@[simp] theorem censuses_disableRing (s : State) (p l n : Nat) : censuses (disableRing s p l n) = censuses s := by
  unfold disableRing
  dsimp only
  split
  · exact (censuses_inject ..).trans (censuses_setCore rfl)
  · exact censuses_setCore rfl

@[simp] theorem censuses_grantRing (s : State) (p l n count : Nat) : censuses (grantRing s p l n count) = censuses s := by
  unfold grantRing
  dsimp only
  split
  · rfl
  · split
    · exact censuses_setCore rfl
    · exact (censuses_inject ..).trans (censuses_setCore rfl)

theorem census_countBuf (k : Core) (es : Store Nat) : (countBuf k es).census = k.census := by
  obtain ⟨_, h⟩ := countBuf_changes k es
  rw [h]

@[simp] theorem censuses_stopBadRow (s : State) (p l q : Nat) : censuses (stopBadRow s p l q) = censuses s := by
  unfold stopBadRow
  dsimp only
  split
  · rfl
  · split
    · rw [censuses_logCore, censuses_updQueue, censuses_updCore (census_countBuf ..)]
    · rfl

@[simp] theorem censuses_leaveHead (s : State) (p l q ready : Nat) : censuses (leaveHead s p l q ready) = censuses s := by
  unfold leaveHead
  dsimp only
  split
  · rw [censuses_stopBadRow, censuses_grantRing, censuses_markHw, censuses_setCore]
    simp only [setRing, setQueue, census_countBuf]
  · rw [censuses_setCore]
    simp only [setQueue, census_countBuf]

@[simp] theorem censuses_retire (s : State) (p l q slot kind : Nat) (st : Status) :
    censuses (retire s p l q slot kind st) = censuses s := by simp [retire]

@[simp] theorem censuses_endTrack (s : State) (p id e d : Nat) (st : Status) : censuses (endTrack s p id e d st) = censuses s :=
  censuses_updCore rfl

@[simp] theorem censuses_dueDone (s : State) (p c : Nat) (en : Bool) (flag setter ctx slot track : Nat) :
    censuses (dueDone s p c en flag setter ctx slot track) = censuses s := by
  unfold dueDone
  split
  · exact censuses_updCore rfl
  · rfl

theorem census_leftTile (k : Core) (c : Nat) (d : Decoded) : (leftTile k c d).census = k.census := by
  unfold leftTile
  split <;> rfl

@[simp] theorem censuses_retireDecoded (s : State) (p l q c : Nat) (d : Decoded) (kind : Nat) (st : Status) :
    censuses (retireDecoded s p l q c d kind st) = censuses s := by
  rw [retireDecoded, censuses_report, censuses_leaveHead, censuses_retire, censuses_updCore (census_leftTile ..),
    censuses_endTrack]

@[simp] theorem censuses_endPend (s : State) (p l : Nat) (d : Decoded) (st : Status) :
    censuses (endPend s p l d st) = censuses s := by
  rw [endPend, censuses_report, censuses_endTrack, censuses_retire, censuses_updCore rfl]

@[simp] theorem censuses_endSleep (s : State) (p l q c : Nat) (st : Status) (woken : Bool) :
    censuses (endSleep s p l q c st woken) = censuses s := by
  unfold endSleep
  split
  · rfl
  · dsimp only
    split <;> simp

/-! Ends of commands that a reset brings about. -/

@[simp] theorem censuses_failRendezvous (s : State) (g : Nat) (st : Status) (owe : Bool) :
    censuses (failRendezvous s g st owe) = censuses s := by
  refine (foldl_kept censuses (fun t a => ?_) _ _).trans (censuses_updGal ..)
  dsimp only
  split
  · rfl
  · split
    · rfl
    · exact censuses_retireDecoded ..

@[simp] theorem censuses_resetRendezvous (s : State) (g : Nat) (hit : Nat → Bool) :
    censuses (resetRendezvous s g hit) = censuses s := by
  unfold resetRendezvous
  dsimp only
  split
  · simp
  · split <;> simp

@[simp] theorem censuses_poisonWriter (s : State) (g i tile slot id : Nat) :
    censuses (poisonWriter s g i tile slot id) = censuses s := by
  unfold poisonWriter
  split
  · rfl
  · rw [censuses_logCore]
    refine censuses_updCore ?_
    obtain ⟨_, _, _, wrote⟩ :=
      writeTrows_changes (coreAt s _) (32 * tile) (List.replicate 32 (mkTileRow (List.replicate 32 .nar)))
    rw [wrote]
    rfl

@[simp] theorem censuses_wakeAbandoned (s : State) (p l c : Nat) : censuses (wakeAbandoned s p l c) = censuses s := by
  refine foldl_kept censuses (fun t q => ?_) _ _
  dsimp only
  split
  · rfl
  · split <;> simp

@[simp] theorem censuses_abandonRing (s : State) (p l n : Nat) : censuses (abandonRing s p l n) = censuses s := by
  unfold abandonRing
  dsimp only
  split
  · split
    · rw [censuses_wakeAbandoned, censuses_updCore rfl, censuses_logCore]
      exact censuses_setCore rfl
    · rw [censuses_updCore rfl, censuses_logCore]
      exact censuses_setCore rfl
  · rfl

@[simp] theorem censuses_abandonCounter (s : State) (p l n : Nat) : censuses (abandonCounter s p l n) = censuses s := by
  unfold abandonCounter
  dsimp only
  split
  · rw [censuses_wakeAbandoned, censuses_logCore]
    exact censuses_setCore rfl
  · rfl

@[simp] theorem censuses_abandonWhere (s : State) (p l : Nat) (f : Nat → Nat → Nat → Bool) :
    censuses (abandonWhere s p l f) = censuses s := by
  refine (foldl_kept censuses (fun t n => ?_) _ _).trans (foldl_kept censuses (fun t n => ?_) _ _)
  all_goals
    dsimp only
    split <;> simp

@[simp] theorem censuses_endHead (s : State) (p l q : Nat) (d : Decoded) (st : Status) :
    censuses (endHead s p l q d st) = censuses s := by
  unfold endHead
  dsimp only
  split
  · split <;> simp
  · simp

@[simp] theorem censuses_endAbandonedHead (s : State) (p l q : Nat) : censuses (endAbandonedHead s p l q) = censuses s := by
  unfold endAbandonedHead
  split
  · rfl
  · split <;> simp

@[simp] theorem censuses_endAbandonedPend (s : State) (p l : Nat) : censuses (endAbandonedPend s p l) = censuses s := by
  unfold endAbandonedPend
  split
  · rfl
  · split <;> simp

@[simp] theorem censuses_abandonAll (s : State) (p l : Nat) (f : Nat → Nat → Nat → Bool) :
    censuses (abandonAll s p l f) = censuses s := by
  unfold abandonAll endAbandoned
  rw [censuses_endAbandonedPend, foldl_kept censuses fun t q => censuses_endAbandonedHead t p l q, censuses_abandonWhere]

/-! The rest of a reset. -/

@[simp] theorem censuses_resetGangs (s : State) (g : Nat) (hit : Nat → Bool) : censuses (resetGangs s g hit) = censuses s := by
  unfold resetGangs
  dsimp only
  split
  · rfl
  · refine (foldl_kept censuses (fun t r => ?_) _ _).trans (censuses_updGal ..)
    have poisoned := foldl_kept censuses (f := fun s (w : Nat × Nat × Nat × Nat) =>
      if hit (memberOf g w.1) then s else poisonWriter s g w.1 w.2.1 w.2.2.1 w.2.2.2) (fun u w => by split <;> simp) r.writers t
    split
    · exact poisoned
    · exact (censuses_logCore ..).trans poisoned

@[simp] theorem censuses_abandonReset (s : State) (hit : Nat → Bool) : censuses (abandonReset s hit) = censuses s := by
  refine foldl_kept censuses (fun t p => ?_) _ _
  split <;> simp

@[simp] theorem censuses_breakSlotsOf (s : State) (l : Nat) : censuses (breakSlotsOf s l) = censuses s := by
  refine foldl_kept censuses (fun t n => ?_) _ _
  split
  · obtain ⟨_, _, _, _, _, broke⟩ := breakSlot_changes t n (some l) false
    rw [broke]
    rfl
  · rfl

@[simp] theorem censuses_logReset (s : State) (d : Nat × Nat) : censuses (logReset s d) = censuses s := by
  unfold logReset
  split <;> rfl

@[simp] theorem censuses_resetShared (s : State) (d : Nat × Nat) : censuses (resetShared s d) = censuses s := by
  rw [resetShared, censuses_logReset, foldl_kept censuses fun t g => by simp]

@[simp] theorem censuses_resetOutside (s : State) (d : Nat × Nat) : censuses (resetOutside s d) = censuses s := by
  have inside : censuses ((domainGals d).foldl restartGal (abandonReset ((domainCores d).foldl breakSlotsOf s) (resetHits d))) =
      censuses s := by
    rw [foldl_kept censuses (f := restartGal) fun t g => censuses_updGal .., censuses_abandonReset,
      foldl_kept censuses censuses_breakSlotsOf]
  unfold resetOutside
  dsimp only
  split
  · exact (censuses_updCav ..).trans inside
  · exact inside

@[simp] theorem censuses_noteReset (s : State) (l : Nat) : censuses (noteReset s l) = censuses s := rfl

@[simp] theorem censuses_resetTraffic (s : State) (l p : Nat) (inb : List InEntry) :
    censuses (resetTraffic s l p inb) = censuses s := by
  have off (t : State) : censuses (disableCommandRings t p l) = censuses t := by
    refine foldl_kept censuses (fun t q => ?_) _ _
    split
    · exact censuses_disableRing ..
    · rfl
  rw [resetTraffic, censuses_noteReset, off, foldl_kept censuses fun t e => censuses_absorbInbound t p l e]

end Sys2Proof.Machine
end

section
/-!
PROOFS. What a core reset makes of the core's census (R191).
-/

namespace Sys2Proof.Machine

theorem shadow_makeLate (k : Core) (c : Nat) (a : LateAct) : (makeLate k c a).census.shadow = k.census.shadow := by
  cases a with
  | count cx tag n _ _ =>
    rw [makeLate, makeCount]
    dsimp only
    split <;> rfl
  | passEnd id t =>
    rw [makeLate]
    split <;> rfl
  | _ => rfl

theorem shadow_settleLate (k : Core) (c : Nat) : (settleLate k c).census.shadow = k.census.shadow :=
  foldl_kept (fun k : Core => k.census.shadow) (fun k (x : Late) => shadow_makeLate k x.cycle x.act) _ _

theorem census_undoRows (k : Core) (c : Nat) : (undoRows k c).census = k.census := by
  have back (l : List RowWas) : (l.foldr (fun w k => putBack k w) k).census = k.census := by
    induction l with
    | nil => rfl
    | cons w t ih => exact ih
  exact back _

/-- R191. -/
theorem census_clearedCore (k : Core) (c : Nat) : (clearedCore k c).census =
    { (undoRows (settleLate (cancelOutbound k).2 c) c).census with live := [], narSeen := false, satSeen := false } := rfl

theorem shadow_clearedCore (k : Core) (c : Nat) : (clearedCore k c).census.shadow = k.census.shadow := by
  rw [census_clearedCore, census_undoRows]
  exact shadow_settleLate ..

/-- Catching up makes of a census what the late effects make of it. -/
theorem census_catchUp (s : State) (p c : Nat) : (coreAt (catchUp s p c) p).census = (settleLate (coreAt s p) c).census := by
  unfold catchUp
  dsimp only
  split
  · next none => rw [settleLate, List.isEmpty_iff.mp none, List.foldl_nil]
  · refine (foldl_kept (fun t => (coreAt t p).census) (fun t (x : Late) => ?_) _ _).trans ?_
    · cases x.act <;> rfl
    · rw [coreAt_updCore_same]

theorem shadow_beforeReset (s : State) (l p : Nat) :
    (coreAt (beforeReset s l p) p).census.shadow = (coreAt s p).census.shadow := by
  have caught : (coreAt (catchUp s p (cycleOf s l)) p).census.shadow = (coreAt s p).census.shadow := by
    rw [census_catchUp, shadow_settleLate]
  refine Eq.trans ?_ caught
  rw [beforeReset, coreAt_logCore]
  unfold resetChecker
  split
  · rfl
  · rw [coreAt_updCore]
    split
    · next e =>
      rw [← e]
      unfold dropCompare
      split <;> rfl
    · rfl

theorem census_resetCore {s : State} {l p : Nat} (hp : physOf s l = some p) : ∃ k, (coreAt (resetCore s l) p).census =
    (clearedCore k (cycleOf s l)).census ∧ k.census.shadow = (coreAt s p).census.shadow := by
  refine ⟨coreAt (beforeReset s l p) p, ?_, shadow_beforeReset s l p⟩
  obtain ⟨inb, n, traffic⟩ := resetCore_some hp
  have kept : censuses (resetCore s l) = censuses (clearAt s l p) := by
    rw [traffic]
    split
    · exact censuses_resetTraffic ..
    · exact (censuses_logCore ..).trans (censuses_resetTraffic ..)
  refine (congrFun kept p).trans ?_
  rw [censuses, clearAt, coreAt_setCore_same]

theorem censuses_resetDomain_ofCore (s : State) (l : Nat) : censuses (resetDomain s (0, l)) = censuses (resetCore s l) := by
  rw [resetDomain_eq, if_neg (Nat.zero_ne_add_one 2), censuses_resetOutside, censuses_resetShared,
    show domainCores (0, l) = [l] from rfl, List.foldl_cons, List.foldl_nil]

/-- R191: what a core reset leaves of the core's census. -/
theorem census_resetDomain_ofCore {s : State} {l p : Nat} (hp : physOf s l = some p) :
    (coreAt (resetDomain s (0, l)) p).census.live = [] ∧ (coreAt (resetDomain s (0, l)) p).census.narSeen = false ∧
    (coreAt (resetDomain s (0, l)) p).census.satSeen = false ∧
    (coreAt (resetDomain s (0, l)) p).census.shadow = (coreAt s p).census.shadow := by
  obtain ⟨k, census, shadow⟩ := census_resetCore hp
  have whole : (coreAt (resetDomain s (0, l)) p).census = (clearedCore k (cycleOf s l)).census :=
    (congrFun (censuses_resetDomain_ofCore s l) p).trans census
  rw [whole]
  exact ⟨rfl, rfl, rfl, (shadow_clearedCore ..).trans shadow⟩

end Sys2Proof.Machine
end

section
/-!
PROOFS. What the latch of a Dusk makes of a core's census (R29 step 1, R189, R191).
-/

namespace Sys2Proof.Machine

/-- From s to t at most physical core q changes, and no Cavern. -/
def AtMost (q : Nat) (s t : State) : Prop := OthersKept s t q ∧ t.cavs = s.cavs

theorem AtMost.refl (q : Nat) (s : State) : AtMost q s s := ⟨.refl s q, rfl⟩

theorem AtMost.trans {q : Nat} {s t u : State} (h : AtMost q s t) (k : AtMost q t u) : AtMost q s u :=
  ⟨h.1.trans k.1, k.2.trans h.2⟩

theorem AtMost.foldl {α : Type} {q : Nat} {f : State → α → State} (hf : ∀ s x, AtMost q s (f s x)) (l : List α) (s : State) :
    AtMost q s (l.foldl f s) := by
  induction l generalizing s with
  | nil => exact .refl q s
  | cons x t ih => exact (hf s x).trans (ih _)

theorem atMost_updCore (s : State) (q : Nat) (f : Core → Core) : AtMost q s (updCore s q f) := ⟨othersKept_updCore s q f, rfl⟩

theorem atMost_of_cores {s t : State} (h : t.cores = s.cores) (hc : t.cavs = s.cavs) (q : Nat) : AtMost q s t :=
  ⟨.of_cores h q, hc⟩

theorem logCore_atMost (s : State) (q cls : Nat) (st : Status) (l : Nat) (rep : Bool) (body : List (Nat × Nat)) :
    AtMost q s (logCore s cls st l rep body) := atMost_of_cores rfl rfl q

theorem poisonWord_atMost (s : State) (p l word : Nat) : AtMost p s (poisonWord s p l 8 word) := atMost_updCore ..

/-- A census word's use is its core's own (R502). -/
theorem useWord_atMost (s : State) (p l word : Nat) : AtMost p s (useWord s p l 8 word).2 := by
  unfold useWord
  dsimp only
  split
  · exact .refl p s
  · exact atMost_updCore ..
  · exact ((atMost_updCore ..).trans (logCore_atMost ..)).trans (poisonWord_atMost _ p l word)

theorem useCensus_atMost (s : State) (p : Nat) : AtMost p s (useCensus s p) := by
  have used (words : List Nat) (r : Bool × State) : AtMost p r.2 ((words.map fun n => (8, n % 1024)).foldl (fun r w =>
      let (b, s) := useWord r.2 p (idOf s p) w.1 w.2; (r.1 || b, s)) r).2 := by
    induction words generalizing r with
    | nil => exact .refl p r.2
    | cons n t ih => exact (useWord_atMost r.2 p _ (n % 1024)).trans (ih _)
  exact used _ (false, s)

theorem catchUp_atMost (s : State) (p c : Nat) : AtMost p s (catchUp s p c) := by
  unfold catchUp
  dsimp only
  split
  · exact .refl p s
  · refine (atMost_updCore s p _).trans (AtMost.foldl (fun t (x : Late) => ?_) _ _)
    cases x.act <;> exact atMost_of_cores rfl rfl p

theorem latchCore_atMost (s : State) (p : Nat) : AtMost p s (latchCore s p) :=
  (useCensus_atMost s p).trans ((catchUp_atMost ..).trans (atMost_updCore ..))

theorem coreAt_latchCores (l : List Nat) {p : Nat} (h : p ∉ l) (s : State) :
    coreAt (l.foldl latchCore s) p = coreAt s p ∧ (l.foldl latchCore s).cavs = s.cavs := by
  induction l generalizing s with
  | nil => exact ⟨rfl, rfl⟩
  | cons q t ih =>
    obtain ⟨others, cavs⟩ := latchCore_atMost s q
    obtain ⟨here, cavsAfter⟩ := ih (fun m => h (List.mem_cons_of_mem q m)) (latchCore s q)
    exact ⟨here.trans (others p fun e => h (e ▸ List.mem_cons_self)), cavsAfter.trans cavs⟩

theorem Store.keys_of_wfFrom {α : Type} [DecidableEq α] {d : α} {m : Store α} {lo : Nat} (h : Store.wfFrom d lo m = true) :
    (∀ k, k ∈ m.map (·.1) → lo ≤ k) ∧ (m.map (·.1)).Nodup := by
  induction m generalizing lo with
  | nil => simp
  | cons e t ih =>
    simp only [Store.wfFrom, Bool.and_eq_true, decide_eq_true_eq] at h
    obtain ⟨⟨first, _⟩, rest⟩ := h
    obtain ⟨above, distinct⟩ := ih rest
    rw [List.map_cons, List.nodup_cons]
    refine ⟨fun k hk => ?_, fun m => absurd (above _ m) (by omega), distinct⟩
    obtain rfl | later := List.mem_cons.mp hk
    · exact first
    · exact (Nat.le_succ_of_le first).trans (above k later)

/-- A core without an upset sync word latches what its late effects make of its census. -/
theorem census_latchCore {s : State} {p : Nat} (h : (coreAt s p).upsets.sync = []) :
    (coreAt (latchCore s p) p).census = { (settleLate (coreAt s p) (nextCycle s p)).census with
      shadow := (settleLate (coreAt s p) (nextCycle s p)).census.live, live := [] } := by
  have use : useCensus s p = s := by rw [useCensus, useWords_clean h]
  rw [latchCore, use, coreAt_updCore_same, ← census_catchUp]

theorem cores_duskLatch (s : State) : (duskLatch s).cores = ((s.cores.map (·.1)).foldl latchCore s).cores := by
  rw [duskLatch]
  dsimp only
  rw [foldl_kept State.cores (f := fun s c => updCav s c latchCav) fun _ _ => rfl,
    foldl_kept State.cores (f := fun s b => updBun s b latchBundle) fun _ _ => rfl,
    foldl_kept State.cores (f := fun s g => updGal s g latchGal) fun _ _ => rfl]

theorem coreAt_duskLatch (s : State) (p : Nat) :
    coreAt (duskLatch s) p = coreAt ((s.cores.map (·.1)).foldl latchCore s) p := by
  rw [coreAt, coreAt, cores_duskLatch]

/-- The latch of a Dusk, of a core that the table of cores lists. -/
theorem coreAt_duskLatch_of_mem {s : State} {p : Nat} (hi : Inv s) (hp : p ∈ s.cores.map (·.1)) :
    ∃ t, coreAt (duskLatch s) p = coreAt (latchCore t p) p ∧ coreAt t p = coreAt s p ∧ t.cavs = s.cavs := by
  obtain ⟨tables, _⟩ := hi
  simp only [tablesWf, Bool.and_eq_true] at tables
  obtain ⟨⟨⟨cores, _⟩, _⟩, _⟩ := tables
  obtain ⟨before, after, keys⟩ := List.append_of_mem hp
  have distinct := (Store.keys_of_wfFrom cores).2
  rw [keys, List.nodup_append] at distinct
  obtain ⟨_, tail, apart⟩ := distinct
  obtain ⟨kept, cavs⟩ := coreAt_latchCores before (fun m => apart p m p List.mem_cons_self rfl) s
  refine ⟨before.foldl latchCore s, ?_, kept, cavs⟩
  rw [coreAt_duskLatch, keys, List.foldl_append, List.foldl_cons]
  exact (coreAt_latchCores after (List.nodup_cons.mp tail).1 _).1

/-- R189, R191: what the latch of a Dusk makes of a core's census. -/
theorem census_duskLatch {s : State} {p : Nat} (hi : Inv s) (h : (coreAt s p).upsets.sync = []) :
    (coreAt (duskLatch s) p).census.shadow = (settleLate (coreAt s p) (nextCycle s p)).census.live ∧
    (coreAt (duskLatch s) p).census.live = [] := by
  by_cases hp : p ∈ s.cores.map (·.1)
  · obtain ⟨t, latched, kept, cavs⟩ := coreAt_duskLatch_of_mem hi hp
    have next : nextCycle t p = nextCycle s p := by simp only [nextCycle, cavAt, cavs]
    rw [latched, census_latchCore (kept ▸ h), kept, next]
    exact ⟨rfl, rfl⟩
  · have atReset : coreAt s p = Core.init := Store.get_of_not_mem _ hp
    rw [coreAt_duskLatch, (coreAt_latchCores _ hp s).1, atReset]
    exact ⟨rfl, rfl⟩

/-- Settles O20: nothing else of a reset changes a census (`censuses`), and the latch takes each core of the table once. -/
theorem coreResetClearsTheCensus : Obligations.CoreResetClearsTheCensus :=
  ⟨fun _ _ _ _ taking hp since => ⟨_, exec_resetEffect taking since, census_resetDomain_ofCore hp⟩,
   fun _ _ hi clean => census_duskLatch hi clean⟩

end Sys2Proof.Machine
end

section
/-!
PROOFS. A command that sleeps at its queue's head ends (R301, R302, R347, R355).
-/

namespace Sys2Proof.Machine

/-! What no event of a core's sync unit changes. -/

/-- From s to t, what no event of the sync unit of core p changes is kept: the core's memory, the other cores, the outcomes on their
way, and the records of the M-cycle. -/
structure RestKept (s t : State) (p : Nat) : Prop where
  memory : MemoryKept s t p
  others : OthersKept s t p
  news : t.news = s.news
  records : ∀ r, r ∈ s.log.fresh → r ∈ t.log.fresh

theorem MemoryKept.trans {s t u : State} {p : Nat} (h : MemoryKept s t p) (k : MemoryKept t u p) : MemoryKept s u p := by
  obtain ⟨rows, trows⟩ := h
  obtain ⟨rows', trows'⟩ := k
  exact ⟨fun r => (rows' r).trans (rows r), fun u => (trows' u).trans (trows u)⟩

theorem RestKept.trans {s t u : State} {p : Nat} (h : RestKept s t p) (k : RestKept t u p) : RestKept s u p :=
  ⟨h.memory.trans k.memory, h.others.trans k.others, k.news.trans h.news, fun r hr => k.records r (h.records r hr)⟩

theorem RestKept.of_core {s t : State} {p : Nat} (hp : (coreAt t p).pool.rows = (coreAt s p).pool.rows)
    (hf : (coreAt t p).flow = (coreAt s p).flow) (others : OthersKept s t p) (news : t.news = s.news)
    (records : ∀ r, r ∈ s.log.fresh → r ∈ t.log.fresh) : RestKept s t p :=
  ⟨⟨fun r => by rw [rowAt, hp]; rfl, fun u => by rw [trowAt, hf]; rfl⟩, others, news, records⟩

theorem RestKept.of_cores {s t : State} (p : Nat) (h : t.cores = s.cores) (news : t.news = s.news)
    (records : ∀ r, r ∈ s.log.fresh → r ∈ t.log.fresh) : RestKept s t p := by
  have core : coreAt t p = coreAt s p := by rw [coreAt, h]; rfl
  exact .of_core (by rw [core]) (by rw [core]) (.of_cores h p) news records

theorem RestKept.refl (s : State) (p : Nat) : RestKept s s p := .of_cores p rfl rfl fun _ h => h

theorem updCore_restKept {s : State} {p : Nat} {f : Core → Core} (hp : (f (coreAt s p)).pool.rows = (coreAt s p).pool.rows)
    (hf : (f (coreAt s p)).flow = (coreAt s p).flow) : RestKept s (updCore s p f) p :=
  .of_core (by rw [coreAt_updCore_same, hp]) (by rw [coreAt_updCore_same, hf]) (othersKept_updCore s p f) rfl fun _ h => h

theorem logCore_restKept (s : State) (p cls : Nat) (st : Status) (l : Nat) (rep : Bool) (body : List (Nat × Nat)) :
    RestKept s (logCore s cls st l rep body) p := .of_cores p rfl rfl fun r => mem_fresh_logCore s cls st l rep body r

theorem report_restKept (s : State) (st : Status) (p : Nat) : RestKept s (report s st) p := .of_cores p rfl rfl fun _ h => h

/-! What leaving a head changes of the other queues, and beside the cores. -/

/-- From s to t, core p's queues are as they were, but for queue q, whose sleep is; so are the Chimney slots and the outcomes on
their way. -/
structure OneQueue (s t : State) (p q : Nat) : Prop where
  sleep : (queueAt (coreAt t p) q).sleep = (queueAt (coreAt s p) q).sleep
  queues : ∀ r, r ≠ q → queueAt (coreAt t p) r = queueAt (coreAt s p) r
  slots : t.slots = s.slots
  news : t.news = s.news

theorem OneQueue.trans {s t u : State} {p q : Nat} (h : OneQueue s t p q) (k : OneQueue t u p q) : OneQueue s u p q :=
  ⟨k.sleep.trans h.sleep, fun r hr => (k.queues r hr).trans (h.queues r hr), k.slots.trans h.slots, k.news.trans h.news⟩

theorem OneQueue.of_queues {s t : State} {p : Nat} (q : Nat) (h : (coreAt t p).queues = (coreAt s p).queues)
    (slots : t.slots = s.slots) (news : t.news = s.news) : OneQueue s t p q :=
  ⟨by rw [queueAt, h]; rfl, fun r _ => by rw [queueAt, h]; rfl, slots, news⟩

theorem setCore_oneQueue {s : State} {p : Nat} {k : Core} (h : k.queues = (coreAt s p).queues) (q : Nat) :
    OneQueue s (setCore s p k) p q := by
  refine .of_queues q ?_ rfl rfl
  rw [coreAt_setCore_same, h]

theorem updCore_oneQueue {s : State} {p : Nat} {f : Core → Core} (h : (f (coreAt s p)).queues = (coreAt s p).queues) (q : Nat) :
    OneQueue s (updCore s p f) p q := setCore_oneQueue h q

theorem logCore_oneQueue (s : State) (p cls : Nat) (st : Status) (l : Nat) (rep : Bool) (body : List (Nat × Nat)) (q : Nat) :
    OneQueue s (logCore s cls st l rep body) p q := .of_queues q rfl rfl rfl

theorem updQueue_oneQueue {s : State} {p q : Nat} {f : Queue → Queue}
    (h : (f (queueAt (coreAt s p) q)).sleep = (queueAt (coreAt s p) q).sleep) : OneQueue s (updQueue s p q f) p q := by
  refine ⟨?_, fun r hr => ?_, rfl, rfl⟩
  · rw [coreAt_updQueue_same, queueAt_setQueue_same, h]
  · rw [coreAt_updQueue_same, queueAt_setQueue, if_neg hr]

theorem inject_oneQueue (s : State) (p src : Nat) (pkt : Packet) (q : Nat) : OneQueue s (inject s p src pkt) p q := by
  unfold inject injectFrom
  dsimp only
  split <;> exact updCore_oneQueue rfl q

theorem grantRing_oneQueue (s : State) (p l n count q : Nat) : OneQueue s (grantRing s p l n count) p q := by
  have turned (r : Ring) : OneQueue s (setCore s p (setRing (coreAt s p) n r)) p q := setCore_oneQueue (by rfl) q
  unfold grantRing
  dsimp only
  split
  · exact .of_queues q rfl rfl rfl
  · split
    · exact turned _
    · exact (turned _).trans (inject_oneQueue ..)

theorem noteFail_sleep (x : Queue) (slot kind : Nat) (st : Status) : (noteFail x slot kind st).sleep = x.sleep := by
  unfold noteFail
  split <;> rfl

theorem stopBadRow_oneQueue (s : State) (p l q : Nat) : OneQueue s (stopBadRow s p l q) p q := by
  unfold stopBadRow
  dsimp only
  split
  · exact .of_queues q rfl rfl rfl
  · next b _ _ =>
    split
    · have counted : OneQueue s (updCore s p fun k => countBuf k b.errs) p q := by
        obtain ⟨ecc, h⟩ := countBuf_changes (coreAt s p) b.errs
        exact updCore_oneQueue (by rw [h]) q
      exact (counted.trans (updQueue_oneQueue (noteFail_sleep ..))).trans (logCore_oneQueue ..)
    · exact .of_queues q rfl rfl rfl

theorem leaveHead_oneQueue (s : State) (p l q ready : Nat) : OneQueue s (leaveHead s p l q ready) p q := by
  by_cases h : (queueAt (coreAt s p) q).nextSlot = 15
  · obtain ⟨ecc, counted⟩ := countBuf_changes (coreAt s p) (((queueAt (coreAt s p) q).bufs.take 1).flatMap
      fun b => b.errs.filter fun e => e.1 / 4 == (queueAt (coreAt s p) q).nextSlot)
    unfold leaveHead
    dsimp only
    rw [if_pos h, counted]
    refine OneQueue.trans ?_ ((grantRing_oneQueue _ p l q 1 q).trans (stopBadRow_oneQueue ..))
    refine ⟨?_, fun r hr => ?_, rfl, rfl⟩
    · rw [markHw, coreAt_updCore_same, coreAt_setCore_same]
      simp [queueAt, setQueue, setRing]
    · rw [markHw, coreAt_updCore_same, coreAt_setCore_same]
      simp [queueAt, setQueue, setRing, Store.get_set, hr]
  · obtain ⟨ecc, left⟩ := leaveHead_next h l ready
    rw [left]
    refine ⟨?_, fun r hr => ?_, rfl, rfl⟩
    · rw [coreAt_setCore_same, queueAt_setQueue_ecc]
    · rw [coreAt_setCore_same]
      exact (queueAt_setQueue ..).trans (if_neg hr)

theorem HeadLeft.kept {k k' : Core} (h : HeadLeft k k') :
    k'.pool.rows = k.pool.rows ∧ k'.flow = k.flow ∧ k'.sync = k.sync ∧ k'.ctxs = k.ctxs := by
  rw [HeadLeft] at h
  rw [h]
  exact ⟨rfl, rfl, rfl, rfl⟩

theorem leaveHead_restKept (s : State) (p l q ready : Nat) : RestKept s (leaveHead s p l q ready) p := by
  obtain ⟨rows, flow, _, _⟩ := (leaveHead_headLeft s p l q ready).kept
  obtain ⟨_, others, _⟩ := leaveHead_leaves s p l q ready
  exact .of_core rows flow others (leaveHead_oneQueue s p l q ready).news (leaveHead_queueKept s p l q ready).records

/-! The end of a sleeping command. -/

/-- What falls due when a sleeping command of queue q completes in cycle e with a status: its done flag, in the next cycle, if it is
DONE (R301, R304). -/
def endDue (q e : Nat) (w : Sleep) (st : Status) : List Due :=
  if st = .done ∧ w.cmd.doneEn = true then
    [{ cycle := e + 1, clear := false, flag := w.cmd.doneFlag, setter := setterOf q, ctx := w.ctx, slot := w.slot,
       track := w.track }]
  else []

/-- A sleeping command w of queue q no longer sleeps: it completes in cycle e with a status (R301, R302). -/
def awakened (s : State) (p q e : Nat) (st : Status) (w : Sleep) : State :=
  report (endTrack (updQueue s p q fun x => { x with sleep := none }) p w.track
    (if w.cmd.doneEn && st == .done then e + 1 else e) e st) st

/-- Besides, its done flag falls due, or it is retired, before it leaves the head (R304, R355). -/
def completed (s : State) (p l q e : Nat) (st : Status) (w : Sleep) : State :=
  if st = .done then
    dueDone (awakened s p q e st w) p e w.cmd.doneEn w.cmd.doneFlag (setterOf q) w.ctx w.slot w.track
  else retire (awakened s p q e st w) p l q w.slot 6 st

theorem endSleep_none {s : State} {p q : Nat} (h : (queueAt (coreAt s p) q).sleep = none) (l c : Nat) (st : Status) (woken : Bool) :
    endSleep s p l q c st woken = s := by
  simp only [endSleep, h]

theorem endSleep_some {s : State} {p q : Nat} {w : Sleep} (h : (queueAt (coreAt s p) q).sleep = some w) (l c : Nat) (st : Status)
    (woken : Bool) : endSleep s p l q c st woken =
      leaveHead (completed s p l q (if woken then c + 4 else c) st w) p l q (if woken then c + 6 else c + 1) := by
  simp only [endSleep, h]
  rfl

theorem coreAt_awakened (s : State) (p q e : Nat) (st : Status) (w : Sleep) : ∃ track, coreAt (awakened s p q e st w) p =
    { setQueue (coreAt s p) q { queueAt (coreAt s p) q with sleep := none } with track := track } := by
  rw [awakened, coreAt_report, endTrack, updTrack, coreAt_updCore_same, coreAt_updQueue_same]
  exact ⟨_, rfl⟩

theorem queueAt_awakened (s : State) (p q e : Nat) (st : Status) (w : Sleep) (r : Nat) :
    queueAt (coreAt (awakened s p q e st w) p) r =
      if r = q then { queueAt (coreAt s p) q with sleep := none } else queueAt (coreAt s p) r := by
  obtain ⟨track, awake⟩ := coreAt_awakened s p q e st w
  rw [awake]
  exact queueAt_setQueue ..

theorem awakened_restKept (s : State) (p q e : Nat) (st : Status) (w : Sleep) : RestKept s (awakened s p q e st w) p := by
  unfold awakened endTrack updTrack updQueue
  exact ((updCore_restKept rfl rfl).trans (updCore_restKept rfl rfl)).trans (report_restKept ..)

/-- From s to t, the command w asleep on queue q of core p has completed in cycle e with a status: its queue stops if it must, its done
flag falls due if it may, and the core's sync unit and its other queues keep the rest. -/
structure Woke (s t : State) (p q e : Nat) (w : Sleep) (st : Status) : Prop where
  answer : t.answer = st
  rest : RestKept s t p
  sync : (coreAt t p).sync = { (coreAt s p).sync with due := (coreAt s p).sync.due ++ endDue q e w st }
  sleep : (queueAt (coreAt t p) q).sleep = none
  queues : ∀ r, r ≠ q → queueAt (coreAt t p) r = queueAt (coreAt s p) r
  stopped : st ≠ .done → (queueAt (coreAt s p) q).state = 1 → (queueAt (coreAt s p) q).onFail = false →
    (queueAt (coreAt t p) q).state = 2

theorem failedQueue_sleep_nextSlot (x : Queue) (slot kind : Nat) (st : Status) :
    (failedQueue x slot kind st).sleep = x.sleep ∧ (failedQueue x slot kind st).nextSlot = x.nextSlot := by
  have noted : (noteFail x slot kind st).sleep = x.sleep ∧ (noteFail x slot kind st).nextSlot = x.nextSlot :=
    ⟨noteFail_sleep .., (noteFail_keeps_head ..).2⟩
  unfold failedQueue
  dsimp only
  split <;> exact noted

theorem retire_restKept (s : State) (p l q slot kind : Nat) (st : Status) : RestKept s (retire s p l q slot kind st) p := by
  unfold retire updQueue
  exact (logCore_restKept ..).trans (updCore_restKept rfl rfl)

theorem dueDone_restKept (s : State) (p c : Nat) (en : Bool) (flag setter ctx slot track : Nat) :
    RestKept s (dueDone s p c en flag setter ctx slot track) p := by
  unfold dueDone
  split
  · exact updCore_restKept rfl rfl
  · exact .refl s p

/-- A done flag falls due of a command that completes with DONE (R304). -/
theorem dueDone_of_sleep (s : State) (p q e : Nat) (w : Sleep) :
    coreAt (dueDone s p e w.cmd.doneEn w.cmd.doneFlag (setterOf q) w.ctx w.slot w.track) p =
      { coreAt s p with sync := { (coreAt s p).sync with due := (coreAt s p).sync.due ++ endDue q e w .done } } ∧
    (dueDone s p e w.cmd.doneEn w.cmd.doneFlag (setterOf q) w.ctx w.slot w.track).answer = s.answer := by
  unfold dueDone endDue
  cases w.cmd.doneEn with
  | true => exact ⟨by rw [if_pos rfl, addDue, coreAt_updCore_same]; rfl, rfl⟩
  | false => exact ⟨by simp, rfl⟩

/-- A command that completes with DONE sets its done flag (R301, R304). -/
theorem completed_done (s : State) (p l q e : Nat) (w : Sleep) :
    Woke s (completed s p l q e .done w) p q e w .done ∧
    (queueAt (coreAt (completed s p l q e .done w) p) q).nextSlot = (queueAt (coreAt s p) q).nextSlot := by
  obtain ⟨track, awake⟩ := coreAt_awakened s p q e .done w
  obtain ⟨core, answer⟩ := dueDone_of_sleep (awakened s p q e .done w) p q e w
  have rest := (awakened_restKept s p q e .done w).trans (dueDone_restKept _ p e w.cmd.doneEn w.cmd.doneFlag (setterOf q) w.ctx
    w.slot w.track)
  obtain ⟨t, ht⟩ : ∃ t, t = completed s p l q e .done w := ⟨_, rfl⟩
  rw [← show t = _ from ht.trans (if_pos rfl)] at core answer rest
  have queues (r : Nat) : queueAt (coreAt t p) r =
      if r = q then { queueAt (coreAt s p) q with sleep := none } else queueAt (coreAt s p) r := by
    rw [← queueAt_awakened s p q e .done w, core]
    rfl
  rw [← ht]
  refine ⟨⟨answer, rest, ?_, ?_, fun r hr => by rw [queues, if_neg hr], fun h => absurd rfl h⟩, by rw [queues, if_pos rfl]⟩
  · rw [core, awake]
    rfl
  · rw [queues, if_pos rfl]

/-- A command that completes with another status is retired (R302, R355). -/
theorem completed_failed (s : State) (p l q e : Nat) {st : Status} (hd : st ≠ .done) (w : Sleep) :
    Woke s (completed s p l q e st w) p q e w st ∧
    (queueAt (coreAt (completed s p l q e st w) p) q).nextSlot = (queueAt (coreAt s p) q).nextSlot := by
  obtain ⟨track, awake⟩ := coreAt_awakened s p q e st w
  have core := coreAt_retire (awakened s p q e st w) p l q w.slot 6 st
  rw [queueAt_awakened, if_pos rfl] at core
  obtain ⟨sleep, nextSlot⟩ := failedQueue_sleep_nextSlot { queueAt (coreAt s p) q with sleep := none } w.slot 6 st
  rw [completed, if_neg hd]
  refine ⟨⟨rfl, (awakened_restKept ..).trans (retire_restKept ..), ?_, ?_, fun r hr => ?_, fun _ running onFail => ?_⟩, ?_⟩
  · rw [core, awake, endDue, if_neg fun h => hd h.1, List.append_nil]
    rfl
  · rw [core, queueAt_setQueue_same, sleep]
  · rw [core, queueAt_setQueue, if_neg hr, queueAt_awakened, if_neg hr]
  · obtain ⟨_, state, _⟩ := failedQueue_fields (x := { queueAt (coreAt s p) q with sleep := none }) running w.slot 6 st
    rw [core, queueAt_setQueue_same, state]
    exact if_neg (by rw [onFail]; exact Bool.false_ne_true)
  · rw [core, queueAt_setQueue_same, nextSlot]

theorem completed_woke (s : State) (p l q e : Nat) (st : Status) (w : Sleep) :
    Woke s (completed s p l q e st w) p q e w st ∧
    (queueAt (coreAt (completed s p l q e st w) p) q).nextSlot = (queueAt (coreAt s p) q).nextSlot := by
  by_cases hd : st = .done
  · subst hd
    exact completed_done ..
  · exact completed_failed s p l q e hd w

/-- A command that has completed leaves the head. -/
theorem Woke.leaveHead {s t : State} {p q e : Nat} {w : Sleep} {st : Status} (h : Woke s t p q e w st) (l ready : Nat) :
    Woke s (leaveHead t p l q ready) p q e w st := by
  obtain ⟨_, _, sync, _⟩ := (leaveHead_headLeft t p l q ready).kept
  obtain ⟨sleep, queues, _, _⟩ := leaveHead_oneQueue t p l q ready
  obtain ⟨_, _, answer⟩ := leaveHead_leaves t p l q ready
  exact ⟨answer.trans h.answer, h.rest.trans (leaveHead_restKept ..), sync.trans h.sync, sleep.trans h.sleep,
    fun r hr => (queues r hr).trans (h.queues r hr),
    fun hs running onFail => (leaveHead_queueKept ..).fail.stopped (h.stopped hs running onFail)⟩

/-- From s to t, the command w asleep on queue q of core p has ended with a status: it completed in cycle e, and the next command of its
queue, if it stands in the same row, may decode from cycle ready on (R301, R347). -/
structure SleepEnds (s t : State) (p q e ready : Nat) (w : Sleep) (st : Status) : Prop where
  woke : Woke s t p q e w st
  next : (queueAt (coreAt t p) q).nextSlot =
    if (queueAt (coreAt s p) q).nextSlot = 15 then 0 else (queueAt (coreAt s p) q).nextSlot + 1
  ready : (queueAt (coreAt s p) q).nextSlot ≠ 15 → (queueAt (coreAt t p) q).ready = ready

theorem endSleep_ends {s : State} {p q : Nat} {w : Sleep} (h : (queueAt (coreAt s p) q).sleep = some w) (l c : Nat) (st : Status)
    (woken : Bool) : SleepEnds s (endSleep s p l q c st woken) p q (if woken then c + 4 else c) (if woken then c + 6 else c + 1)
      w st := by
  obtain ⟨woke, next⟩ := completed_woke s p l q (if woken then c + 4 else c) st w
  rw [endSleep_some h]
  refine ⟨woke.leaveHead .., ?_, fun h15 => ?_⟩
  · obtain ⟨part, _, _⟩ := leaveHead_leaves (completed s p l q (if woken then c + 4 else c) st w) p l q
      (if woken then c + 6 else c + 1)
    simp only [headPart, Prod.mk.injEq] at part
    obtain ⟨_, _, _, _, _, slot, _⟩ := part
    rw [slot, next]
  · obtain ⟨ecc, left⟩ := leaveHead_next (by rwa [next]) l (if woken then c + 6 else c + 1)
    rw [left, coreAt_setCore_same, queueAt_setQueue_ecc]

/-- The completion of a sleeping command changes neither its core's contexts nor the Chimney slots. -/
theorem completed_beside (s : State) (p l q e : Nat) (st : Status) (w : Sleep) :
    (coreAt (completed s p l q e st w) p).ctxs = (coreAt s p).ctxs ∧ (completed s p l q e st w).slots = s.slots := by
  obtain ⟨track, awake⟩ := coreAt_awakened s p q e st w
  have ctxs : (coreAt (awakened s p q e st w) p).ctxs = (coreAt s p).ctxs := by
    rw [awake]
    rfl
  unfold completed
  split
  · refine ⟨Eq.trans ?_ ctxs, ?_⟩
    · unfold dueDone
      split
      · rw [addDue, coreAt_updCore_same]
      · rfl
    · unfold dueDone
      split <;> rfl
  · refine ⟨Eq.trans ?_ ctxs, rfl⟩
    rw [coreAt_retire, setQueue_ctxs]

/-- Nor does its end. -/
theorem endSleep_beside (s : State) (p l q c : Nat) (st : Status) (woken : Bool) :
    (coreAt (endSleep s p l q c st woken) p).ctxs = (coreAt s p).ctxs ∧ (endSleep s p l q c st woken).slots = s.slots := by
  cases h : (queueAt (coreAt s p) q).sleep with
  | none => rw [endSleep_none h]; exact ⟨rfl, rfl⟩
  | some w =>
    rw [endSleep_some h]
    obtain ⟨u, hu⟩ : ∃ u, u = completed s p l q (if woken then c + 4 else c) st w := ⟨_, rfl⟩
    obtain ⟨ctxs, slots⟩ := completed_beside s p l q (if woken then c + 4 else c) st w
    obtain ⟨_, _, _, ctxs'⟩ := (leaveHead_headLeft u p l q (if woken then c + 6 else c + 1)).kept
    obtain ⟨_, _, slots', _⟩ := leaveHead_oneQueue u p l q (if woken then c + 6 else c + 1)
    rw [← hu] at ctxs slots ⊢
    exact ⟨ctxs'.trans ctxs, slots'.trans slots⟩

end Sys2Proof.Machine
end

section
/-!
PROOFS. The outcome of a Chimney slot reaches the contexts of a core, and an arrival at a slot (R200, R203, R317, R318, R321, R322).
-/

namespace Sys2Proof.Machine

/-! Updates of the contexts of a core. -/

/-- From s to t, core p changes in its contexts, and in the marks of its registers that the part has changed (R9), alone. -/
structure CtxsOnly (s t : State) (p : Nat) : Prop where
  core : coreAt t p = { coreAt s p with ctxs := (coreAt t p).ctxs, hw := (coreAt t p).hw }
  rest : RestKept s t p
  answer : t.answer = s.answer

theorem CtxsOnly.refl (s : State) (p : Nat) : CtxsOnly s s p := ⟨rfl, .refl s p, rfl⟩

theorem CtxsOnly.trans {s t u : State} {p : Nat} (h : CtxsOnly s t p) (k : CtxsOnly t u p) : CtxsOnly s u p := by
  refine ⟨?_, h.rest.trans k.rest, k.answer.trans h.answer⟩
  rw [k.core, h.core]

theorem CtxsOnly.sync {s t : State} {p : Nat} (h : CtxsOnly s t p) : (coreAt t p).sync = (coreAt s p).sync := by rw [h.core]

theorem CtxsOnly.queueAt {s t : State} {p : Nat} (h : CtxsOnly s t p) (q : Nat) :
    queueAt (coreAt t p) q = queueAt (coreAt s p) q := by
  rw [h.core]
  rfl

theorem CtxsOnly.sleepsOn {s t : State} {p : Nat} (h : CtxsOnly s t p) (q slot cx : Nat) :
    sleepsOn (coreAt t p) q slot cx = sleepsOn (coreAt s p) q slot cx := by
  rw [Machine.sleepsOn, h.queueAt]
  rfl

/-- From s to t, besides, context cx of core p has become x, and the Chimney slots are as they were. -/
structure CtxSet (s t : State) (p cx : Nat) (x : Ctx) : Prop where
  only : CtxsOnly s t p
  own : ctxAt (coreAt t p) cx = x
  others : ∀ i, i ≠ cx → ctxAt (coreAt t p) i = ctxAt (coreAt s p) i
  slots : t.slots = s.slots

/-- From s to t, the part's marks of changed registers of core p change alone (R9). -/
structure Marked (s t : State) (p : Nat) : Prop where
  core : coreAt t p = { coreAt s p with hw := (coreAt t p).hw }
  rest : RestKept s t p
  answer : t.answer = s.answer
  slots : t.slots = s.slots

theorem Marked.refl (s : State) (p : Nat) : Marked s s p := ⟨rfl, .refl s p, rfl, rfl⟩

theorem Marked.trans {s t u : State} {p : Nat} (h : Marked s t p) (k : Marked t u p) : Marked s u p := by
  refine ⟨?_, h.rest.trans k.rest, k.answer.trans h.answer, k.slots.trans h.slots⟩
  rw [k.core, h.core]

theorem markHw_marked (s : State) (p off : Nat) : Marked s (markHw s p off) p := by
  refine ⟨?_, updCore_restKept rfl rfl, rfl, rfl⟩
  rw [markHw, coreAt_updCore_same]

theorem markVerdict_marked (s : State) (p cx : Nat) (x y : Ctx) : Marked s (markVerdict s p cx x y) p := by
  have one (c : Prop) [Decidable c] (t : State) (off : Nat) : Marked t (if c then t else markHw t p off) p := by
    split
    · exact .refl t p
    · exact markHw_marked t p off
  exact ((markHw_marked s p _).trans (one ..)).trans (one ..)

/-- An update of a context of whose registers the part marks what it changes if it is a verdict's (R9, R208). -/
def updVerdict (s : State) (p cx : Nat) (verdict : Bool) (x y : Ctx) : State :=
  updCore (if verdict then markVerdict s p cx x y else s) p fun k => setCtx k cx y

theorem verdictMark_marked (s : State) (p cx : Nat) (verdict : Bool) (x y : Ctx) :
    Marked s (if verdict then markVerdict s p cx x y else s) p := by
  split
  · exact markVerdict_marked ..
  · exact .refl s p

theorem updVerdict_ctxSet (s : State) (p cx : Nat) (verdict : Bool) (x y : Ctx) : CtxSet s (updVerdict s p cx verdict x y) p cx y := by
  obtain ⟨core, rest, answer, slots⟩ := verdictMark_marked s p cx verdict x y
  obtain ⟨u, hu⟩ : ∃ u, u = if verdict then markVerdict s p cx x y else s := ⟨_, rfl⟩
  rw [← hu] at core rest answer slots
  rw [updVerdict, ← hu]
  refine ⟨⟨?_, rest.trans (updCore_restKept rfl rfl), answer⟩, ?_, fun i hi => ?_, slots⟩
  · rw [coreAt_updCore_same, core]
    rfl
  · rw [coreAt_updCore_same, ctxAt_setCtx_same]
  · rw [coreAt_updCore_same, ctxAt_setCtx, if_neg hi, core]
    rfl

/-! The outcome at one context. -/

/-- The unreleased arrival of a context that an outcome meets (R318, R322). -/
def metPart (x : Ctx) (n : SlotNews) : Option Part :=
  x.parts.find? fun a => a.slot == n.slot && (n.how == 2 || a.parity == n.parity)

/-- A context whose arrival a has ended (R318). -/
def withoutPart (x : Ctx) (a : Part) : Ctx := { x with parts := x.parts.erase a }

/-- Besides, the outcome that ended it is recorded (R318, R339). -/
def recordEnd (x : Ctx) (n : SlotNews) (a : Part) : Ctx := recordRel (withoutPart x a) n.slot n.how n.orp n.andp

/-- A context that an outcome has reached (R203, R318, R321, R322). -/
def toldCtx (x : Ctx) (n : SlotNews) : Ctx :=
  match metPart x n with
  | none => x
  | some a =>
    if a.out then (if n.how = 1 then withoutPart x a else recordEnd x n a)
    else if a.verdict then verdictUpdate (recordEnd x n a) n.orp n.andp n.how else recordEnd x n a

theorem toldCtx_none {x : Ctx} {n : SlotNews} (h : metPart x n = none) : toldCtx x n = x := by simp only [toldCtx, h]

theorem toldCtx_some {x : Ctx} {n : SlotNews} {a : Part} (h : metPart x n = some a) : toldCtx x n =
    if a.out then (if n.how = 1 then withoutPart x a else recordEnd x n a)
    else if a.verdict then verdictUpdate (recordEnd x n a) n.orp n.andp n.how else recordEnd x n a := by
  simp only [toldCtx, h]

/-- A context's arrival meets an outcome before its timeout (R321). -/
def metInTime (x : Ctx) (n : SlotNews) : Bool :=
  x.parts.any fun a => a.slot == n.slot && !a.out && (n.how == 2 || a.parity == n.parity)

theorem metInTime_of_metPart {x : Ctx} {n : SlotNews} {a : Part} (h : metPart x n = some a) (ho : a.out = false) :
    metInTime x n = true := by
  have met := List.find?_some h
  refine List.any_eq_true.mpr ⟨a, List.mem_of_find?_eq_some h, ?_⟩
  simpa [ho] using met

/-- An outcome ends the arrival that it meets; neither the verdict nor CORE_SYNC_REL holds an arrival or a parity. -/
theorem toldCtx_parts {x : Ctx} {n : SlotNews} {a : Part} (h : metPart x n = some a) :
    (toldCtx x n).parts = x.parts.erase a ∧ (toldCtx x n).parity = x.parity := by
  have verdict (y : Ctx) : (verdictUpdate y n.orp n.andp n.how).parts = y.parts ∧
      (verdictUpdate y n.orp n.andp n.how).parity = y.parity := by
    unfold verdictUpdate
    dsimp only
    repeat' split
    all_goals exact ⟨rfl, rfl⟩
  rw [toldCtx_some h]
  split
  · split <;> exact ⟨rfl, rfl⟩
  · split
    · exact verdict _
    · exact ⟨rfl, rfl⟩

theorem outcomeCtx_none {s : State} {p cx : Nat} {n : SlotNews} (h : metPart (ctxAt (coreAt s p) cx) n = none) (l : Nat) :
    outcomeCtx s p l cx n = s := by
  unfold metPart at h
  simp only [outcomeCtx, h]

theorem outcomeCtx_some {s : State} {p cx : Nat} {n : SlotNews} {a : Part} (h : metPart (ctxAt (coreAt s p) cx) n = some a)
    (l : Nat) : outcomeCtx s p l cx n =
      if a.out then
        if n.how = 1 then
          logCore (updCore s p fun k => setCtx k cx (toldCtx (ctxAt (coreAt s p) cx) n)) 5 .done l false [(1, n.slot), (1, cx)]
        else updCore s p fun k => setCtx k cx (toldCtx (ctxAt (coreAt s p) cx) n)
      else updVerdict s p cx a.verdict (recordEnd (ctxAt (coreAt s p) cx) n a) (toldCtx (ctxAt (coreAt s p) cx) n) := by
  rw [toldCtx_some h]
  unfold metPart at h
  simp only [outcomeCtx, h]
  split
  · split <;> rfl
  · rfl

theorem outcomeCtx_told (s : State) (p l cx : Nat) (n : SlotNews) :
    CtxSet s (outcomeCtx s p l cx n) p cx (toldCtx (ctxAt (coreAt s p) cx) n) := by
  have plain (y : Ctx) : CtxSet s (updCore s p fun k => setCtx k cx y) p cx y := updVerdict_ctxSet s p cx false y y
  cases h : metPart (ctxAt (coreAt s p) cx) n with
  | none =>
    rw [outcomeCtx_none h, toldCtx_none h]
    exact ⟨.refl s p, rfl, fun _ _ => rfl, rfl⟩
  | some a =>
    rw [outcomeCtx_some h]
    split
    · split
      · obtain ⟨⟨core, rest, answer⟩, own, others, slots⟩ := plain (toldCtx (ctxAt (coreAt s p) cx) n)
        exact ⟨⟨core, rest.trans (logCore_restKept ..), answer⟩, own, others, slots⟩
      · exact plain _
    · exact updVerdict_ctxSet ..

/-- A release of an arrival that had timed out is logged (R321). -/
theorem outcomeCtx_logged {s : State} {p cx : Nat} {n : SlotNews} {a : Part} (h : metPart (ctxAt (coreAt s p) cx) n = some a)
    (ho : a.out = true) (hn : n.how = 1) (l : Nat) :
    ∃ r, r ∈ (outcomeCtx s p l cx n).log.fresh ∧ r.cls = 5 ∧ r.body = [(1, n.slot), (1, cx)] := by
  rw [outcomeCtx_some h, if_pos ho, if_pos hn]
  exact ⟨_, mem_insertLog.mpr (.inl rfl), rfl, rfl⟩

/-! An arrival. -/

/-- A context that has arrived at a slot in cycle c (R200, R317). -/
def arrivedCtx (x : Ctx) (y : SyncCmd) (c : Nat) : Ctx :=
  { x with
    parity := if x.parity.contains y.slot then setErase x.parity y.slot else setInsert x.parity y.slot,
    arrived := setInsert x.arrived y.slot,
    parts := x.parts ++ [arrivalOf y (x.parity.contains y.slot) c],
    stepNar := x.stepNar && !y.verdict,
    vstate := if y.verdict then 1 else x.vstate }

/-- A slot with one more arrival of a parity (R317). -/
def addArrival (z : Slot) (par : Nat) (a : Nat × Nat × Bool) : Slot := setSlotArr z par (slotArr z par ++ [a])

theorem length_addArrival (z : Slot) (par : Nat) (a : Nat × Nat × Bool) :
    (slotArr (addArrival z par a) par).length = (slotArr z par).length + 1 := by
  unfold addArrival slotArr setSlotArr
  split <;> simp

theorem arriveNow_eq (s : State) (p l c cx : Nat) (y : SyncCmd) : ∃ orp, arriveNow s p l c cx y =
    updSlot (updVerdict s p cx y.verdict (arrivedCtx (ctxAt (coreAt s p) cx) y c) (arrivedCtx (ctxAt (coreAt s p) cx) y c)) y.slot
      fun z => addArrival z (b2n ((ctxAt (coreAt s p) cx).parity.contains y.slot)) (l * 4 + cx, orp, y.andPl) := ⟨_, rfl⟩

/-- An arrival enters its context and, with its parity, its slot (R317). -/
theorem arriveNow_arrived (s : State) (p l c cx : Nat) (y : SyncCmd) :
    CtxsOnly s (arriveNow s p l c cx y) p ∧
    ctxAt (coreAt (arriveNow s p l c cx y) p) cx = arrivedCtx (ctxAt (coreAt s p) cx) y c ∧
    (slotArr (slotAt (arriveNow s p l c cx y) y.slot) (b2n ((ctxAt (coreAt s p) cx).parity.contains y.slot))).length =
      (slotArr (slotAt s y.slot) (b2n ((ctxAt (coreAt s p) cx).parity.contains y.slot))).length + 1 := by
  obtain ⟨orp, eq⟩ := arriveNow_eq s p l c cx y
  obtain ⟨⟨core, rest, answer⟩, own, _, slots⟩ := updVerdict_ctxSet s p cx y.verdict (arrivedCtx (ctxAt (coreAt s p) cx) y c)
    (arrivedCtx (ctxAt (coreAt s p) cx) y c)
  rw [eq]
  refine ⟨⟨core, rest.trans (.of_cores p rfl rfl fun _ h => h), answer⟩, own, ?_⟩
  rw [slotAt_updSlot_same, length_addArrival, slotAt, slots]
  rfl

end Sys2Proof.Machine
end

section
/-!
PROOFS. The outcome of a Chimney slot reaches a core: its contexts in turn, and the command asleep on the slot (R317, R318, R321, R322,
R333).
-/

namespace Sys2Proof.Machine

/-! One context and its sleepers. -/

/-- An outcome reaches one context of a core in cycle c, and the commands asleep for it (R317, R318, R322). -/
def outcomeStep (p l c : Nat) (n : SlotNews) (s : State) (cx : Nat) : State :=
  (List.range 4).foldl (fun t q => outcomeQueue t p l c q cx n (metInTime (ctxAt (coreAt s p) cx) n)) (outcomeCtx s p l cx n)

/-- A break is seen in the status (R322). -/
def noteBreak (s : State) (p how : Nat) : State :=
  if how = 2 then updCore s p fun k => { k with sync := { k.sync with brokenSeen := true } } else s

theorem coreAt_noteBreak (s : State) (p how : Nat) : coreAt (noteBreak s p how) p =
    { coreAt s p with sync := { (coreAt s p).sync with brokenSeen := (coreAt s p).sync.brokenSeen || how == 2 } } := by
  unfold noteBreak
  split
  · next h => rw [coreAt_updCore_same, h]; simp
  · next h => rw [beq_eq_false_iff_ne.mpr h, Bool.or_false]

theorem noteBreak_restKept (s : State) (p how : Nat) : RestKept s (noteBreak s p how) p := by
  unfold noteBreak
  split
  · exact updCore_restKept rfl rfl
  · exact .refl s p

theorem noteBreak_slots (s : State) (p how : Nat) : (noteBreak s p how).slots = s.slots := by
  unfold noteBreak
  split <;> rfl

theorem outcomeReaches_eq {s : State} {p c : Nat} (h : Current (coreAt s p) c) (l : Nat) (n : SlotNews) :
    outcomeReaches s p l c n = (List.range 4).foldl (outcomeStep p l c n) (noteBreak s p n.how) := by
  rw [outcomeReaches, catchUp_of_current h]
  rfl

theorem outcomeQueue_awake {s : State} {p q cx : Nat} {n : SlotNews} (h : sleepsOn (coreAt s p) q n.slot cx = none) (l c : Nat)
    (hit : Bool) : outcomeQueue s p l c q cx n hit = s := by
  simp only [outcomeQueue, h]

/-- Where no command is asleep on the slot for a context, the outcome is the context's alone. -/
theorem outcomeStep_awake {s : State} {p cx : Nat} {n : SlotNews} (h : ∀ q, sleepsOn (coreAt s p) q n.slot cx = none) (l c : Nat) :
    outcomeStep p l c n s cx = outcomeCtx s p l cx n :=
  List.foldl_fixed' (fun q => outcomeQueue_awake (((outcomeCtx_told s p l cx n).only.sleepsOn ..).trans (h q)) ..) _

/-- From s to t, an outcome has reached the contexts cs of core p, and nothing else of the core but its register marks changed. -/
structure CtxsTold (s t : State) (p : Nat) (n : SlotNews) (cs : List Nat) : Prop where
  only : CtxsOnly s t p
  slots : t.slots = s.slots
  told : ∀ cx, cx ∈ cs → ctxAt (coreAt t p) cx = toldCtx (ctxAt (coreAt s p) cx) n
  others : ∀ cx, cx ∉ cs → ctxAt (coreAt t p) cx = ctxAt (coreAt s p) cx
  logged : ∀ cx a, cx ∈ cs → metPart (ctxAt (coreAt s p) cx) n = some a → a.out = true → n.how = 1 →
    ∃ r, r ∈ t.log.fresh ∧ r.cls = 5 ∧ r.body = [(1, n.slot), (1, cx)]

theorem outcomeSteps_awake {p : Nat} {n : SlotNews} {cs : List Nat} (nodup : cs.Nodup) {s : State}
    (h : ∀ cx q, cx ∈ cs → sleepsOn (coreAt s p) q n.slot cx = none) (l c : Nat) :
    CtxsTold s (cs.foldl (outcomeStep p l c n) s) p n cs := by
  induction cs generalizing s with
  | nil => exact ⟨.refl s p, rfl, fun _ h => (List.not_mem_nil h).elim, fun _ _ => rfl, fun _ _ h => (List.not_mem_nil h).elim⟩
  | cons d cs ih =>
    obtain ⟨notin, nodup⟩ := List.nodup_cons.mp nodup
    obtain ⟨only, own, others, slots⟩ := outcomeCtx_told s p l d n
    rw [List.foldl_cons, outcomeStep_awake (fun q => h d q (.head _))]
    obtain ⟨only', slots', told', others', logged'⟩ :=
      ih nodup (s := outcomeCtx s p l d n) fun cx q hc => (only.sleepsOn ..).trans (h cx q (.tail _ hc))
    have before {cx : Nat} (hc : cx ∈ cs) : ctxAt (coreAt (outcomeCtx s p l d n) p) cx = ctxAt (coreAt s p) cx :=
      others cx fun e => notin (e ▸ hc)
    refine ⟨only.trans only', slots'.trans slots, fun cx hc => ?_, fun cx hc => ?_, fun cx a hc met ho hn => ?_⟩
    · rcases List.mem_cons.mp hc with rfl | hc
      · exact (others' cx notin).trans own
      · rw [told' cx hc, before hc]
    · obtain ⟨ne, hc⟩ := not_or.mp (mt List.mem_cons.mpr hc)
      exact (others' cx hc).trans (others cx ne)
    · rcases List.mem_cons.mp hc with rfl | hc
      · obtain ⟨r, hr, shown⟩ := outcomeCtx_logged met ho hn l
        exact ⟨r, only'.rest.records r hr, shown⟩
      · exact logged' cx a hc (by rwa [before hc]) ho hn

/-! A core one of whose commands is asleep. -/

/-- No queue of a core but q is asleep, and q for no context but cx. -/
structure AsleepFor (k : Core) (q cx : Nat) : Prop where
  others : ∀ r, r ≠ q → (queueAt k r).sleep = none
  own : ∀ w, (queueAt k q).sleep = some w → w.ctx = cx

theorem sleepsOn_of_awake {k : Core} {q : Nat} (h : (queueAt k q).sleep = none) (slot cx : Nat) : sleepsOn k q slot cx = none := by
  rw [sleepsOn, h]
  rfl

theorem asleep_of_sleepsOn {k : Core} {q slot cx : Nat} {w : Sleep} (h : sleepsOn k q slot cx = some w) :
    (queueAt k q).sleep = some w := (Option.filter_eq_some_iff.mp h).1

theorem AsleepFor.awake {k : Core} {q cx : Nat} (h : AsleepFor k q cx) {d : Nat} (hd : d ≠ cx) (r slot : Nat) :
    sleepsOn k r slot d = none := by
  by_cases e : r = q
  · subst e
    cases asleep : (queueAt k r).sleep with
    | none => exact sleepsOn_of_awake asleep ..
    | some w =>
      have own := h.own w asleep
      rw [sleepsOn, asleep, Option.filter_some, own]
      simp [Ne.symm hd]
  · exact sleepsOn_of_awake (h.others r e) ..

theorem AsleepFor.of_ctxsOnly {s t : State} {p q cx : Nat} (h : AsleepFor (coreAt s p) q cx) (k : CtxsOnly s t p) :
    AsleepFor (coreAt t p) q cx :=
  ⟨fun r hr => by rw [k.queueAt, h.others r hr], fun w hw => h.own w (by rwa [k.queueAt] at hw)⟩

theorem AsleepFor.endSleep {s : State} {p q cx : Nat} (h : AsleepFor (coreAt s p) q cx) (l c : Nat) (st : Status) (woken : Bool) :
    AsleepFor (coreAt (endSleep s p l q c st woken) p) q cx := by
  cases asleep : (queueAt (coreAt s p) q).sleep with
  | none => rwa [endSleep_none asleep]
  | some w =>
    obtain ⟨⟨_, _, _, sleep, queues, _⟩, _, _⟩ := endSleep_ends asleep l c st woken
    exact ⟨fun r hr => by rw [queues r hr, h.others r hr], fun v hv => by rw [sleep] at hv; cases hv⟩

/-- The command asleep on an outcome's slot ends, or sleeps on for the same context; no other queue takes part. -/
theorem AsleepFor.outcomeQueue {s : State} {p q cx : Nat} (h : AsleepFor (coreAt s p) q cx) (l c d : Nat) (n : SlotNews) (hit : Bool) :
    AsleepFor (coreAt (outcomeQueue s p l c q d n hit) p) q cx := by
  unfold Machine.outcomeQueue
  split
  · exact h
  · next w hw =>
    have arrived := h.of_ctxsOnly (arriveNow_arrived s p l c d w.cmd).1
    split
    · exact h.endSleep ..
    · split
      · split
        · exact h.endSleep ..
        · exact h
      · split
        · exact h
        · dsimp only
          split
          · refine ⟨fun r hr => ?_, fun v hv => ?_⟩
            · rw [coreAt_updQueue_same, queueAt_setQueue, if_neg hr, arrived.others r hr]
            · rw [coreAt_updQueue_same, queueAt_setQueue_same] at hv
              cases hv
              exact h.own w (asleep_of_sleepsOn hw)
          · exact arrived.endSleep ..

theorem mem_split_nodup {l : List Nat} (nodup : l.Nodup) {x : Nat} (h : x ∈ l) :
    ∃ as bs, l = as ++ x :: bs ∧ x ∉ as ∧ x ∉ bs ∧ as.Nodup ∧ bs.Nodup := by
  obtain ⟨as, bs, rfl⟩ := List.append_of_mem h
  obtain ⟨na, nb, apart⟩ := List.nodup_append.mp nodup
  obtain ⟨hb, nb⟩ := List.nodup_cons.mp nb
  exact ⟨as, bs, rfl, fun ha => apart x ha x (.head _) rfl, hb, na, nb⟩

/-- Where one queue alone is asleep, the outcome at a context is the context's, then the queue's. -/
theorem outcomeStep_asleep {s : State} {p q cx : Nat} (hq : q < 4) (h : AsleepFor (coreAt s p) q cx) (l c : Nat) (n : SlotNews) :
    outcomeStep p l c n s cx =
      outcomeQueue (outcomeCtx s p l cx n) p l c q cx n (metInTime (ctxAt (coreAt s p) cx) n) := by
  have idle {t : State} (ht : AsleepFor (coreAt t p) q cx) (qs : List Nat) (notin : q ∉ qs) :
      qs.foldl (fun t r => outcomeQueue t p l c r cx n (metInTime (ctxAt (coreAt s p) cx) n)) t = t := by
    induction qs with
    | nil => rfl
    | cons r qs ih =>
      obtain ⟨ne, notin⟩ := not_or.mp (mt List.mem_cons.mpr notin)
      rw [List.foldl_cons, outcomeQueue_awake (sleepsOn_of_awake (ht.others r (Ne.symm ne)) ..), ih notin]
  have told := h.of_ctxsOnly (outcomeCtx_told s p l cx n).only
  obtain ⟨as, bs, split, ha, hb, _, _⟩ := mem_split_nodup List.nodup_range (List.mem_range.mpr hq)
  rw [outcomeStep, split, List.foldl_append, List.foldl_cons, idle told as ha, idle (told.outcomeQueue ..) bs hb]

/-- An outcome reaches a core one of whose commands is asleep for context cx: up to that context, and from it on, contexts alone
change. -/
theorem outcomeSteps_asleep {s : State} {p q cx : Nat} (hq : q < 4) (hc : cx < 4) (h : AsleepFor (coreAt s p) q cx) (l c : Nat)
    (n : SlotNews) : ∃ u, CtxsOnly s u p ∧ u.slots = s.slots ∧ ctxAt (coreAt u p) cx = toldCtx (ctxAt (coreAt s p) cx) n ∧
      let v := outcomeQueue u p l c q cx n (metInTime (ctxAt (coreAt s p) cx) n)
      let t := (List.range 4).foldl (outcomeStep p l c n) s
      CtxsOnly v t p ∧ t.slots = v.slots ∧ ctxAt (coreAt t p) cx = ctxAt (coreAt v p) cx := by
  obtain ⟨as, bs, split, ha, hb, na, nb⟩ := mem_split_nodup List.nodup_range (List.mem_range.mpr hc)
  obtain ⟨only, slots, _, others, _⟩ := outcomeSteps_awake na (s := s) (n := n)
    (fun d r hd => h.awake (fun e => ha (e ▸ hd)) r n.slot) l c
  obtain ⟨u, hu⟩ : ∃ u, u = as.foldl (outcomeStep p l c n) s := ⟨_, rfl⟩
  rw [← hu] at only slots others
  have asleep := h.of_ctxsOnly only
  obtain ⟨told, own, _, kept⟩ := outcomeCtx_told u p l cx n
  have here := others cx ha
  refine ⟨outcomeCtx u p l cx n, only.trans told, kept.trans slots, by rw [own, here], ?_⟩
  have after := ((asleep.of_ctxsOnly told).outcomeQueue l c cx n (metInTime (ctxAt (coreAt s p) cx) n))
  obtain ⟨only', slots', _, others', _⟩ := outcomeSteps_awake nb (n := n)
    (fun d r hd => after.awake (fun e => hb (e ▸ hd)) r n.slot) l c
  dsimp only
  rw [split, List.foldl_append, List.foldl_cons, ← hu, outcomeStep_asleep hq asleep, here]
  exact ⟨only', slots', others' cx hb⟩

/-! What becomes of the command asleep on the slot. -/

section
variable {s : State} {p q cx : Nat} {n : SlotNews} {w : Sleep} (h : sleepsOn (coreAt s p) q n.slot cx = some w) (l c : Nat)
include h

theorem outcomeQueue_broken (hn : n.how = 2) (hit : Bool) : outcomeQueue s p l c q cx n hit = endSleep s p l q c .broken true := by
  simp only [outcomeQueue, h, hn, if_true]

theorem outcomeQueue_waits (hn : n.how ≠ 2) (hw : w.cmd.sop = 7 ∨ w.arrived = true) :
    outcomeQueue s p l c q cx n true = endSleep s p l q c .done true := by
  simp only [outcomeQueue, h, hn, hw, if_true, if_false]

theorem outcomeQueue_arrives (hn : n.how ≠ 2) (hw : ¬(w.cmd.sop = 7 ∨ w.arrived = true))
    (free : unreleased (ctxAt (coreAt s p) cx) n.slot = none) (hit : Bool) : outcomeQueue s p l c q cx n hit =
      if w.cmd.wait then
        updQueue (arriveNow s p l c cx w.cmd) p q fun x =>
          { x with sleep := some { w with arrived := true, deadline := c + 256 * w.cmd.units } }
      else endSleep (arriveNow s p l c cx w.cmd) p l q c .done true := by
  simp only [outcomeQueue, h, hn, hw, free, if_false, Option.isSome_none, Bool.false_eq_true]

end

/-- Changes of contexts before and after do not touch the end of a sleeping command. -/
theorem SleepEnds.around {s u v t : State} {p q e ready : Nat} {w : Sleep} {st : Status} (h : CtxsOnly s u p)
    (k : SleepEnds u v p q e ready w st) (m : CtxsOnly v t p) : SleepEnds s t p q e ready w st := by
  obtain ⟨⟨answer, rest, sync, sleep, queues, stopped⟩, next, later⟩ := k
  rw [h.queueAt] at stopped next later
  rw [h.sync] at sync
  refine ⟨⟨m.answer.trans answer, (h.rest.trans rest).trans m.rest, m.sync.trans sync, ?_, fun r hr => ?_, ?_⟩, ?_, ?_⟩
  · rw [m.queueAt, sleep]
  · rw [m.queueAt, queues r hr, h.queueAt]
  · rwa [m.queueAt]
  · rw [m.queueAt, next]
  · rwa [m.queueAt]

end Sys2Proof.Machine
end

section
/-!
PROOFS. RELEASE_REACHES_CORE and ARRIVE_TIMEOUT (R203, R301, R317, R318, R321, R322, R333, R339): OutcomeReachesCore.
-/

namespace Sys2Proof.Machine

/-! RELEASE_REACHES_CORE. -/

/-- An outcome is no longer on its way. -/
def dropNews (s : State) (w : SlotNews) : State := { s with news := s.news.erase w }

/-- An outcome has come to core p, and a break shows in its status, before its contexts hear of it (R322). -/
def heardAt (s : State) (p : Nat) (w : SlotNews) : State := noteBreak (dropNews s w) p w.how

theorem coreAt_heardAt (s : State) (p : Nat) (w : SlotNews) : coreAt (heardAt s p w) p =
    { coreAt s p with sync := { (coreAt s p).sync with brokenSeen := (coreAt s p).sync.brokenSeen || w.how == 2 } } :=
  coreAt_noteBreak (dropNews s w) p w.how

theorem queueAt_heardAt (s : State) (p : Nat) (w : SlotNews) (q : Nat) :
    queueAt (coreAt (heardAt s p w) p) q = queueAt (coreAt s p) q := by
  rw [coreAt_heardAt]
  rfl

theorem ctxAt_heardAt (s : State) (p : Nat) (w : SlotNews) (cx : Nat) :
    ctxAt (coreAt (heardAt s p w) p) cx = ctxAt (coreAt s p) cx := by
  rw [coreAt_heardAt]
  rfl

theorem slots_heardAt (s : State) (p : Nat) (w : SlotNews) : (heardAt s p w).slots = s.slots := noteBreak_slots (dropNews s w) p w.how

theorem heardAt_kept (s : State) (p : Nat) (w : SlotNews) :
    MemoryKept s (heardAt s p w) p ∧ OthersKept s (heardAt s p w) p ∧ (heardAt s p w).news = s.news.erase w := by
  obtain ⟨memory, others, news, _⟩ := noteBreak_restKept (dropNews s w) p w.how
  exact ⟨memory, others, news⟩

theorem exec_release_unheard {s : State} {l n : Nat} (h : s.news.find? (fun x => x.slot == n && x.core == l) = none) :
    exec (.releaseReachesCore l n) s = .next s := by
  change execReleaseReachesCore l n s = _
  simp only [execReleaseReachesCore, h]

section
variable {s : State} {l n : Nat} {w : SlotNews} (h : s.news.find? (fun x => x.slot == n && x.core == l) = some w)
include h

theorem slot_of_heard : w.slot = n := by
  have found := List.find?_some h
  simp only [Bool.and_eq_true, beq_iff_eq] at found
  exact found.1

theorem exec_release_unserved (hp : physOf s l = none) : exec (.releaseReachesCore l n) s = .next (dropNews s w) := by
  have served : physOf (dropNews s w) l = none := hp
  change execReleaseReachesCore l n s = _
  simp only [execReleaseReachesCore, h]
  rw [← dropNews, served]

theorem exec_release_inReset {p : Nat} (hp : physOf s l = some p) (hr : inReset s l = true) :
    exec (.releaseReachesCore l n) s = .next (heardAt s p w) := by
  have served : physOf (dropNews s w) l = some p := hp
  have held : inReset (dropNews s w) l = true := hr
  change execReleaseReachesCore l n s = _
  simp only [execReleaseReachesCore, h]
  rw [← dropNews, served]
  dsimp only
  rw [held]
  rfl

theorem exec_release_heard {p : Nat} (hp : physOf s l = some p) (hr : inReset s l = false) (hd : (coreAt s p).sync.due = [])
    (hc : Current (coreAt s p) (cycleOf s l)) : exec (.releaseReachesCore l n) s =
      .next ((List.range 4).foldl (outcomeStep p l (cycleOf s l) w) (heardAt s p w)) := by
  have served : physOf (dropNews s w) l = some p := hp
  have held : inReset (dropNews s w) l = false := hr
  have settled : settleSync (dropNews s w) p l (cycleOf s l) = dropNews s w :=
    settleTo_none_due (s := dropNews s w) hd ..
  change execReleaseReachesCore l n s = _
  simp only [execReleaseReachesCore, h]
  rw [← dropNews, served]
  dsimp only
  rw [held, if_neg Bool.false_ne_true]
  change Host.Outcome.next (outcomeReaches (settleSync (dropNews s w) p l (cycleOf s l)) p l (cycleOf s l) w) = _
  rw [settled, outcomeReaches_eq (s := dropNews s w) hc]
  rfl

end

/-- The end of the command asleep on the slot, once the outcome has come to its core, as its queue and its done flag show it. -/
theorem SleepEnds.shown {s t : State} {p q c : Nat} {n : SlotNews} {w : Sleep} {st : Status}
    (h : SleepEnds (heardAt s p n) t p q (c + 4) (c + 6) w st) (hd : (coreAt s p).sync.due = []) :
    t.answer = st ∧ (queueAt (coreAt t p) q).sleep = none ∧
    (queueAt (coreAt t p) q).nextSlot =
      (if (queueAt (coreAt s p) q).nextSlot = 15 then 0 else (queueAt (coreAt s p) q).nextSlot + 1) ∧
    ((queueAt (coreAt s p) q).nextSlot ≠ 15 → (queueAt (coreAt t p) q).ready = c + 6) ∧
    (coreAt t p).sync.due.map (fun d => (d.cycle, d.flag, d.clear)) =
      (if st = .done ∧ w.cmd.doneEn = true then [(c + 5, w.cmd.doneFlag, false)] else []) := by
  obtain ⟨⟨answer, _, sync, sleep, _, _⟩, next, ready⟩ := h
  rw [queueAt_heardAt] at next ready
  refine ⟨answer, sleep, next, ready, ?_⟩
  rw [sync, coreAt_heardAt]
  dsimp only
  rw [hd, endDue]
  split <;> rfl

/-- From s to t, the command z asleep on queue q of core p, an ARRIVE behind its context's arrival a, which has ended, has arrived in
cycle c: it waits in its turn, or ends (R317, R318). -/
structure ArrivedBehind (s t : State) (p q c : Nat) (z : Sleep) (a : Part) : Prop where
  rest : RestKept s t p
  goes : if z.cmd.wait then (queueAt (coreAt t p) q).sleep = some { z with arrived := true, deadline := c + 256 * z.cmd.units }
    else SleepEnds s t p q (c + 4) (c + 6) z .done
  parts : (ctxAt (coreAt t p) z.ctx).parts = (ctxAt (coreAt s p) z.ctx).parts.erase a ++
    [arrivalOf z.cmd ((ctxAt (coreAt s p) z.ctx).parity.contains z.cmd.slot) c]
  count : (slotArr (slotAt t z.cmd.slot) (b2n ((ctxAt (coreAt s p) z.ctx).parity.contains z.cmd.slot))).length =
    (slotArr (slotAt s z.cmd.slot) (b2n ((ctxAt (coreAt s p) z.ctx).parity.contains z.cmd.slot))).length + 1

/-- From s to t, an outcome has reached core p in cycle c, and with it the command z asleep on queue q, whose context's arrival a met
it in time (R317, R318, R322). -/
structure SleeperTold (s t : State) (p q c : Nat) (n : SlotNews) (z : Sleep) (a : Part) : Prop where
  broken : n.how = 2 → SleepEnds s t p q (c + 4) (c + 6) z .broken
  waits : n.how ≠ 2 → z.cmd.sop = 7 ∨ z.arrived = true → SleepEnds s t p q (c + 4) (c + 6) z .done
  arrives : n.how ≠ 2 → z.cmd.sop = 6 → z.arrived = false →
    (∀ b, b ∈ (ctxAt (coreAt s p) z.ctx).parts.erase a → b.slot ≠ n.slot) → ArrivedBehind s t p q c z a

theorem outcomeSteps_sleeper {s : State} {p q : Nat} {n : SlotNews} {z : Sleep} {a : Part} (hq : q < 4) (hc : z.ctx < 4)
    (asleep : (queueAt (coreAt s p) q).sleep = some z) (others : ∀ r, r ≠ q → (queueAt (coreAt s p) r).sleep = none)
    (hop : z.cmd.sop = 6 ∨ z.cmd.sop = 7) (hn : z.cmd.slot = n.slot) (met : metPart (ctxAt (coreAt s p) z.ctx) n = some a)
    (ho : a.out = false) (l c : Nat) :
    SleeperTold s ((List.range 4).foldl (outcomeStep p l c n) s) p q c n z a := by
  have one : AsleepFor (coreAt s p) q z.ctx := ⟨others, fun w hw => by rw [asleep] at hw; cases hw; rfl⟩
  obtain ⟨u, before, slots, own, after, slots', own'⟩ := outcomeSteps_asleep hq hc one l c n
  rw [metInTime_of_metPart met ho] at after slots' own'
  obtain ⟨parts, parity⟩ := toldCtx_parts met
  have sleeps : (queueAt (coreAt u p) q).sleep = some z := by rw [before.queueAt, asleep]
  have sleepsOn : sleepsOn (coreAt u p) q n.slot z.ctx = some z := by
    rw [Machine.sleepsOn, sleeps, Option.filter_some, if_pos]
    rcases hop with hop | hop <;> simp [hop, hn]
  refine ⟨fun hb => ?_, fun hr hw => ?_, fun hr h6 harr free => ?_⟩
  · rw [outcomeQueue_broken sleepsOn l c hb] at after
    exact (endSleep_ends sleeps l c .broken true).around before after
  · rw [outcomeQueue_waits sleepsOn l c hr hw] at after
    exact (endSleep_ends sleeps l c .done true).around before after
  · have unmet : unreleased (ctxAt (coreAt u p) z.ctx) n.slot = none := by
      rw [own, unreleased, parts]
      exact List.find?_eq_none.mpr fun b hb => by simpa using free b hb
    have arrives := outcomeQueue_arrives sleepsOn l c hr (by simp [h6, harr]) unmet true
    obtain ⟨only, arrived, count⟩ := arriveNow_arrived u p l c z.ctx z.cmd
    rw [own, parity, slotAt, slotAt, slots] at count
    rw [own] at arrived
    rw [arrives] at after slots' own'
    have entered : (arrivedCtx (toldCtx (ctxAt (coreAt s p) z.ctx) n) z.cmd c).parts = (ctxAt (coreAt s p) z.ctx).parts.erase a ++
        [arrivalOf z.cmd ((ctxAt (coreAt s p) z.ctx).parity.contains z.cmd.slot) c] := by
      rw [arrivedCtx, parts, parity]
    by_cases hwait : z.cmd.wait = true
    · rw [if_pos hwait] at after slots' own'
      refine ⟨((before.trans only).rest.trans (updCore_restKept rfl rfl)).trans after.rest, ?_, ?_, ?_⟩
      · rw [if_pos hwait, after.queueAt, coreAt_updQueue_same, queueAt_setQueue_same]
      · rw [own', coreAt_updQueue_same, ctxAt_setQueue, arrived, entered]
      · rw [slotAt, slots']
        exact count
    · rw [if_neg hwait] at after slots' own'
      have ends := (endSleep_ends (by rw [only.queueAt, sleeps]) l c .done true).around (before.trans only) after
      obtain ⟨ctxs, slots''⟩ := endSleep_beside (arriveNow u p l c z.ctx z.cmd) p l q c .done true
      refine ⟨ends.woke.rest, by rwa [if_neg hwait], ?_, ?_⟩
      · rw [own', ctxAt, ctxs, ← ctxAt, arrived, entered]
      · rw [slotAt, slots', slots'']
        exact count

/-! ARRIVE_TIMEOUT. -/

/-- The command asleep on a queue ends with TIMEOUT, with a record (R302, R321). -/
def expire (p l c : Nat) (s : State) (q : Nat) : State :=
  match (queueAt (coreAt s p) q).sleep with
  | none => s
  | some w => endSleep (logTimeout s p l q w) p l q c .timeout false

/-- From s to t, the commands asleep on the queues qs of core p have ended with TIMEOUT (R302, R321, R355). -/
structure Expired (s t : State) (p : Nat) (qs : List Nat) : Prop where
  rest : RestKept s t p
  beside : (coreAt t p).ctxs = (coreAt s p).ctxs ∧ t.slots = s.slots
  sync : (coreAt t p).sync = (coreAt s p).sync
  others : ∀ r, r ∉ qs → queueAt (coreAt t p) r = queueAt (coreAt s p) r
  own : ∀ q, q ∈ qs → (queueAt (coreAt t p) q).sleep = none ∧
    ((queueAt (coreAt s p) q).state = 1 → (queueAt (coreAt s p) q).onFail = false → (queueAt (coreAt t p) q).state = 2) ∧
    ∃ r, r ∈ t.log.fresh ∧ r.cls = 5 ∧ r.status = Status.timeout.code
  answer : qs ≠ [] → t.answer = .timeout

theorem expire_expired {s : State} {p q : Nat} {w : Sleep} (h : (queueAt (coreAt s p) q).sleep = some w) (l c : Nat) :
    Expired s (expire p l c s q) p [q] := by
  have eq : expire p l c s q = endSleep (logTimeout s p l q w) p l q c .timeout false := by simp only [expire, h]
  obtain ⟨⟨answer, rest, sync, sleep, queues, stopped⟩, _, _⟩ :=
    endSleep_ends (s := logTimeout s p l q w) (p := p) (q := q) h l c .timeout false
  rw [eq]
  refine ⟨(logCore_restKept ..).trans rest, endSleep_beside .., sync.trans ?_, fun r hr => ?_, fun r hr => ?_, fun _ => answer⟩
  · rw [endDue, if_neg (fun e => nomatch e.1), List.append_nil]
    rfl
  · exact queues r (mt List.mem_singleton.mpr hr)
  · obtain rfl := List.mem_singleton.mp hr
    exact ⟨sleep, stopped nofun, _, rest.records _ (mem_insertLog.mpr (.inl rfl)), rfl, rfl⟩

theorem expires_expired {p : Nat} {qs : List Nat} (nodup : qs.Nodup) {s : State}
    (h : ∀ q, q ∈ qs → ∃ w, (queueAt (coreAt s p) q).sleep = some w) (l c : Nat) :
    Expired s (qs.foldl (expire p l c) s) p qs := by
  induction qs generalizing s with
  | nil => exact ⟨.refl s p, ⟨rfl, rfl⟩, rfl, fun _ _ => rfl, fun _ hq => (List.not_mem_nil hq).elim, fun e => absurd rfl e⟩
  | cons q qs ih =>
    obtain ⟨notin, nodup⟩ := List.nodup_cons.mp nodup
    obtain ⟨w, hw⟩ := h q (.head _)
    obtain ⟨rest, ⟨ctxs, slots⟩, sync, others, own, answer⟩ := expire_expired hw l c
    have apart {r : Nat} (hr : r ∈ qs) : queueAt (coreAt (expire p l c s q) p) r = queueAt (coreAt s p) r :=
      others r fun e => notin (List.mem_singleton.mp e ▸ hr)
    obtain ⟨rest', ⟨ctxs', slots'⟩, sync', others', own', answer'⟩ := ih nodup (s := expire p l c s q) fun r hr => by
      rw [apart hr]
      exact h r (.tail _ hr)
    rw [List.foldl_cons]
    refine ⟨rest.trans rest', ⟨ctxs'.trans ctxs, slots'.trans slots⟩, sync'.trans sync, fun r hr => ?_, fun r hr => ?_, fun _ => ?_⟩
    · obtain ⟨ne, hr⟩ := not_or.mp (mt List.mem_cons.mpr hr)
      exact (others' r hr).trans (others r (mt List.mem_singleton.mp ne))
    · rcases List.mem_cons.mp hr with rfl | hr
      · obtain ⟨sleep, stopped, x, hx, shown⟩ := own r (.head _)
        rw [others' r notin]
        exact ⟨sleep, stopped, x, rest'.records x hx, shown⟩
      · have later := own' r hr
        rwa [apart hr] at later
    · cases qs with
      | nil => exact answer nofun
      | cons r qs => exact answer' nofun

/-- The arrival of a context at a slot whose timeout has passed by cycle c, unless it is frozen (R321, R362). -/
def lateArrival (x : Ctx) (slot c : Nat) : Option Part :=
  x.parts.find? fun a => a.slot == slot && !a.out && !a.frozen && decide (a.deadline ≤ c)

/-- A context whose arrival a at a slot has timed out (R321). -/
def timedOutCtx (x : Ctx) (a : Part) (slot : Nat) : Ctx :=
  recordRel { x with parts := x.parts.map fun b => if b = a then { b with out := true } else b } slot 3 0 false

/-- Besides, a verdict arrival makes the verdict FAILED (R203). -/
def failedVerdict (x : Ctx) (verdict : Bool) : Ctx := if verdict then { x with vstate := 6 } else x

/-- A context's timeout shows in its registers and in the status (R9, R203, R321). -/
def noteTimeout (s : State) (p cx : Nat) (verdict : Bool) (x : Ctx) : State :=
  updCore (if verdict then markVerdict s p cx x (failedVerdict x verdict) else s) p fun k =>
    { setCtx k cx (failedVerdict x verdict) with sync := { k.sync with timeoutSeen := true } }

/-- The command asleep on a queue for a context's arrival at a slot, which ends when the arrival times out (R321). -/
def endsLate (k : Core) (slot cx q : Nat) : Bool :=
  match sleepsOn k q slot cx with
  | none => false
  | some w => w.cmd.sop == 7 || w.arrived

theorem endsLate_iff (k : Core) (slot cx q : Nat) :
    endsLate k slot cx q = true ↔ ∃ w, sleepsOn k q slot cx = some w ∧ (w.cmd.sop = 7 ∨ w.arrived = true) := by
  unfold endsLate
  cases sleepsOn k q slot cx <;> simp

theorem partTimeout_none {s : State} {p cx slot c : Nat} (h : lateArrival (ctxAt (coreAt s p) cx) slot c = none) (l : Nat) :
    partTimeout s p l c cx slot = s := by
  unfold lateArrival at h
  simp only [partTimeout, h]

theorem partTimeout_some {s : State} {p cx slot c : Nat} {a : Part} (h : lateArrival (ctxAt (coreAt s p) cx) slot c = some a)
    (l : Nat) {u : State} (hu : u = noteTimeout s p cx a.verdict (timedOutCtx (ctxAt (coreAt s p) cx) a slot)) :
    partTimeout s p l c cx slot = ((List.range 4).filter (endsLate (coreAt u p) slot cx)).foldl (expire p l c) u := by
  subst hu
  unfold lateArrival at h
  simp only [partTimeout, h]
  rfl

theorem noteTimeout_core (s : State) (p cx : Nat) (verdict : Bool) (x : Ctx) : ∃ hw, coreAt (noteTimeout s p cx verdict x) p =
    { setCtx (coreAt s p) cx (failedVerdict x verdict) with
      hw := hw, sync := { (coreAt s p).sync with timeoutSeen := true } } := by
  obtain ⟨core, _, _, _⟩ := verdictMark_marked s p cx verdict x (failedVerdict x verdict)
  rw [noteTimeout, coreAt_updCore_same, core]
  exact ⟨_, rfl⟩

theorem noteTimeout_rest (s : State) (p cx : Nat) (verdict : Bool) (x : Ctx) :
    RestKept s (noteTimeout s p cx verdict x) p ∧ (noteTimeout s p cx verdict x).slots = s.slots := by
  obtain ⟨_, rest, _, slots⟩ := verdictMark_marked s p cx verdict x (failedVerdict x verdict)
  exact ⟨rest.trans (updCore_restKept rfl rfl), slots⟩

theorem exec_arriveTimeout {s : State} {l p : Nat} (hl : liveCore s l = some p) (hd : (coreAt s p).sync.due = []) (cx n : Nat) :
    exec (.arriveTimeout l cx n) s = .next (partTimeout s p l (cycleOf s l) cx n) := by
  have settled : settleSync s p l (cycleOf s l) = s := settleTo_none_due hd ..
  change execArriveTimeout l cx n s = _
  simp only [execArriveTimeout, withLive, hl, settled]

/-- What an arrival's timeout leaves (R203, R321). -/
theorem partTimeout_leaves {s : State} {p cx slot c : Nat} {a : Part} (h : lateArrival (ctxAt (coreAt s p) cx) slot c = some a)
    (l : Nat) : ∃ u, Expired u (partTimeout s p l c cx slot) p ((List.range 4).filter (endsLate (coreAt s p) slot cx)) ∧
      RestKept s u p ∧ u.slots = s.slots ∧ (coreAt u p).sync = { (coreAt s p).sync with timeoutSeen := true } ∧
      (∀ q, queueAt (coreAt u p) q = queueAt (coreAt s p) q) ∧
      ctxAt (coreAt u p) cx = failedVerdict (timedOutCtx (ctxAt (coreAt s p) cx) a slot) a.verdict := by
  obtain ⟨u, hu⟩ : ∃ u, u = noteTimeout s p cx a.verdict (timedOutCtx (ctxAt (coreAt s p) cx) a slot) := ⟨_, rfl⟩
  obtain ⟨hw, core⟩ := noteTimeout_core s p cx a.verdict (timedOutCtx (ctxAt (coreAt s p) cx) a slot)
  obtain ⟨rest, slots⟩ := noteTimeout_rest s p cx a.verdict (timedOutCtx (ctxAt (coreAt s p) cx) a slot)
  rw [← hu] at core rest slots
  have queues (q : Nat) : queueAt (coreAt u p) q = queueAt (coreAt s p) q := by
    rw [core]
    rfl
  have waiters : endsLate (coreAt u p) slot cx = endsLate (coreAt s p) slot cx := by
    funext q
    rw [endsLate, endsLate, sleepsOn, sleepsOn, queues]
  refine ⟨u, ?_, rest, slots, by rw [core], queues, ?_⟩
  · rw [partTimeout_some h l hu, waiters]
    refine expires_expired (List.nodup_range.filter _) (fun q hq => ?_) l c
    obtain ⟨w, hw, _⟩ := (endsLate_iff ..).mp (List.mem_filter.mp hq).2
    exact ⟨w, by rw [queues, asleep_of_sleepsOn hw]⟩
  · rw [core]
    exact ctxAt_setCtx_same ..

/-! The statement. -/

section
variable {s : State} {l n p : Nat} {w : SlotNews} (h : s.news.find? (fun x => x.slot == n && x.core == l) = some w)
  (hp : physOf s l = some p) (hr : inReset s l = false) (hd : (coreAt s p).sync.due = [])
  (hc : Current (coreAt s p) (cycleOf s l))
include h hp hr hd hc

/-- An outcome reaches a core none of whose commands is asleep. -/
theorem release_quiet (quiet : ∀ q, (queueAt (coreAt s p) q).sleep = none) :
    ∃ t, exec (.releaseReachesCore l n) s = .next t ∧ CtxsTold (heardAt s p w) t p w (List.range 4) := by
  refine ⟨_, exec_release_heard h hp hr hd hc, outcomeSteps_awake List.nodup_range (fun cx q _ => ?_) ..⟩
  exact sleepsOn_of_awake (by rw [queueAt_heardAt]; exact quiet q) ..

/-- An outcome reaches a core one of whose commands is asleep on its slot. -/
theorem release_sleeper {q : Nat} {z : Sleep} {a : Part} (hq : q < 4) (asleep : (queueAt (coreAt s p) q).sleep = some z)
    (others : ∀ r, r ≠ q → (queueAt (coreAt s p) r).sleep = none) (hop : z.cmd.sop = 6 ∨ z.cmd.sop = 7) (hn : z.cmd.slot = n)
    (hcx : z.ctx < 4) (met : metPart (ctxAt (coreAt s p) z.ctx) w = some a) (ho : a.out = false) :
    ∃ t, exec (.releaseReachesCore l n) s = .next t ∧ SleeperTold (heardAt s p w) t p q (cycleOf s l) w z a := by
  obtain rfl := slot_of_heard h
  refine ⟨_, exec_release_heard h hp hr hd hc, outcomeSteps_sleeper hq hcx ?_ (fun r hr => ?_) hop hn ?_ ho ..⟩
  · rw [queueAt_heardAt, asleep]
  · rw [queueAt_heardAt, others r hr]
  · rw [ctxAt_heardAt, met]

end

/-- Settles O54: an outcome reaches each context by `outcomeSteps_awake`, and the command asleep on its slot by `outcomeSteps_sleeper`;
an arrival whose timeout has passed leaves what `partTimeout_leaves` says. -/
theorem outcomeReachesCore : Obligations.OutcomeReachesCore := by
  refine ⟨fun s l n => ⟨exec_release_unheard, fun w h => ⟨exec_release_unserved h, fun p hp hr => ?inReset,
      fun p hp hr hd hc quiet => ?contexts⟩⟩,
    fun s l n p q w z a h hp hr hd hc hq asleep others hop hn hcx => ?sleeper,
    fun s l n p cx hl hd => ⟨fun due => ?notLate, fun a due => ?late⟩⟩
  case inReset =>
    obtain ⟨_, others, news⟩ := heardAt_kept s p w
    refine ⟨_, exec_release_inReset h hp hr, news, others, ?_⟩
    rw [coreAt_heardAt]
    split
    · next hb => rw [hb, beq_self_eq_true, Bool.or_true]
    · next hb => rw [beq_eq_false_iff_ne.mpr hb, Bool.or_false]
  case contexts =>
    obtain ⟨t, ran, only, _, told, _, logged⟩ := release_quiet h hp hr hd hc quiet
    obtain ⟨memory, others, news⟩ := heardAt_kept s p w
    obtain rfl := slot_of_heard h
    refine ⟨t, ran, only.rest.news.trans news, memory.trans only.rest.memory, others.trans only.rest.others,
      by rw [only.sync, coreAt_heardAt], fun cx hcx => ?_⟩
    have told := told cx (List.mem_range.mpr hcx)
    have logged (a : Part) := logged cx a (List.mem_range.mpr hcx)
    rw [ctxAt_heardAt] at told logged
    refine ⟨fun none => told.trans (toldCtx_none none), fun a met ho => told.trans ?_,
      fun a met ho => ⟨told.trans ?_, logged a met ho⟩⟩
    · rw [toldCtx_some met, ho]
      rfl
    · rw [toldCtx_some met, ho]
      rfl
  case sleeper =>
    intro k c x met ho
    obtain ⟨t, ran, broken, waits, arrives⟩ := release_sleeper h hp hr hd hc hq asleep others hop hn hcx
      (by rwa [metPart, slot_of_heard h]) ho
    obtain ⟨memory, apart, _⟩ := heardAt_kept s p w
    rw [ctxAt_heardAt] at arrives
    have kept (rest : RestKept (heardAt s p w) t p) : MemoryKept s t p ∧ OthersKept s t p :=
      ⟨memory.trans rest.memory, apart.trans rest.others⟩
    refine ⟨fun hb => ?_, fun hb hw => ?_, fun hb h6 harr free => ?_⟩
    · exact ⟨t, ran, (broken hb).shown hd, kept (broken hb).woke.rest⟩
    · exact ⟨t, ran, (waits hb hw).shown hd, kept (waits hb hw).woke.rest⟩
    · obtain ⟨rest, goes, parts, count⟩ := arrives hb h6 harr (by rwa [slot_of_heard h])
      rw [ctxAt_heardAt, hn] at parts count
      obtain ⟨rows, cores⟩ := kept rest
      refine ⟨t, ran, rows, cores, ?_, parts, ?_⟩
      · by_cases hw : z.cmd.wait = true
        · rw [if_pos hw] at goes ⊢
          exact goes
        · rw [if_neg hw] at goes ⊢
          exact goes.shown hd
      · rw [count, slotAt, slots_heardAt]
        rfl
  case notLate => rw [exec_arriveTimeout hl hd, partTimeout_none due]
  case late =>
    obtain ⟨u, ⟨rest', ⟨ctxs, slots'⟩, sync', others, own, answer⟩, rest, slots, sync, queues, ctx⟩ := partTimeout_leaves due l
    have rest := rest.trans rest'
    refine ⟨_, exec_arriveTimeout hl hd cx n, sync'.trans sync, slots'.trans slots, rest.memory, rest.others, ?_, ?_, ?_⟩
    · rintro y rfl
      rw [ctxAt, ctxs, ← ctxAt, ctx]
      rfl
    · intro q w hq hs hw
      have ends := List.mem_filter.mpr ⟨List.mem_range.mpr hq, (endsLate_iff (coreAt s p) n cx q).mpr ⟨w, hs, hw⟩⟩
      obtain ⟨sleep, stopped, record⟩ := own q ends
      rw [queues] at stopped
      exact ⟨sleep, answer (List.ne_nil_of_mem ends), stopped, record⟩
    · intro q w hs h7 harr
      have stays : q ∉ (List.range 4).filter (endsLate (coreAt s p) n cx) := fun hm => by
        obtain ⟨v, hv, hw⟩ := (endsLate_iff ..).mp (List.mem_filter.mp hm).2
        rw [hs] at hv
        cases hv
        exact hw.elim h7 (by simp [harr])
      rw [others q stays, queues]

end Sys2Proof.Machine
end

section
/-!
PROOFS. What grants, revokes and answers change of a core: the credits of rings and windows, and packets (R243, R245, R246, R272, R285).
-/

namespace Sys2Proof.Machine

/-- From s to t, core p changes in the credits and states of its rings and windows, in the packets that wait at it, and in the marks of
its registers that the part has changed (R9), alone; no record is made. -/
structure Traffic (s t : State) (p : Nat) : Prop where
  core : coreAt t p = { coreAt s p with
    pool := { (coreAt s p).pool with rings := (coreAt t p).pool.rings },
    mv := { (coreAt s p).mv with wins := (coreAt t p).mv.wins, inj := (coreAt t p).mv.inj, injS := (coreAt t p).mv.injS,
                                 delivered := (coreAt t p).mv.delivered },
    hw := (coreAt t p).hw }
  others : OthersKept s t p
  log : t.log = s.log

theorem Traffic.refl (s : State) (p : Nat) : Traffic s s p := ⟨rfl, .refl s p, rfl⟩

theorem Traffic.trans {s t u : State} {p : Nat} (h : Traffic s t p) (k : Traffic t u p) : Traffic s u p := by
  refine ⟨?_, h.others.trans k.others, k.log.trans h.log⟩
  rw [k.core, h.core]

theorem Traffic.foldl {α : Type} {p : Nat} {f : State → α → State} (hf : ∀ s x, Traffic s (f s x) p) (l : List α) (s : State) :
    Traffic s (l.foldl f s) p := by
  induction l generalizing s with
  | nil => exact .refl s p
  | cons x l ih => exact (hf s x).trans (ih _)

theorem Traffic.of_cores {s t : State} (p : Nat) (h : t.cores = s.cores) (log : t.log = s.log) : Traffic s t p := by
  have core : coreAt t p = coreAt s p := by rw [coreAt, h]; rfl
  exact ⟨by rw [core], .of_cores h p, log⟩

theorem setCore_traffic {s : State} {p : Nat} {k : Core} (h : k = { coreAt s p with
    pool := { (coreAt s p).pool with rings := k.pool.rings },
    mv := { (coreAt s p).mv with wins := k.mv.wins, inj := k.mv.inj, injS := k.mv.injS, delivered := k.mv.delivered },
    hw := k.hw }) : Traffic s (setCore s p k) p :=
  ⟨by rw [coreAt_setCore_same]; exact h, othersKept_setCore s p k, rfl⟩

theorem setRing_traffic (s : State) (p n : Nat) (r : Ring) : Traffic s (setCore s p (setRing (coreAt s p) n r)) p :=
  setCore_traffic rfl

theorem setWin_traffic (s : State) (p w : Nat) (x : Win) : Traffic s (setCore s p (setWin (coreAt s p) w x)) p :=
  setCore_traffic rfl

theorem markHw_traffic (s : State) (p off : Nat) : Traffic s (markHw s p off) p := setCore_traffic rfl

theorem report_traffic (s : State) (st : Status) (p : Nat) : Traffic s (report s st) p := .of_cores p rfl rfl

section
variable {s t : State} {p : Nat} (h : Traffic s t p)
include h

theorem Traffic.pool : (coreAt t p).pool = { (coreAt s p).pool with rings := (coreAt t p).pool.rings } := by rw [h.core]

theorem Traffic.memory : MemoryKept s t p := ⟨fun r => by rw [rowAt, h.core]; rfl, fun u => by rw [trowAt, h.core]; rfl⟩

theorem Traffic.sync : (coreAt t p).sync = (coreAt s p).sync := by rw [h.core]

theorem Traffic.upsets : (coreAt t p).upsets = (coreAt s p).upsets := by rw [h.core]

theorem Traffic.queueAt (q : Nat) : queueAt (coreAt t p) q = queueAt (coreAt s p) q := by rw [h.core]; rfl

theorem Traffic.inb : (coreAt t p).mv.inb = (coreAt s p).mv.inb := by rw [h.core]

theorem Traffic.regionOff (base size : Nat) : regionOff (coreAt t p) base size = regionOff (coreAt s p) base size := by rw [h.core]; rfl

theorem Traffic.made : recordsMade t = recordsMade s := by rw [recordsMade, h.log]; rfl

end

/-! Packets. -/

/-- A packet that a core sends joins those at its crossbar port or its bundle. -/
theorem inject_changes (s : State) (p src : Nat) (pkt : Packet) : ∃ inj injS, inject s p src pkt =
    updCore s p (fun k => { k with mv := { k.mv with inj := inj, injS := injS } }) ∧ ∃ x, x ∈ inj ++ injS ∧ x.pkt = pkt := by
  unfold inject injectFrom
  dsimp only
  split
  · exact ⟨_, _, rfl, _, List.mem_append_left _ (List.mem_append_right _ (.head _)), rfl⟩
  · exact ⟨_, _, rfl, _, List.mem_append_right _ (List.mem_append_right _ (.head _)), rfl⟩

theorem inject_traffic (s : State) (p src : Nat) (pkt : Packet) : Traffic s (inject s p src pkt) p := by
  obtain ⟨inj, injS, h, _⟩ := inject_changes s p src pkt
  rw [h]
  exact setCore_traffic rfl

@[simp] theorem pool_inject (s : State) (p src : Nat) (pkt : Packet) : (coreAt (inject s p src pkt) p).pool = (coreAt s p).pool := by
  obtain ⟨inj, injS, h, _⟩ := inject_changes s p src pkt
  rw [h, coreAt_updCore_same]

@[simp] theorem ringAt_inject (s : State) (p src : Nat) (pkt : Packet) (n : Nat) :
    ringAt (coreAt (inject s p src pkt) p) n = ringAt (coreAt s p) n := by
  rw [ringAt, pool_inject]; rfl

@[simp] theorem winAt_inject (s : State) (p src : Nat) (pkt : Packet) (w : Nat) :
    winAt (coreAt (inject s p src pkt) p) w = winAt (coreAt s p) w := by
  obtain ⟨inj, injS, h, _⟩ := inject_changes s p src pkt
  rw [h, coreAt_updCore_same]; rfl

/-! Rings. -/

@[simp] theorem regionOff_setRing (k : Core) (n : Nat) (r : Ring) (base size : Nat) :
    regionOff (setRing k n r) base size = regionOff k base size := rfl

/-- A ring whose head has moved past `count` rows, or that is enabled with as many free: credits for its bound producer, granted, or
withheld while a bank of its region is requested off or off (R243). Kind 0 and an abandoned ring have none. -/
def creditedRing (k : Core) (r : Ring) (count : Nat) : Ring :=
  if r.kind = 0 ∨ r.abandoned then r
  else if regionOff k r.base r.size then { r with withheld := r.withheld + count }
  else { r with outst := r.outst + count }

theorem creditedRing_zero (k : Core) (r : Ring) : creditedRing k r 0 = r := by
  unfold creditedRing
  split
  · rfl
  · split <;> rfl

theorem grantRing_traffic (s : State) (p l n count : Nat) : Traffic s (grantRing s p l n count) p := by
  unfold grantRing
  dsimp only
  split
  · exact .refl s p
  · split
    · exact setRing_traffic ..
    · exact (setRing_traffic ..).trans (inject_traffic ..)

theorem ringAt_grantRing (s : State) (p l n count m : Nat) : ringAt (coreAt (grantRing s p l n count) p) m =
    if m = n then creditedRing (coreAt s p) (ringAt (coreAt s p) n) count else ringAt (coreAt s p) m := by
  unfold grantRing
  dsimp only
  split
  · next h =>
    have same : creditedRing (coreAt s p) (ringAt (coreAt s p) n) count = ringAt (coreAt s p) n := by
      rcases h with kind | count0 | gone
      · exact if_pos (.inl kind)
      · rw [count0, creditedRing_zero]
      · exact if_pos (.inr gone)
    rw [same]
    split
    · next e => rw [e]
    · rfl
  · next h =>
    have live : ¬((ringAt (coreAt s p) n).kind = 0 ∨ (ringAt (coreAt s p) n).abandoned = true) :=
      fun g => h (g.imp_right .inr)
    unfold creditedRing
    rw [if_neg live]
    split
    · rw [coreAt_setCore_same, ringAt_setRing]
    · rw [ringAt_inject, coreAt_setCore_same, ringAt_setRing]

theorem disableRing_traffic (s : State) (p l n : Nat) : Traffic s (disableRing s p l n) p := by
  unfold disableRing
  dsimp only
  split
  · exact (setRing_traffic ..).trans (inject_traffic ..)
  · exact setRing_traffic ..

theorem ringAt_disableRing (s : State) (p l n m : Nat) : ringAt (coreAt (disableRing s p l n) p) m =
    if m = n then { ringAt (coreAt s p) n with enable := false, outst := 0, withheld := 0 } else ringAt (coreAt s p) m := by
  unfold disableRing
  dsimp only
  split
  · rw [ringAt_inject, coreAt_setCore_same, ringAt_setRing]
  · rw [coreAt_setCore_same, ringAt_setRing]

/-! Windows. -/

@[simp] theorem regionOff_setWin (k : Core) (w : Nat) (x : Win) (base size : Nat) :
    regionOff (setWin k w x) base size = regionOff k base size := rfl

/-- A window whose agent is to have `count` credits more: granted, or withheld while a bank of its region is requested off or off
(R285). -/
def creditedWin (k : Core) (x : Win) (count : Nat) : Win :=
  if regionOff k x.base x.size then { x with withheld := x.withheld + count } else { x with outst := x.outst + count }

theorem grantWin_traffic (s : State) (p l w count : Nat) : Traffic s (grantWin s p l w count) p := by
  unfold grantWin
  dsimp only
  split
  · exact .refl s p
  · split
    · exact setWin_traffic ..
    · exact (setWin_traffic ..).trans (inject_traffic ..)

theorem winAt_grantWin (s : State) (p l w count m : Nat) : winAt (coreAt (grantWin s p l w count) p) m =
    if m = w then creditedWin (coreAt s p) (winAt (coreAt s p) w) count else winAt (coreAt s p) m := by
  unfold grantWin creditedWin
  dsimp only
  split
  · next h =>
    subst h
    simp only [Nat.add_zero, ite_self]
    split
    · next e => rw [e]
    · rfl
  · split
    · rw [coreAt_setCore_same, winAt_setWin]
    · rw [winAt_inject, coreAt_setCore_same, winAt_setWin]

theorem rings_grantWin (s : State) (p l w count : Nat) :
    (coreAt (grantWin s p l w count) p).pool.rings = (coreAt s p).pool.rings := by
  unfold grantWin
  dsimp only
  split
  · rfl
  · split
    · rw [coreAt_setCore_same, setWin_pool]
    · rw [pool_inject, coreAt_setCore_same, setWin_pool]

theorem closeWin_traffic (s : State) (p l w : Nat) : Traffic s (closeWin s p l w) p := by
  unfold closeWin
  dsimp only
  split
  · exact (setWin_traffic ..).trans (inject_traffic ..)
  · exact setWin_traffic ..

theorem winAt_closeWin (s : State) (p l w m : Nat) : winAt (coreAt (closeWin s p l w) p) m =
    if m = w then { winAt (coreAt s p) w with opened := false, outst := 0, withheld := 0 } else winAt (coreAt s p) m := by
  unfold closeWin
  dsimp only
  split
  · rw [winAt_inject, coreAt_setCore_same, winAt_setWin]
  · rw [coreAt_setCore_same, winAt_setWin]

/-! Withheld credits. -/

/-- The withheld credits of ring n are granted if no bank of its region is requested off or off any more (R243, R249). -/
def releaseRing (p l : Nat) (s : State) (n : Nat) : State :=
  let k := coreAt s p
  let r := ringAt k n
  if r.withheld > 0 ∧ !regionOff k r.base r.size then
    grantRing (setCore s p (setRing k n { r with withheld := 0 })) p l n r.withheld
  else s

/-- Those of window w likewise (R249, R285). -/
def releaseWin (p l : Nat) (s : State) (w : Nat) : State :=
  let k := coreAt s p
  let x := winAt k w
  if x.withheld > 0 ∧ !regionOff k x.base x.size then
    grantWin (setCore s p (setWin k w { x with withheld := 0 })) p l w x.withheld
  else s

theorem releaseWithheld_eq (s : State) (p l : Nat) : releaseWithheld s p l =
    (List.range 8).foldl (releaseWin p l) ((List.range 16).foldl (releaseRing p l) s) := rfl

theorem releaseRing_traffic (p l : Nat) (s : State) (n : Nat) : Traffic s (releaseRing p l s n) p := by
  unfold releaseRing
  dsimp only
  split
  · exact (setRing_traffic ..).trans (grantRing_traffic ..)
  · exact .refl s p

theorem releaseWin_traffic (p l : Nat) (s : State) (w : Nat) : Traffic s (releaseWin p l s w) p := by
  unfold releaseWin
  dsimp only
  split
  · exact (setWin_traffic ..).trans (grantWin_traffic ..)
  · exact .refl s p

theorem releaseWithheld_traffic (s : State) (p l : Nat) : Traffic s (releaseWithheld s p l) p := by
  rw [releaseWithheld_eq]
  exact (Traffic.foldl (releaseRing_traffic p l) _ s).trans (Traffic.foldl (releaseWin_traffic p l) _ _)

theorem rings_releaseWin (p l : Nat) (s : State) (w : Nat) :
    (coreAt (releaseWin p l s w) p).pool.rings = (coreAt s p).pool.rings := by
  unfold releaseWin
  dsimp only
  split
  · rw [rings_grantWin, coreAt_setCore_same, setWin_pool]
  · rfl

theorem ringAt_releaseRing_other {n m : Nat} (h : m ≠ n) (p l : Nat) (s : State) :
    ringAt (coreAt (releaseRing p l s n) p) m = ringAt (coreAt s p) m := by
  unfold releaseRing
  dsimp only
  split
  · rw [ringAt_grantRing, if_neg h, coreAt_setCore_same, ringAt_setRing, if_neg h]
  · rfl

theorem ringAt_releaseRings_other {ns : List Nat} {m : Nat} (h : m ∉ ns) (p l : Nat) (s : State) :
    ringAt (coreAt (ns.foldl (releaseRing p l) s) p) m = ringAt (coreAt s p) m := by
  induction ns generalizing s with
  | nil => rfl
  | cons n ns ih =>
    obtain ⟨hn, hns⟩ := not_or.mp (mt List.mem_cons.mpr h)
    rw [List.foldl_cons, ih hns, ringAt_releaseRing_other hn]

/-- A ring that may grant its withheld credits does. -/
theorem ringAt_releaseRing_same {s : State} {p n : Nat} (hw : 0 < (ringAt (coreAt s p) n).withheld)
    (hk : (ringAt (coreAt s p) n).kind ≠ 0) (ha : (ringAt (coreAt s p) n).abandoned = false)
    (hr : regionOff (coreAt s p) (ringAt (coreAt s p) n).base (ringAt (coreAt s p) n).size = false) (l : Nat) :
    ringAt (coreAt (releaseRing p l s n) p) n = { ringAt (coreAt s p) n with
      outst := (ringAt (coreAt s p) n).outst + (ringAt (coreAt s p) n).withheld, withheld := 0 } := by
  unfold releaseRing
  dsimp only
  rw [if_pos ⟨hw, by rw [hr]; rfl⟩, ringAt_grantRing, if_pos rfl, coreAt_setCore_same, ringAt_setRing_same]
  simp [creditedRing, hk, ha, hr]

theorem ringAt_releaseWithheld {s : State} {p n : Nat} (hn : n < 16) (hw : 0 < (ringAt (coreAt s p) n).withheld)
    (hk : (ringAt (coreAt s p) n).kind ≠ 0) (ha : (ringAt (coreAt s p) n).abandoned = false)
    (hr : regionOff (coreAt s p) (ringAt (coreAt s p) n).base (ringAt (coreAt s p) n).size = false) (l : Nat) :
    ringAt (coreAt (releaseWithheld s p l) p) n = { ringAt (coreAt s p) n with
      outst := (ringAt (coreAt s p) n).outst + (ringAt (coreAt s p) n).withheld, withheld := 0 } := by
  obtain ⟨as, bs, split, ha', hb, _⟩ := mem_split_nodup List.nodup_range (List.mem_range.mpr hn)
  have rings (t : State) : (coreAt ((List.range 8).foldl (releaseWin p l) t) p).pool.rings = (coreAt t p).pool.rings :=
    foldl_kept (fun t => (coreAt t p).pool.rings) (rings_releaseWin p l) _ t
  have before := ringAt_releaseRings_other ha' p l s
  have tr := Traffic.foldl (releaseRing_traffic p l) as s
  rw [releaseWithheld_eq, ringAt, rings, ← ringAt, split, List.foldl_append, List.foldl_cons, ringAt_releaseRings_other hb,
    ringAt_releaseRing_same] <;> simp only [before, tr.regionOff, hw, hk, ha, hr, ne_eq, not_false_eq_true]

end Sys2Proof.Machine
end

section
/-!
PROOFS. The registers of a core's rings, windows and bank power (R243, R246 to R250, R256, R285, R291).
-/

namespace Sys2Proof.Machine

/-! The rows as writes of their registers. -/

theorem Reach.current {s : State} {l p : Nat} (h : Reach s l p) : Current (coreAt s p) (cycleOf s l) := by
  obtain ⟨_, _, _, _, current⟩ := h
  exact current

theorem Reach.served {s : State} {l p : Nat} (h : Reach s l p) : physOf s l = some p := by
  obtain ⟨_, served, _⟩ := h
  exact served

theorem writeCore_ringCfg {s : State} {l p n : Nat} (h : Reach s l p) (hn : n < 16) (v : Nat) :
    writeCore s p l (0x400 + 16 * n) v = writeRingCfg s p l n v := by
  have index : (0x400 + 16 * n - 0x400) / 16 = n := by omega
  have low : (0x400 + 16 * n) % 16 = 0 := by omega
  simp (disch := omega) only [writeCore, catchUp_of_current h.current, if_neg, if_pos, index]

theorem writeCore_winCfg {s : State} {l p w : Nat} (h : Reach s l p) (hw : w < 8) (v : Nat) :
    writeCore s p l (0x700 + 16 * w) v = writeWinCfg s p l w v := by
  have index : (0x700 + 16 * w - 0x700) / 16 = w := by omega
  simp (disch := omega) only [writeCore, catchUp_of_current h.current, if_neg, if_pos, index]

theorem writeCore_poolPwr {s : State} {l p : Nat} (h : Reach s l p) (v : Nat) :
    writeCore s p l 0x300 v = writePoolPwr s p l v := by
  simp (disch := omega) only [writeCore, catchUp_of_current h.current, if_neg, if_pos, if_true]

theorem coreInfo_ringCfg {n : Nat} (hn : n < 16) : coreInfo (0x400 + 16 * n) = some (false, 0xFFFFFFFF) := by
  interval_cases n <;> rfl

theorem coreInfo_winCfg {w : Nat} (hw : w < 8) : coreInfo (0x700 + 16 * w) = some (false, 0xFF7FFFFF) := by
  interval_cases w <;> rfl

/-- A write of CORE_RINGn_CFG is the ring's own. -/
theorem regRow_ringCfg {s : State} {l p n : Nat} (h : Reach s l p) (hn : n < 16) (v : Word) :
    regRow s true (coreReg l (0x400 + 16 * n)) v =
      report (writeRingCfg s p l n v.toNat).2 (writeRingCfg s p l n v.toNat).1 := by
  rw [regRow_core h (by omega) (coreInfo_ringCfg hn) (and_word v) (by omega) (by omega) (by omega), writeCore_ringCfg h hn]

/-- A word is as it was under a mask that leaves out a bit it does not set (R8). -/
theorem and_not_bit {v : Word} {k : Nat} (h : v.getLsbD k = false) : v &&& ~~~(1#32 <<< k) = v := by
  ext i hi
  by_cases e : i = k
  · subst e
    simpa [hi] using h
  · have apart : i - k ≠ 0 ∨ i < k := by omega
    simp only [BitVec.getElem_and, BitVec.getElem_not, BitVec.getElem_shiftLeft, BitVec.getElem_one]
    grind

/-- A write of CORE_ADMITw_CFG is the window's own where its reserved bit 23 is 0. -/
theorem regRow_winCfg {s : State} {l p w : Nat} (h : Reach s l p) (hw : w < 8) {v : Word} (hv : wbit v 23 = false) :
    regRow s true (coreReg l (0x700 + 16 * w)) v =
      report (writeWinCfg s p l w v.toNat).2 (writeWinCfg s p l w v.toNat).1 := by
  have clean : Clean v 0xFF7FFFFF := by
    have bit : v.getLsbD 23 = false := by
      simpa [wbit, bitN, BitVec.getLsbD, Nat.testBit_eq_decide_div_mod_eq] using hv
    exact congrArg BitVec.toNat (and_not_bit bit)
  rw [regRow_core h (by omega) (coreInfo_winCfg hw) clean (by omega) (by omega) (by omega), writeCore_winCfg h hw]

/-- A write of CORE_POOL_PWR is the core's own. -/
theorem regRow_poolPwr {s : State} {l p : Nat} (h : Reach s l p) (v : Word) :
    regRow s true (coreReg l 0x300) v = report (writePoolPwr s p l v.toNat).2 (writePoolPwr s p l v.toNat).1 := by
  rw [regRow_core h (by omega) (by rfl) (and_word v) (by omega) (by omega) (by omega), writeCore_poolPwr h]

theorem exec_ringEnable {s : State} {l p n : Nat} {v : Word} (h : Reach s l p) (hn : n < 16) (on : wbit v 21 = true) :
    exec (.ringEnable l n v) s = .next (report (writeRingCfg s p l n v.toNat).2 (writeRingCfg s p l n v.toNat).1) := by
  rw [← regRow_ringCfg h hn]
  change execRingEnable l n v s = _
  simp [execRingEnable, hn, on]

theorem exec_ringDisable {s : State} {l p n : Nat} {v : Word} (h : Reach s l p) (hn : n < 16) (off : wbit v 21 = false) :
    exec (.ringDisable l n v) s = .next (report (writeRingCfg s p l n v.toNat).2 (writeRingCfg s p l n v.toNat).1) := by
  rw [← regRow_ringCfg h hn]
  change execRingDisable l n v s = _
  simp [execRingDisable, hn, off]

theorem exec_windowOpen {s : State} {l p w : Nat} {v : Word} (h : Reach s l p) (hw : w < 8) (on : wbit v 21 = true)
    (hv : wbit v 23 = false) :
    exec (.windowOpen l w v) s = .next (report (writeWinCfg s p l w v.toNat).2 (writeWinCfg s p l w v.toNat).1) := by
  rw [← regRow_winCfg h hw hv]
  change execWindowOpen l w v s = _
  simp [execWindowOpen, hw, on]

theorem exec_windowClose {s : State} {l p w : Nat} {v : Word} (h : Reach s l p) (hw : w < 8) (off : wbit v 21 = false)
    (hv : wbit v 23 = false) :
    exec (.windowClose l w v) s = .next (report (writeWinCfg s p l w v.toNat).2 (writeWinCfg s p l w v.toNat).1) := by
  rw [← regRow_winCfg h hw hv]
  change execWindowClose l w v s = _
  simp [execWindowClose, hw, off]

/-! Rings. -/

/-- The last check of R256 is that of the banks of the region; every other fails with BAD_VALUE (R248). -/
theorem ringEnableCheck_cases (s : State) (k : Core) (l n : Nat) (r : Ring) : ringEnableCheck s k l n r = .badValue ∨
    ringEnableCheck s k l n r = if regionOff k r.base r.size then .badState else .done := by
  unfold ringEnableCheck
  dsimp only
  generalize ringOcc r = occupied
  split
  · exact .inl rfl
  · split
    · exact .inl rfl
    · split
      · exact .inl rfl
      · split
        · exact .inl rfl
        · exact .inr rfl

theorem regionOff_of_ringEnableCheck {s : State} {k : Core} {l n : Nat} {r : Ring} (h : ringEnableCheck s k l n r = .done) :
    regionOff k r.base r.size = false := by
  rcases ringEnableCheck_cases s k l n r with e | e <;> rw [e] at h
  · cases h
  · cases on : regionOff k r.base r.size with
    | false => rfl
    | true => rw [on] at h; cases h

/-- A ring that passes the checks of R256 before the last, and overlaps a bank requested off or off, fails that one (R248). -/
theorem ringEnableCheck_of_regionOff {s : State} {k : Core} {l n : Nat} {r : Ring} (on : regionOff k r.base r.size = true)
    (h : ringEnableCheck s k l n r ≠ .badValue) : ringEnableCheck s k l n r = .badState := by
  rcases ringEnableCheck_cases s k l n r with e | e
  · exact absurd e h
  · rw [e, if_pos on]

section
variable {s : State} {p l n : Nat} {v : Word} (enforced : n < 4 → wbit v 22 = true)
include enforced

theorem writeRingCfg_on (off : (ringAt (coreAt s p) n).enable = false) (on : wbit v 21 = true) : writeRingCfg s p l n v.toNat =
    if ringEnableCheck s (coreAt s p) l n (ringFromCfg (ringAt (coreAt s p) n) v.toNat) ≠ .done then
      (ringEnableCheck s (coreAt s p) l n (ringFromCfg (ringAt (coreAt s p) n) v.toNat), s)
    else (.done, enableRing s p l n (ringFromCfg (ringAt (coreAt s p) n) v.toNat)) := by
  have low : ¬(n < 4 ∧ (!bitN v.toNat 22) = true) := fun ⟨h, e⟩ => by
    have := enforced h
    simp_all [wbit]
  have sets : (ringFromCfg (ringAt (coreAt s p) n) v.toNat).enable = true := on
  simp only [writeRingCfg, if_neg low, off, sets, if_true, Bool.false_eq_true, if_false]

theorem writeRingCfg_off (on : (ringAt (coreAt s p) n).enable = true) (off : wbit v 21 = false)
    (same : readRingCfg { ringAt (coreAt s p) n with enable := false } = v.toNat) :
    writeRingCfg s p l n v.toNat = (.done, disableRing s p l n) := by
  have low : ¬(n < 4 ∧ (!bitN v.toNat 22) = true) := fun ⟨h, e⟩ => by
    have := enforced h
    simp_all [wbit]
  have clears : (!bitN v.toNat 21) = true := by rw [show bitN v.toNat 21 = false from off]; rfl
  simp only [writeRingCfg, if_neg low, on, if_true, if_pos (And.intro clears same)]

end

theorem enableRing_traffic (s : State) (p l n : Nat) (r : Ring) : Traffic s (enableRing s p l n r) p :=
  (setRing_traffic ..).trans (grantRing_traffic ..)

/-- A ring enabled over powered banks grants one credit for each free count (R243, R256). -/
theorem ringAt_enableRing {s : State} {p n : Nat} {r : Ring} (on : regionOff (coreAt s p) r.base r.size = false) (l m : Nat) :
    ringAt (coreAt (enableRing s p l n r) p) m = if m = n then { r with
      enable := true, abandoned := false, withheld := 0, outst := if r.kind = 0 then 0 else r.size - ringOcc r }
      else ringAt (coreAt s p) m := by
  unfold enableRing
  rw [ringAt_grantRing, coreAt_updCore_same, ringAt_setRing_same, ringAt_setRing]
  split
  · unfold creditedRing
    by_cases kind : r.kind = 0
    · simp [kind]
    · simp [kind, on]
  · rfl

/-! Windows. -/

theorem winOpenCheck_done {k : Core} {w : Nat} {x : Win} (h : winOpenCheck k w x = .done) : regionOff k x.base x.size = false := by
  unfold winOpenCheck at h
  dsimp only at h
  cases on : regionOff k x.base x.size with
  | false => rfl
  | true =>
    rw [on] at h
    split at h
    · cases h
    · split at h
      · cases h
      · split at h <;> cases h

theorem writeWinCfg_on {s : State} {p w : Nat} {v : Word} (closed : (winAt (coreAt s p) w).opened = false) (on : wbit v 21 = true)
    {x : Win} (hx : x = { winAt (coreAt s p) w with
      base := fieldN v.toNat 0 10, size := fieldN v.toNat 10 11, opened := true, flagEn := wbit v 22, flag := fieldN v.toNat 24 8 })
    (check : winOpenCheck (coreAt s p) w x = .done) (l : Nat) : writeWinCfg s p l w v.toNat =
      (.done, grantWin (setCore s p (setWin (coreAt s p) w { x with arrived := 0, outst := 0, withheld := 0 })) p l w x.size) := by
  have opens : bitN v.toNat 21 = true := on
  subst hx
  simp only [wbit] at check
  simp only [writeWinCfg, closed, opens, check, wbit, if_true, Bool.false_eq_true, if_false, ne_eq, not_true_eq_false]

theorem writeWinCfg_off {s : State} {p w : Nat} {v : Word} (opened : (winAt (coreAt s p) w).opened = true)
    (same : readWinCfg { winAt (coreAt s p) w with opened := false } = v.toNat) (l : Nat) :
    writeWinCfg s p l w v.toNat = (.done, closeWin s p l w) := by
  simp only [writeWinCfg, opened, same, if_true]

/-- Settles O9: each accepted write is the ring's or window's own operation, whose credits `ringAt_enableRing`, `ringAt_disableRing`,
`winAt_grantWin` and `winAt_closeWin` state. -/
theorem ringAndWindowRows : Obligations.RingAndWindowRows := by
  intro s l p v h
  have keeps {t : State} (tr : Traffic s t p) : MemoryKept s (report t .done) p ∧ OthersKept s (report t .done) p :=
    ⟨(tr.trans (report_traffic ..)).memory, tr.others⟩
  refine ⟨fun n hn on off enforced check => ?enable, fun n hn on off enforced same => ?disable,
    fun w hw on res closed check => ?opens, fun w hw opened off res same => ?closes⟩
  case enable =>
    have write := writeRingCfg_on (l := l) enforced off on
    rw [if_neg (not_not.mpr check)] at write
    have rings := ringAt_enableRing (regionOff_of_ringEnableCheck check) l (n := n)
    refine ⟨_, exec_ringEnable h hn on, by rw [write]; rfl, ?_, fun m hm => ?_, ?_⟩
    · rw [write, coreAt_report, rings, if_pos rfl]
      rfl
    · rw [write, coreAt_report, rings, if_neg hm]
    · rw [write]
      exact keeps (enableRing_traffic ..)
  case disable =>
    have write := writeRingCfg_off (l := l) enforced on off same
    refine ⟨_, exec_ringDisable h hn off, by rw [write]; rfl, ?_, fun m hm => ?_, ?_⟩
    · rw [write, coreAt_report, ringAt_disableRing, if_pos rfl]
    · rw [write, coreAt_report, ringAt_disableRing, if_neg hm]
    · rw [write]
      exact keeps (disableRing_traffic ..)
  case opens =>
    have write := writeWinCfg_on closed on rfl check l
    have powered := winOpenCheck_done check
    refine ⟨_, exec_windowOpen h hw on res, by rw [write]; rfl, ?_, fun m hm => ?_, ?_⟩
    · rw [write, coreAt_report, winAt_grantWin, if_pos rfl, coreAt_setCore_same, winAt_setWin_same]
      simp only at powered
      simp [creditedWin, powered]
    · rw [write, coreAt_report, winAt_grantWin, if_neg hm, coreAt_setCore_same, winAt_setWin, if_neg hm]
    · rw [write]
      exact keeps ((setWin_traffic ..).trans (grantWin_traffic ..))
  case closes =>
    have write := writeWinCfg_off opened same l
    refine ⟨_, exec_windowClose h hw off res, by rw [write]; rfl, ?_, fun m hm => ?_, ?_⟩
    · rw [write, coreAt_report, winAt_closeWin, if_pos rfl]
    · rw [write, coreAt_report, winAt_closeWin, if_neg hm]
    · rw [write]
      exact keeps (closeWin_traffic ..)

end Sys2Proof.Machine
end

section
/-!
PROOFS. The power of a Pool's banks: requests, power-down and power-up (R221, R247 to R250).
-/

namespace Sys2Proof.Machine

/-! Zeroed banks. -/

/-- A table from which entries are dropped reads, at a key, as before or as the default. -/
theorem Store.get_filter {α : Type} (d : α) (m : Store α) (keep : Nat → Bool) (i : Nat) :
    Store.get d (m.filter fun e => keep e.1) i = if keep i then Store.get d m i else d := by
  induction m with
  | nil => simp [Store.get]
  | cons e t ih =>
    obtain ⟨j, x⟩ := e
    by_cases hj : i = j
    · subst hj
      cases hk : keep i with
      | true => simp [hk, Store.get]
      | false =>
        rw [List.filter_cons_of_neg (by simp [hk]), ih, hk]
        rfl
    · cases hk : keep j with
      | true => simp [hk, Store.get, hj, ih]
      | false =>
        rw [List.filter_cons_of_neg (by simp [hk]), ih]
        simp [Store.get, hj]

theorem rowAt_zeroBank (k : Core) (b r : Nat) : rowAt (zeroBank k b) r = if bankOf r = b then Row.zero else rowAt k r := by
  have kept := Store.get_filter Row.zero k.pool.rows (fun i => decide (bankOf i ≠ b)) r
  simp only [rowAt, zeroBank]
  by_cases h : bankOf r = b
  · simpa [h] using kept
  · simpa [h] using kept

/-- What power events leave of a core's banks: the requests, the banks off, those that power up, and the rings. -/
def powerPart (k : Core) := (k.pool.offReq, k.pool.off, k.pool.ups, k.pool.downAt)

theorem powerPart_zeroBanks (bs : List Nat) (k : Core) : powerPart (bs.foldl zeroBank k) = powerPart k :=
  foldl_kept powerPart (f := zeroBank) (fun _ _ => rfl) bs k

theorem rowAt_zeroBanks {bs : List Nat} {r : Nat} (h : bankOf r ∈ bs) (k : Core) : rowAt (bs.foldl zeroBank k) r = Row.zero := by
  induction bs generalizing k with
  | nil => cases h
  | cons b bs ih =>
    have stays (cs : List Nat) (k : Core) (z : rowAt k r = Row.zero) : rowAt (cs.foldl zeroBank k) r = Row.zero := by
      induction cs generalizing k with
      | nil => exact z
      | cons c cs ih => exact ih _ (by rw [rowAt_zeroBank, z, ite_self])
    rcases List.mem_cons.mp h with e | e
    · exact stays bs _ (by rw [rowAt_zeroBank, if_pos e])
    · exact ih e _

theorem Traffic.powerPart {s t : State} {p : Nat} (h : Traffic s t p) : powerPart (coreAt t p) = powerPart (coreAt s p) := by
  rw [h.core]; rfl

/-! Writes of CORE_POOL_PWR. -/

/-- The banks a word of CORE_POOL_PWR asks to power down (R250). -/
def askedBanks (v : Word) : List Nat := (List.range 16).filter (bitN v.toNat)

/-- A word asks anew for a bank under an enabled ring 0 to 3 (R248). -/
def asksUnderRing (k : Core) (v : Word) : Bool :=
  (askedBanks v).any fun b => !k.pool.offReq.contains b && (List.range 4).any fun n =>
    (ringAt k n).enable && overlapsBank (ringAt k n).base (ringAt k n).size b

/-- Banks that are off, and that a word lets power up (R249). -/
def risingBanks (k : Core) (v : Word) : List Nat :=
  k.pool.off.filter fun b => !(askedBanks v).contains b && !k.pool.ups.any fun u => u.1 == b

/-- A core whose bank power an accepted word sets in cycle c (R247, R249). -/
def poweredCore (k : Core) (v : Word) (c : Nat) : Core :=
  (risingBanks k v).foldl zeroBank { k with pool := { k.pool with
    offReq := askedBanks v
    ups := (k.pool.ups.filter fun u => !(askedBanks v).contains u.1) ++ (risingBanks k v).map fun b => (b, c + 256) } }

theorem mem_askedBanks {v : Word} {b : Nat} : b ∈ askedBanks v ↔ b < 16 ∧ wbit v b = true := by
  simp [askedBanks, wbit]

theorem writePoolPwr_eq (s : State) (p l : Nat) (v : Word) : writePoolPwr s p l v.toNat =
    if asksUnderRing (coreAt s p) v then (.badState, s)
    else (.done, releaseWithheld (setCore s p (poweredCore (coreAt s p) v (cycleOf s l))) p l) := rfl

theorem powerPart_poweredCore (k : Core) (v : Word) (c : Nat) : powerPart (poweredCore k v c) = (askedBanks v, k.pool.off,
    (k.pool.ups.filter fun u => !(askedBanks v).contains u.1) ++ (risingBanks k v).map fun b => (b, c + 256), k.pool.downAt) :=
  powerPart_zeroBanks ..

section
variable {s : State} {l p : Nat} {v : Word} (h : Reach s l p)
include h

theorem poolOf_reached : poolOf s l = (coreAt s p).pool := by
  simp only [poolOf, h.served]

theorem exec_poolBankOffRequest (asks : ∃ b, b < 16 ∧ wbit v b = true ∧ b ∉ (coreAt s p).pool.offReq) :
    exec (.poolBankOffRequest l v) s = .next (report (writePoolPwr s p l v.toNat).2 (writePoolPwr s p l v.toNat).1) := by
  obtain ⟨b, hb, set, anew⟩ := asks
  have own : ((List.range 16).any fun b => wbit v b && !(poolOf s l).offReq.contains b) = true :=
    List.any_eq_true.mpr ⟨b, List.mem_range.mpr hb, by simp [poolOf_reached h, set, anew]⟩
  rw [← regRow_poolPwr h, ← own]
  rfl

theorem exec_poolBankOffCancel (gives : ∃ b, b ∈ (coreAt s p).pool.offReq ∧ wbit v b = false ∧ b ∉ (coreAt s p).pool.off) :
    exec (.poolBankOffCancel l v) s = .next (report (writePoolPwr s p l v.toNat).2 (writePoolPwr s p l v.toNat).1) := by
  obtain ⟨b, asked, clear, on⟩ := gives
  have own : ((poolOf s l).offReq.any fun b => !wbit v b && !(poolOf s l).off.contains b) = true :=
    List.any_eq_true.mpr ⟨b, by rwa [poolOf_reached h], by simp [poolOf_reached h, clear, on]⟩
  rw [← regRow_poolPwr h, ← own]
  rfl

theorem exec_poolBankPowerUp {b : Nat} (off : b ∈ (coreAt s p).pool.off) (clear : wbit v b = false) :
    exec (.poolBankPowerUp l v) s = .next (report (writePoolPwr s p l v.toNat).2 (writePoolPwr s p l v.toNat).1) := by
  have own : ((poolOf s l).off.any fun b => !wbit v b) = true :=
    List.any_eq_true.mpr ⟨b, by rwa [poolOf_reached h], by simp [clear]⟩
  rw [← regRow_poolPwr h, ← own]
  rfl

end

/-- An accepted word sets the requests, and leaves which banks are off (R247, R249). -/
theorem writePoolPwr_accepted {s : State} {p : Nat} {v : Word} (apart : asksUnderRing (coreAt s p) v = false) (l : Nat) :
    ∃ t, writePoolPwr s p l v.toNat = (.done, t) ∧ Traffic (setCore s p (poweredCore (coreAt s p) v (cycleOf s l))) t p ∧
      (coreAt t p).pool.offReq = askedBanks v ∧ (coreAt t p).pool.off = (coreAt s p).pool.off ∧
      (coreAt t p).pool.ups = ((coreAt s p).pool.ups.filter fun u => !(askedBanks v).contains u.1) ++
        (risingBanks (coreAt s p) v).map fun b => (b, cycleOf s l + 256) := by
  have tr := releaseWithheld_traffic (setCore s p (poweredCore (coreAt s p) v (cycleOf s l))) p l
  have part := tr.powerPart
  rw [coreAt_setCore_same, powerPart_poweredCore, powerPart, Prod.mk.injEq, Prod.mk.injEq, Prod.mk.injEq] at part
  obtain ⟨offReq, off, ups, _⟩ := part
  refine ⟨_, ?_, tr, offReq, off, ups⟩
  rw [writePoolPwr_eq, apart, if_neg Bool.false_ne_true]

theorem writePoolPwr_rejected {s : State} {p : Nat} {v : Word} (under : asksUnderRing (coreAt s p) v = true) (l : Nat) :
    writePoolPwr s p l v.toNat = (.badState, s) := by
  rw [writePoolPwr_eq, if_pos under]

/-- An off bank that a word lets power up (R249). -/
theorem mem_risingBanks {k : Core} {v : Word} {b : Nat} (off : b ∈ k.pool.off) (clear : wbit v b = false)
    (down : ∀ u, u ∈ k.pool.ups → u.1 ≠ b) : b ∈ risingBanks k v := by
  have unasked : b ∉ askedBanks v := fun hb => by
    obtain ⟨_, set⟩ := mem_askedBanks.mp hb
    rw [clear] at set
    cases set
  refine List.mem_filter.mpr ⟨off, ?_⟩
  simpa [unasked] using fun n m hu e => down (n, m) hu e

/-- Settles O10: the write's cases are `writePoolPwr_accepted` and `writePoolPwr_rejected`. -/
theorem poolPowerRows : Obligations.PoolPowerRows := by
  intro s l p v h
  refine ⟨fun asks apart => ?_, fun asks under => ?_, fun gives apart => ?_, fun b hb off clear down apart => ?_⟩
  · obtain ⟨t, write, _, offReq, off, _⟩ := writePoolPwr_accepted apart l
    exact ⟨_, exec_poolBankOffRequest h asks, by rw [write]; rfl, by rw [write]; exact offReq, by rw [write]; exact off⟩
  · rw [exec_poolBankOffRequest h asks, writePoolPwr_rejected under]
  · obtain ⟨t, write, _, offReq, off, _⟩ := writePoolPwr_accepted apart l
    exact ⟨_, exec_poolBankOffCancel h gives, by rw [write]; rfl, by rw [write]; exact offReq, by rw [write]; exact off⟩
  · have rises := mem_risingBanks off clear down
    obtain ⟨t, write, tr, offReq, stays, ups⟩ := writePoolPwr_accepted apart l
    rw [exec_poolBankPowerUp h off clear, write]
    refine ⟨_, rfl, rfl, offReq, ?_, ?_, fun r hr => ?_⟩
    · rw [coreAt_report, ups]
      exact List.mem_append_right _ (List.mem_map_of_mem rises)
    · rwa [coreAt_report, stays]
    · obtain ⟨rows, _⟩ := tr.memory
      rw [coreAt_report, rows, coreAt_setCore_same]
      exact rowAt_zeroBanks (by rwa [hr]) _

/-! Banks under rings. -/

theorem regionOff_of_overlap {k : Core} {base size b : Nat} (h : b ∈ k.pool.offReq ∨ b ∈ k.pool.off)
    (laps : overlapsBank base size b = true) : regionOff k base size = true :=
  List.any_eq_true.mpr ⟨b, List.mem_append.mpr h, laps⟩

/-- Settles O11: the check of the banks is the last of R256 (`ringEnableCheck_of_regionOff`). -/
theorem banksUnderRingsStayOn : Obligations.BanksUnderRingsStayOn := by
  intro s l p v h
  refine ⟨fun b n hb hn set anew on laps => ?_, fun b n _ hn req laps on enforced off check => ?_⟩
  · have under : asksUnderRing (coreAt s p) v = true :=
      List.any_eq_true.mpr ⟨b, mem_askedBanks.mpr ⟨hb, set⟩, by simpa [anew] using ⟨n, hn, on, laps⟩⟩
    rw [exec_poolBankOffRequest h ⟨b, hb, set, anew⟩, writePoolPwr_rejected under]
  · have failed := ringEnableCheck_of_regionOff (regionOff_of_overlap req laps) check
    rw [exec_ringEnable h hn on, writeRingCfg_on enforced off on, failed]
    rfl

/-! Power events. -/

theorem withPowered_of_on {s : State} {l p : Nat} (hp : physOf s l = some p) (gate : gateOn s p = true)
    (runs : (cavAt s (cavOf l)).running = true) (f : Nat → State) : withPowered s l f = f p := by
  simp [withPowered, hp, gate, runs]

/-- Something can still reach bank b at cycle c: a granted credit, a mark, an inbound row or a row to be written back (R247). -/
def bankReached (k : Core) (b c : Nat) : Bool :=
  ((List.range 16).any fun n => (ringAt k n).enable && decide (0 < (ringAt k n).outst) &&
      overlapsBank (ringAt k n).base (ringAt k n).size b) ||
  ((List.range 8).any fun w => (winAt k w).opened && decide (0 < (winAt k w).outst) &&
      overlapsBank (winAt k w).base (winAt k w).size b) ||
  k.pool.marks.any (fun m => bankOf m.row == b && markSeen c m) ||
  k.mv.inb.any (fun e => !e.fs && bankOf e.row == b) || k.pool.wb.any fun r => bankOf r == b

/-- A core whose bank b has gone off at the reserved slot c. -/
def bankDowned (k : Core) (b c : Nat) : Core :=
  zeroBank { k with pool := { k.pool with
    off := setInsert k.pool.off b, ups := k.pool.ups.filter (fun u => u.1 ≠ b), downAt := Store.set 0 k.pool.downAt b c } } b

/-- A core whose bank b, the power-up u of which is over, accepts accesses. -/
def bankUpped (k : Core) (b : Nat) (u : Nat × Nat) : Core :=
  { k with pool := { k.pool with off := setErase k.pool.off b, ups := k.pool.ups.erase u } }

section
variable {s : State} {l p b : Nat} (hp : physOf s l = some p) (gate : gateOn s p = true)
  (runs : (cavAt s (cavOf l)).running = true)
include hp gate runs

theorem exec_poolBankPowerDown : exec (.poolBankPowerDown l b) s = .next (
    if !(coreAt s p).pool.offReq.contains b || (coreAt s p).pool.off.contains b ||
      bankReached (coreAt s p) b (nextPhase (cycleOf s l) (reservedPhase b) 32) then s
    else setCore s p (bankDowned (coreAt s p) b (nextPhase (cycleOf s l) (reservedPhase b) 32))) := by
  change execPoolBankPowerDown l b s = _
  rw [execPoolBankPowerDown, withPowered_of_on hp gate runs]
  simp only [bankReached, Bool.or_assoc]
  rfl

theorem exec_poolBankReady_none (none : (coreAt s p).pool.ups.find? (fun x => x.1 == b) = none) :
    exec (.poolBankReady l b) s = .next s := by
  change execPoolBankReady l b s = _
  rw [execPoolBankReady, withPowered_of_on hp gate runs]
  simp only [none]

theorem exec_poolBankReady_some {u : Nat × Nat} (up : (coreAt s p).pool.ups.find? (fun x => x.1 == b) = some u) :
    exec (.poolBankReady l b) s = .next (
      if cycleOf s l < u.2 then s else releaseWithheld (setCore s p (bankUpped (coreAt s p) b u)) p l) := by
  change execPoolBankReady l b s = _
  rw [execPoolBankReady, withPowered_of_on hp gate runs]
  simp only [up]
  rfl

end

theorem mem_setErase {l : List Nat} {x y : Nat} : y ∈ setErase l x ↔ y ∈ l ∧ y ≠ x := by
  simp [setErase]

/-- A bank that has gone off is off from its slot on (R247). -/
theorem bankOff_bankDowned (k : Core) (b c n : Nat) : bankOff (bankDowned k b c) b n = decide (c ≤ n) := by
  have off : (setInsert k.pool.off b).contains b = true := List.contains_iff_mem.mpr (mem_setInsert.mpr (.inl rfl))
  have up : ((k.pool.ups.filter fun u => u.1 ≠ b).any fun u => u.1 == b && decide (u.2 ≤ n)) = false := by
    simp +contextual
  simp only [bankOff, bankDowned, zeroBank, off, up, Store.get_set_same]
  simp

theorem bankOff_bankUpped (k : Core) (b : Nat) (u : Nat × Nat) (n : Nat) : bankOff (bankUpped k b u) b n = false := by
  have off : (setErase k.pool.off b).contains b = false :=
    Bool.eq_false_iff.mpr fun h => (mem_setErase.mp (List.contains_iff_mem.mp h)).2 rfl
  simp only [bankOff, bankUpped, off, Bool.false_and]

theorem Traffic.bankOff {s t : State} {p : Nat} (h : Traffic s t p) (b c : Nat) :
    bankOff (coreAt t p) b c = bankOff (coreAt s p) b c := by
  rw [h.core]; rfl

theorem bankReached_iff {k : Core} {b c : Nat} : bankReached k b c = false ↔
    (∀ n, n < 16 → (ringAt k n).enable = true → (ringAt k n).outst = 0 ∨
      overlapsBank (ringAt k n).base (ringAt k n).size b = false) ∧
    (∀ w, w < 8 → (winAt k w).opened = true → (winAt k w).outst = 0 ∨
      overlapsBank (winAt k w).base (winAt k w).size b = false) ∧
    (∀ m, m ∈ k.pool.marks → bankOf m.row = b → markSeen c m = false) ∧
    (∀ x, x ∈ k.mv.inb → x.fs = true ∨ bankOf x.row ≠ b) ∧ (∀ r, r ∈ k.pool.wb → bankOf r ≠ b) := by
  simp only [bankReached, Bool.or_eq_false_iff, List.any_eq_false, List.mem_range, Bool.and_eq_true, decide_eq_true_eq, beq_iff_eq,
    Bool.not_eq_true', and_assoc, not_and, Bool.not_eq_true]
  refine and_congr ?_ (and_congr ?_ (and_congr .rfl (and_congr ?_ .rfl)))
  · grind
  · grind
  · grind

/-- Settles O43: a bank goes off by `bankOff_bankDowned`, and on again by `bankOff_bankUpped` and `ringAt_releaseWithheld`. -/
theorem bankPowerEvents : Obligations.BankPowerEvents := by
  intro s l p b hp gate runs hb k c unreached
  have down := exec_poolBankPowerDown (b := b) hp gate runs
  refine ⟨fun req on apart => ?off, fun stays => ?stays, fun u up => ⟨fun early => ?early, fun due => ?ready⟩,
    exec_poolBankReady_none hp gate runs⟩
  case off =>
    have quiet : bankReached k b c = false := bankReached_iff.mpr apart
    have going : ¬(!k.pool.offReq.contains b || k.pool.off.contains b || bankReached k b c) = true := by
      simp [req, on, quiet]
    rw [down, if_neg going]
    refine ⟨_, rfl, ?_, fun n hn => ?_, fun r hr => ?_, fun r hr => ?_, othersKept_setCore s p _⟩
    · rw [coreAt_setCore_same, bankOff_bankDowned]
      exact decide_eq_true (Nat.le_refl c)
    · rw [coreAt_setCore_same, bankOff_bankDowned]
      exact decide_eq_false (Nat.not_le.mpr hn)
    · rw [coreAt_setCore_same, bankDowned, rowAt_zeroBank, if_pos hr]
    · rw [coreAt_setCore_same, bankDowned, rowAt_zeroBank, if_neg hr]
      rfl
  case stays =>
    have kept : (!k.pool.offReq.contains b || k.pool.off.contains b || bankReached k b c) = true := by
      rcases stays with e | e | e
      · simp [e]
      · simp [e]
      · have reached : bankReached k b c = true := Bool.not_eq_false _ ▸ mt bankReached_iff.mp e
        simp [reached]
    rw [down, if_pos kept]
  case early => rw [exec_poolBankReady_some hp gate runs up, if_pos early]
  case ready =>
    have tr := releaseWithheld_traffic (setCore s p (bankUpped k b u)) p l
    rw [exec_poolBankReady_some hp gate runs up, if_neg (Nat.not_lt.mpr due)]
    refine ⟨_, rfl, fun n => ?_, fun n hn withheld kind live powered => ?_, ?_, ?_⟩
    · rw [tr.bankOff, coreAt_setCore_same, bankOff_bankUpped]
    · have same : ringAt (coreAt (setCore s p (bankUpped k b u)) p) n = ringAt k n := by rw [coreAt_setCore_same]; rfl
      rw [tr.regionOff] at powered
      have granted := ringAt_releaseWithheld (s := setCore s p (bankUpped k b u)) (p := p) hn (by rwa [same]) (by rwa [same])
        (by rwa [same]) (by rwa [same]) l
      rw [granted, same]
      exact ⟨rfl, rfl⟩
    · refine MemoryKept.trans ⟨fun r => ?_, fun v => ?_⟩ tr.memory <;> rw [coreAt_setCore_same] <;> rfl
    · exact (othersKept_setCore s p _).trans tr.others

end Sys2Proof.Machine
end

section
/-!
PROOFS. The fetch of a command row, and an all-zero slot (R215, R344, R346, R347, R350, R352).
-/

namespace Sys2Proof.Machine

/-! Errors of a Pool row. -/

/-- A table in canonical form reads, at a key it lists, the entry listed, which is not the default. -/
theorem Store.get_of_mem {α : Type} [DecidableEq α] {d : α} {m : Store α} {lo i : Nat} {x : α}
    (h : Store.wfFrom d lo m = true) (hm : (i, x) ∈ m) : Store.get d m i = x ∧ x ≠ d := by
  induction m generalizing lo with
  | nil => cases hm
  | cons e t ih =>
    obtain ⟨j, y⟩ := e
    have ⟨_, distinct⟩ := Store.keys_of_wfFrom h
    simp only [Store.wfFrom, Bool.and_eq_true, decide_eq_true_eq] at h
    obtain ⟨⟨_, entry⟩, rest⟩ := h
    rcases List.mem_cons.mp hm with e | later
    · cases e
      exact ⟨if_pos rfl, entry⟩
    · have apart : i ≠ j := fun e =>
        (List.nodup_cons.mp distinct).1 (List.mem_map.mpr ⟨(i, x), later, e⟩)
      rw [Store.get, if_neg apart]
      exact ih rest later

/-- A row none of whose codewords holds an error reads as it is stored (R501). -/
theorem rowErrs_sound {k : Core} {row : Nat} (sound : ∀ i, i < 66 → Store.get 0 k.upsets.pool (row * 66 + i) = 0)
    (wf : Store.wf 0 k.upsets.pool = true) : rowErrs k row = [] := by
  refine List.filter_eq_nil_iff.mpr fun e he hrow => ?_
  obtain ⟨listed, wrong⟩ := Store.get_of_mem wf he
  have place : e.1 = row * 66 + e.1 % 66 := by
    have := Nat.div_add_mod e.1 66
    rw [beq_iff_eq.mp hrow] at this
    omega
  rw [place, sound _ (Nat.mod_lt _ (by decide))] at listed
  exact wrong listed.symm

/-! Reserved slots. -/

theorem le_nextPhase (c r m : Nat) : c ≤ nextPhase c r m := Nat.le_add_right ..

theorem le_reservedFrom (k : Core) (c b : Nat) : c ≤ reservedFrom k c b := by
  have free : c ≤ nextPhase (max c (Store.get 0 k.pool.given b)) (reservedPhase b) 32 :=
    (Nat.le_max_left ..).trans (le_nextPhase ..)
  unfold reservedFrom
  dsimp only
  split
  · exact free.trans (Nat.le_add_right ..)
  · exact free

/-- The errors that a read of a row in a cycle to come finds are counted once its data is available (R215, R220, R506). -/
theorem usePoolRow_late {s : State} {p l row e : Nat} (h : cycleOf s l ≤ e) : LateOnly s (usePoolRow s p l row e false) p ∧
    (rowBad (coreAt s p) row = true →
      (⟨e + bankLatency (bankOf row), .poolErr (correctedIn (rowErrs (coreAt s p) row)) 1⟩ : Late) ∈
        (coreAt (usePoolRow s p l row e false) p).late) := by
  unfold usePoolRow
  dsimp only
  split
  · next none =>
    refine ⟨.refl s p, fun bad => ?_⟩
    rw [rowBad, List.isEmpty_iff.mp none] at bad
    cases bad
  · have ahead : ¬e + bankLatency (bankOf row) < cycleOf s l := by omega
    simp only [Bool.and_false, Bool.false_eq_true, if_false, happen, if_neg ahead]
    refine ⟨addLate_lateOnly .., fun bad => ?_⟩
    have one : b2n (badIn (rowErrs (coreAt s p) row)) = 1 := by rw [← rowBad, bad]; rfl
    rw [coreAt_updCore_same, one]
    exact mem_insertLate ..

/-! The fetch. -/

/-- The Pool row that queue q fetches next (R344). -/
def nextRow (k : Core) (q : Nat) : Nat := ringRow (ringAt k q) (fetchCount k q)

/-- The row that queue q fetches next, as its buffer will hold it (R344, R346). -/
def fetchedRow (k : Core) (c q : Nat) : FRow :=
  let row := nextRow k q
  { count := fetchCount k q, row := seenRow k row, bad := rowBad k row,
    avail := reservedFrom k c (bankOf row) + bankLatency (bankOf row) }

/-- A queue with a row more in its buffer. -/
def bufferRow (x : Queue) (f : FRow) : Queue :=
  { x with bufs := x.bufs ++ [f], ready := if x.bufs.isEmpty then max x.ready f.avail else x.ready, restart := false }

/-- The state once queue q has fetched its next row, before it is judged. -/
def fetchNext (s : State) (p l q : Nat) : State :=
  let k := coreAt s p
  let row := nextRow k q
  let e := reservedFrom k (cycleOf s l) (bankOf row)
  updQueue (updCore (usePoolRow s p l row e false) p fun k => takeSlot k (bankOf row) e) p q fun x =>
    bufferRow x (fetchedRow k (cycleOf s l) q)

theorem exec_commandRowFetch {s : State} {l q p : Nat} (hl : liveCore s l = some p)
    (can : canFetch (coreAt s p) (cycleOf s l) q = true) :
    exec (.commandRowFetch l q) s = .next (stopBadRow (fetchNext s p l q) p l q) := by
  change execCommandRowFetch l q s = _
  simp only [execCommandRowFetch, withLive, hl, can, Bool.not_true, Bool.false_eq_true, if_false]
  rfl

theorem fetchNext_core (s : State) (p l q : Nat) : ∃ late, coreAt (fetchNext s p l q) p =
    setQueue { takeSlot (coreAt s p) (bankOf (nextRow (coreAt s p) q))
        (reservedFrom (coreAt s p) (cycleOf s l) (bankOf (nextRow (coreAt s p) q))) with late := late } q
      (bufferRow (queueAt (coreAt s p) q) (fetchedRow (coreAt s p) (cycleOf s l) q)) ∧ OthersKept s (fetchNext s p l q) p ∧
    (rowBad (coreAt s p) (nextRow (coreAt s p) q) = true →
      (⟨(fetchedRow (coreAt s p) (cycleOf s l) q).avail,
        .poolErr (correctedIn (rowErrs (coreAt s p) (nextRow (coreAt s p) q))) 1⟩ : Late) ∈ late) := by
  obtain ⟨⟨core, others⟩, late⟩ := usePoolRow_late (p := p) (row := nextRow (coreAt s p) q)
    (le_reservedFrom (coreAt s p) (cycleOf s l) (bankOf (nextRow (coreAt s p) q)))
  refine ⟨_, ?_, (others.trans (othersKept_updCore _ p _)).trans (othersKept_updCore _ p _), late⟩
  unfold fetchNext
  dsimp only
  rw [coreAt_updQueue_same, coreAt_updCore_same, core]
  rfl

/-- A queue whose first row is sound goes on (R346). -/
theorem stopBadRow_sound {s : State} {p q : Nat}
    (h : ∀ b rest, (queueAt (coreAt s p) q).bufs = b :: rest → frowBad b = false) (l : Nat) : stopBadRow s p l q = s := by
  unfold stopBadRow
  dsimp only
  split
  · rfl
  · next b rest e => rw [h b rest e, if_neg fun c => Bool.false_ne_true c.1]

/-- A queue whose first row is uncorrectable stops (R346). -/
theorem stopBadRow_stops {s : State} {p q : Nat} {b : FRow} {rest : List FRow} (h : (queueAt (coreAt s p) q).bufs = b :: rest)
    (bad : frowBad b = true) (runs : (queueAt (coreAt s p) q).state = 1) (l : Nat) :
    ∃ x : Queue, queueAt (coreAt (stopBadRow s p l q) p) q = { x with state := 2, restart := true, bufs := [] } := by
  unfold stopBadRow
  simp only [h, bad, runs, and_self, if_true]
  rw [coreAt_logCore, coreAt_updQueue_same, queueAt_setQueue_same]
  exact ⟨_, rfl⟩

theorem state_of_canFetch {k : Core} {c q : Nat} (h : canFetch k c q = true) : (queueAt k q).state = 1 := by
  simp only [canFetch, Bool.and_eq_true, beq_iff_eq] at h
  obtain ⟨⟨⟨⟨_, runs⟩, _⟩, _⟩, _⟩ := h
  exact runs

theorem memoryKept_of_core {s t : State} {p : Nat} (rows : (coreAt t p).pool.rows = (coreAt s p).pool.rows)
    (flow : (coreAt t p).flow = (coreAt s p).flow) : MemoryKept s t p :=
  ⟨fun r => by rw [rowAt, rows]; rfl, fun u => by rw [trowAt, flow]; rfl⟩

section
variable {s : State} {l q p : Nat} (hl : liveCore s l = some p) (can : canFetch (coreAt s p) (cycleOf s l) q = true)
include hl can

/-- A fetched row enters the buffer unless it is uncorrectable and the next to decode (R346). -/
theorem fetch_buffers (sound : rowBad (coreAt s p) (nextRow (coreAt s p) q) = false ∨
      (queueAt (coreAt s p) q).bufs ≠ [])
    (held : ∀ b, b ∈ (queueAt (coreAt s p) q).bufs → frowBad b = false) :
    ∃ t, exec (.commandRowFetch l q) s = .next t ∧
      (queueAt (coreAt t p) q).bufs = (queueAt (coreAt s p) q).bufs ++ [fetchedRow (coreAt s p) (cycleOf s l) q] ∧
      (queueAt (coreAt t p) q).state = 1 ∧ (∀ n, ringAt (coreAt t p) n = ringAt (coreAt s p) n) ∧ MemoryKept s t p ∧
      OthersKept s t p := by
  obtain ⟨late, core, others, _⟩ := fetchNext_core s p l q
  have first (b : FRow) (rest : List FRow) (h : (queueAt (coreAt (fetchNext s p l q) p) q).bufs = b :: rest) : frowBad b = false := by
    rw [core, queueAt_setQueue_same] at h
    change (queueAt (coreAt s p) q).bufs ++ [fetchedRow (coreAt s p) (cycleOf s l) q] = b :: rest at h
    cases e : (queueAt (coreAt s p) q).bufs with
    | nil =>
      rw [e, List.nil_append] at h
      cases h
      rcases sound with sound | sound
      · exact Bool.or_eq_false_iff.mpr ⟨sound, rfl⟩
      · exact absurd e sound
    | cons a as =>
      rw [e, List.cons_append] at h
      cases h
      exact held b (e ▸ List.mem_cons_self)
  rw [exec_commandRowFetch hl can, stopBadRow_sound first]
  refine ⟨_, rfl, ?_, ?_, fun n => ?_, memoryKept_of_core ?_ ?_, others⟩
  · rw [core, queueAt_setQueue_same]
    rfl
  · rw [core, queueAt_setQueue_same]
    exact state_of_canFetch can
  · rw [core, ringAt_setQueue]
    rfl
  · rw [core, setQueue_pool]
    rfl
  · rw [core, setQueue_flow]
    rfl

/-- One that is uncorrectable and the next to decode stops the queue (R346). -/
theorem fetch_stops (bad : rowBad (coreAt s p) (nextRow (coreAt s p) q) = true)
    (empty : (queueAt (coreAt s p) q).bufs = []) :
    ∃ t, exec (.commandRowFetch l q) s = .next t ∧ (queueAt (coreAt t p) q).state = 2 ∧
      (queueAt (coreAt t p) q).bufs = [] ∧ (queueAt (coreAt t p) q).restart = true ∧
      (⟨(fetchedRow (coreAt s p) (cycleOf s l) q).avail,
        .poolErr (correctedIn (rowErrs (coreAt s p) (nextRow (coreAt s p) q))) 1⟩ : Late) ∈
        (coreAt t p).late ∧ MemoryKept s t p ∧ OthersKept s t p := by
  obtain ⟨late, core, others, found⟩ := fetchNext_core s p l q
  have first : (queueAt (coreAt (fetchNext s p l q) p) q).bufs = [fetchedRow (coreAt s p) (cycleOf s l) q] := by
    rw [core, queueAt_setQueue_same]
    change (queueAt (coreAt s p) q).bufs ++ _ = _
    rw [empty, List.nil_append]
  have runs : (queueAt (coreAt (fetchNext s p l q) p) q).state = 1 := by
    rw [core, queueAt_setQueue_same]
    exact state_of_canFetch can
  obtain ⟨x, stopped⟩ := stopBadRow_stops first (Bool.or_eq_true_iff.mpr (.inl bad)) runs l
  have left := stopBadRow_headLeft (fetchNext s p l q) p l q
  obtain ⟨rows, flow, _, _⟩ := left.kept
  rw [exec_commandRowFetch hl can]
  refine ⟨_, rfl, by rw [stopped], by rw [stopped], by rw [stopped], ?_, memoryKept_of_core ?_ ?_, ?_⟩
  · rw [left, core, setQueue_late]
    exact found bad
  · rw [rows, core, setQueue_pool]
    rfl
  · rw [flow, core, setQueue_flow]
    rfl
  · exact others.trans (stopBadRow_headKept ..).others

end

/-! An all-zero slot. -/

theorem exec_nop {s : State} {l q p : Nat} (hl : liveCore s l = some p) (free : queueFree (coreAt s p) q = true)
    (zero : headBits (queueAt (coreAt s p) q) = some 0) : exec (.nop l q) s = .next (if gateHolds s l 0 then s
      else leaveHead s p l q (decodeCycle s l (queueAt (coreAt s p) q) + 1)) := by
  change execNop l q s = _
  simp [execNop, withLive, hl, free, zero]

/-- Settles O32: a fetch by `fetch_buffers` and `fetch_stops`, an all-zero slot by what leaving the head changes. -/
theorem commandRowsAndNops : Obligations.CommandRowsAndNops := by
  refine ⟨fun s l q p count row hl can hc hr => ?fetch, fun s l q p hl free zero => ?nop⟩
  case fetch =>
    subst hc hr
    refine ⟨fun sound wf => ?_, fetch_buffers hl can, fetch_stops hl can⟩
    have none := rowErrs_sound sound wf
    exact ⟨by rw [seenRow, none]; rfl, by rw [rowBad, none]; rfl⟩
  case nop =>
    have row := exec_nop hl free zero
    refine ⟨fun held => by rw [row, if_pos held], fun opened slot => ?_, fun opened slot => ?_⟩
    · obtain ⟨ecc, left⟩ := leaveHead_next slot l (decodeCycle s l (queueAt (coreAt s p) q) + 1)
      rw [row, opened, if_neg Bool.false_ne_true, left]
      refine ⟨_, rfl, ?_, fun r hr => ?_, ?_⟩
      · rw [coreAt_setCore_same, queueAt_setQueue_ecc]
      · rw [coreAt_setCore_same]
        exact (queueAt_setQueue ..).trans (if_neg hr)
      · rw [coreAt_setCore_same]
        exact ⟨rfl, rfl, rfl, rfl, rfl, othersKept_setCore s p _⟩
    · obtain ⟨part, _, _⟩ := leaveHead_leaves s p l q (decodeCycle s l (queueAt (coreAt s p) q) + 1)
      have rest := leaveHead_restKept s p l q (decodeCycle s l (queueAt (coreAt s p) q) + 1)
      simp only [headPart, Prod.mk.injEq, slot, if_true] at part
      obtain ⟨_, _, _, _, _, next, head⟩ := part
      rw [row, opened, if_neg Bool.false_ne_true]
      exact ⟨_, rfl, next, head, rest.memory, rest.others⟩

end Sys2Proof.Machine
end

section
/-!
PROOFS. Packets that arrive and their answers, and the doorbells of rings (R239, R240, R243).
-/

namespace Sys2Proof.Machine

/-! Packets that wait at a core. -/

/-- From s to t, core p changes in the packets that wait at it, alone; no record is made. -/
structure Mailed (s t : State) (p : Nat) : Prop where
  core : coreAt t p = { coreAt s p with
    mv := { (coreAt s p).mv with inj := (coreAt t p).mv.inj, injS := (coreAt t p).mv.injS, delivered := (coreAt t p).mv.delivered } }
  others : OthersKept s t p
  log : t.log = s.log

theorem Mailed.refl (s : State) (p : Nat) : Mailed s s p := ⟨rfl, .refl s p, rfl⟩

theorem Mailed.trans {s t u : State} {p : Nat} (h : Mailed s t p) (k : Mailed t u p) : Mailed s u p := by
  refine ⟨?_, h.others.trans k.others, k.log.trans h.log⟩
  rw [k.core, h.core]

theorem Mailed.of_cores {s t : State} (p : Nat) (h : t.cores = s.cores) (log : t.log = s.log) : Mailed s t p := by
  have core : coreAt t p = coreAt s p := by rw [coreAt, h]; rfl
  exact ⟨by rw [core], .of_cores h p, log⟩

theorem setCore_mailed {s : State} {p : Nat} {k : Core} (h : k = { coreAt s p with
    mv := { (coreAt s p).mv with inj := k.mv.inj, injS := k.mv.injS, delivered := k.mv.delivered } }) : Mailed s (setCore s p k) p :=
  ⟨by rw [coreAt_setCore_same]; exact h, othersKept_setCore s p k, rfl⟩

theorem report_mailed (s : State) (st : Status) (p : Nat) : Mailed s (report s st) p := .of_cores p rfl rfl

theorem inject_mailed (s : State) (p src : Nat) (pkt : Packet) : Mailed s (inject s p src pkt) p := by
  obtain ⟨inj, injS, h, _⟩ := inject_changes s p src pkt
  rw [h]
  exact setCore_mailed rfl

section
variable {s t : State} {p : Nat} (h : Mailed s t p)
include h

theorem Mailed.traffic : Traffic s t p := by
  refine ⟨?_, h.others, h.log⟩
  rw [h.core]

theorem Mailed.memory : MemoryKept s t p := h.traffic.memory

theorem Mailed.pool : (coreAt t p).pool = (coreAt s p).pool := by rw [h.core]

theorem Mailed.ringAt (n : Nat) : ringAt (coreAt t p) n = ringAt (coreAt s p) n := by rw [h.core]; rfl

theorem Mailed.winAt (w : Nat) : winAt (coreAt t p) w = winAt (coreAt s p) w := by rw [h.core]; rfl

theorem Mailed.wins : (coreAt t p).mv.wins = (coreAt s p).mv.wins := by rw [h.core]

theorem Mailed.inb : (coreAt t p).mv.inb = (coreAt s p).mv.inb := by rw [h.core]

end

/-! A packet that arrives. -/

/-- The port is one of core p: its crossbar port, or its own bundle. -/
def Local (port : Port) (p : Nat) : Prop := port = .vein ∨ ∃ errs, port = .sump p errs

/-- A packet of the Vein leaves the list of those that have reached the interface. -/
def taken (s : State) (port : Port) (pkt : Packet) (p : Nat) : State :=
  match port with
  | .vein => updCore s p fun k => { k with mv := { k.mv with delivered := k.mv.delivered.erase pkt } }
  | .sump _ _ => s

theorem taken_mailed (s : State) (port : Port) (pkt : Packet) (p : Nat) : Mailed s (taken s port pkt p) p := by
  cases port with
  | vein => exact setCore_mailed rfl
  | sump b errs => exact .refl s p

@[simp] theorem respFull_taken (s : State) (port : Port) (pkt : Packet) (p : Nat) :
    respFull (coreAt (taken s port pkt p) p) = respFull (coreAt s p) := by
  cases port <;> simp [taken, respFull]

@[simp] theorem ackOf_taken (s : State) (port : Port) (pkt : Packet) (p l : Nat) (x : Packet) (st : Status) :
    ackOf (taken s port pkt p) l x st = ackOf s l x st := by
  cases port <;> rfl

@[simp] theorem isProducer_taken (s : State) (port : Port) (pkt : Packet) (p l kind die core : Nat) (x : Sender) :
    isProducer (taken s port pkt p) l kind die core x = isProducer s l kind die core x := by
  cases port <;> rfl

@[simp] theorem ownSender_taken (s : State) (port : Port) (pkt : Packet) (p l : Nat) :
    ownSender (taken s port pkt p) l = ownSender s l := by
  cases port <;> rfl

@[simp] theorem cycleOf_taken (s : State) (port : Port) (pkt : Packet) (p l : Nat) :
    cycleOf (taken s port pkt p) l = cycleOf s l := by
  cases port <;> rfl

/-- A core's change of its packets or memory puts no core in reset. -/
theorem inReset_updCore {s : State} {p : Nat} {f : Core → Core} (h : (f (coreAt s p)).gateShort = (coreAt s p).gateShort) (l : Nat) :
    inReset (updCore s p f) l = inReset s l := by
  have bad (q : Nat) : physBad (updCore s p f) q = physBad s q := by
    simp only [physBad, coreAt_updCore]
    split
    · next e => rw [h, e]; rfl
    · rfl
  simp only [inReset, failedHeld, mapCore, bad]
  rfl

theorem inReset_taken (s : State) (port : Port) (pkt : Packet) (p l : Nat) :
    inReset (taken s port pkt p) l = inReset s l := by
  cases port with
  | vein => exact inReset_updCore rfl l
  | sump b errs => rfl

@[simp] theorem freeFlits_cores (s : State) (port : Port) (pkt : Packet) : (freeFlits s port pkt).cores = s.cores := by
  cases port <;> rfl

@[simp] theorem coreAt_freeFlits (s : State) (port : Port) (pkt : Packet) (p : Nat) : coreAt (freeFlits s port pkt) p = coreAt s p := by
  cases port <;> rfl

@[simp] theorem freeFlits_answer (s : State) (port : Port) (pkt : Packet) : (freeFlits s port pkt).answer = s.answer := by
  cases port <;> rfl

@[simp] theorem freeFlits_log (s : State) (port : Port) (pkt : Packet) : (freeFlits s port pkt).log = s.log := by
  cases port <;> rfl

theorem freeFlits_mailed (s : State) (port : Port) (pkt : Packet) (p : Nat) : Mailed s (freeFlits s port pkt) p :=
  .of_cores p (freeFlits_cores ..) (freeFlits_log ..)

/-- A packet next at the port of a core is the core's to take, but for a WR or SIG for an unsettled id (R282). -/
theorem deliverOpt_served {s : State} {port : Port} {pkt : Packet} {l p : Nat} (next : NextIn s port pkt l)
    (phys : physOf s l = some p) (place : Local port p)
    (served : (isUnsettled s l && (pkt.ptype == .wr || pkt.ptype == .sig)) = false) (f : State → Nat → Nat → Option State) :
    deliverOpt s port pkt f = (f (taken s port pkt p) l p).elim s fun u => freeFlits u port pkt := by
  obtain ⟨core, up, header, turn⟩ := next
  have met : deliverOpt s port pkt f = match f (taken s port pkt p) l p with
      | none => s
      | some u => freeFlits u port pkt := by
    unfold deliverOpt
    simp only [core, up, header, turn, Bool.not_true, Bool.or_self, Bool.false_eq_true, if_false, phys]
    rcases place with e | ⟨errs, e⟩ <;> subst e <;> simp [taken, served] <;> rfl
  rw [met]
  cases f (taken s port pkt p) l p <;> rfl

theorem deliverOpt_of_arrives {s : State} {port : Port} {pkt : Packet} {l p : Nat} (h : Arrives s port pkt l p)
    (f : State → Nat → Nat → Option State) :
    deliverOpt s port pkt f = (f (taken s port pkt p) l p).elim s fun u => freeFlits u port pkt := by
  obtain ⟨next, phys, settled, _, place⟩ := h
  exact deliverOpt_served next phys place (by rw [settled]; rfl) f

/-- Its answer waits among the packets of the core. -/
theorem answerPkt_mailed {port : Port} {p : Nat} (h : Local port p) (s : State) (l : Nat) (pkt : Packet) (st : Status) :
    Mailed s (answerPkt s p l port pkt st) p := by
  rcases h with e | ⟨errs, e⟩ <;> subst e
  · exact (report_mailed s st p).trans (inject_mailed ..)
  · exact (report_mailed s st p).trans (setCore_mailed rfl)

theorem answerPkt_waits {port : Port} {p : Nat} (h : Local port p) (s : State) (l : Nat) (pkt : Packet) (st : Status) :
    ∃ x, x ∈ (coreAt (answerPkt s p l port pkt st) p).mv.inj ++ (coreAt (answerPkt s p l port pkt st) p).mv.injS ∧
      x.pkt = ackOf s l pkt st := by
  rcases h with e | ⟨errs, e⟩ <;> subst e
  · obtain ⟨inj, injS, h, x, hx, pkt⟩ := inject_changes (report s st) p 5 (ackOf s l pkt st)
    refine ⟨x, ?_, pkt⟩
    change x ∈ (coreAt (inject (report s st) p 5 _) p).mv.inj ++ (coreAt (inject (report s st) p 5 _) p).mv.injS
    rw [h, coreAt_updCore_same]
    exact hx
  · simp only [answerPkt]
    rw [coreAt_updCore_same]
    exact ⟨_, List.mem_append_right _ (List.mem_append_right _ (.head _)), rfl⟩

@[simp] theorem inject_answer (s : State) (p src : Nat) (pkt : Packet) : (inject s p src pkt).answer = s.answer := by
  obtain ⟨inj, injS, h, _⟩ := inject_changes s p src pkt
  rw [h]
  rfl

@[simp] theorem answerPkt_answer (s : State) (p l : Nat) (port : Port) (pkt : Packet) (st : Status) :
    (answerPkt s p l port pkt st).answer = st := by
  cases port with
  | vein => exact inject_answer ..
  | sump b errs => rfl

/-! A flag set from outside the queues. -/

/-- While no command sleeps a flag wakes none. -/
theorem wakeWaiters_asleep {s : State} {p : Nat} (h : ∀ q, (queueAt (coreAt s p) q).sleep = none) (l c : Nat) :
    wakeWaiters s p l c = s := by
  have one (q : Nat) : wakeQueue s p l c q = s := by simp only [wakeQueue, h]
  simp [wakeWaiters, List.range_succ, one]

section
variable {s : State} {p : Nat} (clean : (coreAt s p).upsets.sync = []) (awake : ∀ q, (queueAt (coreAt s p) q).sleep = none)
  (l c flag setter : Nat) (src : List (Nat × Nat))
include clean awake

/-- A set of a flag leaves it SET, and changes the sync unit alone; an overrun does too (R296, R299). -/
theorem setFlag_sets (ctx : Nat) : ∃ sync, coreAt (setFlag s p l c flag setter ctx src).2 p = { coreAt s p with sync := sync } ∧
    flag ∈ sync.flags ∧ OthersKept s (setFlag s p l c flag setter ctx src).2 p := by
  have word : (useWord s p l 4 (flag / 64)).2 = s := congrArg Prod.snd (useWords_clean clean l [(4, flag / 64)])
  unfold setFlag
  rw [word]
  dsimp only
  split
  · next set =>
    have mem : flag ∈ (coreAt s p).sync.flags := List.contains_iff_mem.mp set
    unfold overrunFlag
    dsimp only
    split
    · rw [coreAt_logCore, coreAt_setCore_same]
      exact ⟨_, rfl, mem, (othersKept_setCore s p _).trans (.of_cores rfl p)⟩
    · rw [coreAt_setCore_same]
      exact ⟨_, rfl, mem, othersKept_setCore s p _⟩
  · rw [wakeWaiters_asleep, coreAt_setCore_same]
    · exact ⟨_, rfl, mem_setInsert.mpr (.inl rfl), othersKept_setCore s p _⟩
    · intro q
      rw [coreAt_setCore_same]
      exact awake q

theorem setInTurn_sets : ∃ sync, coreAt (setInTurn s p l c flag setter src).2 p = { coreAt s p with sync := sync } ∧
    flag ∈ sync.flags ∧ OthersKept s (setInTurn s p l c flag setter src).2 p := by
  have noted (c r : Nat) : coreAt (noteEvent s p flag c r) p = { coreAt s p with
      sync := { (coreAt s p).sync with turns := Store.set 0 (coreAt s p).sync.turns flag (64 * c + r + 1) } } := coreAt_updCore_same ..
  obtain ⟨sync, core, set, others⟩ := setFlag_sets
    (s := noteEvent s p flag (turnOf (coreAt s p) flag c (setRank setter 0)) (setRank setter 0)) (p := p)
    (by rw [noted]; exact clean) (by rw [noted]; exact awake) l (turnOf (coreAt s p) flag c (setRank setter 0)) flag setter src 0
  exact ⟨sync, by rw [setInTurn, core, noted], set, (othersKept_updCore s p _).trans others⟩

end

/-! Doorbells. -/

/-- The answer to a doorbell that arrives, with the state it leaves (R239). -/
def doorRung (s : State) (l p : Nat) (pkt : Packet) : Status × State :=
  let w := pkt.word.toNat
  if addrSpace pkt.addr.toNat ≠ 2 ∨ offsetHigh pkt.addr.toNat then (.badValue, s)
  else
    match doorbell pkt.addr.toNat with
    | none => (.badValue, s)
    | some (n, isHead) =>
      if w % 1024 = 0 ∨ 512 < w % 1024 ∨ w / 1024 ≠ 0 then (.badValue, s)
      else
        let r := ringAt (coreAt s p) n
        if !r.enable then (.badState, s)
        else if (isHead && (n < 4 || senderOf pkt != ownSender s l)) ||
            (!isHead && !isProducer s l r.kind r.die r.core (senderOf pkt)) then (.noAccess, s)
        else if r.abandoned then (.abandoned, s)
        else if isHead then headAdd s p l n (w % 1024) else tailAdd s p l (cycleOf s l) n (w % 1024)

theorem doorPacket_of_arrives {s : State} {port : Port} {pkt : Packet} {l p : Nat} (h : Arrives s port pkt l p)
    (quiet : Quiet (coreAt s p)) (room : respFull (coreAt s p) = false) :
    doorPacket s port pkt = freeFlits (answerPkt (doorRung (taken s port pkt p) l p pkt).2 p l port pkt
      (doorRung (taken s port pkt p) l p pkt).1) port pkt := by
  obtain ⟨due, clean, _⟩ := quiet
  have core := (taken_mailed s port pkt p).core
  have out : inReset (taken s port pkt p) l = false := by
    obtain ⟨_, _, _, out, _⟩ := h
    rw [inReset_taken]
    exact out
  have room : respFull (coreAt (taken s port pkt p) p) = false := by rw [respFull_taken, room]
  have use (ws : List (Nat × Nat)) : useWords (taken s port pkt p) p l ws = (false, taken s port pkt p) :=
    useWords_clean (by rw [core]; exact clean) l ws
  have settled (n : Nat) : settleTo (taken s port pkt p) p l n = taken s port pkt p :=
    settleTo_none_due (by rw [core]; exact due) l n
  unfold doorPacket deliverSig
  rw [deliverOpt_of_arrives h, if_neg (by rw [room]; exact Bool.false_ne_true), Option.elim_some]
  generalize taken s port pkt p = u at *
  simp only [out, Bool.false_eq_true, if_false, doorRung, use, settleSync, settled]
  split
  · rfl
  · cases doorbell pkt.addr.toNat
    case none => rfl
    case some door =>
      dsimp only
      repeat' split
      all_goals rfl

theorem exec_door {port : Port} {pkt : Packet} (sig : pkt.ptype = .sig) (own : pkt.classT = false)
    (ring : ¬(addrSpace pkt.addr.toNat = 2 ∧ doorPage pkt.addr.toNat = 1)) (s : State) :
    exec (if isHeadDoor pkt.addr.toNat then Instr.headAdd port pkt else Instr.tailAdd port pkt) s =
      .next (doorPacket s port pkt) := by
  split
  · next head =>
    change execHeadAdd port pkt s = _
    rw [execHeadAdd, if_pos ⟨sig, by rw [own]; rfl, head⟩]
  · next tail =>
    change execTailAdd port pkt s = _
    rw [execTailAdd, if_pos ⟨sig, by rw [own]; rfl, by rw [Bool.eq_false_iff.mpr tail]; rfl, by simpa [imp_iff_not_or] using ring⟩]

/-- A TAIL_ADD in bounds advances the tail and sets the ring's flag (R240). -/
theorem tailAdd_passes {s : State} {p n count : Nat} {r : Ring} (hr : ringAt (coreAt s p) n = r) (en : r.enable = true)
    (bound : ringOcc r + count ≤ r.size) (clean : (coreAt s p).upsets.sync = []) (awake : ∀ q, (queueAt (coreAt s p) q).sleep = none)
    (l c : Nat) : ∃ t, tailAdd s p l c n count = (.done, t) ∧
      ringAt (coreAt t p) n = { r with tail := (r.tail + count) % 2 ^ 32 } ∧
      (r.flagEn = true → r.flag ∈ (coreAt t p).sync.flags) ∧ (r.flagEn = false → (coreAt t p).sync = (coreAt s p).sync) ∧
      MemoryKept s t p ∧ OthersKept s t p := by
  generalize moved : markHw (setCore s p (setRing (coreAt s p) n { r with tail := (r.tail + count) % 2 ^ 32 })) p (0x40C + 16 * n) = u
  have same : Traffic s u p := by
    subst moved
    exact (setRing_traffic ..).trans (markHw_traffic ..)
  have ring : ringAt (coreAt u p) n = { r with tail := (r.tail + count) % 2 ^ 32 } := by
    subst moved
    rw [markHw, coreAt_updCore_same, coreAt_setCore_same]
    exact ringAt_setRing_same ..
  have row : tailAdd s p l c n count = (.done, if r.flagEn then (setInTurn u p l c r.flag 5 [(1, n)]).2 else u) := by
    unfold tailAdd
    dsimp only
    rw [hr, if_neg (by rw [en]; exact Bool.false_ne_true), if_neg (Nat.not_lt.mpr bound), moved]
  rw [row]
  refine ⟨_, rfl, ?_⟩
  by_cases flag : r.flagEn = true
  case neg =>
    rw [if_neg flag]
    exact ⟨ring, fun h => absurd h flag, fun _ => same.sync, same.memory, same.others⟩
  case pos =>
    obtain ⟨sync, core, set, others⟩ := setInTurn_sets (by rw [same.upsets]; exact clean)
      (fun q => by rw [same.queueAt]; exact awake q) l c r.flag 5 [(1, n)]
    rw [if_pos flag]
    refine ⟨?_, fun _ => ?_, fun h => Bool.noConfusion (flag.symm.trans h), same.memory.trans (memoryKept_of_core ?_ ?_),
      same.others.trans others⟩
    · rw [core]
      exact ring
    · rw [core]
      exact set
    · rw [core]
    · rw [core]

/-- A HEAD_ADD in bounds advances the head and grants the credits (R243). -/
theorem headAdd_passes {s : State} {p n count : Nat} {r : Ring} (hr : ringAt (coreAt s p) n = r) (en : r.enable = true)
    (bound : count ≤ ringOcc r) (l : Nat) : ∃ t, headAdd s p l n count = (.done, t) ∧
      ringAt (coreAt t p) n = creditedRing (coreAt s p) { r with head := (r.head + count) % 2 ^ 32 } count ∧ Traffic s t p := by
  generalize moved : markHw (setCore s p (setRing (coreAt s p) n { r with head := (r.head + count) % 2 ^ 32 })) p (0x408 + 16 * n) = u
  have same : Traffic s u p := by
    subst moved
    exact (setRing_traffic ..).trans (markHw_traffic ..)
  have ring : ringAt (coreAt u p) n = { r with head := (r.head + count) % 2 ^ 32 } := by
    subst moved
    rw [markHw, coreAt_updCore_same, coreAt_setCore_same]
    exact ringAt_setRing_same ..
  have row : headAdd s p l n count = (.done, grantRing u p l n count) := by
    unfold headAdd
    dsimp only
    rw [hr, if_neg (by rw [en]; exact Bool.false_ne_true), if_neg (Nat.not_lt.mpr bound), moved]
  refine ⟨_, row, ?_, same.trans (grantRing_traffic ..)⟩
  rw [ringAt_grantRing, if_pos rfl, ring]
  simp only [creditedRing, same.regionOff]

/-- The credits of a ring that is not abandoned (R243). -/
theorem creditedRing_of_live {r : Ring} (live : r.abandoned = false) (k : Core) (head count : Nat) :
    creditedRing k { r with head := head } count = { r with
      head := head
      outst := if r.kind ≠ 0 ∧ regionOff k r.base r.size = false then r.outst + count else r.outst
      withheld := if r.kind ≠ 0 ∧ regionOff k r.base r.size = true then r.withheld + count else r.withheld } := by
  by_cases kind : r.kind = 0
  · simp [creditedRing, kind]
  · cases off : regionOff k r.base r.size <;> simp [creditedRing, kind, off, live]

theorem doorRung_bad {pkt : Packet} (h : addrSpace pkt.addr.toNat ≠ 2 ∨ offsetHigh pkt.addr.toNat = true ∨
    doorbell pkt.addr.toNat = none ∨ pkt.word.toNat = 0 ∨ 512 < pkt.word.toNat) (s : State) (l p : Nat) :
    doorRung s l p pkt = (.badValue, s) := by
  unfold doorRung
  dsimp only
  by_cases place : addrSpace pkt.addr.toNat ≠ 2 ∨ offsetHigh pkt.addr.toNat = true
  · exact if_pos place
  · obtain ⟨space, offset⟩ := not_or.mp place
    rw [if_neg place]
    cases door : doorbell pkt.addr.toNat with
    | none => rfl
    | some x =>
      have count : pkt.word.toNat = 0 ∨ 512 < pkt.word.toNat := by simpa [space, offset, door] using h
      exact if_pos (by omega)

section
variable {s : State} {port : Port} {pkt : Packet} {l p n : Nat} {head : Bool} (hs : addrSpace pkt.addr.toNat = 2)
  (ho : offsetHigh pkt.addr.toNat = false) (hd : doorbell pkt.addr.toNat = some (n, head)) (pos : 1 ≤ pkt.word.toNat)
  (max : pkt.word.toNat ≤ 512)
include hs ho hd pos max

/-- A doorbell at an address of a ring, with a count in range, is checked in the order of R239. -/
theorem doorRung_eq : doorRung s l p pkt =
    if (ringAt (coreAt s p) n).enable = false then (.badState, s)
    else if ¬(if head then 4 ≤ n ∧ senderOf pkt = ownSender s l
      else isProducer s l (ringAt (coreAt s p) n).kind (ringAt (coreAt s p) n).die (ringAt (coreAt s p) n).core (senderOf pkt) = true)
    then (.noAccess, s)
    else if (ringAt (coreAt s p) n).abandoned then (.abandoned, s)
    else if head then headAdd s p l n pkt.word.toNat else tailAdd s p l (cycleOf s l) n pkt.word.toNat := by
  have low : pkt.word.toNat % 1024 = pkt.word.toNat := Nat.mod_eq_of_lt (by omega)
  have range : ¬(pkt.word.toNat = 0 ∨ 512 < pkt.word.toNat ∨ pkt.word.toNat / 1024 ≠ 0) := by omega
  unfold doorRung
  simp only [hs, ho, hd, low, range, ne_eq, not_true_eq_false, Bool.false_eq_true, or_self, if_false]
  cases head <;> cases (ringAt (coreAt s p) n).enable <;> simp [imp_iff_not_or]

end

/-- Settles O41: the checks of R239 by `doorRung_eq`, the doorbell in bounds by `tailAdd_passes` and `headAdd_passes`. -/
theorem doorbellRows : Obligations.DoorbellRows := by
  intro s port pkt l p arrives quiet room sig own ring
  have ⟨_, _, _, _, place⟩ := arrives
  have row := exec_door (port := port) sig own ring s
  have took := taken_mailed s port pkt p
  have core := took.core
  have quiet' := quiet
  obtain ⟨_, clean, awake⟩ := quiet'
  rw [doorPacket_of_arrives arrives quiet room] at row
  have answered (st : Status) (u : State) : Mailed u (freeFlits (answerPkt u p l port pkt st) port pkt) p :=
    (answerPkt_mailed place u l pkt st).trans (freeFlits_mailed ..)
  intro k a count i refused
  have fails {st : Status} (h : doorRung (taken s port pkt p) l p pkt = (st, taken s port pkt p)) : refused st := by
    rw [h] at row
    have sent := took.trans (answered st _)
    exact ⟨_, row, by simp, sent.pool, sent.traffic.sync, sent.memory, sent.others⟩
  have passes {st : Status} {u : State} (h : doorRung (taken s port pkt p) l p pkt = (st, u)) :
      ∃ t, exec i s = .next t ∧ t.answer = st ∧ Mailed u t p := by
    rw [h] at row
    exact ⟨_, row, by simp, answered st u⟩
  refine ⟨fun bad => fails (doorRung_bad bad ..), ?_⟩
  · intro n head r hs ho hd pos max hr right
    subst hr
    have same := took.ringAt n
    have rung := doorRung_eq (s := taken s port pkt p) (l := l) (p := p) hs ho hd pos max
    rw [same, isProducer_taken, ownSender_taken] at rung
    refine ⟨fun en => fails ?_, fun en denied => fails ?_, fun en allowed gone => fails ?_, fun en allowed live => ?_⟩
    · rw [rung, if_pos en]
    · rw [rung, if_neg (by rw [en]; exact Bool.noConfusion), if_pos denied]
    · rw [rung, if_neg (by rw [en]; exact Bool.noConfusion), if_neg (not_not.mpr allowed), if_pos gone]
    rw [if_neg (by rw [en]; exact Bool.noConfusion), if_neg (not_not.mpr allowed), live, if_neg Bool.false_ne_true] at rung
    refine ⟨fun tail bound => ?_, fun tail past => fails ?_, fun head bound => ?_, fun head under => fails ?_⟩
    · rw [tail, if_neg Bool.false_ne_true] at rung
      obtain ⟨u, add, ring, set, unset, memory, others⟩ := tailAdd_passes same en bound (by rw [core]; exact clean)
        (fun q => by rw [core]; exact awake q) l (cycleOf (taken s port pkt p) l)
      obtain ⟨t, next, done, sent⟩ := passes (rung.trans add)
      refine ⟨t, next, done, (sent.ringAt n).trans ring, fun h => ?_, fun h => ?_, ?_, ?_⟩
      · rw [sent.traffic.sync]
        exact set h
      · rw [sent.traffic.sync, unset h, took.traffic.sync]
      · exact took.memory.trans (memory.trans sent.memory)
      · exact took.others.trans (others.trans sent.others)
    · rw [rung, tail, if_neg Bool.false_ne_true, tailAdd, same, if_neg (by rw [en]; exact Bool.false_ne_true), if_pos past]
    · rw [head, if_pos rfl] at rung
      obtain ⟨u, add, ring, moved⟩ := headAdd_passes same en bound l
      obtain ⟨t, next, done, sent⟩ := passes (rung.trans add)
      have all := took.traffic.trans (moved.trans sent.traffic)
      refine ⟨t, next, done, ?_, all.sync, all.memory, all.others⟩
      rw [sent.ringAt n, ring, creditedRing_of_live live]
      simp only [took.traffic.regionOff]
      rfl
    · rw [rung, head, if_pos rfl, headAdd, same, if_neg (by rw [en]; exact Bool.false_ne_true), if_pos under]

end Sys2Proof.Machine
end

section
/-!
PROOFS. The code of stored words, and the scrubbing of Pool rows, tile rows and sync words (R500, R501, R503 to R506).
-/

namespace Sys2Proof.Machine

/-! The code is linear (R500). -/

theorem bitN_eq_testBit (w i : Nat) : bitN w i = w.testBit i := by
  rw [bitN, Nat.testBit_eq_decide_div_mod_eq]
  rfl

theorem fieldN_xor (a b lo w : Nat) : fieldN (a ^^^ b) lo w = fieldN a lo w ^^^ fieldN b lo w := by
  rw [fieldN, Nat.xor_div_two_pow, Nat.xor_mod_two_pow]
  rfl

theorem foldl_xor_mapIdx {f g h : Nat → Nat → Nat} (sum : ∀ i c, f i c = g i c ^^^ h i c) (cs : List Nat) (a b : Nat) :
    (cs.mapIdx f).foldl (· ^^^ ·) (a ^^^ b) = (cs.mapIdx g).foldl (· ^^^ ·) a ^^^ (cs.mapIdx h).foldl (· ^^^ ·) b := by
  induction cs generalizing f g h a b with
  | nil => rfl
  | cons c cs ih =>
    simp only [List.mapIdx_cons, List.foldl_cons]
    rw [sum, show a ^^^ b ^^^ (g 0 c ^^^ h 0 c) = (a ^^^ g 0 c) ^^^ (b ^^^ h 0 c) by ac_rfl]
    exact ih (fun i c => sum (i + 1) c) _ _

theorem checkByte_xor (a b : Nat) : checkByte (a ^^^ b) = checkByte a ^^^ checkByte b := by
  refine foldl_xor_mapIdx (fun i c => ?_) eccColumns 0 0
  simp only [bitN_eq_testBit, Nat.testBit_xor]
  cases a.testBit i <;> cases b.testBit i <;> simp

theorem syndrome_xor (a b : Nat) : syndrome (a ^^^ b) = syndrome a ^^^ syndrome b := by
  rw [syndrome, checkByte_xor, fieldN_xor, syndrome, syndrome]
  generalize checkByte a = x, checkByte b = y
  ac_rfl

/-! The columns have odd weight, and no two are one (R500). -/

theorem eccColumns_eq : eccColumns = [
    7, 11, 13, 14, 19, 21, 22, 25, 26, 28, 35, 37, 38, 41, 42, 44, 49, 50, 52, 56, 67, 69,
    70, 73, 74, 76, 81, 82, 84, 88, 97, 98, 100, 104, 112, 131, 133, 134, 137, 138, 140, 145, 146, 148,
    152, 161, 162, 164, 168, 176, 193, 194, 196, 200, 208, 224, 31, 47, 55, 59, 61, 62, 79, 87] := by
  decide +kernel

theorem eccColumns_lt : ∀ c ∈ eccColumns, c < 2 ^ 8 := by decide +kernel

theorem syndrome_bit : ∀ i < 72, syndrome (2 ^ i) = eccColumn i := by
  simp only [syndrome, checkByte, eccColumn, eccColumns_eq, List.mapIdx_eq_zipIdx_map]
  decide +kernel

theorem eccBit_column : ∀ i < 72, eccBit (eccColumn i) = some i := by decide +kernel

theorem column_odd : ∀ i < 72, weightN (eccColumn i) 8 % 2 = 1 := by decide +kernel

theorem weightN_xor (a b n : Nat) : weightN (a ^^^ b) n % 2 = (weightN a n + weightN b n) % 2 := by
  induction n generalizing a b with
  | zero => rfl
  | succ n ih =>
    have low := Nat.xor_mod_two_eq (m := a) (n := b)
    have high := ih (a / 2) (b / 2)
    rw [← Nat.xor_div_two] at high
    simp only [weightN]
    omega

/-- A syndrome of even weight is no column. -/
theorem eccBit_even {x : Nat} (h : weightN x 8 % 2 = 0) : eccBit x = none := by
  refine List.find?_eq_none.mpr fun i hi col => ?_
  have odd := column_odd i (List.mem_range.mp hi)
  rw [beq_iff_eq.mp col, h] at odd
  cases odd

/-! A codeword as it is written. -/

theorem foldl_xor_lt {l : List Nat} {n : Nat} (h : ∀ x ∈ l, x < 2 ^ n) {a : Nat} (ha : a < 2 ^ n) :
    l.foldl (· ^^^ ·) a < 2 ^ n := by
  induction l generalizing a with
  | nil => exact ha
  | cons x l ih =>
    rw [List.forall_mem_cons] at h
    exact ih h.2 (Nat.xor_lt_two_pow ha h.1)

theorem checkByte_lt (w : Nat) : checkByte w < 2 ^ 8 := by
  refine foldl_xor_lt (fun x hx => ?_) (by decide)
  obtain ⟨i, hi, rfl⟩ := List.mem_mapIdx.mp hx
  split
  · exact eccColumns_lt _ (List.getElem_mem hi)
  · decide

/-- The check byte is that of the data bits. -/
theorem checkByte_congr {a b : Nat} (h : a % 2 ^ 64 = b % 2 ^ 64) : checkByte a = checkByte b := by
  refine congrArg (List.foldl (· ^^^ ·) 0) (List.ext_getElem (by simp only [List.length_mapIdx]) fun i hi _ => ?_)
  have low : i < 64 := by
    rw [List.length_mapIdx, eccColumns_eq] at hi
    exact hi
  have bit : a.testBit i = b.testBit i := by
    have := congrArg (Nat.testBit · i) h
    simpa only [Nat.testBit_mod_two_pow, low, decide_true, Bool.true_and] using this
  simp only [List.getElem_mapIdx, bitN_eq_testBit, bit]

theorem syndrome_codeword (w : Nat) : syndrome (codeword w) = 0 := by
  have check : checkByte (codeword w) = checkByte w := checkByte_congr (by rw [codeword]; omega)
  have byte : fieldN (codeword w) 64 8 = checkByte w := by
    have := checkByte_lt w
    rw [fieldN, codeword]
    omega
  rw [syndrome, check, byte, Nat.xor_self]

theorem fieldN_codeword {w : Nat} (h : w < 2 ^ 64) : fieldN (codeword w) 0 64 = w := by
  rw [fieldN, codeword]
  omega

/-- The code of R500 corrects one bit and finds two (R501). -/
theorem ecc_corrects {w i j : Nat} (hw : w < 2 ^ 64) (hi : i < 72) (hj : j < 72) :
    eccGrade (codeword w) = 0 ∧ eccData (codeword w) = w ∧ eccGrade (codeword w ^^^ 2 ^ i) = 1 ∧
      eccData (codeword w ^^^ 2 ^ i) = w ∧ (i ≠ j → eccGrade (codeword w ^^^ 2 ^ i ^^^ 2 ^ j) = 2) := by
  have clean := syndrome_codeword w
  have one : syndrome (codeword w ^^^ 2 ^ i) = eccColumn i := by rw [syndrome_xor, clean, Nat.zero_xor, syndrome_bit i hi]
  have two : syndrome (codeword w ^^^ 2 ^ i ^^^ 2 ^ j) = eccColumn i ^^^ eccColumn j := by
    rw [syndrome_xor, one, syndrome_bit j hj]
  have column : eccColumn i ≠ 0 := fun e => by
    have := column_odd i hi
    rw [e] at this
    cases this
  refine ⟨if_pos clean, ?_, ?_, ?_, fun apart => ?_⟩
  · simp only [eccData, clean, eccBit_even (x := 0) rfl]
    exact fieldN_codeword hw
  · simp only [eccGrade, one, if_neg column, eccBit_column i hi, Option.isSome_some, if_true]
  · simp only [eccData, one, eccBit_column i hi, Nat.xor_xor_cancel_right]
    exact fieldN_codeword hw
  · have differ : eccColumn i ^^^ eccColumn j ≠ 0 := fun e => apart (Option.some.inj
      (by rw [← eccBit_column i hi, ← eccBit_column j hj, Nat.xor_eq_zero_iff.mp e]))
    have even : weightN (eccColumn i ^^^ eccColumn j) 8 % 2 = 0 := by
      rw [weightN_xor, Nat.add_mod, column_odd i hi, column_odd j hj]
    simp only [eccGrade, two, if_neg differ, eccBit_even even, Option.isSome_none, Bool.false_eq_true, if_false]

/-! Records of a physical core. -/

@[simp] theorem logPhys_cores (s : State) (cls : Nat) (st : Status) (p : Nat) (body : List (Nat × Nat)) :
    (logPhys s cls st p body).cores = s.cores := by
  unfold logPhys
  split <;> rfl

@[simp] theorem coreAt_logPhys (s : State) (cls : Nat) (st : Status) (p : Nat) (body : List (Nat × Nat)) (i : Nat) :
    coreAt (logPhys s cls st p body) i = coreAt s i := by
  rw [coreAt, logPhys_cores]
  rfl

theorem recordsMade_logPhys (s : State) (cls : Nat) (st : Status) (p : Nat) (body : List (Nat × Nat)) :
    recordsMade (logPhys s cls st p body) = (recordsMade s + 1) % 2 ^ 32 := by
  unfold logPhys
  split <;> exact recordsMade_logRecordAt ..

theorem othersKept_logPhys (s : State) (cls : Nat) (st : Status) (p : Nat) (body : List (Nat × Nat)) :
    OthersKept s (logPhys s cls st p body) p := .of_cores (logPhys_cores ..) p

/-! The scrubbing of the Pool. -/

/-- The reserved slot of a bank that comes next to be taken (R222). -/
def nextSlotOf (k : Core) (c b : Nat) : Nat := nextPhase (max c (Store.get 0 k.pool.given b)) (reservedPhase b) 32

/-- It is the scrubber's to take (R224). -/
def ScrubFree (k : Core) (c b : Nat) : Prop :=
  bankOff k b (nextSlotOf k c b) = false ∧ (slotCycle (nextSlotOf k c b) = 15 ∨ (fetchWaits k c b = false ∧ inbWaits k c b = false))

theorem scrubSlot_of_free {k : Core} {c b : Nat} (h : ScrubFree k c b) :
    scrubSlot k c b = some (nextSlotOf k c b) := by
  obtain ⟨on, taken⟩ := h
  unfold scrubSlot
  rw [nextSlotOf] at *
  dsimp only
  rw [on]
  rcases taken with own | ⟨fetch, inb⟩
  · simp [own]
  · simp [fetch, inb]

theorem scrubSlot_none {k : Core} {c b : Nat} (h : ¬ScrubFree k c b) : scrubSlot k c b = none := by
  refine if_pos (Bool.of_not_eq_false fun free => h ?_)
  simp only [Bool.or_eq_false_iff, Bool.and_eq_false_imp, bne_iff_ne] at free
  obtain ⟨on, taken⟩ := free
  exact ⟨on, or_iff_not_imp_left.mpr taken⟩

theorem exec_scrubPool_none {s : State} {p r : Nat} (h : ¬ScrubFree (coreAt s p) (physCycle s p) (bankOf r)) :
    exec (.scrubPool p r) s = .next s ∧ exec (.scrubPoolWriteback p r) s = .next s := by
  have none := scrubSlot_none h
  constructor
  · change execScrubPool p r s = _
    simp [execScrubPool, none]
  · change execScrubPoolWriteback p r s = _
    simp [execScrubPoolWriteback, none]

section
variable {s : State} {p r : Nat} (hs : scrubbed s p = true) (hr : r < 512)
include hs hr

/-- The scrub of a row without an uncorrectable word (R224, R225). -/
theorem exec_scrubPool_sound (h : ScrubFree (coreAt s p) (physCycle s p) (bankOf r)) (sound : rowBad (coreAt s p) r = false) :
    exec (.scrubPool p r) s = .next (setCore s p
      (let k := takeSlot (coreAt s p) (bankOf r) (nextSlotOf (coreAt s p) (physCycle s p) (bankOf r))
       { k with
          ecc := { k.ecc with poolCorr := min 0xFFFF (k.ecc.poolCorr + correctedIn (rowErrs (coreAt s p) r)) }
          pool := { k.pool with wb := if correctedIn (rowErrs (coreAt s p) r) = 0 then k.pool.wb else setInsert k.pool.wb r } })) := by
  have range : ¬poolRows ≤ r := Nat.not_le.mpr hr
  rw [rowBad] at sound
  change execScrubPool p r s = _
  simp only [execScrubPool, hs, range, scrubSlot_of_free h, sound, Bool.not_true, decide_false, Bool.or_self, Bool.false_eq_true, if_false]
  by_cases none : correctedIn (rowErrs (coreAt s p) r) = 0
  · simp only [none, if_true]
  · simp only [none, if_false, updWb]

/-- The scrub of one that holds an uncorrectable word (R506). -/
theorem exec_scrubPool_bad (h : ScrubFree (coreAt s p) (physCycle s p) (bankOf r)) (bad : rowBad (coreAt s p) r = true) :
    exec (.scrubPool p r) s = .next (logPhys (setCore s p
      (let k := takeSlot (coreAt s p) (bankOf r) (nextSlotOf (coreAt s p) (physCycle s p) (bankOf r))
       { k with
          ecc := { k.ecc with
            poolCorr := min 0xFFFF (k.ecc.poolCorr + correctedIn (rowErrs (coreAt s p) r))
            poolUnc := min 0xFF (k.ecc.poolUnc + 1) }
          pool := { k.pool with uncorrSeen := true } })) 11 .poisoned p [(1, 0), (2, r)]) := by
  have range : ¬poolRows ≤ r := Nat.not_le.mpr hr
  rw [rowBad] at bad
  change execScrubPool p r s = _
  simp only [execScrubPool, hs, range, scrubSlot_of_free h, bad, Bool.not_true, decide_false, Bool.or_self, Bool.false_eq_true,
    if_false, if_true]

end

@[simp] theorem rowErrs_writeRow_same (k : Core) (r : Nat) (x : Row) : rowErrs (writeRow k r x) r = [] := by
  refine List.filter_eq_nil_iff.mpr fun e he here => ?_
  have apart := (List.mem_filter.mp he).2
  rw [bne, here] at apart
  cases apart

theorem rowErrs_writeRow_other {i r : Nat} (h : i ≠ r) (k : Core) (x : Row) : rowErrs (writeRow k r x) i = rowErrs k i := by
  refine (List.filter_filter ..).trans (List.filter_congr fun e _ => ?_)
  by_cases place : e.1 / 66 = i
  · simp [place, h]
  · simp [place]

theorem exec_scrubPoolWriteback {s : State} {p r : Nat} (hs : scrubbed s p = true)
    (h : ScrubFree (coreAt s p) (physCycle s p) (bankOf r)) (waits : (coreAt s p).pool.wb.contains r = true) :
    exec (.scrubPoolWriteback p r) s = .next (setCore s p (writeRow
      (takeSlot (coreAt s p) (bankOf r) (nextSlotOf (coreAt s p) (physCycle s p) (bankOf r))) r (seenRow (coreAt s p) r))) := by
  change execScrubPoolWriteback p r s = _
  simp only [execScrubPoolWriteback, hs, scrubSlot_of_free h, waits, Bool.not_true, Bool.or_self, Bool.false_eq_true, if_false]

/-! The scrubbing of Flowstone. -/

/-- The words in error of a tile row. -/
def trowHits (k : Core) (u : Nat) : Store Nat := k.upsets.fs.filter fun e => e.1 / 32 == u

/-- The uncorrectable words of a list of errors. -/
def uncorrectable (es : Store Nat) : Store Nat := es.filter fun e => eccGrade e.2 == 2

/-- A core whose tile row u the scrubber has read (R504 to R506). -/
def scrubbedTrow (k : Core) (u : Nat) : Core :=
  { k with
    ecc := { k.ecc with
      fsCorr := min 0xFFFF (k.ecc.fsCorr + correctedIn (trowHits k u))
      fsUnc := min 0xFF (k.ecc.fsUnc + (uncorrectable (trowHits k u)).length) }
    flow := { k.flow with wb := if correctedIn (trowHits k u) = 0 then k.flow.wb else setInsert k.flow.wb u } }

theorem scrubTrow_scrubs (s : State) (p u : Nat) : coreAt (scrubTrow s p u) p = scrubbedTrow (coreAt s p) u ∧
    OthersKept s (scrubTrow s p u) p ∧
    recordsMade (scrubTrow s p u) = (recordsMade s + (uncorrectable (trowHits (coreAt s p) u)).length) % 2 ^ 32 := by
  have logs (es : Store Nat) (s : State) :
      (es.foldl (fun s e => logPhys s 11 .poisoned p [(1, 1), (1, u), (1, e.1 % 32)]) s).cores = s.cores ∧
      recordsMade (es.foldl (fun s e => logPhys s 11 .poisoned p [(1, 1), (1, u), (1, e.1 % 32)]) s) =
        (recordsMade s + es.length) % 2 ^ 32 := by
    induction es generalizing s with
    | nil => exact ⟨rfl, (Nat.mod_mod ..).symm⟩
    | cons e es ih =>
      obtain ⟨cores, made⟩ := ih (logPhys s 11 .poisoned p [(1, 1), (1, u), (1, e.1 % 32)])
      refine ⟨cores.trans (logPhys_cores ..), made.trans ?_⟩
      rw [recordsMade_logPhys, List.length_cons, Nat.mod_add_mod]
      congr 1
      omega
  obtain ⟨cores, made⟩ := logs (uncorrectable (trowHits (coreAt s p) u)) (updCore s p fun k => scrubbedTrow k u)
  refine ⟨?_, (othersKept_updCore s p _).trans (.of_cores cores p), made⟩
  rw [scrubTrow, coreAt]
  exact (congrArg (Store.get Core.init · p) cores).trans (coreAt_updCore_same ..)

/-- Entries that satisfy one of two tests that exclude each other are counted by the first and by the second. -/
theorem length_filter_or {α : Type} {f g : α → Bool} {l : List α} (h : ∀ x ∈ l, ¬(f x = true ∧ g x = true)) :
    (l.filter fun x => f x || g x).length = (l.filter f).length + (l.filter g).length := by
  induction l with
  | nil => rfl
  | cons x l ih =>
    rw [List.forall_mem_cons] at h
    obtain ⟨here, rest⟩ := h
    have := ih rest
    simp only [List.filter_cons]
    cases hf : f x <;> cases hg : g x <;> simp_all <;> omega

/-- The words of either of two rows that satisfy a test. -/
theorem length_trowHits_pair (k : Core) (u : Nat) (f : Nat × Nat → Bool) :
    ((k.upsets.fs.filter fun x => x.1 / 32 == u || x.1 / 32 == u + 1).filter f).length =
      ((trowHits k u).filter f).length + ((trowHits k (u + 1)).filter f).length := by
  have apart (x : Nat × Nat) (_ : x ∈ k.upsets.fs) : ¬((f x && x.1 / 32 == u) = true ∧ (f x && x.1 / 32 == u + 1) = true) := by
    simp only [Bool.and_eq_true, beq_iff_eq]
    omega
  have sum := length_filter_or apart
  simp only [trowHits, List.filter_filter] at *
  rw [← sum]
  congr 2
  funext x
  rw [Bool.and_or_distrib_left]

theorem mem_trowHits_pair {k : Core} {u : Nat} {x : Nat × Nat} :
    (x ∈ k.upsets.fs.filter fun x => x.1 / 32 == u || x.1 / 32 == u + 1) ↔ x ∈ trowHits k u ∨ x ∈ trowHits k (u + 1) := by
  simp only [trowHits, List.mem_filter, Bool.or_eq_true, and_or_left]

theorem correctedIn_ne_zero {es : Store Nat} : correctedIn es ≠ 0 ↔ ∃ x, x ∈ es ∧ eccGrade x.2 = 1 := by
  rw [correctedIn, Nat.ne_zero_iff_zero_lt, List.length_pos_iff_exists_mem]
  simp [List.mem_filter]

theorem mem_wb_scrubbedTrow {k : Core} {u v : Nat} : v ∈ (scrubbedTrow k u).flow.wb ↔
    v ∈ k.flow.wb ∨ ∃ x, x ∈ trowHits k u ∧ x.1 / 32 = v ∧ eccGrade x.2 = 1 := by
  have row (x : Nat × Nat) (hx : x ∈ trowHits k u) : x.1 / 32 = u := beq_iff_eq.mp (List.mem_filter.mp hx).2
  simp only [scrubbedTrow]
  split
  · next none =>
    refine ⟨.inl, fun h => h.resolve_right fun ⟨x, hx, _, one⟩ => correctedIn_ne_zero.mpr ⟨x, hx, one⟩ none⟩
  · next some =>
    rw [mem_setInsert]
    constructor
    · rintro (rfl | old)
      · obtain ⟨x, hx, one⟩ := correctedIn_ne_zero.mp some
        exact .inr ⟨x, hx, row x hx, one⟩
      · exact .inl old
    · rintro (old | ⟨x, hx, place, _⟩)
      · exact .inr old
      · exact .inl (place.symm.trans (row x hx))

theorem min_min_add (m a x y : Nat) : min m (min m (a + x) + y) = min m (a + (x + y)) := by omega

theorem exec_scrubFlowstone {s : State} {p u : Nat} (hs : scrubbed s p = true) (hu : u < 255) :
    exec (.scrubFlowstone p u) s = .next (scrubTrow (scrubTrow s p u) p (u + 1)) := by
  change execScrubFlowstone p u s = _
  rw [execScrubFlowstone, if_neg (by simp [hs, hu])]

/-- A core whose tile row u is written back: its words of one wrong bit are stored as corrected (R504). -/
def rewrittenTrow (k : Core) (u : Nat) : Core :=
  let hit (e : Nat × Nat) : Bool := e.1 / 32 == u && eccGrade e.2 == 1
  { setTrow k u ((k.upsets.fs.filter hit).foldl
      (fun r e => r ^^^ BitVec.ofNat 2048 (eccData e.2 * 2 ^ (64 * (e.1 % 32)))) (trowAt k u)) with
    upsets := { k.upsets with fs := k.upsets.fs.filter fun e => !hit e }
    flow := { (setTrow k u ((k.upsets.fs.filter hit).foldl
      (fun r e => r ^^^ BitVec.ofNat 2048 (eccData e.2 * 2 ^ (64 * (e.1 % 32)))) (trowAt k u))).flow with
      wb := setErase k.flow.wb u } }

theorem exec_scrubFlowstoneWriteback {s : State} {p u : Nat} (hs : scrubbed s p = true)
    (waits : (coreAt s p).flow.wb.contains u = true) (idle : fillIdle (coreAt s p) (physCycle s p) = true) :
    exec (.scrubFlowstoneWriteback p u) s = .next (setCore s p (rewrittenTrow (coreAt s p) u)) := by
  change execScrubFlowstoneWriteback p u s = _
  simp only [execScrubFlowstoneWriteback, hs, waits, idle, Bool.not_true, Bool.or_self, Bool.false_eq_true, if_false]
  rfl

/-- A tile row whose every wrong word is corrected reads as it was read (R501, R504). -/
theorem trowAt_rewrittenTrow_same {k : Core} {u : Nat} (h : ∀ x, x ∈ k.upsets.fs → x.1 / 32 = u → eccGrade x.2 = 1) :
    trowAt (rewrittenTrow k u) u = seenTrow k u := by
  have hits : (k.upsets.fs.filter fun e => e.1 / 32 == u && eccGrade e.2 == 1) = k.upsets.fs.filter fun e => e.1 / 32 == u := by
    refine List.filter_congr fun x hx => ?_
    by_cases place : x.1 / 32 = u
    · simp [place, h x hx place]
    · simp [place]
  refine (trowAt_setTrow_same ..).trans ?_
  rw [hits]
  rfl

theorem trowAt_rewrittenTrow_other {u v : Nat} (h : v ≠ u) (k : Core) : trowAt (rewrittenTrow k u) v = trowAt k v :=
  (trowAt_setTrow k u v _).trans (if_neg h)

section
variable {s : State} {p r : Nat} (hs : scrubbed s p = true) (free : ScrubFree (coreAt s p) (physCycle s p) (bankOf r))
include hs free

/-- The scrub of a Pool row counts what it finds (R224, R225, R505, R506). -/
theorem scrubPool_reads (hr : r < 512) : ∃ t, exec (.scrubPool p r) s = .next t ∧
    (coreAt t p).pool.given = Store.set 0 (coreAt s p).pool.given (bankOf r) (nextSlotOf (coreAt s p) (physCycle s p) (bankOf r) + 1) ∧
    (coreAt t p).ecc.poolCorr = min 0xFFFF ((coreAt s p).ecc.poolCorr + correctedIn (rowErrs (coreAt s p) r)) ∧
    (coreAt t p).upsets = (coreAt s p).upsets ∧ MemoryKept s t p ∧ OthersKept s t p ∧
    (rowBad (coreAt s p) r = false → (coreAt t p).ecc.poolUnc = (coreAt s p).ecc.poolUnc ∧ t.log = s.log ∧
      (coreAt t p).pool.wb = (if correctedIn (rowErrs (coreAt s p) r) = 0 then (coreAt s p).pool.wb
        else setInsert (coreAt s p).pool.wb r)) ∧
    (rowBad (coreAt s p) r = true → (coreAt t p).ecc.poolUnc = min 0xFF ((coreAt s p).ecc.poolUnc + 1) ∧
      (coreAt t p).pool.uncorrSeen = true ∧ (coreAt t p).pool.wb = (coreAt s p).pool.wb ∧
      recordsMade t = (recordsMade s + 1) % 2 ^ 32) := by
  cases bad : rowBad (coreAt s p) r with
  | false =>
    refine ⟨_, exec_scrubPool_sound hs hr free bad, ?_⟩
    rw [coreAt_setCore_same]
    exact ⟨rfl, rfl, rfl, memoryKept_of_core (by rw [coreAt_setCore_same]; rfl) (by rw [coreAt_setCore_same]; rfl),
      othersKept_setCore s p _, fun _ => ⟨rfl, rfl, rfl⟩, nofun⟩
  | true =>
    refine ⟨_, exec_scrubPool_bad hs hr free bad, ?_⟩
    rw [coreAt_logPhys, coreAt_setCore_same]
    exact ⟨rfl, rfl, rfl, memoryKept_of_core (by rw [coreAt_logPhys, coreAt_setCore_same]; rfl)
        (by rw [coreAt_logPhys, coreAt_setCore_same]; rfl),
      (othersKept_setCore s p _).trans (othersKept_logPhys _ _ _ p _), nofun,
      fun _ => ⟨rfl, rfl, rfl, recordsMade_logPhys ..⟩⟩

/-- A row is written back as it was corrected (R225). -/
theorem scrubPoolWriteback_writes (waits : (coreAt s p).pool.wb.contains r = true) :
    ∃ t, exec (.scrubPoolWriteback p r) s = .next t ∧ rowErrs (coreAt t p) r = [] ∧
      rowAt (coreAt t p) r = seenRow (coreAt s p) r ∧
      (∀ i, i ≠ r → rowAt (coreAt t p) i = rowAt (coreAt s p) i ∧ rowErrs (coreAt t p) i = rowErrs (coreAt s p) i) ∧
      (coreAt t p).pool.wb = setErase (coreAt s p).pool.wb r ∧ (∀ u, trowAt (coreAt t p) u = trowAt (coreAt s p) u) ∧
      t.log = s.log ∧ OthersKept s t p := by
  refine ⟨_, exec_scrubPoolWriteback hs free waits, ?_⟩
  rw [coreAt_setCore_same]
  refine ⟨rowErrs_writeRow_same .., rowAt_setRow_same .., fun i hi => ⟨?_, rowErrs_writeRow_other hi ..⟩, rfl, fun u => rfl, rfl,
    othersKept_setCore s p _⟩
  exact (rowAt_setRow ..).trans (if_neg hi)

end

/-- The scrub of two tile rows counts and records what it finds in them (R503, R505, R506). -/
theorem scrubFlowstone_reads {s : State} {p u : Nat} (hs : scrubbed s p = true) (hu : u < 255) :
    let hits := (coreAt s p).upsets.fs.filter fun x => x.1 / 32 == u || x.1 / 32 == u + 1
    let bad := (hits.filter fun x => eccGrade x.2 == 2).length
    ∃ t, exec (.scrubFlowstone p u) s = .next t ∧
      (coreAt t p).ecc.fsCorr = min 0xFFFF ((coreAt s p).ecc.fsCorr + correctedIn hits) ∧
      (coreAt t p).ecc.fsUnc = min 0xFF ((coreAt s p).ecc.fsUnc + bad) ∧ recordsMade t = (recordsMade s + bad) % 2 ^ 32 ∧
      (∀ v, v ∈ (coreAt t p).flow.wb ↔ v ∈ (coreAt s p).flow.wb ∨ ∃ x, x ∈ hits ∧ x.1 / 32 = v ∧ eccGrade x.2 = 1) ∧
      (coreAt t p).upsets = (coreAt s p).upsets ∧ MemoryKept s t p ∧ OthersKept s t p := by
  obtain ⟨first, others, made⟩ := scrubTrow_scrubs s p u
  obtain ⟨second, others', made'⟩ := scrubTrow_scrubs (scrubTrow s p u) p (u + 1)
  have core := second.trans (congrArg (scrubbedTrow · (u + 1)) first)
  have corr := length_trowHits_pair (coreAt s p) u fun e => eccGrade e.2 == 1
  have unc := length_trowHits_pair (coreAt s p) u fun e => eccGrade e.2 == 2
  refine ⟨_, exec_scrubFlowstone hs hu, ?_, ?_, ?_, fun v => ?_, ?_, ?_, others.trans others'⟩
  · rw [core, correctedIn, corr]
    exact min_min_add ..
  · rw [core, unc]
    exact min_min_add ..
  · rw [made', made, first, unc, Nat.mod_add_mod, Nat.add_assoc]
    rfl
  · rw [core, mem_wb_scrubbedTrow, mem_wb_scrubbedTrow]
    change (v ∈ (coreAt s p).flow.wb ∨ ∃ x, x ∈ trowHits (coreAt s p) u ∧ _) ∨
      (∃ x, x ∈ trowHits (coreAt s p) (u + 1) ∧ _) ↔ _
    simp only [mem_trowHits_pair, or_assoc, or_and_right, exists_or]
  · rw [core]
    rfl
  · exact ⟨fun r => by rw [core]; rfl, fun v => by rw [core]; rfl⟩

/-- Settles O39: the code by `ecc_corrects`, the rows of the scrubber by what each changes of the core. -/
theorem scrubRows : Obligations.ScrubRows := by
  refine ⟨fun w i j => ecc_corrects, fun s p r hs hr => ?pool, fun s p hs => ⟨fun u hu => ?trow, fun u h => ?idle,
    fun u waits idle => ?back, fun w zero => ?clean, fun w one => ?one, fun w two => ?two⟩⟩
  case pool =>
    refine ⟨exec_scrubPool_none, fun free => ?_, fun free waits => ?_, fun none => ?_⟩
    · exact scrubPool_reads hs free hr
    · exact scrubPoolWriteback_writes hs free waits
    · change execScrubPoolWriteback p r s = _
      simp only [execScrubPoolWriteback, none, Bool.not_false, Bool.or_true, if_true]
  case trow => exact scrubFlowstone_reads hs hu
  case idle =>
    change execScrubFlowstoneWriteback p u s = _
    rcases h with h | h <;> simp only [execScrubFlowstoneWriteback, h, Bool.not_false, Bool.or_true, Bool.true_or, if_true]
  case back =>
    refine ⟨_, exec_scrubFlowstoneWriteback hs waits idle, fun x => ?_, fun all => ?_, fun v hv => ?_, fun r => ?_, ?_,
      othersKept_setCore s p _⟩
    · rw [coreAt_setCore_same]
      simp [rewrittenTrow, imp_iff_not_or]
    · rw [coreAt_setCore_same, trowAt_rewrittenTrow_same all]
    · rw [coreAt_setCore_same, trowAt_rewrittenTrow_other hv]
    · rw [coreAt_setCore_same]
      rfl
    · rw [coreAt_setCore_same]
      rfl
  case clean =>
    change execScrubSync p w s = _
    simp only [execScrubSync, hs, zero, Bool.not_true, Bool.false_eq_true, if_false]
  case one =>
    have row : exec (.scrubSync p w) s = execScrubSync p w s := rfl
    simp only [execScrubSync, hs, one, Bool.not_true, Bool.false_eq_true, if_false] at row
    refine ⟨_, row, ?_⟩
    rw [coreAt_setCore_same]
    exact ⟨rfl, rfl, rfl, rfl, memoryKept_of_core (by rw [coreAt_setCore_same]) (by rw [coreAt_setCore_same]),
      othersKept_setCore s p _⟩
  case two =>
    have row : exec (.scrubSync p w) s = execScrubSync p w s := rfl
    simp only [execScrubSync, hs, two, Bool.not_true, Bool.false_eq_true, if_false] at row
    refine ⟨_, row, ?_⟩
    rw [coreAt_logPhys, coreAt_setCore_same]
    exact ⟨rfl, rfl, rfl, recordsMade_logPhys .., memoryKept_of_core (by rw [coreAt_logPhys, coreAt_setCore_same])
      (by rw [coreAt_logPhys, coreAt_setCore_same]), (othersKept_setCore s p _).trans (othersKept_logPhys _ _ _ p _)⟩

end Sys2Proof.Machine
end

section
/-!
PROOFS. What keeps the rows of a core and its inbound buffer: the events of its sync unit, the ends of its commands, and the answers to
its moves (R272, R296, R301, R302, R355, R502).
-/

namespace Sys2Proof.Machine

/-- The rows of a core's Pool and Flowstone, and those that wait to commit. -/
def stored (k : Core) : Store Row × Store TileRow × List InEntry := (k.pool.rows, k.flow.rows, k.mv.inb)

/-- From s to t, they stay; so do the other cores. -/
structure StoresKept (s t : State) (p : Nat) : Prop where
  part : stored (coreAt t p) = stored (coreAt s p)
  others : OthersKept s t p

theorem StoresKept.refl (s : State) (p : Nat) : StoresKept s s p := ⟨rfl, .refl s p⟩

theorem StoresKept.trans {s t u : State} {p : Nat} (h : StoresKept s t p) (k : StoresKept t u p) : StoresKept s u p :=
  ⟨k.part.trans h.part, h.others.trans k.others⟩

theorem StoresKept.of_cores {s t : State} (p : Nat) (h : t.cores = s.cores) : StoresKept s t p := by
  have core : coreAt t p = coreAt s p := by rw [coreAt, h]; rfl
  exact ⟨by rw [core], .of_cores h p⟩

theorem setCore_storesKept {s : State} {p : Nat} {k : Core} (h : stored k = stored (coreAt s p)) : StoresKept s (setCore s p k) p :=
  ⟨by rw [coreAt_setCore_same, h], othersKept_setCore s p k⟩

theorem updCore_storesKept {s : State} {p : Nat} {f : Core → Core} (h : stored (f (coreAt s p)) = stored (coreAt s p)) :
    StoresKept s (updCore s p f) p := setCore_storesKept h

theorem StoresKept.foldl {α : Type} {p : Nat} {f : State → α → State} (hf : ∀ s x, StoresKept s (f s x) p)
    (l : List α) (s : State) :
    StoresKept s (l.foldl f s) p := by
  induction l generalizing s with
  | nil => exact .refl s p
  | cons x l ih => exact (hf s x).trans (ih _)

theorem Traffic.stores {s t : State} {p : Nat} (h : Traffic s t p) : StoresKept s t p := ⟨by rw [h.core]; rfl, h.others⟩

theorem Mailed.stores {s t : State} {p : Nat} (h : Mailed s t p) : StoresKept s t p := h.traffic.stores

theorem logCore_storesKept (s : State) (p cls : Nat) (st : Status) (l : Nat) (rep : Bool) (body : List (Nat × Nat)) :
    StoresKept s (logCore s cls st l rep body) p := .of_cores p rfl

theorem changed_storesKept {s : State} {p : Nat} {f : Core → Core} (h : ∀ k, stored (f k) = stored k) :
    StoresKept s (updCore s p f) p := updCore_storesKept (h _)

/-- A step that may be left out. -/
theorem ite_storesKept {c : Prop} [Decidable c] {s t u : State} {p : Nat} (h : StoresKept s t p) (k : StoresKept t u p) :
    StoresKept s (if c then u else t) p := by
  split
  · exact h.trans k
  · exact h

theorem updTrack_storesKept (s : State) (p id : Nat) (f : Track → Track) : StoresKept s (updTrack s p id f) p := by
  unfold updTrack
  exact updCore_storesKept (by rfl)

section
variable {s t : State} {p : Nat} (h : StoresKept s t p)
include h

theorem StoresKept.memory : MemoryKept s t p := by
  obtain ⟨part, _⟩ := h
  simp only [stored, Prod.mk.injEq] at part
  obtain ⟨rows, trows, _⟩ := part
  exact ⟨fun r => by rw [rowAt, rows]; rfl, fun u => by rw [trowAt, trows]; rfl⟩

theorem StoresKept.inb : (coreAt t p).mv.inb = (coreAt s p).mv.inb := congrArg (fun x => x.2.2) h.part

end

theorem stored_countBuf (k : Core) (es : Store Nat) : stored (countBuf k es) = stored k := by
  obtain ⟨ecc, h⟩ := countBuf_changes k es
  rw [h]
  rfl

/-! The commands at the heads and their ends. -/

theorem stopBadRow_storesKept (s : State) (p l q : Nat) : StoresKept s (stopBadRow s p l q) p := by
  unfold stopBadRow
  dsimp only
  split
  · exact .refl s p
  · split
    · exact ((updCore_storesKept (stored_countBuf ..)).trans (updCore_storesKept (by rfl))).trans (logCore_storesKept ..)
    · exact .refl s p

theorem leaveHead_storesKept (s : State) (p l q ready : Nat) : StoresKept s (leaveHead s p l q ready) p := by
  obtain ⟨ecc, counted⟩ := countBuf_changes (coreAt s p) (((queueAt (coreAt s p) q).bufs.take 1).flatMap
    fun b => b.errs.filter fun e => e.1 / 4 == (queueAt (coreAt s p) q).nextSlot)
  unfold leaveHead
  dsimp only
  rw [counted]
  split
  · refine StoresKept.trans ?_ ((grantRing_traffic _ p l q 1).stores.trans (stopBadRow_storesKept ..))
    exact (setCore_storesKept (by rfl)).trans (markHw_traffic ..).stores
  · exact setCore_storesKept (by rfl)

theorem retire_storesKept (s : State) (p l q slot kind : Nat) (st : Status) : StoresKept s (retire s p l q slot kind st) p := by
  unfold retire updQueue
  exact (logCore_storesKept ..).trans (updCore_storesKept (by rfl))

theorem dueDone_storesKept (s : State) (p c : Nat) (en : Bool) (flag setter ctx slot track : Nat) :
    StoresKept s (dueDone s p c en flag setter ctx slot track) p := by
  unfold dueDone
  split
  · exact updCore_storesKept (by rfl)
  · exact .refl s p

theorem endSleep_storesKept (s : State) (p l q c : Nat) (st : Status) (woken : Bool) :
    StoresKept s (endSleep s p l q c st woken) p := by
  cases sleeps : (queueAt (coreAt s p) q).sleep with
  | none =>
    rw [endSleep_none sleeps]
    exact .refl s p
  | some w =>
    rw [endSleep_some sleeps]
    refine StoresKept.trans ?_ (leaveHead_storesKept ..)
    have woke : StoresKept s (awakened s p q (if woken then c + 4 else c) st w) p := by
      unfold awakened endTrack updTrack updQueue
      exact (updCore_storesKept (by rfl)).trans ((updCore_storesKept (by rfl)).trans (report_mailed ..).stores)
    unfold completed
    split
    · exact woke.trans (dueDone_storesKept ..)
    · exact woke.trans (retire_storesKept ..)

/-! The events of the sync unit. -/

theorem wakeQueue_storesKept (s : State) (p l c q : Nat) : StoresKept s (wakeQueue s p l c q) p := by
  unfold wakeQueue
  dsimp only
  split
  · exact .refl s p
  · split
    · split
      · exact (updCore_storesKept (by rfl)).trans (endSleep_storesKept ..)
      · exact endSleep_storesKept ..
    · split
      · exact endSleep_storesKept ..
      · exact .refl s p

theorem wakeWaiters_storesKept (s : State) (p l c : Nat) : StoresKept s (wakeWaiters s p l c) p :=
  .foldl (fun s q => wakeQueue_storesKept s p l c q) _ s

theorem wakePoisoned_storesKept (s : State) (p l c : Nat) (f : SyncCmd → Bool) : StoresKept s (wakePoisoned s p l c f) p := by
  refine .foldl (fun s q => ?_) _ s
  split
  · exact .refl s p
  · split
    · exact endSleep_storesKept ..
    · exact .refl s p

theorem poisonWord_storesKept (s : State) (p l kind word : Nat) : StoresKept s (poisonWord s p l kind word) p := by
  unfold poisonWord
  split
  · exact (updCore_storesKept (by rfl)).trans (wakePoisoned_storesKept ..)
  · exact updCore_storesKept (by rfl)
  · exact ((markHw_traffic ..).stores.trans (updCore_storesKept (by rfl))).trans (wakePoisoned_storesKept ..)
  · split
    · exact (markHw_traffic ..).stores.trans (disableRing_traffic ..).stores
    · split
      · exact (markHw_traffic ..).stores.trans (closeWin_traffic ..).stores
      · exact updCore_storesKept (by rfl)
  · exact updCore_storesKept (by rfl)

theorem useWord_storesKept (s : State) (p l kind word : Nat) : StoresKept s (useWord s p l kind word).2 p := by
  unfold useWord
  dsimp only
  split
  · exact .refl s p
  · dsimp only
    exact updCore_storesKept (by rfl)
  · dsimp only
    exact ((updCore_storesKept (by rfl)).trans (logCore_storesKept ..)).trans (poisonWord_storesKept ..)

theorem overrunFlag_storesKept (s : State) (p l flag setter ctx : Nat) (src : List (Nat × Nat)) :
    StoresKept s (overrunFlag s p l flag setter ctx src).2 p := by
  unfold overrunFlag
  dsimp only
  split
  · exact (setCore_storesKept (by rfl)).trans (logCore_storesKept ..)
  · exact setCore_storesKept (by rfl)

theorem setFlag_storesKept (s : State) (p l c flag setter ctx : Nat) (src : List (Nat × Nat)) :
    StoresKept s (setFlag s p l c flag setter ctx src).2 p := by
  have used := useWord_storesKept s p l 4 (flag / 64)
  unfold setFlag
  generalize (useWord s p l 4 (flag / 64)).2 = u at used ⊢
  dsimp only
  split
  · exact used.trans (overrunFlag_storesKept ..)
  · dsimp only
    exact used.trans ((setCore_storesKept (by rfl)).trans (wakeWaiters_storesKept ..))

theorem noteEvent_storesKept (s : State) (p obj c rank : Nat) : StoresKept s (noteEvent s p obj c rank) p := by
  unfold noteEvent
  exact updCore_storesKept (by rfl)

theorem setInTurn_storesKept (s : State) (p l c flag setter : Nat) (src : List (Nat × Nat)) :
    StoresKept s (setInTurn s p l c flag setter src).2 p := by
  unfold setInTurn
  dsimp only
  exact (noteEvent_storesKept s p flag _ _).trans (setFlag_storesKept _ p l _ flag setter 0 src)

theorem makeDue_storesKept (s : State) (p l : Nat) (d : Due) : StoresKept s (makeDue s p l d) p := by
  have set := setFlag_storesKept s p l d.cycle d.flag d.setter d.ctx [(4, d.slot)]
  unfold makeDue
  split
  · exact updCore_storesKept (by rfl)
  · generalize setFlag s p l d.cycle d.flag d.setter d.ctx [(4, d.slot)] = r at set ⊢
    obtain ⟨fault, u⟩ := r
    dsimp only
    split
    · exact set.trans ((updCore_storesKept (by rfl)).trans (report_mailed ..).stores)
    · exact set

theorem fireDue_storesKept (s : State) (p l n fuel : Nat) : StoresKept s (fireDue s p l n fuel) p := by
  induction fuel generalizing s with
  | zero => exact .refl s p
  | succ fuel ih =>
    unfold fireDue
    split
    · exact .refl s p
    · exact ((updCore_storesKept (by rfl)).trans (makeDue_storesKept ..)).trans (ih _)

theorem settleSync_storesKept (s : State) (p l c : Nat) : StoresKept s (settleSync s p l c) p := by
  unfold settleSync settleTo
  dsimp only
  split
  · exact .refl s p
  · exact fireDue_storesKept ..

/-! The answers to a core's moves. -/

theorem stored_dropBegun (k : Core) (key : Nat × Nat) : stored (dropBegun k key) = stored k := by
  refine foldl_kept stored (fun k t => ?_) _ k
  dsimp only
  split <;> rfl

theorem finishRun_storesKept (s : State) (p l tag q : Nat) : StoresKept s (finishRun s p l tag q) p := by
  unfold finishRun
  split
  · exact .refl s p
  · split
    · exact .refl s p
    · dsimp only
      refine StoresKept.trans ?_ (report_mailed ..).stores
      refine ite_storesKept ?_ (dueDone_storesKept ..)
      refine StoresKept.trans ?_ (updTrack_storesKept ..)
      refine ite_storesKept ?_ (changed_storesKept fun _ => by rfl)
      refine ite_storesKept ?_ (changed_storesKept fun _ => by rfl)
      exact updCore_storesKept ((stored_dropBegun (updRun (coreAt s p) tag q fun _ => none) (q, tag)).trans (by rfl))

theorem stored_returnCred (k : Core) (a : Nat) : stored (returnCred k a) = stored k := by
  unfold returnCred adjustCred
  split
  · rfl
  · split <;> rfl

theorem respond_storesKept (s : State) (p l tag q row : Nat) (st : Status) : StoresKept s (respond s p l tag q row st) p := by
  unfold respond
  dsimp only
  split
  · exact logCore_storesKept ..
  · split
    · exact logCore_storesKept ..
    · refine StoresKept.trans (setCore_storesKept ?_) (finishRun_storesKept ..)
      split
      · split
        · exact stored_returnCred ..
        · rfl
      · rfl

theorem claimFill_storesKept (s : State) (p now first last : Nat) : StoresKept s (claimFill s p now first last) p := by
  unfold claimFill
  dsimp only
  generalize insertClaim _ _ = claims
  split
  · exact setCore_storesKept (by rfl)
  · split
    · exact setCore_storesKept (by rfl)
    · unfold shiftTrack
      exact (setCore_storesKept (by rfl)).trans (updCore_storesKept (by rfl))

theorem useFill_storesKept (s : State) (p c n : Nat) : StoresKept s (useFill s p c n) p :=
  .foldl (fun _ _ => claimFill_storesKept ..) _ s

end Sys2Proof.Machine
end

section
/-!
PROOFS. Rows, reads and doorbells that arrive at an interface (R21, R36, R244, R274, R280 to R284, R393, R411).
-/

namespace Sys2Proof.Machine

@[simp] theorem recordsMade_logCore (s : State) (cls : Nat) (st : Status) (l : Nat) (rep : Bool) (body : List (Nat × Nat)) :
    recordsMade (logCore s cls st l rep body) = (recordsMade s + 1) % 2 ^ 32 := recordsMade_logRecordAt ..

section
variable {s t : State} {p : Nat} (h : Mailed s t p)
include h

theorem Mailed.made : recordsMade t = recordsMade s := h.traffic.made

theorem Mailed.fencedSeen : (coreAt t p).mv.fencedSeen = (coreAt s p).mv.fencedSeen := by rw [h.core]

theorem Mailed.poisonedSeen : (coreAt t p).mv.poisonedSeen = (coreAt s p).mv.poisonedSeen := by rw [h.core]

end

@[simp] theorem received_addr (port : Port) (pkt : Packet) : (received port pkt).addr = pkt.addr := rfl

@[simp] theorem received_ptype (port : Port) (pkt : Packet) : (received port pkt).ptype = pkt.ptype := rfl

@[simp] theorem received_agent (port : Port) (pkt : Packet) : (received port pkt).agent = pkt.agent := rfl

@[simp] theorem senderOf_received (port : Port) (pkt : Packet) : senderOf (received port pkt) = senderOf pkt := rfl

/-! A row that is answered at once. -/

/-- The state that a class-T packet leaves that is refused with FENCED (R284). -/
def fenced (s : State) (p l : Nat) (port : Port) (pkt : Packet) : State :=
  freeFlits (answerPkt (logCore (updCore (taken s port pkt p) p fun k => { k with mv := { k.mv with fencedSeen := true } })
    6 .fenced l false [(2, addrByte pkt.addr.toNat / 512), (1, pkt.agent)]) p l port (received port pkt) .fenced) port pkt

section
variable {port : Port} {p : Nat} (place : Local port p)
include place

/-- The answer to a packet and the return of its flits leave the core's memory. -/
theorem answered_mailed (s : State) (l : Nat) (pkt pkt' : Packet) (st : Status) :
    Mailed s (freeFlits (answerPkt s p l port pkt st) port pkt') p :=
  (answerPkt_mailed place s l pkt st).trans (freeFlits_mailed ..)

/-- A row refused with UNCREDITED (R244). -/
theorem refuseRow_refuses (s : State) (l row : Nat) (pkt pkt' : Packet) {t : State}
    (ht : freeFlits (refuseRow (taken s port pkt' p) p l row port pkt) port pkt' = t) :
    StoresKept s t p ∧ t.answer = .uncredited ∧ (coreAt t p).pool.uncreditedSeen = true ∧
      (coreAt t p).pool.rings = (coreAt s p).pool.rings ∧ recordsMade t = (recordsMade s + 1) % 2 ^ 32 := by
  have took := taken_mailed s port pkt' p
  subst ht
  unfold refuseRow
  dsimp only
  have sent := answered_mailed place (logCore (updCore (taken s port pkt' p) p
    fun k => { k with pool := { k.pool with uncreditedSeen := true } })
    1 .uncredited l false [(2, row), (2, pkt.srcDie), (2, pkt.srcCore)]) l pkt pkt' .uncredited
  refine ⟨took.stores.trans ((updCore_storesKept (by rfl)).trans ((logCore_storesKept ..).trans sent.stores)), by simp, ?_, ?_, ?_⟩
  · rw [sent.pool, coreAt_logCore, coreAt_updCore_same]
  · rw [sent.pool, coreAt_logCore, coreAt_updCore_same, took.pool]
  · rw [sent.made, recordsMade_logCore]
    exact congrArg (fun n => (n + 1) % 2 ^ 32) took.made

/-- A class-T packet refused with FENCED (R284). -/
theorem fenced_refuses (s : State) (l : Nat) (pkt : Packet) {t : State} (ht : fenced s p l port pkt = t) :
    StoresKept s t p ∧ t.answer = .fenced ∧ (coreAt t p).mv.fencedSeen = true ∧
      (coreAt t p).mv.wins = (coreAt s p).mv.wins ∧ recordsMade t = (recordsMade s + 1) % 2 ^ 32 := by
  have took := taken_mailed s port pkt p
  subst ht
  unfold fenced
  have sent := answered_mailed place (logCore (updCore (taken s port pkt p) p fun k => { k with mv := { k.mv with fencedSeen := true } })
    6 .fenced l false [(2, addrByte pkt.addr.toNat / 512), (1, pkt.agent)]) l (received port pkt) pkt .fenced
  refine ⟨took.stores.trans ((updCore_storesKept (by rfl)).trans ((logCore_storesKept ..).trans sent.stores)), by simp, ?_, ?_, ?_⟩
  · rw [sent.fencedSeen, coreAt_logCore, coreAt_updCore_same]
  · rw [sent.wins, coreAt_logCore, coreAt_updCore_same, took.wins]
  · rw [sent.made, recordsMade_logCore]
    exact congrArg (fun n => (n + 1) % 2 ^ 32) took.made

end

/-! A row that enters the inbound buffer. -/

/-- A row from elsewhere as the inbound buffer holds it (R229, R244). -/
def inboundRow (c row ring : Nat) (pkt : Packet) : InEntry :=
  { row := row, fs := false, data := pkt.data, entered := c, own := false, tag := 0, q := 0, ring := ring, pkt := pkt }

theorem enterRow_enters {pkt : Packet} (sound : pkt.poison = false) (s : State) (p l row ring : Nat) (port : Port) :
    ∃ marks, enterRow s p l row ring port pkt = setCore s p { coreAt s p with
      pool := { (coreAt s p).pool with marks := marks },
      mv := { (coreAt s p).mv with inb := (coreAt s p).mv.inb ++ [inboundRow (cycleOf s l) row ring pkt] } } := by
  unfold enterRow
  rw [sound]
  exact ⟨_, rfl⟩

theorem enterRow_poisoned {pkt : Packet} (bad : pkt.poison = true) (s : State) (p l row ring : Nat) (port : Port) :
    enterRow s p l row ring port pkt =
      answerPkt (updCore s p fun k => { k with mv := { k.mv with poisonedSeen := true } }) p l port pkt .poisoned := if_pos bad

/-- A packet all of whose codewords are readable is taken as it was sent (R411). -/
theorem received_sound {port : Port} {pkt : Packet} (h : (received port pkt).poison = false) : received port pkt = pkt := by
  have sent : pkt.poison = false := (Bool.or_eq_false_iff.mp h).1
  change { pkt with poison := (received port pkt).poison } = pkt
  rw [h, ← sent]

/-- A row that passes its checks is entered, or answered when it is poisoned (R229, R244, R280); s is the state before its arrival, u the
one with its credit taken. -/
theorem enterRow_outcome {s u : State} {port : Port} {p : Nat} {k : Core} (place : Local port p) (l row ring : Nat) (pkt : Packet)
    (same : StoresKept s u p) (cyc : cycleOf u l = cycleOf s l) (hk : coreAt u p = k) {t : State}
    (ht : freeFlits (enterRow u p l row ring port (received port pkt)) port pkt = t) :
    (coreAt t p).pool.rings = k.pool.rings ∧ (coreAt t p).mv.wins = k.mv.wins ∧
    ((received port pkt).poison = false → MemoryKept s t p ∧ OthersKept s t p ∧
      ∃ x, (coreAt t p).mv.inb = (coreAt s p).mv.inb ++ [x] ∧ x.row = row ∧ x.fs = false ∧ x.data = pkt.data ∧ x.own = false ∧
        x.ring = ring ∧ x.entered = cycleOf s l ∧ x.pkt = pkt) ∧
    ((received port pkt).poison = true → StoresKept s t p ∧ t.answer = .poisoned ∧ (coreAt t p).mv.poisonedSeen = true) := by
  subst hk ht
  cases poison : (received port pkt).poison with
  | false =>
    obtain ⟨marks, entered⟩ := enterRow_enters poison u p l row ring port
    rw [entered, coreAt_freeFlits, coreAt_setCore_same]
    refine ⟨rfl, rfl, fun _ => ⟨same.memory.trans ⟨fun r => ?_, fun v => ?_⟩,
      same.others.trans ((othersKept_setCore u p _).trans (freeFlits_mailed ..).others), ?_⟩, nofun⟩
    · rw [coreAt_freeFlits, coreAt_setCore_same]
      rfl
    · rw [coreAt_freeFlits, coreAt_setCore_same]
      rfl
    · rw [received_sound poison]
      exact ⟨inboundRow (cycleOf u l) row ring pkt, by rw [same.inb], rfl, rfl, rfl, rfl, rfl, cyc, rfl⟩
  | true =>
    rw [enterRow_poisoned poison]
    have sent := answered_mailed place (updCore u p fun k => { k with mv := { k.mv with poisonedSeen := true } }) l (received port pkt)
      pkt .poisoned
    refine ⟨?_, ?_, nofun, fun _ => ⟨same.trans ((updCore_storesKept (by rfl)).trans sent.stores), by simp, ?_⟩⟩
    · rw [sent.pool, coreAt_updCore_same]
    · rw [sent.wins, coreAt_updCore_same]
    · rw [sent.poisonedSeen, coreAt_updCore_same]

/-! Row writes. -/

theorem ringOfRow_some {k : Core} {row n : Nat} {r : Ring} (h : ringOfRow k row = some (n, r)) :
    r = ringAt k n ∧ r.enable = true := by
  have listed := List.mem_of_find?_eq_some h
  have holds := List.find?_some h
  obtain ⟨m, _, pair⟩ := List.mem_map.mp listed
  cases pair
  exact ⟨rfl, (Bool.and_eq_true_iff.mp holds).1⟩

/-- A ring whose bound producer has used a credit. -/
def spendCredit (k : Core) (n : Nat) : Core := setRing k n { ringAt k n with outst := (ringAt k n).outst - 1 }

theorem agentWin_some {k : Core} {row agent w : Nat} {x : Win} (h : agentWin k row agent = some (w, x)) :
    x = winAt k w ∧ x.opened = true := by
  obtain ⟨found, _⟩ := Option.filter_eq_some_iff.mp h
  have listed := List.mem_of_find?_eq_some found
  have holds := List.find?_some found
  obtain ⟨m, _, pair⟩ := List.mem_map.mp listed
  cases pair
  exact ⟨rfl, (Bool.and_eq_true_iff.mp holds).1⟩

/-- A window whose agent has used a credit. -/
def spendWinCredit (k : Core) (w : Nat) : Core := setWin k w { winAt k w with outst := (winAt k w).outst - 1 }

section
variable {s : State} {port : Port} {pkt : Packet} {l p : Nat} (agent : pkt.classT = true)
include agent

/-- A class-T packet is fenced that is no row write to the Pool (R284). -/
theorem exec_classT_misplaced (next : NextIn s port pkt l) (phys : physOf s l = some p) (place : Local port p)
    (served : (isUnsettled s l && (pkt.ptype == .wr || pkt.ptype == .sig)) = false)
    (bad : pkt.ptype ≠ .wr ∨ ¬(addrSpace pkt.addr.toNat = 0 ∧ poolSpanOk pkt.addr.toNat 0 = true)) :
    exec (.classTWrite port pkt) s = .next (fenced s p l port pkt) := by
  have refused : pkt.ptype ≠ .wr ∨ addrSpace pkt.addr.toNat ≠ 0 ∨ (!poolSpanOk pkt.addr.toNat 0) = true := by
    simpa [imp_iff_not_or] using bad
  change execClassTWrite port pkt s = _
  rw [execClassTWrite, if_neg (by simp [agent]), deliverOpt_served next phys place served]
  simp only [received_addr, received_ptype, received_agent, eq_true refused, if_true]
  rfl

variable (arrives : Arrives s port pkt l p) (clean : (coreAt s p).upsets.sync = []) (wr : pkt.ptype = .wr)
  (space : addrSpace pkt.addr.toNat = 0) (span : poolSpanOk pkt.addr.toNat 0 = true)
include arrives wr space span

/-- So is a row of no open window of its agent. -/
theorem exec_classT_outside (unheld : agentWin (coreAt s p) (addrByte pkt.addr.toNat / 512) pkt.agent = none) :
    exec (.classTWrite port pkt) s = .next (fenced s p l port pkt) := by
  have wins : agentWin (coreAt (taken s port pkt p) p) (addrByte pkt.addr.toNat / 512) pkt.agent = none := by
    rw [(taken_mailed s port pkt p).core]
    exact unheld
  change execClassTWrite port pkt s = _
  rw [execClassTWrite, if_neg (by simp [agent]), deliverOpt_of_arrives arrives]
  simp [wr, space, span, wins, fenced]

include clean

/-- One of such a window takes a credit, and is fenced without one. -/
theorem exec_classT_window {w : Nat} {x : Win}
    (holds : agentWin (coreAt s p) (addrByte pkt.addr.toNat / 512) pkt.agent = some (w, x)) :
    exec (.classTWrite port pkt) s = .next (
      if x.outst = 0 then fenced s p l port pkt
      else ((makeRoom (taken s port pkt p) p (cycleOf s l) port).map fun u =>
          enterRow (updCore u p (spendWinCredit · w)) p l (addrByte pkt.addr.toNat / 512) (16 + w) port (received port pkt)).elim s
          fun u => freeFlits u port pkt) := by
  have ⟨_, _, _, out, _⟩ := arrives
  obtain ⟨win, opened⟩ := agentWin_some holds
  have core := (taken_mailed s port pkt p).core
  have wins : agentWin (coreAt (taken s port pkt p) p) (addrByte pkt.addr.toNat / 512) pkt.agent = some (w, x) := by
    rw [core]
    exact holds
  have use := useWords_clean (s := taken s port pkt p) (p := p) (by rw [core]; exact clean) l [(7, 16 + w)]
  have same : winAt (coreAt (taken s port pkt p) p) w = x := ((taken_mailed s port pkt p).winAt w).trans win.symm
  change execClassTWrite port pkt s = _
  rw [execClassTWrite, if_neg (by simp [agent]), deliverOpt_of_arrives arrives]
  by_cases none : x.outst = 0
  · simp [wr, space, span, wins, use, same, opened, none, fenced]
  · simp [inReset_taken, out, wr, space, span, wins, use, same, opened, none]
    rfl

end

section
variable {s : State} {port : Port} {pkt : Packet} {l p : Nat}

variable (arrives : Arrives s port pkt l p) (clean : (coreAt s p).upsets.sync = []) (wr : pkt.ptype = .wr)

section
variable (own : pkt.classT = false)
include arrives wr own

theorem exec_wr_tile (a : addrSpace pkt.addr.toNat = 1 ∧ offsetHigh pkt.addr.toNat = false ∧ pkt.addr.toNat % 256 = 0 ∧
    addrByte pkt.addr.toNat < 65536) : exec (.wr port pkt) s =
      .next (freeFlits (refuseRow (taken s port pkt p) p l (addrByte pkt.addr.toNat / 256) port (received port pkt)) port pkt) := by
  have ⟨_, _, _, out, _⟩ := arrives
  obtain ⟨space, high, aligned, range⟩ := a
  change execWr port pkt s = _
  rw [execWr, if_neg (by simp [wr, own]), deliverOpt_of_arrives arrives]
  simp [inReset_taken, out, space, high, aligned, range]

theorem exec_wr_bad (pool : ¬(addrSpace pkt.addr.toNat = 0 ∧ poolSpanOk pkt.addr.toNat 0 = true))
    (tile : ¬(addrSpace pkt.addr.toNat = 1 ∧ offsetHigh pkt.addr.toNat = false ∧ pkt.addr.toNat % 256 = 0 ∧
      addrByte pkt.addr.toNat < 65536)) : exec (.wr port pkt) s =
      .next (freeFlits (answerPkt (taken s port pkt p) p l port (received port pkt) .badValue) port pkt) := by
  have ⟨_, _, _, out, _⟩ := arrives
  change execWr port pkt s = _
  rw [execWr, if_neg (by simp [wr, own]), deliverOpt_of_arrives arrives]
  simp only [received_addr, inReset_taken, out, Bool.false_eq_true, if_false, Bool.not_eq_true', tile]
  rw [if_pos (by simpa [imp_iff_not_or] using pool)]
  rfl

variable (space : addrSpace pkt.addr.toNat = 0) (span : poolSpanOk pkt.addr.toNat 0 = true)
include space span

theorem exec_wr_outside (unheld : ringOfRow (coreAt s p) (addrByte pkt.addr.toNat / 512) = none) : exec (.wr port pkt) s =
      .next (freeFlits (refuseRow (taken s port pkt p) p l (addrByte pkt.addr.toNat / 512) port (received port pkt)) port pkt) := by
  have ⟨_, _, _, out, _⟩ := arrives
  have rings : ringOfRow (coreAt (taken s port pkt p) p) (addrByte pkt.addr.toNat / 512) = none := by
    rw [(taken_mailed s port pkt p).core]
    exact unheld
  change execWr port pkt s = _
  rw [execWr, if_neg (by simp [wr, own]), deliverOpt_of_arrives arrives]
  simp [inReset_taken, out, space, span, rings]

include clean

theorem exec_wr_ring {n : Nat} {r : Ring} (holds : ringOfRow (coreAt s p) (addrByte pkt.addr.toNat / 512) = some (n, r)) :
    exec (.wr port pkt) s = .next (
      if r.abandoned = false ∧ r.kind ≠ 0 ∧ isProducer s l r.kind r.die r.core (senderOf pkt) = true ∧ r.outst ≠ 0 ∧
          rowFree r (addrByte pkt.addr.toNat / 512) = true then
        ((makeRoom (taken s port pkt p) p (cycleOf s l) port).map fun u =>
          enterRow (updCore u p (spendCredit · n)) p l (addrByte pkt.addr.toNat / 512) n port (received port pkt)).elim s
          fun u => freeFlits u port pkt
      else freeFlits (refuseRow (taken s port pkt p) p l (addrByte pkt.addr.toNat / 512) port (received port pkt)) port pkt) := by
  have ⟨_, _, _, out, _⟩ := arrives
  obtain ⟨ring, enabled⟩ := ringOfRow_some holds
  have core := (taken_mailed s port pkt p).core
  have rings : ringOfRow (coreAt (taken s port pkt p) p) (addrByte pkt.addr.toNat / 512) = some (n, r) := by
    rw [core]
    exact holds
  have use := useWords_clean (s := taken s port pkt p) (p := p) (by rw [core]; exact clean) l [(7, n)]
  have same : ringAt (coreAt (taken s port pkt p) p) n = r := ((taken_mailed s port pkt p).ringAt n).trans ring.symm
  change execWr port pkt s = _
  rw [execWr, if_neg (by simp [wr, own]), deliverOpt_of_arrives arrives]
  simp only [received_addr, senderOf_received, inReset_taken, isProducer_taken, cycleOf_taken, out, space, span, rings, use, same, enabled]
  by_cases passes : r.abandoned = false ∧ r.kind ≠ 0 ∧ isProducer s l r.kind r.die r.core (senderOf pkt) = true ∧ r.outst ≠ 0 ∧
      rowFree r (addrByte pkt.addr.toNat / 512) = true
  · rw [if_pos passes]
    obtain ⟨live, kind, producer, outst, free⟩ := passes
    simp [live, kind, producer, outst, free]
    rfl
  · rw [if_neg passes]
    have refused : (!true || !isProducer s l r.kind r.die r.core (senderOf pkt) || r.kind == 0 || r.abandoned || r.outst == 0 ||
        !rowFree r (addrByte pkt.addr.toNat / 512)) = true := by
      by_contra sound
      simp only [Bool.not_eq_true, Bool.or_eq_false_iff, Bool.not_eq_false', beq_eq_false_iff_ne] at sound
      obtain ⟨⟨⟨⟨⟨_, producer⟩, kind⟩, live⟩, outst⟩, free⟩ := sound
      exact passes ⟨live, kind, producer, outst, free⟩
    rw [if_neg Bool.false_ne_true, if_neg (by simp), if_neg (by simp), if_pos refused]
    rfl

end

end

/-! Room in the inbound buffer. -/

theorem foreignFull_of_inb {k k' : Core} (h : k'.mv.inb = k.mv.inb) : foreignFull k' = foreignFull k := by
  rw [foreignFull, h]
  rfl

theorem makeRoom_free {s : State} {p : Nat} (h : foreignFull (coreAt s p) = false) (c : Nat) (port : Port) :
    makeRoom s p c port = some s := by
  simp [makeRoom, h]

/-- A row from the crossbar waits while rows from elsewhere hold all their entries (R384). -/
theorem makeRoom_full {s : State} {p : Nat} (h : foreignFull (coreAt s p) = true) (c : Nat) : makeRoom s p c .vein = none := by
  simp [makeRoom, h]

theorem ringAt_of_rings {k k' : Core} (h : k'.pool.rings = k.pool.rings) (n : Nat) : ringAt k' n = ringAt k n := by
  rw [ringAt, h]
  rfl

theorem winAt_of_wins {k k' : Core} (h : k'.mv.wins = k.mv.wins) (w : Nat) : winAt k' w = winAt k w := by
  rw [winAt, h]
  rfl

section
variable {s : State} {port : Port} {pkt : Packet} {l p : Nat} (arrives : Arrives s port pkt l p)
  (clean : (coreAt s p).upsets.sync = []) (wr : pkt.ptype = .wr) (room : foreignFull (coreAt s p) = false)
  (space : addrSpace pkt.addr.toNat = 0) (span : poolSpanOk pkt.addr.toNat 0 = true)
include arrives clean wr room space span

/-- A credited row takes one credit of its ring as it enters (R244). -/
theorem wr_enters (own : pkt.classT = false) {n : Nat} {r : Ring}
    (holds : ringOfRow (coreAt s p) (addrByte pkt.addr.toNat / 512) = some (n, r))
    (passes : r.abandoned = false ∧ r.kind ≠ 0 ∧ isProducer s l r.kind r.die r.core (senderOf pkt) = true ∧ r.outst ≠ 0 ∧
      rowFree r (addrByte pkt.addr.toNat / 512) = true) :
    ∃ t, exec (.wr port pkt) s = .next t ∧ ringAt (coreAt t p) n = { r with outst := r.outst - 1 } ∧
      ((received port pkt).poison = false → MemoryKept s t p ∧ OthersKept s t p ∧
        ∃ x, (coreAt t p).mv.inb = (coreAt s p).mv.inb ++ [x] ∧ x.row = addrByte pkt.addr.toNat / 512 ∧ x.fs = false ∧
          x.data = pkt.data ∧ x.own = false ∧ x.ring = n ∧ x.entered = cycleOf s l ∧ x.pkt = pkt) ∧
      ((received port pkt).poison = true → StoresKept s t p ∧ t.answer = .poisoned ∧ (coreAt t p).mv.poisonedSeen = true) := by
  have ⟨_, _, _, _, place⟩ := arrives
  have took := taken_mailed s port pkt p
  obtain ⟨ring, _⟩ := ringOfRow_some holds
  have spent : StoresKept (taken s port pkt p) (updCore (taken s port pkt p) p (spendCredit · n)) p :=
    (setRing_traffic ..).stores
  have row := exec_wr_ring arrives clean wr own space span holds
  rw [if_pos passes, makeRoom_free ((foreignFull_of_inb took.inb).trans room)] at row
  obtain ⟨rings, _, sound, bad⟩ := enterRow_outcome place l (addrByte pkt.addr.toNat / 512) n pkt (took.stores.trans spent)
    (cycleOf_taken s port pkt p l) (coreAt_updCore_same ..) rfl
  refine ⟨_, row, ?_, sound, bad⟩
  refine (ringAt_of_rings rings n).trans ((ringAt_setRing_same ..).trans ?_)
  rw [took.ringAt, ring]

/-- A row of an admitted agent takes one credit of its window (R284). -/
theorem classT_enters (agent : pkt.classT = true) {w : Nat} {x : Win}
    (holds : agentWin (coreAt s p) (addrByte pkt.addr.toNat / 512) pkt.agent = some (w, x)) (credit : x.outst ≠ 0) :
    ∃ t, exec (.classTWrite port pkt) s = .next t ∧ winAt (coreAt t p) w = { x with outst := x.outst - 1 } ∧
      ((received port pkt).poison = false → MemoryKept s t p ∧ OthersKept s t p ∧
        ∃ x, (coreAt t p).mv.inb = (coreAt s p).mv.inb ++ [x] ∧ x.row = addrByte pkt.addr.toNat / 512 ∧ x.fs = false ∧
          x.data = pkt.data ∧ x.own = false ∧ x.ring = 16 + w ∧ x.entered = cycleOf s l ∧ x.pkt = pkt) ∧
      ((received port pkt).poison = true → StoresKept s t p ∧ t.answer = .poisoned ∧ (coreAt t p).mv.poisonedSeen = true) := by
  have ⟨_, _, _, _, place⟩ := arrives
  have took := taken_mailed s port pkt p
  obtain ⟨win, _⟩ := agentWin_some holds
  have spent : StoresKept (taken s port pkt p) (updCore (taken s port pkt p) p (spendWinCredit · w)) p :=
    (setWin_traffic ..).stores
  have row := exec_classT_window agent arrives clean wr space span holds
  rw [if_neg credit, makeRoom_free ((foreignFull_of_inb took.inb).trans room)] at row
  obtain ⟨_, wins, sound, bad⟩ := enterRow_outcome place l (addrByte pkt.addr.toNat / 512) (16 + w) pkt (took.stores.trans spent)
    (cycleOf_taken s port pkt p l) (coreAt_updCore_same ..) rfl
  refine ⟨_, row, ?_, sound, bad⟩
  refine (winAt_of_wins wins w).trans ((winAt_setWin_same ..).trans ?_)
  rw [took.winAt, win]

end

end Sys2Proof.Machine
end

section
/-!
PROOFS. Packets that an interface does not serve (R21, R36, R274, R281 to R284, R393, R411).
-/

namespace Sys2Proof.Machine

section
variable {s : State} {port : Port} {pkt : Packet} {l : Nat}

/-- A packet that is not next at its interface does not arrive (R281, R411). -/
theorem deliverOpt_not_next (core : packetCore s pkt = some l) (h : ¬NextIn s port pkt l) (f : State → Nat → Nat → Option State) :
    deliverOpt s port pkt f = s := by
  have stays : (!portUp s port || headerLost port pkt || !inTurn s port l pkt) = true := by
    by_contra arrives
    simp only [Bool.not_eq_true, Bool.or_eq_false_iff, Bool.not_eq_false'] at arrives
    obtain ⟨⟨up, header⟩, turn⟩ := arrives
    exact h ⟨core, up, header, turn⟩
  simp only [deliverOpt, core, stays, if_true]

/-- One for an id without a core is answered MAPPED_OUT, or sunk (R21, R393). -/
theorem deliverOpt_unmapped (next : NextIn s port pkt l) (none : physOf s l = none) (f : State → Nat → Nat → Option State) :
    (pkt.ptype = .wr ∨ pkt.ptype = .sig ∨ pkt.ptype = .rd → (deliverOpt s port pkt f).answer = .mappedOut) ∧
    ∀ q, MemoryKept s (deliverOpt s port pkt f) q := by
  obtain ⟨core, up, header, turn⟩ := next
  unfold deliverOpt
  simp only [core, up, header, turn, Bool.not_true, Bool.or_self, Bool.false_eq_true, if_false, none]
  split
  · next sunk => exact ⟨fun h => by simp_all, fun q => (freeFlits_mailed s port pkt q).memory⟩
  · cases port with
    | vein => exact ⟨fun _ => rfl, fun q => ⟨fun _ => rfl, fun _ => rfl⟩⟩
    | sump b errs =>
      have sent (q : Nat) : MemoryKept s (sendDown s b (ackOf s l pkt .mappedOut)) q := by
        by_cases own : q = b
        · subst own
          exact (setCore_mailed rfl : Mailed s (sendDown s q _) q).memory
        · have other : coreAt (sendDown s b (ackOf s l pkt .mappedOut)) q = coreAt s q := othersKept_updCore s b _ q own
          exact ⟨fun _ => by rw [other], fun _ => by rw [other]⟩
      exact ⟨fun _ => rfl, fun q => (sent q).trans ⟨fun _ => rfl, fun _ => rfl⟩⟩

/-- A WR or SIG for an unsettled id goes back (R282). -/
theorem deliverOpt_unsettled {p : Nat} (next : NextIn s port pkt l) (phys : physOf s l = some p) (place : Local port p)
    (unsettled : isUnsettled s l = true) (kind : pkt.ptype = .wr ∨ pkt.ptype = .sig) (f : State → Nat → Nat → Option State) :
    deliverOpt s port pkt f = freeFlits (replyVia (taken s port pkt p) p port (bounceOf s l pkt)) port pkt := by
  obtain ⟨core, up, header, turn⟩ := next
  have bounced : (isUnsettled s l && (pkt.ptype == .wr || pkt.ptype == .sig)) = true := by
    rcases kind with e | e <;> simp [unsettled, e]
  unfold deliverOpt
  simp only [core, up, header, turn, Bool.not_true, Bool.or_self, Bool.false_eq_true, if_false, phys]
  rcases place with e | ⟨errs, e⟩ <;> subst e
  · simp [taken, bounced]
    rfl
  · simp [taken, bounced]

end

/-- The reply waits among the packets of the core (R283). -/
theorem replyVia_waits {port : Port} {p : Nat} (place : Local port p) (s : State) (pkt : Packet) :
    Mailed s (replyVia s p port pkt) p ∧
    ∃ x, x ∈ (coreAt (replyVia s p port pkt) p).mv.inj ++ (coreAt (replyVia s p port pkt) p).mv.injS ∧ x.pkt = pkt := by
  rcases place with e | ⟨errs, e⟩ <;> subst e
  · obtain ⟨inj, injS, h, waits⟩ := inject_changes s p 5 pkt
    refine ⟨inject_mailed .., ?_⟩
    change ∃ x, x ∈ (coreAt (inject s p 5 pkt) p).mv.inj ++ (coreAt (inject s p 5 pkt) p).mv.injS ∧ _
    rw [h, coreAt_updCore_same]
    exact waits
  · refine ⟨setCore_mailed rfl, ?_⟩
    simp only [replyVia, sendDown]
    rw [coreAt_updCore_same]
    exact ⟨_, List.mem_append_right _ (List.mem_append_right _ (.head _)), rfl⟩

/-! The rows for an arrival. -/

/-- A row with its own packet delivers it, and at a core in reset answers ABSORBED (R21, R36). -/
def Absorbs (port : Port) (pkt : Packet) (i : Instr) (ok : Bool) : Prop :=
  ∃ f, (∀ s, exec i s = .next (if ok then deliverOpt s port pkt f else s)) ∧
    ∀ s l p, ok = true → inReset s l = true → (pkt.ptype = .sig → respFull (coreAt s p) = false) →
      f s l p = some (answerPkt s p l port pkt .absorbed)

/-- The row of a SIG is such a row (R393). -/
theorem sig_absorbs {port : Port} {pkt : Packet} {i : Instr} {ok : Bool} {g : State → Port → Packet → State}
    (delivers : ∃ f, (∀ s, g s port pkt = deliverSig s port pkt f) ∧
      ∀ s l p, inReset s l = true → f s l p = answerPkt s p l port pkt .absorbed)
    (row : ∀ s, exec i s = .next (if (pkt.ptype == .sig && ok) = true then g s port pkt else s)) :
    Absorbs port pkt i (pkt.ptype == .sig && ok) := by
  obtain ⟨f, sends, absorbed⟩ := delivers
  refine ⟨_, fun s => by rw [row, sends, deliverSig], fun s l p hok held room => ?_⟩
  have sig : pkt.ptype = .sig := beq_iff_eq.mp (Bool.and_eq_true_iff.mp hok).1
  rw [if_neg (by rw [room sig]; exact Bool.false_ne_true), absorbed s l p held]

section
variable (port : Port) (pkt : Packet)

theorem wr_absorbs : Absorbs port pkt (.wr port pkt) (pkt.ptype == .wr && !pkt.classT) := by
  obtain ⟨f, row, absorbed⟩ : ∃ f, (∀ s, execWr port pkt s = .next (if pkt.ptype ≠ .wr ∨ pkt.classT then s else
      deliverOpt s port pkt f)) ∧ ∀ s l p, inReset s l = true → f s l p = some (answerPkt s p l port pkt .absorbed) :=
    ⟨_, fun _ => rfl, fun s l p held => if_pos held⟩
  refine ⟨f, fun s => (row s).trans ?_, fun s l p _ held _ => absorbed s l p held⟩
  rw [← ite_not]
  exact congrArg Host.Outcome.next (if_congr (by simp) rfl rfl)

theorem doorPacket_absorbs : ∃ f, (∀ s, doorPacket s port pkt = deliverSig s port pkt f) ∧
    ∀ s l p, inReset s l = true → f s l p = answerPkt s p l port pkt .absorbed :=
  ⟨_, fun _ => rfl, fun _ _ _ held => if_pos held⟩

theorem counterPacket_absorbs : ∃ f, (∀ s, counterPacket s port pkt = deliverSig s port pkt f) ∧
    ∀ s l p, inReset s l = true → f s l p = answerPkt s p l port pkt .absorbed :=
  ⟨_, fun _ => rfl, fun _ _ _ held => if_pos held⟩

theorem tailAdd_absorbs : Absorbs port pkt (.tailAdd port pkt) (pkt.ptype == .sig && (!pkt.classT &&
    (!isHeadDoor pkt.addr.toNat && !(addrSpace pkt.addr.toNat == 2 && doorPage pkt.addr.toNat == 1)))) :=
  sig_absorbs (doorPacket_absorbs port pkt) fun _ => congrArg Host.Outcome.next (if_congr (by simp) rfl rfl)

theorem headAdd_absorbs : Absorbs port pkt (.headAdd port pkt) (pkt.ptype == .sig && (!pkt.classT && isHeadDoor pkt.addr.toNat)) :=
  sig_absorbs (doorPacket_absorbs port pkt) fun _ => congrArg Host.Outcome.next (if_congr (by simp) rfl rfl)

theorem cntAdd_absorbs : Absorbs port pkt (.cntAdd port pkt) (pkt.ptype == .sig && (!pkt.classT &&
    (addrSpace pkt.addr.toNat == 2 && (doorPage pkt.addr.toNat == 1 && (counterPort pkt.addr.toNat).all fun x => !x.2)))) :=
  sig_absorbs (counterPacket_absorbs port pkt) fun _ => congrArg Host.Outcome.next (if_congr (by simp) rfl rfl)

theorem cntMax_absorbs : Absorbs port pkt (.cntMax port pkt) (pkt.ptype == .sig && (!pkt.classT &&
    (addrSpace pkt.addr.toNat == 2 && (doorPage pkt.addr.toNat == 1 && (counterPort pkt.addr.toNat).any (·.2))))) :=
  sig_absorbs (counterPacket_absorbs port pkt) fun _ => congrArg Host.Outcome.next (if_congr (by simp) rfl rfl)

theorem arrivalRows_absorb {i : Instr} {ok : Bool} (h : (i, ok) ∈ arrivalRows port pkt) : Absorbs port pkt i ok := by
  simp only [arrivalRows, List.mem_cons, Prod.mk.injEq, List.not_mem_nil, or_false, Bool.and_assoc] at h
  obtain ⟨rfl, rfl⟩ | ⟨rfl, rfl⟩ | ⟨rfl, rfl⟩ | ⟨rfl, rfl⟩ | ⟨rfl, rfl⟩ := h
  · exact wr_absorbs port pkt
  · exact tailAdd_absorbs port pkt
  · exact headAdd_absorbs port pkt
  · exact cntAdd_absorbs port pkt
  · exact cntMax_absorbs port pkt

/-- Every row for an arrival delivers its own packet, and leaves any other (R36, R284). -/
theorem rows_deliver {i : Instr} {ok : Bool} (h : (i, ok) ∈ arrivalRows port pkt ++
    [(.classTWrite port pkt, pkt.classT), (.rd port pkt, pkt.ptype == .rd && !pkt.classT)]) :
    ∃ f, ∀ s, exec i s = .next (if ok then deliverOpt s port pkt f else s) := by
  rcases List.mem_append.mp h with h | h
  · obtain ⟨f, row, _⟩ := arrivalRows_absorb port pkt h
    exact ⟨f, row⟩
  · simp only [List.mem_cons, Prod.mk.injEq, List.not_mem_nil, or_false] at h
    obtain ⟨rfl, rfl⟩ | ⟨rfl, rfl⟩ := h
    · obtain ⟨f, row⟩ : ∃ f, ∀ s, execClassTWrite port pkt s = .next (if !pkt.classT then s else deliverOpt s port pkt f) :=
        ⟨_, fun _ => rfl⟩
      refine ⟨f, fun s => (row s).trans ?_⟩
      rw [← ite_not]
      exact congrArg Host.Outcome.next (if_congr (by simp) rfl rfl)
    · obtain ⟨f, row⟩ : ∃ f, ∀ s, execRd port pkt s = .next (if pkt.ptype ≠ .rd ∨ pkt.classT then s else
          deliverOpt s port pkt f) := ⟨_, fun _ => rfl⟩
      refine ⟨f, fun s => (row s).trans ?_⟩
      rw [← ite_not]
      exact congrArg Host.Outcome.next (if_congr (by simp) rfl rfl)

end

/-- A read request is refused, at a core in reset too (R12, R274). -/
theorem exec_rd {s : State} {port : Port} {pkt : Packet} {l p : Nat} (next : NextIn s port pkt l) (phys : physOf s l = some p)
    (place : Local port p) (rd : pkt.ptype = .rd) (own : pkt.classT = false) : exec (.rd port pkt) s =
      .next (freeFlits (answerPkt (taken s port pkt p) p l port pkt (if rdAddrOk pkt.addr.toNat then .noAccess else .badValue))
        port pkt) := by
  change execRd port pkt s = _
  rw [execRd, if_neg (by simp [rd, own]), deliver, deliverOpt_served next phys place (by simp [rd])]
  rfl

section
variable {s : State} {port : Port} {pkt : Packet} {l p : Nat} {i : Instr} (next : NextIn s port pkt l) (phys : physOf s l = some p)
  (place : Local port p)
include next phys place

/-- A WR or SIG for an unsettled id is bounced whole (R282, R283). -/
theorem row_bounces (h : (i, true) ∈ arrivalRows port pkt ++
      [(.classTWrite port pkt, pkt.classT), (.rd port pkt, pkt.ptype == .rd && !pkt.classT)])
    (unsettled : isUnsettled s l = true) (kind : pkt.ptype = .wr ∨ pkt.ptype = .sig) :
    ∃ t x, exec i s = .next t ∧ x ∈ (coreAt t p).mv.inj ++ (coreAt t p).mv.injS ∧ x.pkt = bounceOf s l pkt ∧
      MemoryKept s t p ∧ (coreAt t p).mv.inb = (coreAt s p).mv.inb ∧ OthersKept s t p := by
  obtain ⟨f, row⟩ := rows_deliver port pkt h
  have row : exec i s = .next (freeFlits (replyVia (taken s port pkt p) p port (bounceOf s l pkt)) port pkt) :=
    (row s).trans (by rw [if_pos rfl, deliverOpt_unsettled next phys place unsettled kind])
  obtain ⟨sent, x, waits, back⟩ := replyVia_waits place (taken s port pkt p) (bounceOf s l pkt)
  have all := ((taken_mailed s port pkt p).trans sent).trans (freeFlits_mailed _ port pkt p)
  refine ⟨_, x, row, ?_, back, all.memory, all.inb, all.others⟩
  rw [coreAt_freeFlits]
  exact waits

/-- One for a core in reset is answered ABSORBED (R21, R36). -/
theorem row_absorbed (h : (i, true) ∈ arrivalRows port pkt) (settled : isUnsettled s l = false) (held : inReset s l = true)
    (room : pkt.ptype = .sig → respFull (coreAt s p) = false) :
    ∃ t x, exec i s = .next t ∧ t.answer = .absorbed ∧ x ∈ (coreAt t p).mv.inj ++ (coreAt t p).mv.injS ∧
      x.pkt = ackOf s l (received port pkt) .absorbed ∧ (coreAt t p).pool = (coreAt s p).pool ∧
      (coreAt t p).sync = (coreAt s p).sync ∧ MemoryKept s t p ∧ (coreAt t p).mv.inb = (coreAt s p).mv.inb ∧ OthersKept s t p := by
  obtain ⟨f, row, absorbed⟩ := arrivalRows_absorb port pkt h
  have answer := absorbed (taken s port pkt p) l p rfl (by rw [inReset_taken, held]) fun sig => by rw [respFull_taken, room sig]
  have row := row s
  rw [if_pos rfl, deliverOpt_served next phys place (by rw [settled]; rfl), answer, Option.elim_some] at row
  obtain ⟨x, waits, ack⟩ := answerPkt_waits place (taken s port pkt p) l pkt .absorbed
  have all := (taken_mailed s port pkt p).trans (answered_mailed place (taken s port pkt p) l pkt pkt .absorbed)
  refine ⟨_, x, row, by simp, ?_, ack.trans (ackOf_taken ..), all.pool, all.traffic.sync, all.memory, all.inb, all.others⟩
  rw [coreAt_freeFlits]
  exact waits

end

end Sys2Proof.Machine
end

section
/-!
PROOFS. The commit of an inbound row (R53, R129, R134, R159, R224, R229, R232, R268, R272, R280, R284, R285).
-/

namespace Sys2Proof.Machine

/-! The commit of a row to the Pool. -/

/-- A core whose inbound row e has been written to its Pool row in cycle c (R229). -/
def committed (k : Core) (e : InEntry) (c b : Nat) : Core :=
  let k := takeSlot (endInMark (writeRow (countBuf k e.errs) e.row (fixRow e.data e.errs)) e c) b c
  { k with mv := { k.mv with inb := k.mv.inb.erase e } }

theorem endInMark_changes (k : Core) (e : InEntry) (c : Nat) :
    ∃ marks, endInMark k e c = { k with pool := { k.pool with marks := marks } } := by
  unfold endInMark
  split
  · exact ⟨_, rfl⟩
  · exact ⟨_, rfl⟩

theorem committed_changes (k : Core) (e : InEntry) (c b : Nat) : ∃ pool ecc errs, committed k e c b = { k with
      pool := pool, ecc := ecc, upsets := { k.upsets with pool := errs }, mv := { k.mv with inb := k.mv.inb.erase e } } ∧
    pool.rows = Store.set Row.zero k.pool.rows e.row (fixRow e.data e.errs) := by
  obtain ⟨ecc, counted⟩ := countBuf_changes k e.errs
  obtain ⟨marks, ended⟩ := endInMark_changes (writeRow (countBuf k e.errs) e.row (fixRow e.data e.errs)) e c
  unfold committed
  rw [ended, counted]
  exact ⟨_, _, _, rfl, rfl⟩

/-- Its sync unit and its windows stay. -/
theorem committed_keeps (k : Core) (e : InEntry) (c b : Nat) : (committed k e c b).sync = k.sync ∧
    (∀ w, winAt (committed k e c b) w = winAt k w) ∧ (Quiet k → Quiet (committed k e c b)) := by
  obtain ⟨pool, ecc, errs, core, _⟩ := committed_changes k e c b
  rw [core]
  exact ⟨rfl, fun _ => rfl, fun h => h⟩

/-- A committed row of a window counts as arrived once the sync unit's events before it are made (R284, R285). -/
def countRow (s : State) (p l c : Nat) (e : InEntry) : State :=
  if 16 ≤ e.ring ∧ e.ring < 24 then countArrived (settleSync s p l c) p l c (e.ring - 16) else s

/-- The answer to a committed row: that of the context operation or move of the core that it is of, or an ACK to its sender, a window
counting it (R272, R284). -/
def commitAnswer (s : State) (p l c : Nat) (e : InEntry) : State :=
  if e.own ∧ e.q = 4 then
    setCore s p (ctxAnswer (coreAt s p) (16 * e.tag + e.pkt.row) (some (fixRow e.data e.errs)) .done)
  else if e.own then respond s p l e.tag e.q e.pkt.row .done
  else answerPkt (countRow s p l c e) p l (portOf (countRow s p l c e) p e.pkt) e.pkt .done

/-- The conditions on which the oldest inbound row of a bank commits (R224, R232). -/
def CommitFree (k : Core) (now b : Nat) (x : InEntry) : Prop :=
  bankOff k b (reservedFrom k (max now (x.entered + 1)) b) = false ∧ fetchWaits k now b = false ∧
    ∀ m, m ∈ k.pool.marks → m.row = x.row → m.write = false →
      markSeen (reservedFrom k (max now (x.entered + 1)) b) m = false

section
variable {s : State} {l p b : Nat} (hl : liveCore s l = some p) (hb : b < 16)
include hl hb

theorem exec_commit_empty (none : oldestInb (coreAt s p) b = none) : exec (.inboundCommit l b) s = .next s := by
  change execInboundCommit l b s = _
  simp only [execInboundCommit, withLive, hl, none, if_neg (Nat.not_le.mpr hb)]

variable {x : InEntry} (oldest : oldestInb (coreAt s p) b = some x)
include oldest

theorem exec_commit_held (held : ¬CommitFree (coreAt s p) (cycleOf s l) b x) : exec (.inboundCommit l b) s = .next s := by
  change execInboundCommit l b s = _
  simp only [execInboundCommit, withLive, hl, oldest, if_neg (Nat.not_le.mpr hb)]
  split
  · rfl
  · next slot =>
    split
    · rfl
    · next unread =>
      simp only [Bool.not_eq_true, Bool.or_eq_false_iff] at slot
      obtain ⟨on, fetch⟩ := slot
      refine absurd ⟨on, fetch, fun m hm row read => ?_⟩ held
      by_contra seen
      exact unread (List.any_eq_true.mpr ⟨m, hm, by simp [row, read, Bool.of_not_eq_false seen]⟩)

/-- The row leaves the buffer: it is written, or lost if a codeword of it is uncorrectable (R229, R280). -/
theorem exec_commit_free (free : CommitFree (coreAt s p) (cycleOf s l) b x) (c : Nat)
    (hc : reservedFrom (coreAt s p) (max (cycleOf s l) (x.entered + 1)) b = c) : exec (.inboundCommit l b) s = .next (
      if badIn x.errs then loseInbound (setCore s p (takeSlot (endInMark (coreAt s p) x c) b c)) p l x
      else commitAnswer (countAct (setCore s p (committed (coreAt s p) x c b)) l 2 1) p l c x) := by
  obtain ⟨on, fetch, unread⟩ := free
  have unseen : ((coreAt s p).pool.marks.any fun m => m.row == x.row && !m.write &&
      markSeen (reservedFrom (coreAt s p) (max (cycleOf s l) (x.entered + 1)) b) m) = false := by
    refine List.any_eq_false.mpr fun m hm seen => ?_
    simp only [Bool.and_eq_true, beq_iff_eq, Bool.not_eq_true'] at seen
    obtain ⟨⟨row, read⟩, seen⟩ := seen
    exact Bool.false_ne_true ((unread m hm row read).symm.trans seen)
  change execInboundCommit l b s = _
  simp only [execInboundCommit, withLive, hl, oldest, if_neg (Nat.not_le.mpr hb), on, fetch, unseen, Bool.or_self, Bool.false_eq_true,
    if_false]
  subst hc
  split <;> rfl

end

theorem portOf_local (s : State) (p : Nat) (pkt : Packet) : Local (portOf s p pkt) p := by
  unfold portOf
  split
  · exact .inl rfl
  · exact .inr ⟨_, rfl⟩

theorem countArrived_storesKept (s : State) (p l c w : Nat) : StoresKept s (countArrived s p l c w) p := by
  unfold countArrived
  dsimp only
  exact ite_storesKept (setWin_traffic ..).stores (setInTurn_storesKept ..)

theorem commitAnswer_storesKept (s : State) (p l c : Nat) (e : InEntry) : StoresKept s (commitAnswer s p l c e) p := by
  unfold commitAnswer
  split
  · exact setCore_storesKept (by rfl)
  · split
    · exact respond_storesKept ..
    · refine StoresKept.trans ?_ (answerPkt_mailed (portOf_local _ p e.pkt) _ l e.pkt .done).stores
      exact ite_storesKept (.refl s p) ((settleSync_storesKept ..).trans (countArrived_storesKept ..))

/-- A row from elsewhere is answered DONE. -/
theorem commitAnswer_foreign {e : InEntry} (foreign : e.own = false) (s : State) (p l c : Nat) :
    commitAnswer s p l c e = answerPkt (countRow s p l c e) p l (portOf (countRow s p l c e) p e.pkt) e.pkt .done := by
  simp [commitAnswer, foreign]

/-- While no event is due and no command sleeps, a window's row counts as arrived and may set its flag (R284, R285). -/
theorem countArrived_counts {s : State} {p w : Nat} {x : Win} (quiet : Quiet (coreAt s p)) (hx : winAt (coreAt s p) w = x) (l c : Nat) :
    (winAt (coreAt (countArrived (settleSync s p l c) p l c w) p) w).arrived = (x.arrived + 1) % 2 ^ 32 ∧
    (x.flagEn = true → ((x.arrived + 1) % 2 ^ 32) % x.thresh = 0 →
      x.flag ∈ (coreAt (countArrived (settleSync s p l c) p l c w) p).sync.flags) := by
  obtain ⟨due, clean, awake⟩ := quiet
  have settled : settleSync s p l c = s := settleTo_none_due due ..
  rw [settled]
  unfold countArrived
  dsimp only
  rw [hx]
  generalize counted : setCore s p (setWin (coreAt s p) w { x with arrived := (x.arrived + 1) % 2 ^ 32 }) = u
  have moved : Traffic s u p := counted ▸ setWin_traffic ..
  have win : winAt (coreAt u p) w = { x with arrived := (x.arrived + 1) % 2 ^ 32 } := by
    rw [← counted, coreAt_setCore_same, winAt_setWin_same]
  split
  · obtain ⟨sync, core, set, _⟩ := setInTurn_sets (s := u) (p := p) (by rw [moved.upsets]; exact clean)
      (fun q => by rw [moved.queueAt]; exact awake q) l c x.flag 6 [(1, w)]
    rw [core]
    exact ⟨congrArg Win.arrived win, fun _ _ => set⟩
  · next unset => exact ⟨by rw [win], fun flag due => absurd ⟨flag, due⟩ unset⟩

/-- A row that is uncorrectable in its buffer is lost: its sender is answered POISONED (R280, R502). -/
theorem loseInbound_loses {e : InEntry} (foreign : e.own = false) (s : State) (p l : Nat) :
    (loseInbound s p l e).answer = .poisoned ∧ (coreAt (loseInbound s p l e) p).mv.poisonedSeen = true ∧
      (coreAt (loseInbound s p l e) p).mv.inb = (coreAt s p).mv.inb.erase e ∧
      recordsMade (loseInbound s p l e) = (recordsMade s + 1) % 2 ^ 32 ∧ MemoryKept s (loseInbound s p l e) p ∧
      OthersKept s (loseInbound s p l e) p := by
  obtain ⟨ecc, counted⟩ := countBuf_changes (coreAt s p) e.errs
  generalize dropped : updCore s p (fun k => { countBuf k e.errs with
    mv := { (countBuf k e.errs).mv with inb := (countBuf k e.errs).mv.inb.erase e, poisonedSeen := true } }) = u
  have core : coreAt u p = { coreAt s p with
      ecc := ecc, mv := { (coreAt s p).mv with inb := (coreAt s p).mv.inb.erase e, poisonedSeen := true } } := by
    rw [← dropped, coreAt_updCore_same, counted]
  have made : recordsMade u = recordsMade s := by
    rw [← dropped]
    rfl
  have others : OthersKept s u p := dropped ▸ othersKept_updCore s p _
  have lost : loseInbound s p l e = answerPkt (logCore u 11 .poisoned l false [(1, 3), (2, e.row)]) p l
      (portOf (logCore u 11 .poisoned l false [(1, 3), (2, e.row)]) p e.pkt) e.pkt .poisoned := by
    unfold loseInbound
    dsimp only
    rw [dropped, if_neg fun h => Bool.false_ne_true (foreign.symm.trans h.1), if_neg fun h => Bool.false_ne_true (foreign.symm.trans h)]
  have sent := answerPkt_mailed (portOf_local (logCore u 11 .poisoned l false [(1, 3), (2, e.row)]) p e.pkt)
    (logCore u 11 .poisoned l false [(1, 3), (2, e.row)]) l e.pkt .poisoned
  rw [← lost] at sent
  refine ⟨by rw [lost, answerPkt_answer], ?_, ?_, ?_, (memoryKept_of_core ?_ ?_).trans sent.memory, others.trans sent.others⟩
  · rw [sent.poisonedSeen, coreAt_logCore, core]
  · rw [sent.inb, coreAt_logCore, core]
  · rw [sent.made, recordsMade_logCore, made]
  · rw [coreAt_logCore, core]
  · rw [coreAt_logCore, core]

/-! The commit of a pair of tile rows. -/

/-- An arriving tile row is written if its words pass the check of R53, and no other (R159). -/
theorem trowAt_writeInTrow (k : Core) (u data v : Nat) : trowAt (writeInTrow k u data).2 v =
    if v = u ∧ rowWordsOk data 32 = true then storeWords data else trowAt k v := by
  unfold writeInTrow
  cases ok : rowWordsOk data 32 with
  | false => simp
  | true =>
    simp only [Bool.not_true, Bool.false_eq_true, if_false, and_true]
    rw [trowAt_setDesc]
    split
    · next e =>
      subst e
      exact trowAt_writeTrows_of_some (u := 0) rfl
    · exact trowAt_writeTrows_outside (by simp only [List.length_singleton]; omega)

theorem writeInTrow_keeps (k : Core) (u data : Nat) : (writeInTrow k u data).2.pool.rows = k.pool.rows := by
  unfold writeInTrow
  split <;> rfl

theorem trowAt_commitTrows (k : Core) (u : Nat) (x : Row) (v : Nat) : trowAt (commitTrows k u x).2 v =
    if v = u + 1 ∧ rowWordsOk (fieldN x.data.toNat 2048 2048) 32 = true then storeWords (fieldN x.data.toNat 2048 2048)
    else if v = u ∧ rowWordsOk (fieldN x.data.toNat 0 2048) 32 = true then storeWords (fieldN x.data.toNat 0 2048)
    else trowAt k v := by
  change trowAt (writeInTrow (writeInTrow k u (fieldN x.data.toNat 0 2048)).2 (u + 1) (fieldN x.data.toNat 2048 2048)).2 v = _
  rw [trowAt_writeInTrow, trowAt_writeInTrow]

theorem commitTrows_keeps (k : Core) (u : Nat) (x : Row) : (commitTrows k u x).2.pool.rows = k.pool.rows :=
  (writeInTrow_keeps ..).trans (writeInTrow_keeps ..)

theorem exec_commit_trows {s : State} {l p : Nat} {x : InEntry} (hl : liveCore s l = some p)
    (oldest : oldestTrow (coreAt s p) (cycleOf s l) = some x) (sound : badIn x.errs = false) :
    exec (.inboundCommit l 16) s = .next (respond (useFill (setCore s p
      { (commitTrows (countBuf (coreAt s p) x.errs) x.row (fixRow x.data x.errs)).2 with
        mv := { (commitTrows (countBuf (coreAt s p) x.errs) x.row (fixRow x.data x.errs)).2.mv with
          inb := (commitTrows (countBuf (coreAt s p) x.errs) x.row (fixRow x.data x.errs)).2.mv.inb.erase x } })
      p (cycleOf s l) 2) p l x.tag x.q (fieldN x.pkt.row 0 4)
      (commitTrows (countBuf (coreAt s p) x.errs) x.row (fixRow x.data x.errs)).1) := by
  change execInboundCommit l 16 s = _
  simp only [execInboundCommit, withLive, hl, oldest, sound, le_refl, if_true, Bool.false_eq_true, if_false]

/-- A row written whole to its Pool row, whatever its answer (R229). -/
theorem commit_writes {s : State} {l p b c : Nat} {x : InEntry} {u : State}
    (hu : countAct (setCore s p (committed (coreAt s p) x c b)) l 2 1 = u) {t : State} (rest : StoresKept u t p) :
    rowAt (coreAt t p) x.row = fixRow x.data x.errs ∧ (∀ r, r ≠ x.row → rowAt (coreAt t p) r = rowAt (coreAt s p) r) ∧
      (∀ v, trowAt (coreAt t p) v = trowAt (coreAt s p) v) ∧ OthersKept s t p ∧
      (coreAt t p).mv.inb = (coreAt s p).mv.inb.erase x := by
  obtain ⟨pool, ecc, errs, core, rows⟩ := committed_changes (coreAt s p) x c b
  have core : coreAt u p = _ := (hu ▸ coreAt_setCore_same s p _ : coreAt u p = committed (coreAt s p) x c b).trans core
  have others : OthersKept s u p := hu ▸ othersKept_setCore s p _
  have written (r : Nat) : rowAt (coreAt u p) r = if r = x.row then fixRow x.data x.errs else rowAt (coreAt s p) r := by
    rw [core]
    exact (congrArg (Store.get Row.zero · r) rows).trans (Store.get_set ..)
  have kept := rest.memory
  obtain ⟨keptRows, keptTrows⟩ := kept
  refine ⟨?_, fun r hr => ?_, fun v => ?_, others.trans rest.others, ?_⟩
  · rw [keptRows, written, if_pos rfl]
  · rw [keptRows, written, if_neg hr]
  · rw [keptTrows, core]
    rfl
  · rw [rest.inb, core]

/-- A row that commits is written whole and answered (R229, R272, R284). -/
theorem commit_sound {s : State} {l p b : Nat} {x : InEntry} (hl : liveCore s l = some p) (low : b < 16)
    (oldest : oldestInb (coreAt s p) b = some x) (free : CommitFree (coreAt s p) (cycleOf s l) b x) (sound : badIn x.errs = false) :
    ∃ t, exec (.inboundCommit l b) s = .next t ∧ rowAt (coreAt t p) x.row = fixRow x.data x.errs ∧
      (∀ r, r ≠ x.row → rowAt (coreAt t p) r = rowAt (coreAt s p) r) ∧ (∀ u, trowAt (coreAt t p) u = trowAt (coreAt s p) u) ∧
      OthersKept s t p ∧
      (x.own = false → t.answer = .done ∧ (coreAt t p).mv.inb = (coreAt s p).mv.inb.erase x) ∧
      (x.own = false → (x.ring < 16 ∨ 24 ≤ x.ring) → (coreAt t p).sync = (coreAt s p).sync) ∧
      (x.own = false → 16 ≤ x.ring → x.ring < 24 → Quiet (coreAt s p) →
        let w := winAt (coreAt s p) (x.ring - 16)
        (winAt (coreAt t p) (x.ring - 16)).arrived = (w.arrived + 1) % 2 ^ 32 ∧
        (w.flagEn = true → ((w.arrived + 1) % 2 ^ 32) % w.thresh = 0 → w.flag ∈ (coreAt t p).sync.flags)) := by
  have row := exec_commit_free hl low oldest free _ rfl
  rw [sound, if_neg Bool.false_ne_true] at row
  generalize reservedFrom (coreAt s p) (max (cycleOf s l) (x.entered + 1)) b = c at row
  generalize hu : countAct (setCore s p (committed (coreAt s p) x c b)) l 2 1 = u at row
  obtain ⟨sync, wins, quietKept⟩ := committed_keeps (coreAt s p) x c b
  rw [show committed (coreAt s p) x c b = coreAt u p from hu ▸ (coreAt_setCore_same s p _).symm] at sync wins quietKept
  obtain ⟨here, apart, trows, others, inb⟩ := commit_writes hu (commitAnswer_storesKept u p l c x)
  refine ⟨_, row, here, apart, trows, others, fun foreign => ⟨?_, inb⟩, fun foreign ring => ?_, fun foreign low high quiet => ?_⟩
  · rw [commitAnswer_foreign foreign, answerPkt_answer]
  · rw [commitAnswer_foreign foreign, countRow, if_neg (by omega)]
    exact (answerPkt_mailed (portOf_local ..) u l x.pkt .done).traffic.sync.trans sync
  · obtain ⟨arrived, flag⟩ := countArrived_counts (quietKept quiet) (wins (x.ring - 16)) l c
    rw [commitAnswer_foreign foreign, countRow, if_pos ⟨low, high⟩]
    have sent := answerPkt_mailed (portOf_local (countArrived (settleSync u p l c) p l c (x.ring - 16)) p x.pkt)
      (countArrived (settleSync u p l c) p l c (x.ring - 16)) l x.pkt .done
    dsimp only
    rw [sent.winAt, sent.traffic.sync]
    exact ⟨arrived, flag⟩

/-- One with an uncorrectable codeword is not written (R280). -/
theorem commit_lost {s : State} {l p b : Nat} {x : InEntry} (hl : liveCore s l = some p) (low : b < 16)
    (oldest : oldestInb (coreAt s p) b = some x) (free : CommitFree (coreAt s p) (cycleOf s l) b x) (bad : badIn x.errs = true)
    (foreign : x.own = false) :
    ∃ t, exec (.inboundCommit l b) s = .next t ∧ t.answer = .poisoned ∧ (coreAt t p).mv.poisonedSeen = true ∧
      (coreAt t p).mv.inb = (coreAt s p).mv.inb.erase x ∧ recordsMade t = (recordsMade s + 1) % 2 ^ 32 ∧
      ((∀ r, rowAt (coreAt t p) r = rowAt (coreAt s p) r) ∧ OthersKept s t p) ∧
      ∀ u, trowAt (coreAt t p) u = trowAt (coreAt s p) u := by
  have row := exec_commit_free hl low oldest free _ rfl
  rw [bad, if_pos rfl] at row
  generalize reservedFrom (coreAt s p) (max (cycleOf s l) (x.entered + 1)) b = c at row
  obtain ⟨marks, ended⟩ := endInMark_changes (coreAt s p) x c
  rw [ended] at row
  obtain ⟨answer, seen, inb, made, memory, others⟩ := loseInbound_loses foreign (setCore s p (takeSlot { coreAt s p with
    pool := { (coreAt s p).pool with marks := marks } } b c)) p l
  have slot : StoresKept s (setCore s p (takeSlot { coreAt s p with pool := { (coreAt s p).pool with marks := marks } } b c)) p :=
    setCore_storesKept rfl
  obtain ⟨rows, trows⟩ := slot.memory.trans memory
  exact ⟨_, row, answer, seen, inb.trans (by rw [slot.inb]), made, ⟨rows, slot.others.trans others⟩, trows⟩

/-- A pair of tile rows is written, each whose words are valid (R53, R159). -/
theorem commit_trows {s : State} {l p : Nat} {x : InEntry} (hl : liveCore s l = some p)
    (oldest : oldestTrow (coreAt s p) (cycleOf s l) = some x) (sound : badIn x.errs = false) :
    let half (n : Nat) : Nat := fieldN (fixRow x.data x.errs).data.toNat (2048 * n) 2048
    ∃ t, exec (.inboundCommit l 16) s = .next t ∧ ((∀ r, rowAt (coreAt t p) r = rowAt (coreAt s p) r) ∧ OthersKept s t p) ∧
      (∀ n, n < 2 → trowAt (coreAt t p) (x.row + n) =
        (if rowWordsOk (half n) 32 then storeWords (half n) else trowAt (coreAt s p) (x.row + n))) ∧
      (∀ u, u ≠ x.row → u ≠ x.row + 1 → trowAt (coreAt t p) u = trowAt (coreAt s p) u) := by
  obtain ⟨ecc, counted⟩ := countBuf_changes (coreAt s p) x.errs
  have row := exec_commit_trows hl oldest sound
  rw [counted] at row
  generalize hk : ({ coreAt s p with ecc := ecc } : Core) = k at row
  generalize hu : setCore s p { (commitTrows k x.row (fixRow x.data x.errs)).2 with
    mv := { (commitTrows k x.row (fixRow x.data x.errs)).2.mv with
      inb := (commitTrows k x.row (fixRow x.data x.errs)).2.mv.inb.erase x } } = u at row
  have core : (coreAt u p).pool.rows = (coreAt s p).pool.rows ∧
      ∀ v, trowAt (coreAt u p) v = trowAt (commitTrows k x.row (fixRow x.data x.errs)).2 v := by
    rw [← hu, coreAt_setCore_same]
    exact ⟨(commitTrows_keeps ..).trans (by rw [← hk]), fun _ => rfl⟩
  have before (v : Nat) : trowAt k v = trowAt (coreAt s p) v := by
    rw [← hk]
    rfl
  have others : OthersKept s u p := hu ▸ othersKept_setCore s p _
  have rest := (useFill_storesKept u p (cycleOf s l) 2).trans (respond_storesKept _ p l x.tag x.q (fieldN x.pkt.row 0 4)
    (commitTrows k x.row (fixRow x.data x.errs)).1)
  obtain ⟨keptRows, keptTrows⟩ := rest.memory
  refine ⟨_, row, ⟨fun r => ?_, others.trans rest.others⟩, fun n hn => ?_, fun v first second => ?_⟩
  · rw [keptRows, rowAt, core.1]
    rfl
  · rw [keptTrows, core.2, trowAt_commitTrows, before]
    obtain rfl | rfl : n = 0 ∨ n = 1 := by omega
    · simp
    · simp
  · rw [keptTrows, core.2, trowAt_commitTrows, before, if_neg fun h => second h.1, if_neg fun h => first h.1]

end Sys2Proof.Machine
end

section
/-!
PROOFS. The inbound rows settled (R21, R36, R53, R129, R224, R229, R244, R268, R274, R280 to R285).
-/

namespace Sys2Proof.Machine

theorem StoresKept.kept {s t : State} {p : Nat} (h : StoresKept s t p) :
    (coreAt t p).mv.inb = (coreAt s p).mv.inb ∧ MemoryKept s t p ∧ OthersKept s t p := ⟨h.inb, h.memory, h.others⟩

/-- Settles O42: row writes by `exec_wr_ring` and `exec_classT_window`, packets not served by what their delivery changes, the commit by
`commit_sound`, `commit_lost` and `commit_trows`. -/
theorem inboundRows : Obligations.InboundRows := by
  refine ⟨fun s port pkt l p arrives clean wr => ⟨fun own => ?wr, fun agent => ?classT⟩,
    fun s port pkt l core => ⟨fun i h => ?other, fun i ok h stays => ?waits, fun i h next none => ?unmapped,
      fun p next phys place => ⟨fun i h unsettled kind => ?bounced, fun i h settled held room => ?absorbed, fun rd own => ?read,
        fun agent kind settled => ?fenced⟩⟩,
    fun s l p b hl hb => ⟨fun low none => ?empty, fun x low oldest => ⟨fun held => ?held, fun free sound => ?commit,
      fun free bad foreign => ?lost⟩, fun x full oldest sound => ?trows⟩⟩
  case wr =>
    have ⟨_, _, _, _, place⟩ := arrives
    have refused {t : State} {row : Nat} (ht : freeFlits (refuseRow (taken s port pkt p) p l row port (received port pkt)) port pkt = t) :=
      refuseRow_refuses place s l row (received port pkt) pkt ht
    refine ⟨fun tile => ?_, fun pool tile => ?_, fun pool unheld => ?_, fun n r pool holds => ⟨fun fails => ?_, fun passes room => ?_,
      fun passes full vein => ?_⟩⟩
    · obtain ⟨kept, rest⟩ := refused rfl
      exact ⟨_, exec_wr_tile arrives wr own tile, kept.kept, rest⟩
    · have sent := (taken_mailed s port pkt p).trans (answered_mailed place (taken s port pkt p) l (received port pkt) pkt .badValue)
      exact ⟨_, exec_wr_bad arrives wr own pool tile, sent.stores.kept, by simp, sent.log⟩
    · obtain ⟨kept, rest⟩ := refused rfl
      exact ⟨_, exec_wr_outside arrives wr own pool.1 pool.2 unheld, kept.kept, rest⟩
    · obtain ⟨kept, rest⟩ := refused rfl
      exact ⟨_, (exec_wr_ring arrives clean wr own pool.1 pool.2 holds).trans (by rw [if_neg fails]), kept.kept, rest⟩
    · obtain ⟨t, row, ring, sound, bad⟩ := wr_enters arrives clean wr room pool.1 pool.2 own holds passes
      refine ⟨t, row, ring, sound, fun poison => ?_⟩
      obtain ⟨kept, rest⟩ := bad poison
      exact ⟨kept.kept, rest⟩
    · subst vein
      have full := (foreignFull_of_inb (taken_mailed s .vein pkt p).inb).trans full
      rw [exec_wr_ring arrives clean wr own pool.1 pool.2 holds, if_pos passes, makeRoom_full full]
      rfl
  case classT =>
    have ⟨next, phys, settled, _, place⟩ := arrives
    obtain ⟨kept, rest⟩ := fenced_refuses place s l pkt rfl
    refine ⟨fun bad => ⟨_, ?_, kept.kept, rest⟩,
      fun w x pool holds => ⟨fun none => ⟨_, ?_, kept.kept, rest⟩, fun credit room => ?_⟩⟩
    · by_cases pool : addrSpace pkt.addr.toNat = 0 ∧ poolSpanOk pkt.addr.toNat 0 = true
      · exact exec_classT_outside agent arrives wr pool.1 pool.2 (bad.resolve_left (not_not.mpr pool))
      · exact exec_classT_misplaced agent next phys place (by rw [settled]; rfl) (.inr pool)
    · exact (exec_classT_window agent arrives clean wr pool.1 pool.2 holds).trans (by rw [if_pos none])
    · obtain ⟨t, row, win, sound, bad⟩ := classT_enters arrives clean wr room pool.1 pool.2 agent holds credit
      refine ⟨t, row, win, sound, fun poison => ?_⟩
      obtain ⟨kept, rest⟩ := bad poison
      exact ⟨kept.kept, rest⟩
  case other =>
    obtain ⟨f, row⟩ := rows_deliver port pkt h
    exact (row s).trans (by simp)
  case waits =>
    obtain ⟨f, row⟩ := rows_deliver port pkt h
    rw [row, deliverOpt_not_next core stays, ite_self]
  case unmapped =>
    obtain ⟨f, row⟩ := rows_deliver port pkt h
    exact ⟨_, row s, deliverOpt_unmapped next none f⟩
  case bounced => exact row_bounces next phys place h unsettled kind
  case absorbed => exact row_absorbed next phys place h settled held room
  case read =>
    have sent := (taken_mailed s port pkt p).trans (answered_mailed place (taken s port pkt p) l pkt pkt
      (if rdAddrOk pkt.addr.toNat then .noAccess else .badValue))
    exact ⟨_, exec_rd next phys place rd own, by simp, sent.pool, sent.memory, sent.others⟩
  case fenced =>
    obtain ⟨kept, answer, seen, _⟩ := fenced_refuses place s l pkt rfl
    have served : (isUnsettled s l && (pkt.ptype == .wr || pkt.ptype == .sig)) = false := by
      by_cases sig : pkt.ptype = .sig
      · rw [settled sig]; rfl
      · simp [kind, sig]
    exact ⟨_, exec_classT_misplaced agent next phys place served (.inl kind), answer, seen, kept.memory, kept.others⟩
  case empty => exact exec_commit_empty hl low none
  case held => exact exec_commit_held hl low oldest held
  case commit => exact commit_sound hl low oldest free sound
  case lost => exact commit_lost hl low oldest free bad foreign
  case trows => exact full ▸ commit_trows hl oldest sound

end Sys2Proof.Machine
end
